-- ==== Sys2Proof/Word.lean ====
section
/-! DEFINITION. The word types of the GX9 (spec/00 R8, R9): 64-bit registers, 32-bit instruction words, bytes. -/
namespace Sys2Proof

/-- A register value (R14). -/
abbrev Word := BitVec 64
/-- An instruction or literal word (R40), and an FP32 or lane pattern. -/
abbrev W32 := BitVec 32
/-- A byte of memory. -/
abbrev Byte := BitVec 8

end Sys2Proof
end

