-- ==== Sys2Proof/Config.lean ====
section
/-! DEFINITION. What the GX9 fixes (sizes, counts, address keys) and the free values: opaque constants without a body,
for values the spec leaves open. A claim that mentions one holds whatever it is. -/
namespace Sys2Proof.Config

/-- D-tiles of the module (R4). -/
def dTiles : Nat := 768
/-- Cores of the module, X-tiles included (R5). -/
def cores : Nat := 832
/-- A core number names an X-tile (R5). -/
def isX (core : Nat) : Bool := 768 ≤ core
/-- Seats of a core (R4). -/
def seats (core : Nat) : Nat := if isX core then 2 else 8
/-- The die of a core (R5). -/
def dieOf (core : Nat) : Nat := if isX core then (core - 768) / 32 else core / 384
/-- Row of a core on its die (R5). -/
def rowOf (core : Nat) : Nat := if isX core then (core - 768) % 32 / 2 else core % 384 / 24
/-- Column of a core on its die (R5). -/
def colOf (core : Nat) : Nat := if isX core then (core - 768) % 2 else core % 24
/-- D-cluster of a D-tile, or reflex cluster of an X-tile (R6). -/
def clusterOf (core : Nat) : Nat :=
  if isX core then dieOf core * 4 + rowOf core / 4 else dieOf core * 24 + rowOf core / 4 * 6 + colOf core / 4
/-- Tile index of a D-tile in its cluster, as in tmask (R157). -/
def tileIdx (core : Nat) : Nat := rowOf core % 4 * 4 + colOf core % 4
/-- The D-tile of a D-cluster with the given tile index (R5, R6, R157). -/
def tileOf (cluster idx : Nat) : Nat :=
  cluster / 24 * 384 + (cluster % 24 / 6 * 4 + idx / 4) * 24 + cluster % 6 * 4 + idx % 4

/-! Address keys. One byte of any memory has one Nat key: physical addresses of R238 stand for themselves; the on-chip
memories, which R238 gives no physical address, lie above 2^48. -/

/-- Key of byte `off` of a D-tile's local store, its lane slices at 0x10_0000, or an X-tile's locked SRAM (R231). -/
def tileKey (core off : Nat) : Nat := 2 ^ 48 + core * 2 ^ 21 + off
/-- Key of byte `off` of a die's chip scratchpad (R237). -/
def padKey (die off : Nat) : Nat := 2 ^ 49 + die * 2 ^ 26 + off
/-- Key of byte `off` of a die's Caddy pool (R327). -/
def poolKey (die off : Nat) : Nat := 2 ^ 50 + die * 2 ^ 22 + off

/-! Free values (log 3). Each is applied to the data it may depend on. -/

/-- Energy of one scalar or vector instruction in 2^-32 J: the spec charges it (R314) and gives no figure. -/
opaque instrEnergy : BitVec 32 → Nat
/-- The ensemble number a slot assigns (R169: from 1 to 4095, otherwise open), as a number below 4095. -/
opaque ensNumber : Nat → Nat
/-- Module identity in a quote (R453), byte by byte. -/
opaque moduleId : Nat → BitVec 8
/-- Firmware version in a quote (R453), byte by byte. -/
opaque firmwareVersion : Nat → BitVec 8
/-- The ECDSA P-384 signature of a quote over its 128 bytes (R453): the nonce of a signature is random. -/
opaque quoteSignature : Nat → List (BitVec 8) → Nat → BitVec 8
/-- A tile's temperature after reset in degrees, before the first measurement (R451 states none). -/
opaque resetTemp : Nat → BitVec 8
/-- An atomic that went out through a port comes back with an error status (R275: the outside decides). -/
opaque portFails : Nat → Bool
/-- An atomic that came back with an error status was performed at its target (R275: unknown to the device). -/
opaque portDone : Nat → Bool
/-- Any other value the spec leaves open, drawn by the free-value counter of the state. -/
opaque freeValue : Nat → BitVec 64

end Sys2Proof.Config
end

