-- ==== Sys2Proof/Format.lean ====
section
/-! DEFINITION. The instruction formats of the GX9: one structure of fields per format (spec/02 R41 and the formats of
the later chapters), one enumeration of the operations of each format, and `Form`, an instruction as format, operation
and fields. A `Form` is what the decoder reads and what the encoder writes; `Instr` (Syntax.lean) names the same
instructions row by row of the opcode table. -/
namespace Sys2Proof

/-- The rounding index r of R112: 0 is FRM.RM read at issue, 1 to 4 are RNE, RTZ, RUP and RDN. -/
inductive Rnd where
  | frm | rne | rtz | rup | rdn
deriving DecidableEq, Repr

/-- The number of a rounding index, as the encodings of R114, R117 and R212 carry it. -/
def Rnd.toIdx : Rnd → Nat
  | .frm => 0 | .rne => 1 | .rtz => 2 | .rup => 3 | .rdn => 4

/-- The rounding index of a number below 5; other numbers never reach it. -/
def Rnd.ofIdx : Nat → Rnd
  | 0 => .frm | 1 => .rne | 2 => .rtz | 3 => .rup | _ => .rdn

/-- R format (R41). -/
structure FmtR where
  rd : BitVec 6
  ra : BitVec 6
  rb : BitVec 6
  hold : BitVec 2
deriving DecidableEq, Repr

/-- I format (R41). -/
structure FmtI where
  rd : BitVec 6
  ra : BitVec 6
  imm : BitVec 12
  hold : BitVec 2
deriving DecidableEq, Repr

/-- Immediate shifts (R95). -/
structure FmtSh where
  rd : BitVec 6
  ra : BitVec 6
  amt : BitVec 6
  hold : BitVec 2
deriving DecidableEq, Repr

/-- SLTI family (R96). -/
structure FmtSlt where
  rd : BitVec 6
  ra : BitVec 6
  imm : BitVec 10
  hold : BitVec 2
deriving DecidableEq, Repr

/-- K format (R97). -/
structure FmtK where
  rd : BitVec 6
  pos : BitVec 2
  imm : BitVec 16
  hold : BitVec 2
deriving DecidableEq, Repr

/-- BF format (R100). -/
structure FmtBF where
  rd : BitVec 6
  ra : BitVec 6
  off : BitVec 6
  wid : BitVec 6
  hold : BitVec 2
deriving DecidableEq, Repr

/-- Float R format with a rounding index (R114, R117); `ty` 0 is .d, 1 is .s. -/
structure FmtFR where
  rd : BitVec 6
  ra : BitVec 6
  rb : BitVec 6
  rnd : Rnd
  ty : BitVec 1
  hold : BitVec 2
deriving DecidableEq, Repr

/-- Float R format without rounding (R116, R123). -/
structure FmtFT where
  rd : BitVec 6
  ra : BitVec 6
  rb : BitVec 6
  ty : BitVec 1
  hold : BitVec 2
deriving DecidableEq, Repr

/-- C format, constant bank (R118). -/
structure FmtC where
  rd : BitVec 6
  ra : BitVec 6
  cb : BitVec 8
  ty : BitVec 1
  hold : BitVec 2
deriving DecidableEq, Repr

/-- F20 format (R119). -/
structure FmtF20 where
  rd : BitVec 6
  f20 : BitVec 20
deriving DecidableEq, Repr

/-- CVT (R120). -/
structure FmtCvt where
  rd : BitVec 6
  ra : BitVec 6
  rb : BitVec 6
  dst : BitVec 3
  src : BitVec 3
  hold : BitVec 2
deriving DecidableEq, Repr

/-- M format (R102); `rd` is rs in a store. -/
structure FmtM where
  rd : BitVec 6
  ra : BitVec 6
  seg : BitVec 3
  sz : BitVec 2
  sx : BitVec 1
  imm : BitVec 6
  hold : BitVec 2
deriving DecidableEq, Repr

/-- Indexed loads and stores (R104). -/
structure FmtX where
  rd : BitVec 6
  ra : BitVec 6
  rb : BitVec 6
  seg : BitVec 2
  sz : BitVec 2
  hold : BitVec 2
deriving DecidableEq, Repr

/-- AMO (R273). -/
structure FmtAmo where
  rd : BitVec 6
  ra : BitVec 6
  rb : BitVec 6
  d : BitVec 1
  seg : BitVec 2
  hold : BitVec 2
deriving DecidableEq, Repr

/-- B format (R108). -/
structure FmtB where
  ra : BitVec 6
  disp : BitVec 14
  hold : BitVec 2
deriving DecidableEq, Repr

/-- J format (R109). -/
structure FmtJ where
  disp : BitVec 24
  hold : BitVec 2
deriving DecidableEq, Repr

/-- SC format (R124). -/
structure FmtSC where
  mask : BitVec 15
  hold : BitVec 2
deriving DecidableEq, Repr

/-- S format (R133). -/
structure FmtS where
  ra : BitVec 6
  imm : BitVec 10
  hold : BitVec 2
deriving DecidableEq, Repr

/-- Ordered load and store (R278). -/
structure FmtOrd where
  d : BitVec 1
  seg : BitVec 2
  ra : BitVec 6
  scope : BitVec 4
  rx : BitVec 6
  hold : BitVec 2
deriving DecidableEq, Repr

/-- Fences (R276). -/
structure FmtFence where
  scope : BitVec 4
  hold : BitVec 2
deriving DecidableEq, Repr

/-- QFENCE (R276). -/
structure FmtQf where
  eng : BitVec 3
  ra : BitVec 6
  hold : BitVec 2
deriving DecidableEq, Repr

/-- WIDF and WIDFR (R182). -/
structure FmtWid where
  rd : BitVec 6
  ra : BitVec 6
  k : BitVec 3
  hold : BitVec 2
deriving DecidableEq, Repr

/-- Remote stores of a scalar (R279). -/
structure FmtRst where
  rs : BitVec 6
  ra : BitVec 6
  sz : BitVec 2
  hold : BitVec 2
deriving DecidableEq, Repr

/-- Remote stores of a vector register (R279). -/
structure FmtRsv where
  vs : BitVec 5
  ra : BitVec 6
  hold : BitVec 2
deriving DecidableEq, Repr

/-- V format (R41). -/
structure FmtV where
  vd : BitVec 5
  va : BitVec 5
  vb : BitVec 5
  km : BitVec 3
  hold : BitVec 2
deriving DecidableEq, Repr

/-- V format with a rounding index (R212). -/
structure FmtVF where
  vd : BitVec 5
  va : BitVec 5
  vb : BitVec 5
  km : BitVec 3
  rnd : Rnd
  hold : BitVec 2
deriving DecidableEq, Repr

/-- VS format (R41). -/
structure FmtVS where
  vd : BitVec 5
  va : BitVec 5
  sb : BitVec 6
  km : BitVec 3
  hold : BitVec 2
deriving DecidableEq, Repr

/-- Vector memory with a segment in fn5[2:0] (R221). -/
structure FmtVM where
  vd : BitVec 5
  va : BitVec 5
  sb : BitVec 6
  km : BitVec 3
  seg : BitVec 3
  hold : BitVec 2
deriving DecidableEq, Repr

/-- Gather and scatter with a segment in fn5[1:0] (R221). -/
structure FmtVG where
  vd : BitVec 5
  va : BitVec 5
  sb : BitVec 6
  km : BitVec 3
  seg : BitVec 2
  hold : BitVec 2
deriving DecidableEq, Repr

/-- Vector reductions (R219). -/
structure FmtVr where
  va : BitVec 5
  sb : BitVec 6
  km : BitVec 3
  hold : BitVec 2
deriving DecidableEq, Repr

/-- COP format, engine command on queue `q` (R286). -/
structure FmtCop where
  sa : BitVec 6
  sb : BitVec 6
  q : BitVec 2
  hold : BitVec 2
deriving DecidableEq, Repr

/-- COP format of the copy engine, channel `c` as fn9[8:6] stands in the word (R315). -/
structure FmtCpy where
  sa : BitVec 6
  sb : BitVec 6
  c : BitVec 3
  hold : BitVec 2
deriving DecidableEq, Repr

/-- COPW and COPRD (R290). -/
structure FmtCpw where
  eng : BitVec 3
  sa : BitVec 6
  n : BitVec 9
  hold : BitVec 2
deriving DecidableEq, Repr

/-- ESYNC (R290). -/
structure FmtEsy where
  eng : BitVec 3
  sa : BitVec 6
  mask : BitVec 4
  hold : BitVec 2
deriving DecidableEq, Repr

/-- The operations of the R format. -/
inductive OpR where
  | add | sub | and | or | xor | andn | orn | sll | srl | sra | rol | ror | min | max | minu | maxu | adds
  | subs | addus | subus | clz | ctz | popc | bswap | abs | mul | mulh | mulhu | mulhsu | div | divu | rem
  | remu | cmpeq | cmpne | cmplt | cmpge | cmpltu | cmpgeu | csel | cmovz | cmovnz | bfxur | bfxsr | bfir
  | jr | jlr | ret | spawn | join | suspend | yield | exit | exitJ | wake | bar | chain | send | mclr | mwait
  | mwaitAny
deriving DecidableEq, Repr

/-- The operations of the I format. -/
inductive OpI where
  | addi | andi | ori | xori
deriving DecidableEq, Repr

/-- The operations of the Sh format. -/
inductive OpSh where
  | slli | srli | srai | rori
deriving DecidableEq, Repr

/-- The operations of the Slt format. -/
inductive OpSlt where
  | slti | sltiu | seqi | snei
deriving DecidableEq, Repr

/-- The operations of the BF format. -/
inductive OpBF where
  | bfxu | bfxs | bfi
deriving DecidableEq, Repr

/-- The operations of the FR format. -/
inductive OpFR where
  | fadd | fsub | fmul | fdiv | fsqrt | fmadd | fmsub | fnmsub | fnmadd
deriving DecidableEq, Repr

/-- The operations of the FT format. -/
inductive OpFT where
  | fmin | fmax | fsgnj | fsgnjn | fsgnjx | fclass | feq | fne | flt | fle | funord
deriving DecidableEq, Repr

/-- The operations of the C format. -/
inductive OpC where
  | faddc | fsubc | frsubc | fmulc | fmulac | fmacc | fldc
deriving DecidableEq, Repr

/-- The operations of the M format. -/
inductive OpM where
  | ld | st
deriving DecidableEq, Repr

/-- The operations of the X format. -/
inductive OpX where
  | ldx | stx | ldxSx
deriving DecidableEq, Repr

/-- The operations of the Amo format. -/
inductive OpAmo where
  | amoswap | amoadd | amoand | amoor | amomax | amomin | amomaxu | cas
deriving DecidableEq, Repr

/-- The operations of the B format. -/
inductive OpB where
  | beqz | bnez | bltz | bgez | bgtz | blez | beven | bodd
deriving DecidableEq, Repr

/-- The operations of the J format. -/
inductive OpJ where
  | j | jl
deriving DecidableEq, Repr

/-- The operations of the SC format. -/
inductive OpSC where
  | scene | sceneChk | redo | commit
deriving DecidableEq, Repr

/-- The operations of the S format. -/
inductive OpS where
  | nop | halt | crd | cwr | cbw | cbrd | cbld | lut4ld | bfset | bfrd | prefL1 | prefL2 | mhintNear
  | mhintHome | mhintPage | gang | ungang | qfenceAll | trap | rett | rettRedo | rettKill | swin | swinW
  | csfreeze | csthaw | seize | release
deriving DecidableEq, Repr

/-- The operations of the Ord format. -/
inductive OpOrd where
  | ldAcq | stRel
deriving DecidableEq, Repr

/-- The operations of the Fence format. -/
inductive OpFence where
  | fenceAcq | fenceRel | fenceFull
deriving DecidableEq, Repr

/-- The operations of the Wid format. -/
inductive OpWid where
  | widf | widfr
deriving DecidableEq, Repr

/-- The operations of the Rst format. -/
inductive OpRst where
  | rst | rstA
deriving DecidableEq, Repr

/-- The operations of the Rsv format. -/
inductive OpRsv where
  | rstv | rstvA
deriving DecidableEq, Repr

/-- The operations of the V format. -/
inductive OpV where
  | vadd | vsub | vmul | vmulh | vmulhu | vand | vor | vxor | vsll | vsrl | vsra | vmin | vmax | vminu
  | vmaxu | vadds | vsubs | vaddus | vsubus | vabs | vsel | vcmpeq | vcmpne | vcmplt | vcmpge | vcmpltu
  | vcmpgeu | vfmin | vfmax | vfabs | vfneg | vfsgnj | vfeq | vflt | vfle | vfun | vrcp | vrsqrt | vexp2
  | vlog2 | vtanh | vsigm | vsinpi | vcospi | vperm | vmov | vcvtSI | vcvtIS | vcvtSH | vcvtHS | vcvtSBf
  | vcvtBfS | vcvtSU | vcvtUS | kand | kor | kxor | kandn | knot | vfence | vgmov | vgadd | vgfadd | vgfmax
deriving DecidableEq, Repr

/-- The operations of the VF format. -/
inductive OpVF where
  | vfadd | vfsub | vfmul | vfdiv | vfsqrt | vfmadd | vfmsub | vfnmsub
deriving DecidableEq, Repr

/-- The operations of the VS format. -/
inductive OpVS where
  | vaddVs | vsubVs | vrsubVs | vmulVs | vandVs | vorVs | vxorVs | vsllVs | vsrlVs | vsraVs | vminVs | vmaxVs
  | vcvtn | vcvtw | vfaddVs | vfsubVs | vfrsubVs | vfmulVs | vfmaddVs | vfminVs | vfmaxVs | vmovVs | vcmpeqVs
  | vcmpltVs | vcmpltuVs | vfeqVs | vfltVs | vfleVs | vlds | vsts | vext | kmovs | kset | vstat | vrot
deriving DecidableEq, Repr

/-- The operations of the VM format. -/
inductive OpVM where
  | vld | vst
deriving DecidableEq, Repr

/-- The operations of the VG format. -/
inductive OpVG where
  | vgather | vscatter
deriving DecidableEq, Repr

/-- The operations of the Vr format. -/
inductive OpVr where
  | vredadd | vredmin | vredmax | vredminu | vredmaxu | vredand | vredor | vredxor | vredfadd | vredfmin
  | vredfmax | vredfamax
deriving DecidableEq, Repr

/-- The operations of the Cop format. -/
inductive OpCop where
  | mzero | mmaN | mmaH | mmaBf | mmaS | mdrain | mtask | ssamp | sdraw | gstep | gmask | gflush | sin | sadv
  | stok | sopen | cpost | cpubl | cread | evput | csave | crestore
deriving DecidableEq, Repr

/-- The operations of the Cpy format. -/
inductive OpCpy where
  | cpy | cfill
deriving DecidableEq, Repr

/-- The operations of the Cpw format. -/
inductive OpCpw where
  | copw | coprd
deriving DecidableEq, Repr

/-- An instruction word as format, operation and fields, or an illegal word. -/
inductive Form where
  | r (op : OpR) (f : FmtR)
  | i (op : OpI) (f : FmtI)
  | sh (op : OpSh) (f : FmtSh)
  | slt (op : OpSlt) (f : FmtSlt)
  | k (f : FmtK)
  | bF (op : OpBF) (f : FmtBF)
  | fR (op : OpFR) (f : FmtFR)
  | fT (op : OpFT) (f : FmtFT)
  | c (op : OpC) (f : FmtC)
  | f20 (f : FmtF20)
  | cvt (f : FmtCvt)
  | m (op : OpM) (f : FmtM)
  | x (op : OpX) (f : FmtX)
  | amo (op : OpAmo) (f : FmtAmo)
  | b (op : OpB) (f : FmtB)
  | j (op : OpJ) (f : FmtJ)
  | sC (op : OpSC) (f : FmtSC)
  | s (op : OpS) (f : FmtS)
  | ord (op : OpOrd) (f : FmtOrd)
  | fence (op : OpFence) (f : FmtFence)
  | qf (f : FmtQf)
  | wid (op : OpWid) (f : FmtWid)
  | rst (op : OpRst) (f : FmtRst)
  | rsv (op : OpRsv) (f : FmtRsv)
  | v (op : OpV) (f : FmtV)
  | vF (op : OpVF) (f : FmtVF)
  | vS (op : OpVS) (f : FmtVS)
  | vM (op : OpVM) (f : FmtVM)
  | vG (op : OpVG) (f : FmtVG)
  | vr (op : OpVr) (f : FmtVr)
  | cop (op : OpCop) (f : FmtCop)
  | cpy (op : OpCpy) (f : FmtCpy)
  | cpw (op : OpCpw) (f : FmtCpw)
  | esy (f : FmtEsy)
  | illegal (w : BitVec 32)
deriving DecidableEq, Repr

/-- What the boot ROM finds of the signature of an image (R452): the digest of the key is the fused one, and the ECDSA signature
verifies. Both are inputs of the model (log 59). -/
structure KeyCheck where
  keyOk : Bool
  sigOk : Bool
deriving DecidableEq, Repr

end Sys2Proof
end

