-- ==== Sys2Proof/Syntax.lean ====
section
/-! DEFINITION. The one inductive of instructions: a constructor for each row of spec/opcode_table.json, the 324
encodable instructions first, then the 115 events (rows without bits), whose arguments name where the event acts and
what comes from outside the module. -/
namespace Sys2Proof

/-- Every row of spec/opcode_table.json. -/
inductive Instr where
  /-- A word that is an illegal encoding (R49, R51). -/
  | illegal (w : BitVec 32)
  | add (f : FmtR)
  | sub (f : FmtR)
  | and (f : FmtR)
  | or (f : FmtR)
  | xor (f : FmtR)
  | andn (f : FmtR)
  | orn (f : FmtR)
  | sll (f : FmtR)
  | srl (f : FmtR)
  | sra (f : FmtR)
  | rol (f : FmtR)
  | ror (f : FmtR)
  | min (f : FmtR)
  | max (f : FmtR)
  | minu (f : FmtR)
  | maxu (f : FmtR)
  | adds (f : FmtR)
  | subs (f : FmtR)
  | addus (f : FmtR)
  | subus (f : FmtR)
  | clz (f : FmtR)
  | ctz (f : FmtR)
  | popc (f : FmtR)
  | bswap (f : FmtR)
  | abs (f : FmtR)
  | addi (f : FmtI)
  | andi (f : FmtI)
  | ori (f : FmtI)
  | xori (f : FmtI)
  | slli (f : FmtSh)
  | srli (f : FmtSh)
  | srai (f : FmtSh)
  | rori (f : FmtSh)
  | slti (f : FmtSlt)
  | sltiu (f : FmtSlt)
  | seqi (f : FmtSlt)
  | snei (f : FmtSlt)
  | lik (f : FmtK)
  | bfxu (f : FmtBF)
  | bfxs (f : FmtBF)
  | bfi (f : FmtBF)
  | mul (f : FmtR)
  | mulh (f : FmtR)
  | mulhu (f : FmtR)
  | mulhsu (f : FmtR)
  | div (f : FmtR)
  | divu (f : FmtR)
  | rem (f : FmtR)
  | remu (f : FmtR)
  | cmpeq (f : FmtR)
  | cmpne (f : FmtR)
  | cmplt (f : FmtR)
  | cmpge (f : FmtR)
  | cmpltu (f : FmtR)
  | cmpgeu (f : FmtR)
  | csel (f : FmtR)
  | cmovz (f : FmtR)
  | cmovnz (f : FmtR)
  | fadd (f : FmtFR)
  | fsub (f : FmtFR)
  | fmul (f : FmtFR)
  | fdiv (f : FmtFR)
  | fsqrt (f : FmtFR)
  | fmin (f : FmtFT)
  | fmax (f : FmtFT)
  | fsgnj (f : FmtFT)
  | fsgnjn (f : FmtFT)
  | fsgnjx (f : FmtFT)
  | fclass (f : FmtFT)
  | fmadd (f : FmtFR)
  | fmsub (f : FmtFR)
  | fnmsub (f : FmtFR)
  | fnmadd (f : FmtFR)
  | faddc (f : FmtC)
  | fsubc (f : FmtC)
  | frsubc (f : FmtC)
  | fmulc (f : FmtC)
  | fmulac (f : FmtC)
  | fmacc (f : FmtC)
  | fldc (f : FmtC)
  | fli (f : FmtF20)
  | cvt (f : FmtCvt)
  | feq (f : FmtFT)
  | fne (f : FmtFT)
  | flt (f : FmtFT)
  | fle (f : FmtFT)
  | funord (f : FmtFT)
  | ld (f : FmtM)
  | st (f : FmtM)
  | ldx (f : FmtX)
  | stx (f : FmtX)
  | ldxSx (f : FmtX)
  | bfxur (f : FmtR)
  | bfxsr (f : FmtR)
  | bfir (f : FmtR)
  | amoswap (f : FmtAmo)
  | amoadd (f : FmtAmo)
  | amoand (f : FmtAmo)
  | amoor (f : FmtAmo)
  | amomax (f : FmtAmo)
  | amomin (f : FmtAmo)
  | amomaxu (f : FmtAmo)
  | cas (f : FmtAmo)
  | beqz (f : FmtB)
  | bnez (f : FmtB)
  | bltz (f : FmtB)
  | bgez (f : FmtB)
  | bgtz (f : FmtB)
  | blez (f : FmtB)
  | beven (f : FmtB)
  | bodd (f : FmtB)
  | j (f : FmtJ)
  | jl (f : FmtJ)
  | jr (f : FmtR)
  | jlr (f : FmtR)
  | ret (f : FmtR)
  | scene (f : FmtSC)
  | sceneChk (f : FmtSC)
  | redo (f : FmtSC)
  | commit (f : FmtSC)
  | nop (f : FmtS)
  | halt (f : FmtS)
  | crd (f : FmtS)
  | cwr (f : FmtS)
  | cbw (f : FmtS)
  | cbrd (f : FmtS)
  | cbld (f : FmtS)
  | ldAcq (f : FmtOrd)
  | stRel (f : FmtOrd)
  | lut4ld (f : FmtS)
  | bfset (f : FmtS)
  | bfrd (f : FmtS)
  | prefL1 (f : FmtS)
  | prefL2 (f : FmtS)
  | mhintNear (f : FmtS)
  | mhintHome (f : FmtS)
  | mhintPage (f : FmtS)
  | spawn (f : FmtR)
  | join (f : FmtR)
  | suspend (f : FmtR)
  | yield (f : FmtR)
  | exit (f : FmtR)
  | exitJ (f : FmtR)
  | wake (f : FmtR)
  | bar (f : FmtR)
  | chain (f : FmtR)
  | widf (f : FmtWid)
  | widfr (f : FmtWid)
  | send (f : FmtR)
  | mclr (f : FmtR)
  | mwait (f : FmtR)
  | mwaitAny (f : FmtR)
  | rst (f : FmtRst)
  | rstA (f : FmtRst)
  | rstv (f : FmtRsv)
  | rstvA (f : FmtRsv)
  | gang (f : FmtS)
  | ungang (f : FmtS)
  | fenceAcq (f : FmtFence)
  | fenceRel (f : FmtFence)
  | fenceFull (f : FmtFence)
  | qfence (f : FmtQf)
  | qfenceAll (f : FmtS)
  | vadd (f : FmtV)
  | vsub (f : FmtV)
  | vmul (f : FmtV)
  | vmulh (f : FmtV)
  | vmulhu (f : FmtV)
  | vand (f : FmtV)
  | vor (f : FmtV)
  | vxor (f : FmtV)
  | vsll (f : FmtV)
  | vsrl (f : FmtV)
  | vsra (f : FmtV)
  | vmin (f : FmtV)
  | vmax (f : FmtV)
  | vminu (f : FmtV)
  | vmaxu (f : FmtV)
  | vadds (f : FmtV)
  | vsubs (f : FmtV)
  | vaddus (f : FmtV)
  | vsubus (f : FmtV)
  | vabs (f : FmtV)
  | vsel (f : FmtV)
  | vcmpeq (f : FmtV)
  | vcmpne (f : FmtV)
  | vcmplt (f : FmtV)
  | vcmpge (f : FmtV)
  | vcmpltu (f : FmtV)
  | vcmpgeu (f : FmtV)
  | vfadd (f : FmtVF)
  | vfsub (f : FmtVF)
  | vfmul (f : FmtVF)
  | vfdiv (f : FmtVF)
  | vfsqrt (f : FmtVF)
  | vfmadd (f : FmtVF)
  | vfmsub (f : FmtVF)
  | vfnmsub (f : FmtVF)
  | vfmin (f : FmtV)
  | vfmax (f : FmtV)
  | vfabs (f : FmtV)
  | vfneg (f : FmtV)
  | vfsgnj (f : FmtV)
  | vfeq (f : FmtV)
  | vflt (f : FmtV)
  | vfle (f : FmtV)
  | vfun (f : FmtV)
  | vaddVs (f : FmtVS)
  | vsubVs (f : FmtVS)
  | vrsubVs (f : FmtVS)
  | vmulVs (f : FmtVS)
  | vandVs (f : FmtVS)
  | vorVs (f : FmtVS)
  | vxorVs (f : FmtVS)
  | vsllVs (f : FmtVS)
  | vsrlVs (f : FmtVS)
  | vsraVs (f : FmtVS)
  | vminVs (f : FmtVS)
  | vmaxVs (f : FmtVS)
  | vcvtn (f : FmtVS)
  | vcvtw (f : FmtVS)
  | vfaddVs (f : FmtVS)
  | vfsubVs (f : FmtVS)
  | vfrsubVs (f : FmtVS)
  | vfmulVs (f : FmtVS)
  | vfmaddVs (f : FmtVS)
  | vfminVs (f : FmtVS)
  | vfmaxVs (f : FmtVS)
  | vmovVs (f : FmtVS)
  | vcmpeqVs (f : FmtVS)
  | vcmpltVs (f : FmtVS)
  | vcmpltuVs (f : FmtVS)
  | vfeqVs (f : FmtVS)
  | vfltVs (f : FmtVS)
  | vfleVs (f : FmtVS)
  | vld (f : FmtVM)
  | vst (f : FmtVM)
  | vgather (f : FmtVG)
  | vscatter (f : FmtVG)
  | vlds (f : FmtVS)
  | vsts (f : FmtVS)
  | vext (f : FmtVS)
  | kmovs (f : FmtVS)
  | kset (f : FmtVS)
  | vstat (f : FmtVS)
  | vredadd (f : FmtVr)
  | vredmin (f : FmtVr)
  | vredmax (f : FmtVr)
  | vredminu (f : FmtVr)
  | vredmaxu (f : FmtVr)
  | vredand (f : FmtVr)
  | vredor (f : FmtVr)
  | vredxor (f : FmtVr)
  | vredfadd (f : FmtVr)
  | vredfmin (f : FmtVr)
  | vredfmax (f : FmtVr)
  | vredfamax (f : FmtVr)
  | vrot (f : FmtVS)
  | vrcp (f : FmtV)
  | vrsqrt (f : FmtV)
  | vexp2 (f : FmtV)
  | vlog2 (f : FmtV)
  | vtanh (f : FmtV)
  | vsigm (f : FmtV)
  | vsinpi (f : FmtV)
  | vcospi (f : FmtV)
  | vperm (f : FmtV)
  | vmov (f : FmtV)
  | vcvtSI (f : FmtV)
  | vcvtIS (f : FmtV)
  | vcvtSH (f : FmtV)
  | vcvtHS (f : FmtV)
  | vcvtSBf (f : FmtV)
  | vcvtBfS (f : FmtV)
  | vcvtSU (f : FmtV)
  | vcvtUS (f : FmtV)
  | kand (f : FmtV)
  | kor (f : FmtV)
  | kxor (f : FmtV)
  | kandn (f : FmtV)
  | knot (f : FmtV)
  | vfence (f : FmtV)
  | vgmov (f : FmtV)
  | vgadd (f : FmtV)
  | vgfadd (f : FmtV)
  | vgfmax (f : FmtV)
  | mzero (f : FmtCop)
  | mmaN (f : FmtCop)
  | mmaH (f : FmtCop)
  | mmaBf (f : FmtCop)
  | mmaS (f : FmtCop)
  | mdrain (f : FmtCop)
  | mtask (f : FmtCop)
  | cpy (f : FmtCpy)
  | cfill (f : FmtCpy)
  | ssamp (f : FmtCop)
  | sdraw (f : FmtCop)
  | gstep (f : FmtCop)
  | gmask (f : FmtCop)
  | gflush (f : FmtCop)
  | sin (f : FmtCop)
  | sadv (f : FmtCop)
  | stok (f : FmtCop)
  | sopen (f : FmtCop)
  | cpost (f : FmtCop)
  | cpubl (f : FmtCop)
  | cread (f : FmtCop)
  | evput (f : FmtCop)
  | csave (f : FmtCop)
  | crestore (f : FmtCop)
  | copw (f : FmtCpw)
  | coprd (f : FmtCpw)
  | esync (f : FmtEsy)
  | trap (f : FmtS)
  | rett (f : FmtS)
  | rettRedo (f : FmtS)
  | rettKill (f : FmtS)
  | swin (f : FmtS)
  | swinW (f : FmtS)
  | csfreeze (f : FmtS)
  | csthaw (f : FmtS)
  | seize (f : FmtS)
  | release (f : FmtS)
  /-- Event. R10: A write to a register that has no row of its own sets its fields by their Access codes. -/
  | registerWrite (core seat bank num : Nat) (v : BitVec 64)
  /-- Event. R39: Module reset puts every seat idle and every register at its reset value. -/
  | moduleReset
  /-- Event. R452: The boot ROM takes and verifies a signed image and extends MEAS. -/
  | bootImageLoad (img : List (BitVec 8)) (wellFormed : Bool) (key : KeyCheck)
  /-- Event. R146: An idle seat takes up a continuation from its ready queue, deque or generator. -/
  | takeUp (core seat : Nat)
  /-- Event. R25: A variable-latency result arrives and clears the pending mark. -/
  | loadDataArrival (core seat bank k : Nat)
  /-- Event. R257: Every 16 clk a core's logical clock pts advances by one. -/
  | ptsTick (core : Nat)
  /-- Event. R205: The vector unit performs the next queued vector command. -/
  | vectorCommandPerform (core : Nat)
  /-- Event. R150: A sent value lands in a mail register and sets its presence bit. -/
  | mailArrival (k : Nat)
  /-- Event. R176: A bounce word is written into the sender's m31. -/
  | bounceWordArrival (k : Nat)
  /-- Event. R263: A remote store is written into its destination bank or dropped with a bounce. -/
  | remoteStoreArrival (k : Nat)
  /-- Event. R175: Held messages are delivered once their virtual core is placed. -/
  | stageDoorDelivery (die k : Nat)
  /-- Event. R177: A START message starts a reflex record on an X-seat, bank or pending queue. -/
  | reflexStartMessage (k : Nat)
  /-- Event. R451: An X-tile tick timer fires and starts its reflex record. -/
  | xtimerFire (core t : Nat)
  /-- Event. R159: A core receives a launch cue and reads the header and segment image. -/
  | launchCueArrival (k : Nat)
  /-- Event. R165: The steal unit probes the next victim after its 32 clk wait. -/
  | stealProbe (core : Nat)
  /-- Event. R166: Stolen records enter the thief's ready queue. -/
  | stealReplyArrival (k : Nat)
  /-- Event. R168: Every 256 clk a wave sums created, exited and quiet over the core set. -/
  | terminationWave (slot : Nat)
  /-- Event. R170: A placement claims the next member core, completing with a discard and a cue. -/
  | ensembleClaim (slot : Nat)
  /-- Event. R443: A placement waiting past PLWAIT requests pre-emption of a lower ensemble. -/
  | placementWaitExpiry (slot : Nat)
  /-- Event. R240: After sixteen majority windows a line moves to another L2 slice. -/
  | l2LineMigration (line : Nat)
  /-- Event. R251: Writing INV drops every line of the L1. -/
  | l1ctlInv (core : Nat)
  /-- Event. R233: A write of a bank format waits for operations naming the bank and recomputes finite flags. -/
  | bfmtWrite (core b : Nat) (v : BitVec 64)
  /-- Event. R244: Setting EN makes the tile a green-room host, ignored on a seizure tile. -/
  | grhostWrite (core : Nat) (v : BitVec 64)
  /-- Event. R245: The first held event makes a host write back its valid pieces and clear EN. -/
  | greenRoomRecall (core : Nat)
  /-- Event. R247: Advancing MNQHEAD rescans and posts pending THRESH records. -/
  | mnqheadWrite (die : Nat) (v : BitVec 64)
  /-- Event. R247: Acknowledging a page resets its counters in every cluster MMU of the die. -/
  | migackWrite (die : Nat) (v : BitVec 64)
  /-- Event. R248: GO starts a page move by blocking the source lines. -/
  | pmctlGo (die : Nat)
  /-- Event. R248: When all lines are copied, STATE becomes 2 and queued accesses replay at the destination. -/
  | pageMoveCopyDone (die : Nat)
  /-- Event. R248: END ends the redirection and returns STATE to 0. -/
  | pmctlEnd (die : Nat)
  /-- Event. R251: A write starts invalidation of the named translations. -/
  | tlbinvWrite (v : BitVec 64)
  /-- Event. R251: BUSY clears once every cluster MMU has dropped the translations. -/
  | tlbinvDone
  /-- Event. R404: A page wake frees park-list entries and makes parked seats and commands eligible. -/
  | pgwakeWrite (v : BitVec 64)
  /-- Event. R300: The matrix engine performs or skips one K-step of an mma. -/
  | mmaStep (core q : Nat)
  /-- Event. R306: One accumulator is set to +0. -/
  | mzeroStep (core q : Nat)
  /-- Event. R306: One accumulator is converted and written, with the wake after the last. -/
  | mdrainStep (core q : Nat)
  /-- Event. R305: Retry a faulted matrix head command from MSTEP. -/
  | mctlResume (core q : Nat)
  /-- Event. R305: Remove a faulted matrix head command. -/
  | mctlAbort (core q : Nat)
  /-- Event. R310: The scheduler decrements a posted record's DEP and makes it ready. -/
  | tileTaskPost (cluster : Nat)
  /-- Event. R311: The scheduler issues the ready head to a free tile's queue 3. -/
  | tileTaskIssue (cluster : Nat)
  /-- Event. R320: A copy channel moves one step of up to 256 bytes, converting where typed. -/
  | copyStep (core c : Nat)
  /-- Event. R325: Retry a faulted copy command from POS. -/
  | ccmdResume (core c : Nat)
  /-- Event. R325: Remove a faulted copy command. -/
  | ccmdAbort (core c : Nat)
  /-- Event. R350: The sampler reads the mask header every 16 clk until match or deadline. -/
  | samplerBarrierCheck (core q : Nat)
  /-- Event. R350: Scan 512 tokens and merge their winner. -/
  | samplerScanStep (core q : Nat)
  /-- Event. R351: A child slice's winner message arrives at its parent's sampler. -/
  | winnerMessageArrival (k : Nat)
  /-- Event. R350: Merge the winners of every child slice once all have arrived. -/
  | samplerGather (core q : Nat)
  /-- Event. R351: Send the winner to the parent or write the result record. -/
  | samplerDeliver (core q : Nat)
  /-- Event. R353: Write 32 draws. -/
  | sdrawStep (core q : Nat)
  /-- Event. R354: Retry a faulted sampler head from its first step. -/
  | sctlResume (core q : Nat)
  /-- Event. R354: Remove a faulted sampler head. -/
  | sctlAbort (core q : Nat)
  /-- Event. R360: Advance the sequence record by the token as one unit. -/
  | gstepApply (core q : Nat)
  /-- Event. R361: Deliver one mask unit or summary, with the header last. -/
  | gmaskStep (core q : Nat)
  /-- Event. R362: Drop cache entries of the named grammars. -/
  | gflushApply (core q : Nat)
  /-- Event. R360: Repeat a faulted grammar command's step. -/
  | gctlResume (core q : Nat)
  /-- Event. R360: Remove a faulted grammar command. -/
  | gctlAbort (core q : Nat)
  /-- Event. R368: A stream event arrives and is held, or a sopen is applied. -/
  | streamEventArrival (core q : Nat)
  /-- Event. R368: A held stream event is applied in key order after SXWIN. -/
  | streamEventApply (die k : Nat)
  /-- Event. R329: Copy up to 256 bytes into the staging buffer. -/
  | cpostStep (core q : Nat)
  /-- Event. R329: Mark a filled staging buffer PUBLISHED with its stamp. -/
  | cpublApply (core q : Nat)
  /-- Event. R330: A published staging buffer becomes current and VERSION rises. -/
  | caddyFlip (die mb : Nat)
  /-- Event. R331: Sample the current buffer and write data then header. -/
  | creadStep (core q : Nat)
  /-- Event. R335: Define or refuse a mailbox, resetting its versions. -/
  | cxdescWrite (die mb : Nat) (v : BitVec 64)
  /-- Event. R341: Route one software event record. -/
  | evputStep (core q : Nat)
  /-- Event. R339: An event packet yields records routed to seat event queues. -/
  | csiEventPacket (die rx vc dt : Nat) (good : Bool) (bytes : List (BitVec 8))
  /-- Event. R336: An image packet is written into the receiver's frame ring. -/
  | csiImagePacket (die rx vc dt : Nat) (good : Bool) (bytes : List (BitVec 8))
  /-- Event. R338: A frame start or end produces a frame record. -/
  | csiFrameMark (die rx vc : Nat) (isEnd : Bool)
  /-- Event. R338: A pulse-per-second edge produces a pulse record. -/
  | ppsEdge (die : Nat)
  /-- Event. R418: One step of a context save. -/
  | csaveStep (core : Nat)
  /-- Event. R419: One step of a context restore. -/
  | crestoreStep (core : Nat)
  /-- Event. R418: Resume a faulted context command. -/
  | csctlResume (core : Nat)
  /-- Event. R418: Abort a faulted context command. -/
  | csctlAbort (core : Nat)
  /-- Event. R406: Writing REQ requests pre-emption of the core. -/
  | preemptReq (core kind : Nat)
  /-- Event. R406: DTIME reaching DL makes a pre-emption request. -/
  | ptimeExpiry (core : Nat)
  /-- Event. R407: After commits complete, each pre-empted seat enters the handler or halts. -/
  | preemptHandlerEntry (core seat : Nat)
  /-- Event. R409: Re-send the network spill records in order. -/
  | preemptResend (core : Nat)
  /-- Event. R410: A fault message is placed in the supervisor's fault ring. -/
  | faultMessageArrival (k : Nat)
  /-- Event. R410: Advancing FHEAD frees room for held fault messages. -/
  | fheadWrite (core : Nat) (v : BitVec 64)
  /-- Event. R412: Resume a halted seat at its PC. -/
  | swcmdResume (core seat bank : Nat)
  /-- Event. R412: Kill a halted seat's continuation. -/
  | swcmdKill (core seat bank : Nat)
  /-- Event. R414: Raise the curtain over a partition. -/
  | curtainRaise (part : Nat)
  /-- Event. R414: Lower the curtain over a partition. -/
  | curtainLower (part : Nat)
  /-- Event. R413: A raise reaching a core halts it and records its counts. -/
  | curtainHalt (core : Nat)
  /-- Event. R413: A lower reaching a core resumes every seat where it stood. -/
  | curtainResume (core : Nat)
  /-- Event. R451: Device register raise of the curtain. -/
  | curtdevRaise (part : Nat)
  /-- Event. R451: Device register lower of the curtain. -/
  | curtdevLower (part : Nat)
  /-- Event. R392: An irreparable control-state error halts the core and raises the curtain. -/
  | machineCheck (core : Nat)
  /-- Event. R421: Define a seizure group, ignored on overlap, hold or fenced core. -/
  | szgrpWrite (g : Nat) (v : BitVec 64)
  /-- Event. R423: A member discards seat 7's scene, queues HELD7 and stops its engines. -/
  | seizeArrival (k : Nat)
  /-- Event. R423: Once engines stop, seat 7 takes up the reflex record in its reflex bank. -/
  | seizeTakeUp (core : Nat)
  /-- Event. R425: A member kills the reflex and returns seat 7 to its D bank. -/
  | releaseArrival (k : Nat)
  /-- Event. R427: KICK restarts a slot's watchdog count. -/
  | wdogKick (slot : Nat)
  /-- Event. R428: Step 1 expiry sends KIND 2 pre-emption requests. -/
  | watchdogPreempt (slot : Nat)
  /-- Event. R428: Step 2 expiry kills and drops everything of the slot. -/
  | watchdogKill (slot : Nat)
  /-- Event. R428: Step 3 expiry fences cores that did not confirm the kill. -/
  | watchdogFence (slot : Nat)
  /-- Event. R440: A doorbell maps or refuses a queue and wakes its slot. -/
  | qdoorWrite (v : BitVec 64)
  /-- Event. R441: A slot accepts its next command, journals ACCEPTED and advances HEAD. -/
  | commandAccept (slot : Nat)
  /-- Event. R441: Dispatch a launch by sending its cue. -/
  | cmdLaunch (slot : Nat)
  /-- Event. R441: Wait until a SEQ is signalled. -/
  | cmdWait (slot : Nat)
  /-- Event. R441: An awaited SEQ reaches SIGNALLED and the WAIT completes. -/
  | waitSatisfied (slot : Nat)
  /-- Event. R441: Perform a signal write at the command's scope. -/
  | cmdSignal (slot : Nat)
  /-- Event. R453: Write a signed attestation quote. -/
  | cmdQuote (slot : Nat)
  /-- Event. R440: A slot idle for 100 µs frees. -/
  | slotFree (slot : Nat)
  /-- Event. R446: The understudy's acknowledgement advances MIRSTAT.ACK. -/
  | mirrorAckArrival (seq : BitVec 64)
  /-- Event. R446: The understudy writes a mirrored book entry and acknowledges it. -/
  | mirrorEntryArrival (index : BitVec 64) (entry : List (BitVec 8))
  /-- Event. R446: Every HBPER the primary sends a heartbeat and writes DTIME to HBADDR. -/
  | heartbeatSend
  /-- Event. R446: Every XPER the X-tile banks are copied to the understudy. -/
  | xBankMirror (rows : List (Nat × Nat × List (BitVec 8)))
  /-- Event. R447: Every HBPER the understudy checks both heartbeats and may take over. -/
  | understudyCheck (word : BitVec 64)
  /-- Event. R447: A fenced primary raises the curtain and stops accepting commands. -/
  | peerFenceArrival
  /-- Event. R437: Loss of the Siolaod link drops crossing messages and raises curtains. -/
  | linkLoss
  /-- Event. R448: Every PERIOD a tile exchanges load and sends surplus records. -/
  | loadAveraging (core dir : Nat)
  /-- Event. R449: Every STEP µs a hot tile disables a seat or a cool tile enables one. -/
  | thermalStep (core temp : Nat)
  /-- Event. R451: Reset one core to the state of R39, unfenced. -/
  | corerstWrite (core : Nat)
  /-- Event. R34: A Precision Time Measurement exchange with the host slews the rate of DTIME by at most 500 parts per million, never stepping it. -/
  | ptmCorrection (ppm : Int)
  /-- Event. R446: A heartbeat message from the primary arrives at the understudy over the peer port, refreshing its last peer heartbeat and PEERUP. -/
  | peerHeartbeatArrival
  /-- Event. R449: Module power measured against PWRCTL.LIMIT starts or stops denying seats their turns, which then count under the thermal cause. -/
  | powerLimitThrottle (watts16 : Nat)
deriving DecidableEq, Repr

/-- The instruction of a form. -/
noncomputable def Form.toInstr : Form → Instr
  | .illegal w => .illegal w
  | .r .add f => .add f
  | .r .sub f => .sub f
  | .r .and f => .and f
  | .r .or f => .or f
  | .r .xor f => .xor f
  | .r .andn f => .andn f
  | .r .orn f => .orn f
  | .r .sll f => .sll f
  | .r .srl f => .srl f
  | .r .sra f => .sra f
  | .r .rol f => .rol f
  | .r .ror f => .ror f
  | .r .min f => .min f
  | .r .max f => .max f
  | .r .minu f => .minu f
  | .r .maxu f => .maxu f
  | .r .adds f => .adds f
  | .r .subs f => .subs f
  | .r .addus f => .addus f
  | .r .subus f => .subus f
  | .r .clz f => .clz f
  | .r .ctz f => .ctz f
  | .r .popc f => .popc f
  | .r .bswap f => .bswap f
  | .r .abs f => .abs f
  | .i .addi f => .addi f
  | .i .andi f => .andi f
  | .i .ori f => .ori f
  | .i .xori f => .xori f
  | .sh .slli f => .slli f
  | .sh .srli f => .srli f
  | .sh .srai f => .srai f
  | .sh .rori f => .rori f
  | .slt .slti f => .slti f
  | .slt .sltiu f => .sltiu f
  | .slt .seqi f => .seqi f
  | .slt .snei f => .snei f
  | .k f => .lik f
  | .bF .bfxu f => .bfxu f
  | .bF .bfxs f => .bfxs f
  | .bF .bfi f => .bfi f
  | .r .mul f => .mul f
  | .r .mulh f => .mulh f
  | .r .mulhu f => .mulhu f
  | .r .mulhsu f => .mulhsu f
  | .r .div f => .div f
  | .r .divu f => .divu f
  | .r .rem f => .rem f
  | .r .remu f => .remu f
  | .r .cmpeq f => .cmpeq f
  | .r .cmpne f => .cmpne f
  | .r .cmplt f => .cmplt f
  | .r .cmpge f => .cmpge f
  | .r .cmpltu f => .cmpltu f
  | .r .cmpgeu f => .cmpgeu f
  | .r .csel f => .csel f
  | .r .cmovz f => .cmovz f
  | .r .cmovnz f => .cmovnz f
  | .fR .fadd f => .fadd f
  | .fR .fsub f => .fsub f
  | .fR .fmul f => .fmul f
  | .fR .fdiv f => .fdiv f
  | .fR .fsqrt f => .fsqrt f
  | .fT .fmin f => .fmin f
  | .fT .fmax f => .fmax f
  | .fT .fsgnj f => .fsgnj f
  | .fT .fsgnjn f => .fsgnjn f
  | .fT .fsgnjx f => .fsgnjx f
  | .fT .fclass f => .fclass f
  | .fR .fmadd f => .fmadd f
  | .fR .fmsub f => .fmsub f
  | .fR .fnmsub f => .fnmsub f
  | .fR .fnmadd f => .fnmadd f
  | .c .faddc f => .faddc f
  | .c .fsubc f => .fsubc f
  | .c .frsubc f => .frsubc f
  | .c .fmulc f => .fmulc f
  | .c .fmulac f => .fmulac f
  | .c .fmacc f => .fmacc f
  | .c .fldc f => .fldc f
  | .f20 f => .fli f
  | .cvt f => .cvt f
  | .fT .feq f => .feq f
  | .fT .fne f => .fne f
  | .fT .flt f => .flt f
  | .fT .fle f => .fle f
  | .fT .funord f => .funord f
  | .m .ld f => .ld f
  | .m .st f => .st f
  | .x .ldx f => .ldx f
  | .x .stx f => .stx f
  | .x .ldxSx f => .ldxSx f
  | .r .bfxur f => .bfxur f
  | .r .bfxsr f => .bfxsr f
  | .r .bfir f => .bfir f
  | .amo .amoswap f => .amoswap f
  | .amo .amoadd f => .amoadd f
  | .amo .amoand f => .amoand f
  | .amo .amoor f => .amoor f
  | .amo .amomax f => .amomax f
  | .amo .amomin f => .amomin f
  | .amo .amomaxu f => .amomaxu f
  | .amo .cas f => .cas f
  | .b .beqz f => .beqz f
  | .b .bnez f => .bnez f
  | .b .bltz f => .bltz f
  | .b .bgez f => .bgez f
  | .b .bgtz f => .bgtz f
  | .b .blez f => .blez f
  | .b .beven f => .beven f
  | .b .bodd f => .bodd f
  | .j .j f => .j f
  | .j .jl f => .jl f
  | .r .jr f => .jr f
  | .r .jlr f => .jlr f
  | .r .ret f => .ret f
  | .sC .scene f => .scene f
  | .sC .sceneChk f => .sceneChk f
  | .sC .redo f => .redo f
  | .sC .commit f => .commit f
  | .s .nop f => .nop f
  | .s .halt f => .halt f
  | .s .crd f => .crd f
  | .s .cwr f => .cwr f
  | .s .cbw f => .cbw f
  | .s .cbrd f => .cbrd f
  | .s .cbld f => .cbld f
  | .ord .ldAcq f => .ldAcq f
  | .ord .stRel f => .stRel f
  | .s .lut4ld f => .lut4ld f
  | .s .bfset f => .bfset f
  | .s .bfrd f => .bfrd f
  | .s .prefL1 f => .prefL1 f
  | .s .prefL2 f => .prefL2 f
  | .s .mhintNear f => .mhintNear f
  | .s .mhintHome f => .mhintHome f
  | .s .mhintPage f => .mhintPage f
  | .r .spawn f => .spawn f
  | .r .join f => .join f
  | .r .suspend f => .suspend f
  | .r .yield f => .yield f
  | .r .exit f => .exit f
  | .r .exitJ f => .exitJ f
  | .r .wake f => .wake f
  | .r .bar f => .bar f
  | .r .chain f => .chain f
  | .wid .widf f => .widf f
  | .wid .widfr f => .widfr f
  | .r .send f => .send f
  | .r .mclr f => .mclr f
  | .r .mwait f => .mwait f
  | .r .mwaitAny f => .mwaitAny f
  | .rst .rst f => .rst f
  | .rst .rstA f => .rstA f
  | .rsv .rstv f => .rstv f
  | .rsv .rstvA f => .rstvA f
  | .s .gang f => .gang f
  | .s .ungang f => .ungang f
  | .fence .fenceAcq f => .fenceAcq f
  | .fence .fenceRel f => .fenceRel f
  | .fence .fenceFull f => .fenceFull f
  | .qf f => .qfence f
  | .s .qfenceAll f => .qfenceAll f
  | .v .vadd f => .vadd f
  | .v .vsub f => .vsub f
  | .v .vmul f => .vmul f
  | .v .vmulh f => .vmulh f
  | .v .vmulhu f => .vmulhu f
  | .v .vand f => .vand f
  | .v .vor f => .vor f
  | .v .vxor f => .vxor f
  | .v .vsll f => .vsll f
  | .v .vsrl f => .vsrl f
  | .v .vsra f => .vsra f
  | .v .vmin f => .vmin f
  | .v .vmax f => .vmax f
  | .v .vminu f => .vminu f
  | .v .vmaxu f => .vmaxu f
  | .v .vadds f => .vadds f
  | .v .vsubs f => .vsubs f
  | .v .vaddus f => .vaddus f
  | .v .vsubus f => .vsubus f
  | .v .vabs f => .vabs f
  | .v .vsel f => .vsel f
  | .v .vcmpeq f => .vcmpeq f
  | .v .vcmpne f => .vcmpne f
  | .v .vcmplt f => .vcmplt f
  | .v .vcmpge f => .vcmpge f
  | .v .vcmpltu f => .vcmpltu f
  | .v .vcmpgeu f => .vcmpgeu f
  | .vF .vfadd f => .vfadd f
  | .vF .vfsub f => .vfsub f
  | .vF .vfmul f => .vfmul f
  | .vF .vfdiv f => .vfdiv f
  | .vF .vfsqrt f => .vfsqrt f
  | .vF .vfmadd f => .vfmadd f
  | .vF .vfmsub f => .vfmsub f
  | .vF .vfnmsub f => .vfnmsub f
  | .v .vfmin f => .vfmin f
  | .v .vfmax f => .vfmax f
  | .v .vfabs f => .vfabs f
  | .v .vfneg f => .vfneg f
  | .v .vfsgnj f => .vfsgnj f
  | .v .vfeq f => .vfeq f
  | .v .vflt f => .vflt f
  | .v .vfle f => .vfle f
  | .v .vfun f => .vfun f
  | .vS .vaddVs f => .vaddVs f
  | .vS .vsubVs f => .vsubVs f
  | .vS .vrsubVs f => .vrsubVs f
  | .vS .vmulVs f => .vmulVs f
  | .vS .vandVs f => .vandVs f
  | .vS .vorVs f => .vorVs f
  | .vS .vxorVs f => .vxorVs f
  | .vS .vsllVs f => .vsllVs f
  | .vS .vsrlVs f => .vsrlVs f
  | .vS .vsraVs f => .vsraVs f
  | .vS .vminVs f => .vminVs f
  | .vS .vmaxVs f => .vmaxVs f
  | .vS .vcvtn f => .vcvtn f
  | .vS .vcvtw f => .vcvtw f
  | .vS .vfaddVs f => .vfaddVs f
  | .vS .vfsubVs f => .vfsubVs f
  | .vS .vfrsubVs f => .vfrsubVs f
  | .vS .vfmulVs f => .vfmulVs f
  | .vS .vfmaddVs f => .vfmaddVs f
  | .vS .vfminVs f => .vfminVs f
  | .vS .vfmaxVs f => .vfmaxVs f
  | .vS .vmovVs f => .vmovVs f
  | .vS .vcmpeqVs f => .vcmpeqVs f
  | .vS .vcmpltVs f => .vcmpltVs f
  | .vS .vcmpltuVs f => .vcmpltuVs f
  | .vS .vfeqVs f => .vfeqVs f
  | .vS .vfltVs f => .vfltVs f
  | .vS .vfleVs f => .vfleVs f
  | .vM .vld f => .vld f
  | .vM .vst f => .vst f
  | .vG .vgather f => .vgather f
  | .vG .vscatter f => .vscatter f
  | .vS .vlds f => .vlds f
  | .vS .vsts f => .vsts f
  | .vS .vext f => .vext f
  | .vS .kmovs f => .kmovs f
  | .vS .kset f => .kset f
  | .vS .vstat f => .vstat f
  | .vr .vredadd f => .vredadd f
  | .vr .vredmin f => .vredmin f
  | .vr .vredmax f => .vredmax f
  | .vr .vredminu f => .vredminu f
  | .vr .vredmaxu f => .vredmaxu f
  | .vr .vredand f => .vredand f
  | .vr .vredor f => .vredor f
  | .vr .vredxor f => .vredxor f
  | .vr .vredfadd f => .vredfadd f
  | .vr .vredfmin f => .vredfmin f
  | .vr .vredfmax f => .vredfmax f
  | .vr .vredfamax f => .vredfamax f
  | .vS .vrot f => .vrot f
  | .v .vrcp f => .vrcp f
  | .v .vrsqrt f => .vrsqrt f
  | .v .vexp2 f => .vexp2 f
  | .v .vlog2 f => .vlog2 f
  | .v .vtanh f => .vtanh f
  | .v .vsigm f => .vsigm f
  | .v .vsinpi f => .vsinpi f
  | .v .vcospi f => .vcospi f
  | .v .vperm f => .vperm f
  | .v .vmov f => .vmov f
  | .v .vcvtSI f => .vcvtSI f
  | .v .vcvtIS f => .vcvtIS f
  | .v .vcvtSH f => .vcvtSH f
  | .v .vcvtHS f => .vcvtHS f
  | .v .vcvtSBf f => .vcvtSBf f
  | .v .vcvtBfS f => .vcvtBfS f
  | .v .vcvtSU f => .vcvtSU f
  | .v .vcvtUS f => .vcvtUS f
  | .v .kand f => .kand f
  | .v .kor f => .kor f
  | .v .kxor f => .kxor f
  | .v .kandn f => .kandn f
  | .v .knot f => .knot f
  | .v .vfence f => .vfence f
  | .v .vgmov f => .vgmov f
  | .v .vgadd f => .vgadd f
  | .v .vgfadd f => .vgfadd f
  | .v .vgfmax f => .vgfmax f
  | .cop .mzero f => .mzero f
  | .cop .mmaN f => .mmaN f
  | .cop .mmaH f => .mmaH f
  | .cop .mmaBf f => .mmaBf f
  | .cop .mmaS f => .mmaS f
  | .cop .mdrain f => .mdrain f
  | .cop .mtask f => .mtask f
  | .cpy .cpy f => .cpy f
  | .cpy .cfill f => .cfill f
  | .cop .ssamp f => .ssamp f
  | .cop .sdraw f => .sdraw f
  | .cop .gstep f => .gstep f
  | .cop .gmask f => .gmask f
  | .cop .gflush f => .gflush f
  | .cop .sin f => .sin f
  | .cop .sadv f => .sadv f
  | .cop .stok f => .stok f
  | .cop .sopen f => .sopen f
  | .cop .cpost f => .cpost f
  | .cop .cpubl f => .cpubl f
  | .cop .cread f => .cread f
  | .cop .evput f => .evput f
  | .cop .csave f => .csave f
  | .cop .crestore f => .crestore f
  | .cpw .copw f => .copw f
  | .cpw .coprd f => .coprd f
  | .esy f => .esync f
  | .s .trap f => .trap f
  | .s .rett f => .rett f
  | .s .rettRedo f => .rettRedo f
  | .s .rettKill f => .rettKill f
  | .s .swin f => .swin f
  | .s .swinW f => .swinW f
  | .s .csfreeze f => .csfreeze f
  | .s .csthaw f => .csthaw f
  | .s .seize f => .seize f
  | .s .release f => .release f

/-- The form of an instruction; an event has none (it has no bits). -/
def Instr.toForm : Instr → Option Form
  | .illegal w => some (.illegal w)
  | .add f => some (.r .add f)
  | .sub f => some (.r .sub f)
  | .and f => some (.r .and f)
  | .or f => some (.r .or f)
  | .xor f => some (.r .xor f)
  | .andn f => some (.r .andn f)
  | .orn f => some (.r .orn f)
  | .sll f => some (.r .sll f)
  | .srl f => some (.r .srl f)
  | .sra f => some (.r .sra f)
  | .rol f => some (.r .rol f)
  | .ror f => some (.r .ror f)
  | .min f => some (.r .min f)
  | .max f => some (.r .max f)
  | .minu f => some (.r .minu f)
  | .maxu f => some (.r .maxu f)
  | .adds f => some (.r .adds f)
  | .subs f => some (.r .subs f)
  | .addus f => some (.r .addus f)
  | .subus f => some (.r .subus f)
  | .clz f => some (.r .clz f)
  | .ctz f => some (.r .ctz f)
  | .popc f => some (.r .popc f)
  | .bswap f => some (.r .bswap f)
  | .abs f => some (.r .abs f)
  | .addi f => some (.i .addi f)
  | .andi f => some (.i .andi f)
  | .ori f => some (.i .ori f)
  | .xori f => some (.i .xori f)
  | .slli f => some (.sh .slli f)
  | .srli f => some (.sh .srli f)
  | .srai f => some (.sh .srai f)
  | .rori f => some (.sh .rori f)
  | .slti f => some (.slt .slti f)
  | .sltiu f => some (.slt .sltiu f)
  | .seqi f => some (.slt .seqi f)
  | .snei f => some (.slt .snei f)
  | .lik f => some (.k f)
  | .bfxu f => some (.bF .bfxu f)
  | .bfxs f => some (.bF .bfxs f)
  | .bfi f => some (.bF .bfi f)
  | .mul f => some (.r .mul f)
  | .mulh f => some (.r .mulh f)
  | .mulhu f => some (.r .mulhu f)
  | .mulhsu f => some (.r .mulhsu f)
  | .div f => some (.r .div f)
  | .divu f => some (.r .divu f)
  | .rem f => some (.r .rem f)
  | .remu f => some (.r .remu f)
  | .cmpeq f => some (.r .cmpeq f)
  | .cmpne f => some (.r .cmpne f)
  | .cmplt f => some (.r .cmplt f)
  | .cmpge f => some (.r .cmpge f)
  | .cmpltu f => some (.r .cmpltu f)
  | .cmpgeu f => some (.r .cmpgeu f)
  | .csel f => some (.r .csel f)
  | .cmovz f => some (.r .cmovz f)
  | .cmovnz f => some (.r .cmovnz f)
  | .fadd f => some (.fR .fadd f)
  | .fsub f => some (.fR .fsub f)
  | .fmul f => some (.fR .fmul f)
  | .fdiv f => some (.fR .fdiv f)
  | .fsqrt f => some (.fR .fsqrt f)
  | .fmin f => some (.fT .fmin f)
  | .fmax f => some (.fT .fmax f)
  | .fsgnj f => some (.fT .fsgnj f)
  | .fsgnjn f => some (.fT .fsgnjn f)
  | .fsgnjx f => some (.fT .fsgnjx f)
  | .fclass f => some (.fT .fclass f)
  | .fmadd f => some (.fR .fmadd f)
  | .fmsub f => some (.fR .fmsub f)
  | .fnmsub f => some (.fR .fnmsub f)
  | .fnmadd f => some (.fR .fnmadd f)
  | .faddc f => some (.c .faddc f)
  | .fsubc f => some (.c .fsubc f)
  | .frsubc f => some (.c .frsubc f)
  | .fmulc f => some (.c .fmulc f)
  | .fmulac f => some (.c .fmulac f)
  | .fmacc f => some (.c .fmacc f)
  | .fldc f => some (.c .fldc f)
  | .fli f => some (.f20 f)
  | .cvt f => some (.cvt f)
  | .feq f => some (.fT .feq f)
  | .fne f => some (.fT .fne f)
  | .flt f => some (.fT .flt f)
  | .fle f => some (.fT .fle f)
  | .funord f => some (.fT .funord f)
  | .ld f => some (.m .ld f)
  | .st f => some (.m .st f)
  | .ldx f => some (.x .ldx f)
  | .stx f => some (.x .stx f)
  | .ldxSx f => some (.x .ldxSx f)
  | .bfxur f => some (.r .bfxur f)
  | .bfxsr f => some (.r .bfxsr f)
  | .bfir f => some (.r .bfir f)
  | .amoswap f => some (.amo .amoswap f)
  | .amoadd f => some (.amo .amoadd f)
  | .amoand f => some (.amo .amoand f)
  | .amoor f => some (.amo .amoor f)
  | .amomax f => some (.amo .amomax f)
  | .amomin f => some (.amo .amomin f)
  | .amomaxu f => some (.amo .amomaxu f)
  | .cas f => some (.amo .cas f)
  | .beqz f => some (.b .beqz f)
  | .bnez f => some (.b .bnez f)
  | .bltz f => some (.b .bltz f)
  | .bgez f => some (.b .bgez f)
  | .bgtz f => some (.b .bgtz f)
  | .blez f => some (.b .blez f)
  | .beven f => some (.b .beven f)
  | .bodd f => some (.b .bodd f)
  | .j f => some (.j .j f)
  | .jl f => some (.j .jl f)
  | .jr f => some (.r .jr f)
  | .jlr f => some (.r .jlr f)
  | .ret f => some (.r .ret f)
  | .scene f => some (.sC .scene f)
  | .sceneChk f => some (.sC .sceneChk f)
  | .redo f => some (.sC .redo f)
  | .commit f => some (.sC .commit f)
  | .nop f => some (.s .nop f)
  | .halt f => some (.s .halt f)
  | .crd f => some (.s .crd f)
  | .cwr f => some (.s .cwr f)
  | .cbw f => some (.s .cbw f)
  | .cbrd f => some (.s .cbrd f)
  | .cbld f => some (.s .cbld f)
  | .ldAcq f => some (.ord .ldAcq f)
  | .stRel f => some (.ord .stRel f)
  | .lut4ld f => some (.s .lut4ld f)
  | .bfset f => some (.s .bfset f)
  | .bfrd f => some (.s .bfrd f)
  | .prefL1 f => some (.s .prefL1 f)
  | .prefL2 f => some (.s .prefL2 f)
  | .mhintNear f => some (.s .mhintNear f)
  | .mhintHome f => some (.s .mhintHome f)
  | .mhintPage f => some (.s .mhintPage f)
  | .spawn f => some (.r .spawn f)
  | .join f => some (.r .join f)
  | .suspend f => some (.r .suspend f)
  | .yield f => some (.r .yield f)
  | .exit f => some (.r .exit f)
  | .exitJ f => some (.r .exitJ f)
  | .wake f => some (.r .wake f)
  | .bar f => some (.r .bar f)
  | .chain f => some (.r .chain f)
  | .widf f => some (.wid .widf f)
  | .widfr f => some (.wid .widfr f)
  | .send f => some (.r .send f)
  | .mclr f => some (.r .mclr f)
  | .mwait f => some (.r .mwait f)
  | .mwaitAny f => some (.r .mwaitAny f)
  | .rst f => some (.rst .rst f)
  | .rstA f => some (.rst .rstA f)
  | .rstv f => some (.rsv .rstv f)
  | .rstvA f => some (.rsv .rstvA f)
  | .gang f => some (.s .gang f)
  | .ungang f => some (.s .ungang f)
  | .fenceAcq f => some (.fence .fenceAcq f)
  | .fenceRel f => some (.fence .fenceRel f)
  | .fenceFull f => some (.fence .fenceFull f)
  | .qfence f => some (.qf f)
  | .qfenceAll f => some (.s .qfenceAll f)
  | .vadd f => some (.v .vadd f)
  | .vsub f => some (.v .vsub f)
  | .vmul f => some (.v .vmul f)
  | .vmulh f => some (.v .vmulh f)
  | .vmulhu f => some (.v .vmulhu f)
  | .vand f => some (.v .vand f)
  | .vor f => some (.v .vor f)
  | .vxor f => some (.v .vxor f)
  | .vsll f => some (.v .vsll f)
  | .vsrl f => some (.v .vsrl f)
  | .vsra f => some (.v .vsra f)
  | .vmin f => some (.v .vmin f)
  | .vmax f => some (.v .vmax f)
  | .vminu f => some (.v .vminu f)
  | .vmaxu f => some (.v .vmaxu f)
  | .vadds f => some (.v .vadds f)
  | .vsubs f => some (.v .vsubs f)
  | .vaddus f => some (.v .vaddus f)
  | .vsubus f => some (.v .vsubus f)
  | .vabs f => some (.v .vabs f)
  | .vsel f => some (.v .vsel f)
  | .vcmpeq f => some (.v .vcmpeq f)
  | .vcmpne f => some (.v .vcmpne f)
  | .vcmplt f => some (.v .vcmplt f)
  | .vcmpge f => some (.v .vcmpge f)
  | .vcmpltu f => some (.v .vcmpltu f)
  | .vcmpgeu f => some (.v .vcmpgeu f)
  | .vfadd f => some (.vF .vfadd f)
  | .vfsub f => some (.vF .vfsub f)
  | .vfmul f => some (.vF .vfmul f)
  | .vfdiv f => some (.vF .vfdiv f)
  | .vfsqrt f => some (.vF .vfsqrt f)
  | .vfmadd f => some (.vF .vfmadd f)
  | .vfmsub f => some (.vF .vfmsub f)
  | .vfnmsub f => some (.vF .vfnmsub f)
  | .vfmin f => some (.v .vfmin f)
  | .vfmax f => some (.v .vfmax f)
  | .vfabs f => some (.v .vfabs f)
  | .vfneg f => some (.v .vfneg f)
  | .vfsgnj f => some (.v .vfsgnj f)
  | .vfeq f => some (.v .vfeq f)
  | .vflt f => some (.v .vflt f)
  | .vfle f => some (.v .vfle f)
  | .vfun f => some (.v .vfun f)
  | .vaddVs f => some (.vS .vaddVs f)
  | .vsubVs f => some (.vS .vsubVs f)
  | .vrsubVs f => some (.vS .vrsubVs f)
  | .vmulVs f => some (.vS .vmulVs f)
  | .vandVs f => some (.vS .vandVs f)
  | .vorVs f => some (.vS .vorVs f)
  | .vxorVs f => some (.vS .vxorVs f)
  | .vsllVs f => some (.vS .vsllVs f)
  | .vsrlVs f => some (.vS .vsrlVs f)
  | .vsraVs f => some (.vS .vsraVs f)
  | .vminVs f => some (.vS .vminVs f)
  | .vmaxVs f => some (.vS .vmaxVs f)
  | .vcvtn f => some (.vS .vcvtn f)
  | .vcvtw f => some (.vS .vcvtw f)
  | .vfaddVs f => some (.vS .vfaddVs f)
  | .vfsubVs f => some (.vS .vfsubVs f)
  | .vfrsubVs f => some (.vS .vfrsubVs f)
  | .vfmulVs f => some (.vS .vfmulVs f)
  | .vfmaddVs f => some (.vS .vfmaddVs f)
  | .vfminVs f => some (.vS .vfminVs f)
  | .vfmaxVs f => some (.vS .vfmaxVs f)
  | .vmovVs f => some (.vS .vmovVs f)
  | .vcmpeqVs f => some (.vS .vcmpeqVs f)
  | .vcmpltVs f => some (.vS .vcmpltVs f)
  | .vcmpltuVs f => some (.vS .vcmpltuVs f)
  | .vfeqVs f => some (.vS .vfeqVs f)
  | .vfltVs f => some (.vS .vfltVs f)
  | .vfleVs f => some (.vS .vfleVs f)
  | .vld f => some (.vM .vld f)
  | .vst f => some (.vM .vst f)
  | .vgather f => some (.vG .vgather f)
  | .vscatter f => some (.vG .vscatter f)
  | .vlds f => some (.vS .vlds f)
  | .vsts f => some (.vS .vsts f)
  | .vext f => some (.vS .vext f)
  | .kmovs f => some (.vS .kmovs f)
  | .kset f => some (.vS .kset f)
  | .vstat f => some (.vS .vstat f)
  | .vredadd f => some (.vr .vredadd f)
  | .vredmin f => some (.vr .vredmin f)
  | .vredmax f => some (.vr .vredmax f)
  | .vredminu f => some (.vr .vredminu f)
  | .vredmaxu f => some (.vr .vredmaxu f)
  | .vredand f => some (.vr .vredand f)
  | .vredor f => some (.vr .vredor f)
  | .vredxor f => some (.vr .vredxor f)
  | .vredfadd f => some (.vr .vredfadd f)
  | .vredfmin f => some (.vr .vredfmin f)
  | .vredfmax f => some (.vr .vredfmax f)
  | .vredfamax f => some (.vr .vredfamax f)
  | .vrot f => some (.vS .vrot f)
  | .vrcp f => some (.v .vrcp f)
  | .vrsqrt f => some (.v .vrsqrt f)
  | .vexp2 f => some (.v .vexp2 f)
  | .vlog2 f => some (.v .vlog2 f)
  | .vtanh f => some (.v .vtanh f)
  | .vsigm f => some (.v .vsigm f)
  | .vsinpi f => some (.v .vsinpi f)
  | .vcospi f => some (.v .vcospi f)
  | .vperm f => some (.v .vperm f)
  | .vmov f => some (.v .vmov f)
  | .vcvtSI f => some (.v .vcvtSI f)
  | .vcvtIS f => some (.v .vcvtIS f)
  | .vcvtSH f => some (.v .vcvtSH f)
  | .vcvtHS f => some (.v .vcvtHS f)
  | .vcvtSBf f => some (.v .vcvtSBf f)
  | .vcvtBfS f => some (.v .vcvtBfS f)
  | .vcvtSU f => some (.v .vcvtSU f)
  | .vcvtUS f => some (.v .vcvtUS f)
  | .kand f => some (.v .kand f)
  | .kor f => some (.v .kor f)
  | .kxor f => some (.v .kxor f)
  | .kandn f => some (.v .kandn f)
  | .knot f => some (.v .knot f)
  | .vfence f => some (.v .vfence f)
  | .vgmov f => some (.v .vgmov f)
  | .vgadd f => some (.v .vgadd f)
  | .vgfadd f => some (.v .vgfadd f)
  | .vgfmax f => some (.v .vgfmax f)
  | .mzero f => some (.cop .mzero f)
  | .mmaN f => some (.cop .mmaN f)
  | .mmaH f => some (.cop .mmaH f)
  | .mmaBf f => some (.cop .mmaBf f)
  | .mmaS f => some (.cop .mmaS f)
  | .mdrain f => some (.cop .mdrain f)
  | .mtask f => some (.cop .mtask f)
  | .cpy f => some (.cpy .cpy f)
  | .cfill f => some (.cpy .cfill f)
  | .ssamp f => some (.cop .ssamp f)
  | .sdraw f => some (.cop .sdraw f)
  | .gstep f => some (.cop .gstep f)
  | .gmask f => some (.cop .gmask f)
  | .gflush f => some (.cop .gflush f)
  | .sin f => some (.cop .sin f)
  | .sadv f => some (.cop .sadv f)
  | .stok f => some (.cop .stok f)
  | .sopen f => some (.cop .sopen f)
  | .cpost f => some (.cop .cpost f)
  | .cpubl f => some (.cop .cpubl f)
  | .cread f => some (.cop .cread f)
  | .evput f => some (.cop .evput f)
  | .csave f => some (.cop .csave f)
  | .crestore f => some (.cop .crestore f)
  | .copw f => some (.cpw .copw f)
  | .coprd f => some (.cpw .coprd f)
  | .esync f => some (.esy f)
  | .trap f => some (.s .trap f)
  | .rett f => some (.s .rett f)
  | .rettRedo f => some (.s .rettRedo f)
  | .rettKill f => some (.s .rettKill f)
  | .swin f => some (.s .swin f)
  | .swinW f => some (.s .swinW f)
  | .csfreeze f => some (.s .csfreeze f)
  | .csthaw f => some (.s .csthaw f)
  | .seize f => some (.s .seize f)
  | .release f => some (.s .release f)
  | .registerWrite _ _ _ _ _ => none
  | .moduleReset => none
  | .bootImageLoad _ _ _ => none
  | .takeUp _ _ => none
  | .loadDataArrival _ _ _ _ => none
  | .ptsTick _ => none
  | .vectorCommandPerform _ => none
  | .mailArrival _ => none
  | .bounceWordArrival _ => none
  | .remoteStoreArrival _ => none
  | .stageDoorDelivery _ _ => none
  | .reflexStartMessage _ => none
  | .xtimerFire _ _ => none
  | .launchCueArrival _ => none
  | .stealProbe _ => none
  | .stealReplyArrival _ => none
  | .terminationWave _ => none
  | .ensembleClaim _ => none
  | .placementWaitExpiry _ => none
  | .l2LineMigration _ => none
  | .l1ctlInv _ => none
  | .bfmtWrite _ _ _ => none
  | .grhostWrite _ _ => none
  | .greenRoomRecall _ => none
  | .mnqheadWrite _ _ => none
  | .migackWrite _ _ => none
  | .pmctlGo _ => none
  | .pageMoveCopyDone _ => none
  | .pmctlEnd _ => none
  | .tlbinvWrite _ => none
  | .tlbinvDone => none
  | .pgwakeWrite _ => none
  | .mmaStep _ _ => none
  | .mzeroStep _ _ => none
  | .mdrainStep _ _ => none
  | .mctlResume _ _ => none
  | .mctlAbort _ _ => none
  | .tileTaskPost _ => none
  | .tileTaskIssue _ => none
  | .copyStep _ _ => none
  | .ccmdResume _ _ => none
  | .ccmdAbort _ _ => none
  | .samplerBarrierCheck _ _ => none
  | .samplerScanStep _ _ => none
  | .winnerMessageArrival _ => none
  | .samplerGather _ _ => none
  | .samplerDeliver _ _ => none
  | .sdrawStep _ _ => none
  | .sctlResume _ _ => none
  | .sctlAbort _ _ => none
  | .gstepApply _ _ => none
  | .gmaskStep _ _ => none
  | .gflushApply _ _ => none
  | .gctlResume _ _ => none
  | .gctlAbort _ _ => none
  | .streamEventArrival _ _ => none
  | .streamEventApply _ _ => none
  | .cpostStep _ _ => none
  | .cpublApply _ _ => none
  | .caddyFlip _ _ => none
  | .creadStep _ _ => none
  | .cxdescWrite _ _ _ => none
  | .evputStep _ _ => none
  | .csiEventPacket _ _ _ _ _ _ => none
  | .csiImagePacket _ _ _ _ _ _ => none
  | .csiFrameMark _ _ _ _ => none
  | .ppsEdge _ => none
  | .csaveStep _ => none
  | .crestoreStep _ => none
  | .csctlResume _ => none
  | .csctlAbort _ => none
  | .preemptReq _ _ => none
  | .ptimeExpiry _ => none
  | .preemptHandlerEntry _ _ => none
  | .preemptResend _ => none
  | .faultMessageArrival _ => none
  | .fheadWrite _ _ => none
  | .swcmdResume _ _ _ => none
  | .swcmdKill _ _ _ => none
  | .curtainRaise _ => none
  | .curtainLower _ => none
  | .curtainHalt _ => none
  | .curtainResume _ => none
  | .curtdevRaise _ => none
  | .curtdevLower _ => none
  | .machineCheck _ => none
  | .szgrpWrite _ _ => none
  | .seizeArrival _ => none
  | .seizeTakeUp _ => none
  | .releaseArrival _ => none
  | .wdogKick _ => none
  | .watchdogPreempt _ => none
  | .watchdogKill _ => none
  | .watchdogFence _ => none
  | .qdoorWrite _ => none
  | .commandAccept _ => none
  | .cmdLaunch _ => none
  | .cmdWait _ => none
  | .waitSatisfied _ => none
  | .cmdSignal _ => none
  | .cmdQuote _ => none
  | .slotFree _ => none
  | .mirrorAckArrival _ => none
  | .mirrorEntryArrival _ _ => none
  | .heartbeatSend => none
  | .xBankMirror _ => none
  | .understudyCheck _ => none
  | .peerFenceArrival => none
  | .linkLoss => none
  | .loadAveraging _ _ => none
  | .thermalStep _ _ => none
  | .corerstWrite _ => none
  | .ptmCorrection _ => none
  | .peerHeartbeatArrival => none
  | .powerLimitThrottle _ => none

/-- Whether the row of the opcode table is an event (a row without bits). -/
def Instr.isEvent (i : Instr) : Bool := i.toForm.isNone

end Sys2Proof
end

