-- ==== Sys2Proof/WellFormed.lean ====
section
/-! DEFINITION. Which instructions are well formed: the operand codes each field admits (spec/02 R43), the fields that
must be zero (R44), the function values the chapters list, and the register numbers that are allocated (R49). -/
namespace Sys2Proof

/-- Why a word is an illegal encoding: the five cases of R49, case 3 to 5 of which are checked here. -/
inductive DecodeError where
  /-- R49.1: the major is 00 or reserved. -/
  | reservedMajor
  /-- R49.2: a function field holds a value its chapter does not list. -/
  | functionCode
  /-- R49.3: a 6-bit register field holds a code R43 does not admit for its use. -/
  | registerCode
  /-- R49.4: a field or bit that R44 requires to be zero is not zero. -/
  | nonZeroField
  /-- R49.5: the control register or engine register number is not allocated. -/
  | unlistedRegister
deriving DecidableEq, Repr

/-- R120: the conversion pairs that are legal. -/
def okCvt (dst src : BitVec 3) : Bool :=
  dst.toNat != 7 && src.toNat != 7 &&
  !((dst.toNat == 4 || dst.toNat == 5) && (src.toNat == 4 || src.toNat == 5)) &&
  !(dst.toNat == 6 && src.toNat == 6)

/-- The control register numbers that some chapter lists for some tile (R29, R151, R250, R312, R343, R396, R450). -/
def okCr (n : BitVec 10) : Bool :=
  let k := n.toNat
  k ≤ 0x00e || (0x080 ≤ k && k ≤ 0x097) || (0x100 ≤ k && k ≤ 0x107) || (0x180 ≤ k && k ≤ 0x195) ||
  (0x1c0 ≤ k && k ≤ 0x206) || k == 0x210 || (0x240 ≤ k && k ≤ 0x298) || (0x2a0 ≤ k && k ≤ 0x314) ||
  (0x318 ≤ k && k ≤ 0x31d) || (0x320 ≤ k && k ≤ 0x323)

/-- The engine register numbers that the engine's chapter lists (R289, R294, R296, R317, R326, R335, R340, R345,
R346, R364, R372, R416). -/
def okEngReg (eng : BitVec 3) (n : BitVec 9) : Bool :=
  let k := n.toNat
  match eng.toNat with
  | 0 => k ≤ 9 || (0x100 ≤ k && k ≤ 0x10d) || (0x110 ≤ k && k ≤ 0x113) || k == 0x118 || k == 0x119 ||
         (0x180 ≤ k && k ≤ 0x183)
  | 1 => k ≤ 8 || (0x011 ≤ k && k ≤ 0x015) || (0x019 ≤ k && k ≤ 0x01d) || (0x100 ≤ k && k ≤ 0x11a) ||
         (0x11c ≤ k && k ≤ 0x11e)
  | 2 => k ≤ 0x00b || (0x100 ≤ k && k ≤ 0x104) || (0x108 ≤ k && k ≤ 0x10c)
  | 3 => k ≤ 2 || (0x100 ≤ k && k ≤ 0x11c)
  | 4 => 0x100 ≤ k && k ≤ 0x107
  | 5 => (0x100 ≤ k && k ≤ 0x103) || (0x108 ≤ k && k ≤ 0x10c)
  | 6 => (0x100 ≤ k && k ≤ 0x103) || (0x108 ≤ k && k ≤ 0x10b) || k == 0x110 || k == 0x111 ||
         (0x120 ≤ k && k ≤ 0x123) || k == 0x128
  | _ => 0x100 ≤ k && k ≤ 0x107

/-- What an operation does with a field (R43, R44): written only, read, read in the rd position, read and written,
unused (zero), any value, or a mask or accumulator number whose upper bits are zero. -/
inductive Use where
  | w | r | rd | rw | z | any | k3
deriving DecidableEq, Repr

/-- A field obeys its use; `none` when it does, else the reason. -/
def Use.check {n : Nat} (u : Use) (c : BitVec n) : Option DecodeError :=
  match u with
  | .w => if c.toNat < 60 || c.toNat == 61 then none else some .registerCode
  | .r => if c.toNat != 61 then none else some .registerCode
  | .rd => if c.toNat ≤ 60 || c.toNat == 62 then none else some .registerCode
  | .rw => if c.toNat < 60 then none else some .registerCode
  | .z => if c.toNat == 0 then none else some .nonZeroField
  | .any => none
  | .k3 => if c.toNat < 8 then none else some .nonZeroField

/-- A condition that a function field or register number must meet. -/
def must (ok : Bool) (e : DecodeError) : Option DecodeError := if ok then none else some e

/-- The uses of rd, ra, rb by each operation of the R format. -/
def OpR.uses : OpR → Use × Use × Use
  | .add | .sub | .and | .or | .xor | .andn | .orn | .sll | .srl | .sra | .rol | .ror | .min | .max | .minu
  | .maxu | .adds | .subs | .addus | .subus | .mul | .mulh | .mulhu | .mulhsu | .div | .divu | .rem | .remu
  | .cmpeq | .cmpne | .cmplt | .cmpge | .cmpltu | .cmpgeu | .bfxur | .bfxsr | .mwait | .mwaitAny => (.w, .r, .r)
  | .clz | .ctz | .popc | .bswap | .abs => (.w, .r, .z)
  | .csel | .cmovz | .cmovnz | .bfir => (.rw, .r, .r)
  | .jr | .jlr | .suspend | .exitJ | .wake | .chain | .mclr => (.z, .r, .z)
  | .ret | .join | .yield | .exit | .bar => (.z, .z, .z)
  | .spawn | .send => (.z, .r, .r)

/-- The uses of rd, ra by each operation of the BF format. -/
def OpBF.uses : OpBF → Use × Use
  | .bfxu | .bfxs => (.w, .r)
  | .bfi => (.rw, .r)

/-- The uses of rd, ra, rb by each operation of the FR format. -/
def OpFR.uses : OpFR → Use × Use × Use
  | .fadd | .fsub | .fmul | .fdiv => (.w, .r, .r)
  | .fsqrt => (.w, .r, .z)
  | .fmadd | .fmsub | .fnmsub | .fnmadd => (.rw, .r, .r)

/-- The uses of rd, ra, rb by each operation of the FT format. -/
def OpFT.uses : OpFT → Use × Use × Use
  | .fmin | .fmax | .fsgnj | .fsgnjn | .fsgnjx | .feq | .fne | .flt | .fle | .funord => (.w, .r, .r)
  | .fclass => (.w, .r, .z)

/-- The uses of rd, ra by each operation of the C format. -/
def OpC.uses : OpC → Use × Use
  | .faddc | .fsubc | .frsubc | .fmulc => (.w, .r)
  | .fmulac | .fmacc => (.rw, .r)
  | .fldc => (.w, .z)

/-- The uses of rd, ra, sx by each operation of the M format. -/
def OpM.uses : OpM → Use × Use × Use
  | .ld => (.w, .r, .any)
  | .st => (.rd, .r, .z)

/-- The uses of rd, ra, rb by each operation of the X format. -/
def OpX.uses : OpX → Use × Use × Use
  | .ldx | .ldxSx => (.w, .r, .r)
  | .stx => (.rd, .r, .r)

/-- The uses of rd, ra, rb by each operation of the Amo format. -/
def OpAmo.uses : OpAmo → Use × Use × Use
  | .amoswap | .amoadd | .amoand | .amoor | .amomax | .amomin | .amomaxu => (.w, .r, .r)
  | .cas => (.rw, .r, .r)

/-- The uses of mask by each operation of the SC format. -/
def OpSC.uses : OpSC → Use
  | .scene | .sceneChk => .any
  | .redo | .commit => .z

/-- The uses of ra by each operation of the S format. -/
def OpS.uses : OpS → Use
  | .nop | .halt | .gang | .ungang | .qfenceAll | .trap | .rett | .rettRedo | .rettKill | .csfreeze | .csthaw
  | .release => .z
  | .crd | .cbrd | .swin => .w
  | .cwr | .cbw | .cbld | .lut4ld | .bfset | .bfrd | .prefL1 | .prefL2 | .mhintNear | .mhintHome | .mhintPage
  | .swinW | .seize => .r

/-- The uses of ra, rx by each operation of the Ord format. -/
def OpOrd.uses : OpOrd → Use × Use
  | .ldAcq => (.r, .w)
  | .stRel => (.r, .r)

/-- The uses of rd, ra by each operation of the Wid format. -/
def OpWid.uses : OpWid → Use × Use
  | .widf => (.w, .z)
  | .widfr => (.w, .r)

/-- The uses of vd, va, vb, km by each operation of the V format. -/
def OpV.uses : OpV → Use × Use × Use × Use
  | .vadd | .vsub | .vmul | .vmulh | .vmulhu | .vand | .vor | .vxor | .vsll | .vsrl | .vsra | .vmin | .vmax
  | .vminu | .vmaxu | .vadds | .vsubs | .vaddus | .vsubus | .vsel | .vfmin | .vfmax | .vfsgnj | .vperm
  | .vgadd | .vgfadd | .vgfmax => (.any, .any, .any, .any)
  | .vabs | .vfabs | .vfneg | .vrcp | .vrsqrt | .vexp2 | .vlog2 | .vtanh | .vsigm | .vsinpi | .vcospi | .vmov
  | .vcvtSI | .vcvtIS | .vcvtSH | .vcvtHS | .vcvtSBf | .vcvtBfS | .vcvtSU | .vcvtUS => (.any, .any, .z, .any)
  | .vcmpeq | .vcmpne | .vcmplt | .vcmpge | .vcmpltu | .vcmpgeu | .vfeq | .vflt | .vfle | .vfun => (.k3, .any, .any, .any)
  | .kand | .kor | .kxor | .kandn => (.k3, .k3, .k3, .z)
  | .knot => (.k3, .k3, .z, .z)
  | .vfence => (.z, .z, .z, .z)
  | .vgmov => (.any, .z, .any, .any)

/-- The uses of vb by each operation of the VF format. -/
def OpVF.uses : OpVF → Use
  | .vfadd | .vfsub | .vfmul | .vfdiv | .vfmadd | .vfmsub | .vfnmsub => .any
  | .vfsqrt => .z

/-- The uses of vd, va, sb, km by each operation of the VS format. -/
def OpVS.uses : OpVS → Use × Use × Use × Use
  | .vaddVs | .vsubVs | .vrsubVs | .vmulVs | .vandVs | .vorVs | .vxorVs | .vsllVs | .vsrlVs | .vsraVs
  | .vminVs | .vmaxVs | .vcvtn | .vcvtw | .vfaddVs | .vfsubVs | .vfrsubVs | .vfmulVs | .vfmaddVs | .vfminVs
  | .vfmaxVs | .vrot => (.any, .any, .r, .any)
  | .vmovVs | .vlds | .vsts => (.any, .z, .r, .any)
  | .vcmpeqVs | .vcmpltVs | .vcmpltuVs | .vfeqVs | .vfltVs | .vfleVs => (.k3, .any, .r, .any)
  | .vext => (.z, .any, .w, .any)
  | .kmovs => (.z, .z, .w, .any)
  | .kset => (.k3, .z, .r, .z)
  | .vstat => (.z, .z, .w, .z)

/-- The uses of sa, sb, q by each operation of the Cop format. -/
def OpCop.uses : OpCop → Use × Use × Use
  | .mzero | .gflush | .sopen => (.r, .z, .any)
  | .mmaN | .mmaH | .mmaBf | .mmaS | .mdrain | .ssamp | .sdraw | .gstep | .gmask | .sin | .sadv | .stok
  | .cpost | .cpubl | .cread | .evput => (.r, .r, .any)
  | .mtask => (.r, .z, .z)
  | .csave | .crestore => (.r, .r, .z)

/-- The uses of sa by each operation of the Cpw format. -/
def OpCpw.uses : OpCpw → Use
  | .copw => .r
  | .coprd => .w

/-- The first failing check of a list. -/
def firstOf : List (Option DecodeError) → Option DecodeError
  | [] => none
  | none :: r => firstOf r
  | some e :: _ => some e

/-- The use of imm10 by each operation of the S format (R133, R276, R282, R285, R399). -/
def OpS.immCheck (i : BitVec 10) : OpS → Option DecodeError
  | .nop | .halt | .ungang | .qfenceAll | .rett | .rettRedo | .rettKill | .csfreeze | .csthaw => Use.z.check i
  | .crd | .cwr => must (okCr i) .unlistedRegister
  | .cbw | .cbrd | .cbld | .lut4ld | .gang | .trap | .swin | .swinW | .seize | .release => none
  | .bfset => Use.r.check (i.extractLsb' 0 6)
  | .bfrd => Use.w.check (i.extractLsb' 0 6)
  | .prefL1 => must ((i.extractLsb' 3 2).toNat != 1) .functionCode
  | .prefL2 | .mhintHome => must ((i.extractLsb' 3 2).toNat == 1) .functionCode
  | .mhintNear => must ((i.extractLsb' 3 2).toNat == 0 || (i.extractLsb' 3 2).toNat == 3) .functionCode
  | .mhintPage => must ((i.extractLsb' 3 2).toNat == 2) .functionCode

/-- The checks of R49.2 to R49.5 on a word that has been split into fields; `none` when it is legal. -/
def Form.check : Form → Option DecodeError
  | .r op f => firstOf [op.uses.1.check f.rd, op.uses.2.1.check f.ra, op.uses.2.2.check f.rb]
  | .i _ f => firstOf [Use.w.check f.rd, Use.r.check f.ra]
  | .sh _ f => firstOf [Use.w.check f.rd, Use.r.check f.ra]
  | .slt _ f => firstOf [Use.w.check f.rd, Use.r.check f.ra]
  | .k f => (if f.pos.toNat == 0 then Use.w else Use.rw).check f.rd
  | .bF op f => firstOf [op.uses.1.check f.rd, op.uses.2.check f.ra]
  | .fR op f => firstOf [op.uses.1.check f.rd, op.uses.2.1.check f.ra, op.uses.2.2.check f.rb]
  | .fT op f => firstOf [op.uses.1.check f.rd, op.uses.2.1.check f.ra, op.uses.2.2.check f.rb]
  | .c op f => firstOf [op.uses.1.check f.rd, op.uses.2.check f.ra]
  | .f20 f => Use.w.check f.rd
  | .cvt f => firstOf [must (okCvt f.dst f.src) .functionCode, Use.w.check f.rd, Use.r.check f.ra, Use.r.check f.rb]
  | .m op f => firstOf [op.uses.1.check f.rd, op.uses.2.1.check f.ra, op.uses.2.2.check f.sx]
  | .x op f => firstOf [op.uses.1.check f.rd, op.uses.2.1.check f.ra, op.uses.2.2.check f.rb]
  | .amo op f => firstOf [op.uses.1.check f.rd, op.uses.2.1.check f.ra, op.uses.2.2.check f.rb]
  | .b _ f => Use.r.check f.ra
  | .j _ _ => none
  | .sC op f => op.uses.check f.mask
  | .s op f => firstOf [op.uses.check f.ra, op.immCheck f.imm]
  | .ord op f => firstOf [op.uses.1.check f.ra, op.uses.2.check f.rx]
  | .fence _ f => must (f.scope.toNat < 12) .functionCode
  | .qf f => Use.r.check f.ra
  | .wid op f => firstOf [must (f.k.toNat < 6) .functionCode, op.uses.1.check f.rd, op.uses.2.check f.ra]
  | .rst _ f => firstOf [Use.r.check f.rs, Use.r.check f.ra]
  | .rsv _ f => Use.r.check f.ra
  | .v op f => firstOf [op.uses.1.check f.vd, op.uses.2.1.check f.va, op.uses.2.2.1.check f.vb, op.uses.2.2.2.check f.km]
  | .vF op f => op.uses.check f.vb
  | .vS op f => firstOf [op.uses.1.check f.vd, op.uses.2.1.check f.va, op.uses.2.2.1.check f.sb, op.uses.2.2.2.check f.km]
  | .vM _ f => firstOf [Use.z.check f.va, Use.r.check f.sb]
  | .vG _ f => Use.r.check f.sb
  | .vr _ f => Use.w.check f.sb
  | .cop op f => firstOf [op.uses.1.check f.sa, op.uses.2.1.check f.sb, op.uses.2.2.check f.q]
  | .cpy _ f => firstOf [Use.r.check f.sa, Use.r.check f.sb]
  | .cpw op f => firstOf [must (okEngReg f.eng f.n) .unlistedRegister, op.uses.check f.sa]
  | .esy f => Use.w.check f.sa
  | .illegal _ => some .reservedMajor

/-- The check of an instruction; the events have no bits and pass. -/
def Instr.check (i : Instr) : Option DecodeError :=
  match i.toForm with
  | none => none
  | some f => f.check

/-- An instruction is well formed when no check of R49 fails on it. -/
def Instr.WellFormed (i : Instr) : Prop := i.check = none

end Sys2Proof
end

