-- ==== Sys2Proof/Decode.lean ====
section
/-! DEFINITION. Decoding (spec/02 R40 to R50): the major picks the format, the format places the fields, and the fields
are checked. Then the encoder, written from the same tables. Literal words are not part of an instruction word: they
are fetched when their field is read (R17). -/
namespace Sys2Proof

/-- Bits `lo + n - 1 : lo` of an instruction word. -/
def bits (w : BitVec 32) (lo n : Nat) : BitVec n := w.extractLsb' lo n

/-- The fields of the R format. -/
def FmtR.unpack (w : BitVec 32) : FmtR :=
  { rd := bits w 20 6, ra := bits w 14 6, rb := bits w 8 6, hold := bits w 0 2 }
/-- The fields of the I format. -/
def FmtI.unpack (w : BitVec 32) : FmtI :=
  { rd := bits w 20 6, ra := bits w 14 6, imm := bits w 2 12, hold := bits w 0 2 }
/-- The fields of the Sh format. -/
def FmtSh.unpack (w : BitVec 32) : FmtSh :=
  { rd := bits w 20 6, ra := bits w 14 6, amt := bits w 2 6, hold := bits w 0 2 }
/-- The fields of the Slt format. -/
def FmtSlt.unpack (w : BitVec 32) : FmtSlt :=
  { rd := bits w 20 6, ra := bits w 14 6, imm := bits w 2 10, hold := bits w 0 2 }
/-- The fields of the K format. -/
def FmtK.unpack (w : BitVec 32) : FmtK :=
  { rd := bits w 20 6, pos := bits w 18 2, imm := bits w 2 16, hold := bits w 0 2 }
/-- The fields of the BF format. -/
def FmtBF.unpack (w : BitVec 32) : FmtBF :=
  { rd := bits w 20 6, ra := bits w 14 6, off := bits w 8 6, wid := bits w 2 6, hold := bits w 0 2 }
/-- The fields of the FR format. -/
def FmtFR.unpack (w : BitVec 32) : FmtFR :=
  { rd := bits w 20 6, ra := bits w 14 6, rb := bits w 8 6, rnd := Rnd.ofIdx ((bits w 3 5).toNat % 5), ty := bits w 2 1, hold := bits w 0 2 }
/-- The fields of the FT format. -/
def FmtFT.unpack (w : BitVec 32) : FmtFT :=
  { rd := bits w 20 6, ra := bits w 14 6, rb := bits w 8 6, ty := bits w 2 1, hold := bits w 0 2 }
/-- The fields of the C format. -/
def FmtC.unpack (w : BitVec 32) : FmtC :=
  { rd := bits w 20 6, ra := bits w 14 6, cb := bits w 6 8, ty := bits w 2 1, hold := bits w 0 2 }
/-- The fields of the F20 format. -/
def FmtF20.unpack (w : BitVec 32) : FmtF20 :=
  { rd := bits w 20 6, f20 := bits w 0 20 }
/-- The fields of the Cvt format. -/
def FmtCvt.unpack (w : BitVec 32) : FmtCvt :=
  { rd := bits w 20 6, ra := bits w 14 6, rb := bits w 8 6, dst := bits w 5 3, src := bits w 2 3, hold := bits w 0 2 }
/-- The fields of the M format. -/
def FmtM.unpack (w : BitVec 32) : FmtM :=
  { rd := bits w 20 6, ra := bits w 14 6, seg := bits w 11 3, sz := bits w 9 2, sx := bits w 8 1, imm := bits w 2 6, hold := bits w 0 2 }
/-- The fields of the X format. -/
def FmtX.unpack (w : BitVec 32) : FmtX :=
  { rd := bits w 20 6, ra := bits w 14 6, rb := bits w 8 6, seg := bits w 4 2, sz := bits w 2 2, hold := bits w 0 2 }
/-- The fields of the Amo format. -/
def FmtAmo.unpack (w : BitVec 32) : FmtAmo :=
  { rd := bits w 20 6, ra := bits w 14 6, rb := bits w 8 6, d := bits w 4 1, seg := bits w 2 2, hold := bits w 0 2 }
/-- The fields of the B format. -/
def FmtB.unpack (w : BitVec 32) : FmtB :=
  { ra := bits w 16 6, disp := bits w 2 14, hold := bits w 0 2 }
/-- The fields of the J format. -/
def FmtJ.unpack (w : BitVec 32) : FmtJ :=
  { disp := bits w 2 24, hold := bits w 0 2 }
/-- The fields of the SC format. -/
def FmtSC.unpack (w : BitVec 32) : FmtSC :=
  { mask := bits w 11 15, hold := bits w 0 2 }
/-- The fields of the S format. -/
def FmtS.unpack (w : BitVec 32) : FmtS :=
  { ra := bits w 12 6, imm := bits w 2 10, hold := bits w 0 2 }
/-- The fields of the Ord format. -/
def FmtOrd.unpack (w : BitVec 32) : FmtOrd :=
  { d := bits w 20 1, seg := bits w 18 2, ra := bits w 12 6, scope := bits w 8 4, rx := bits w 2 6, hold := bits w 0 2 }
/-- The fields of the Fence format. -/
def FmtFence.unpack (w : BitVec 32) : FmtFence :=
  { scope := bits w 18 4, hold := bits w 0 2 }
/-- The fields of the Qf format. -/
def FmtQf.unpack (w : BitVec 32) : FmtQf :=
  { eng := bits w 18 3, ra := bits w 12 6, hold := bits w 0 2 }
/-- The fields of the Wid format. -/
def FmtWid.unpack (w : BitVec 32) : FmtWid :=
  { rd := bits w 20 6, ra := bits w 14 6, k := bits w 2 3, hold := bits w 0 2 }
/-- The fields of the Rst format. -/
def FmtRst.unpack (w : BitVec 32) : FmtRst :=
  { rs := bits w 20 6, ra := bits w 14 6, sz := bits w 2 2, hold := bits w 0 2 }
/-- The fields of the Rsv format. -/
def FmtRsv.unpack (w : BitVec 32) : FmtRsv :=
  { vs := bits w 20 5, ra := bits w 14 6, hold := bits w 0 2 }
/-- The fields of the V format. -/
def FmtV.unpack (w : BitVec 32) : FmtV :=
  { vd := bits w 21 5, va := bits w 16 5, vb := bits w 11 5, km := bits w 8 3, hold := bits w 0 2 }
/-- The fields of the VF format. -/
def FmtVF.unpack (w : BitVec 32) : FmtVF :=
  { vd := bits w 21 5, va := bits w 16 5, vb := bits w 11 5, km := bits w 8 3, rnd := Rnd.ofIdx ((bits w 2 6).toNat % 5), hold := bits w 0 2 }
/-- The fields of the VS format. -/
def FmtVS.unpack (w : BitVec 32) : FmtVS :=
  { vd := bits w 21 5, va := bits w 16 5, sb := bits w 10 6, km := bits w 7 3, hold := bits w 0 2 }
/-- The fields of the VM format. -/
def FmtVM.unpack (w : BitVec 32) : FmtVM :=
  { vd := bits w 21 5, va := bits w 16 5, sb := bits w 10 6, km := bits w 7 3, seg := bits w 2 3, hold := bits w 0 2 }
/-- The fields of the VG format. -/
def FmtVG.unpack (w : BitVec 32) : FmtVG :=
  { vd := bits w 21 5, va := bits w 16 5, sb := bits w 10 6, km := bits w 7 3, seg := bits w 2 2, hold := bits w 0 2 }
/-- The fields of the Vr format. -/
def FmtVr.unpack (w : BitVec 32) : FmtVr :=
  { va := bits w 16 5, sb := bits w 10 6, km := bits w 7 3, hold := bits w 0 2 }
/-- The fields of the Cop format. -/
def FmtCop.unpack (w : BitVec 32) : FmtCop :=
  { sa := bits w 17 6, sb := bits w 11 6, q := bits w 9 2, hold := bits w 0 2 }
/-- The fields of the Cpy format. -/
def FmtCpy.unpack (w : BitVec 32) : FmtCpy :=
  { sa := bits w 17 6, sb := bits w 11 6, c := bits w 8 3, hold := bits w 0 2 }
/-- The fields of the Cpw format. -/
def FmtCpw.unpack (w : BitVec 32) : FmtCpw :=
  { eng := bits w 23 3, sa := bits w 17 6, n := bits w 2 9, hold := bits w 0 2 }
/-- The fields of the Esy format. -/
def FmtEsy.unpack (w : BitVec 32) : FmtEsy :=
  { eng := bits w 23 3, sa := bits w 17 6, mask := bits w 2 4, hold := bits w 0 2 }

/-- A row whose bits in `mask` are fixed zeros (R44). -/
def zeros (w mask : BitVec 32) (i : Form) : Except DecodeError Form :=
  if w &&& mask = 0#32 then .ok i else .error .nonZeroField

/-- Major 0x01. -/
def decode01 (w : BitVec 32) : Except DecodeError Form :=
  match (bits w 2 6).toNat with
  | 0 => .ok (.r .add (FmtR.unpack w))
  | 1 => .ok (.r .sub (FmtR.unpack w))
  | 2 => .ok (.r .and (FmtR.unpack w))
  | 3 => .ok (.r .or (FmtR.unpack w))
  | 4 => .ok (.r .xor (FmtR.unpack w))
  | 5 => .ok (.r .andn (FmtR.unpack w))
  | 6 => .ok (.r .orn (FmtR.unpack w))
  | 8 => .ok (.r .sll (FmtR.unpack w))
  | 9 => .ok (.r .srl (FmtR.unpack w))
  | 10 => .ok (.r .sra (FmtR.unpack w))
  | 11 => .ok (.r .rol (FmtR.unpack w))
  | 12 => .ok (.r .ror (FmtR.unpack w))
  | 16 => .ok (.r .min (FmtR.unpack w))
  | 17 => .ok (.r .max (FmtR.unpack w))
  | 18 => .ok (.r .minu (FmtR.unpack w))
  | 19 => .ok (.r .maxu (FmtR.unpack w))
  | 20 => .ok (.r .adds (FmtR.unpack w))
  | 21 => .ok (.r .subs (FmtR.unpack w))
  | 22 => .ok (.r .addus (FmtR.unpack w))
  | 23 => .ok (.r .subus (FmtR.unpack w))
  | 24 => .ok (.r .clz (FmtR.unpack w))
  | 25 => .ok (.r .ctz (FmtR.unpack w))
  | 26 => .ok (.r .popc (FmtR.unpack w))
  | 27 => .ok (.r .bswap (FmtR.unpack w))
  | 28 => .ok (.r .abs (FmtR.unpack w))
  | _ => .error .functionCode
/-- Major 0x02. -/
def decode02 (w : BitVec 32) : Except DecodeError Form :=
  .ok (.i .addi (FmtI.unpack w))
/-- Major 0x03. -/
def decode03 (w : BitVec 32) : Except DecodeError Form :=
  .ok (.i .andi (FmtI.unpack w))
/-- Major 0x04. -/
def decode04 (w : BitVec 32) : Except DecodeError Form :=
  .ok (.i .ori (FmtI.unpack w))
/-- Major 0x05. -/
def decode05 (w : BitVec 32) : Except DecodeError Form :=
  .ok (.i .xori (FmtI.unpack w))
/-- Major 0x06. -/
def decode06 (w : BitVec 32) : Except DecodeError Form :=
  match (bits w 12 2).toNat with
  | 0 => zeros w 0xf00#32 (.sh .slli (FmtSh.unpack w))
  | 1 => zeros w 0xf00#32 (.sh .srli (FmtSh.unpack w))
  | 2 => zeros w 0xf00#32 (.sh .srai (FmtSh.unpack w))
  | 3 => zeros w 0xf00#32 (.sh .rori (FmtSh.unpack w))
  | _ => .error .functionCode
/-- Major 0x07. -/
def decode07 (w : BitVec 32) : Except DecodeError Form :=
  match (bits w 12 2).toNat with
  | 0 => .ok (.slt .slti (FmtSlt.unpack w))
  | 1 => .ok (.slt .sltiu (FmtSlt.unpack w))
  | 2 => .ok (.slt .seqi (FmtSlt.unpack w))
  | 3 => .ok (.slt .snei (FmtSlt.unpack w))
  | _ => .error .functionCode
/-- Major 0x08. -/
def decode08 (w : BitVec 32) : Except DecodeError Form :=
  .ok (.k (FmtK.unpack w))
/-- Major 0x09. -/
def decode09 (w : BitVec 32) : Except DecodeError Form :=
  .ok (.bF .bfxu (FmtBF.unpack w))
/-- Major 0x0a. -/
def decode0a (w : BitVec 32) : Except DecodeError Form :=
  .ok (.bF .bfxs (FmtBF.unpack w))
/-- Major 0x0b. -/
def decode0b (w : BitVec 32) : Except DecodeError Form :=
  .ok (.bF .bfi (FmtBF.unpack w))
/-- Major 0x0c. -/
def decode0c (w : BitVec 32) : Except DecodeError Form :=
  match (bits w 2 6).toNat with
  | 0 => .ok (.r .mul (FmtR.unpack w))
  | 1 => .ok (.r .mulh (FmtR.unpack w))
  | 2 => .ok (.r .mulhu (FmtR.unpack w))
  | 3 => .ok (.r .mulhsu (FmtR.unpack w))
  | 4 => .ok (.r .div (FmtR.unpack w))
  | 5 => .ok (.r .divu (FmtR.unpack w))
  | 6 => .ok (.r .rem (FmtR.unpack w))
  | 7 => .ok (.r .remu (FmtR.unpack w))
  | _ => .error .functionCode
/-- Major 0x0d. -/
def decode0d (w : BitVec 32) : Except DecodeError Form :=
  match (bits w 2 6).toNat with
  | 0 => .ok (.r .cmpeq (FmtR.unpack w))
  | 1 => .ok (.r .cmpne (FmtR.unpack w))
  | 2 => .ok (.r .cmplt (FmtR.unpack w))
  | 3 => .ok (.r .cmpge (FmtR.unpack w))
  | 4 => .ok (.r .cmpltu (FmtR.unpack w))
  | 5 => .ok (.r .cmpgeu (FmtR.unpack w))
  | 8 => .ok (.r .csel (FmtR.unpack w))
  | 9 => .ok (.r .cmovz (FmtR.unpack w))
  | 10 => .ok (.r .cmovnz (FmtR.unpack w))
  | _ => .error .functionCode
/-- Major 0x12. -/
def decode12 (w : BitVec 32) : Except DecodeError Form :=
  match (bits w 3 5).toNat with
  | 0 => .ok (.fR .fadd (FmtFR.unpack w))
  | 1 => .ok (.fR .fadd (FmtFR.unpack w))
  | 2 => .ok (.fR .fadd (FmtFR.unpack w))
  | 3 => .ok (.fR .fadd (FmtFR.unpack w))
  | 4 => .ok (.fR .fadd (FmtFR.unpack w))
  | 5 => .ok (.fR .fsub (FmtFR.unpack w))
  | 6 => .ok (.fR .fsub (FmtFR.unpack w))
  | 7 => .ok (.fR .fsub (FmtFR.unpack w))
  | 8 => .ok (.fR .fsub (FmtFR.unpack w))
  | 9 => .ok (.fR .fsub (FmtFR.unpack w))
  | 10 => .ok (.fR .fmul (FmtFR.unpack w))
  | 11 => .ok (.fR .fmul (FmtFR.unpack w))
  | 12 => .ok (.fR .fmul (FmtFR.unpack w))
  | 13 => .ok (.fR .fmul (FmtFR.unpack w))
  | 14 => .ok (.fR .fmul (FmtFR.unpack w))
  | 15 => .ok (.fR .fdiv (FmtFR.unpack w))
  | 16 => .ok (.fR .fdiv (FmtFR.unpack w))
  | 17 => .ok (.fR .fdiv (FmtFR.unpack w))
  | 18 => .ok (.fR .fdiv (FmtFR.unpack w))
  | 19 => .ok (.fR .fdiv (FmtFR.unpack w))
  | 20 => .ok (.fR .fsqrt (FmtFR.unpack w))
  | 21 => .ok (.fR .fsqrt (FmtFR.unpack w))
  | 22 => .ok (.fR .fsqrt (FmtFR.unpack w))
  | 23 => .ok (.fR .fsqrt (FmtFR.unpack w))
  | 24 => .ok (.fR .fsqrt (FmtFR.unpack w))
  | 25 => .ok (.fT .fmin (FmtFT.unpack w))
  | 26 => .ok (.fT .fmax (FmtFT.unpack w))
  | 27 => .ok (.fT .fsgnj (FmtFT.unpack w))
  | 28 => .ok (.fT .fsgnjn (FmtFT.unpack w))
  | 29 => .ok (.fT .fsgnjx (FmtFT.unpack w))
  | 30 => .ok (.fT .fclass (FmtFT.unpack w))
  | _ => .error .functionCode
/-- Major 0x13. -/
def decode13 (w : BitVec 32) : Except DecodeError Form :=
  match (bits w 3 5).toNat with
  | 0 => .ok (.fR .fmadd (FmtFR.unpack w))
  | 1 => .ok (.fR .fmadd (FmtFR.unpack w))
  | 2 => .ok (.fR .fmadd (FmtFR.unpack w))
  | 3 => .ok (.fR .fmadd (FmtFR.unpack w))
  | 4 => .ok (.fR .fmadd (FmtFR.unpack w))
  | 5 => .ok (.fR .fmsub (FmtFR.unpack w))
  | 6 => .ok (.fR .fmsub (FmtFR.unpack w))
  | 7 => .ok (.fR .fmsub (FmtFR.unpack w))
  | 8 => .ok (.fR .fmsub (FmtFR.unpack w))
  | 9 => .ok (.fR .fmsub (FmtFR.unpack w))
  | 10 => .ok (.fR .fnmsub (FmtFR.unpack w))
  | 11 => .ok (.fR .fnmsub (FmtFR.unpack w))
  | 12 => .ok (.fR .fnmsub (FmtFR.unpack w))
  | 13 => .ok (.fR .fnmsub (FmtFR.unpack w))
  | 14 => .ok (.fR .fnmsub (FmtFR.unpack w))
  | 15 => .ok (.fR .fnmadd (FmtFR.unpack w))
  | 16 => .ok (.fR .fnmadd (FmtFR.unpack w))
  | 17 => .ok (.fR .fnmadd (FmtFR.unpack w))
  | 18 => .ok (.fR .fnmadd (FmtFR.unpack w))
  | 19 => .ok (.fR .fnmadd (FmtFR.unpack w))
  | _ => .error .functionCode
/-- Major 0x14. -/
def decode14 (w : BitVec 32) : Except DecodeError Form :=
  match (bits w 3 3).toNat with
  | 0 => .ok (.c .faddc (FmtC.unpack w))
  | 1 => .ok (.c .fsubc (FmtC.unpack w))
  | 2 => .ok (.c .frsubc (FmtC.unpack w))
  | 3 => .ok (.c .fmulc (FmtC.unpack w))
  | 4 => .ok (.c .fmulac (FmtC.unpack w))
  | 5 => .ok (.c .fmacc (FmtC.unpack w))
  | 6 => .ok (.c .fldc (FmtC.unpack w))
  | _ => .error .functionCode
/-- Major 0x15. -/
def decode15 (w : BitVec 32) : Except DecodeError Form :=
  .ok (.f20 (FmtF20.unpack w))
/-- Major 0x16. -/
def decode16 (w : BitVec 32) : Except DecodeError Form :=
  .ok (.cvt (FmtCvt.unpack w))
/-- Major 0x17. -/
def decode17 (w : BitVec 32) : Except DecodeError Form :=
  match (bits w 3 5).toNat with
  | 0 => .ok (.fT .feq (FmtFT.unpack w))
  | 1 => .ok (.fT .fne (FmtFT.unpack w))
  | 2 => .ok (.fT .flt (FmtFT.unpack w))
  | 3 => .ok (.fT .fle (FmtFT.unpack w))
  | 4 => .ok (.fT .funord (FmtFT.unpack w))
  | _ => .error .functionCode
/-- Major 0x18. -/
def decode18 (w : BitVec 32) : Except DecodeError Form :=
  .ok (.m .ld (FmtM.unpack w))
/-- Major 0x19. -/
def decode19 (w : BitVec 32) : Except DecodeError Form :=
  .ok (.m .st (FmtM.unpack w))
/-- Major 0x1a. -/
def decode1a (w : BitVec 32) : Except DecodeError Form :=
  let k := (bits w 2 6).toNat
  if k < 16 then .ok (.x .ldx (FmtX.unpack w))
    else if k < 32 then .ok (.x .stx (FmtX.unpack w))
    else if k < 48 then .ok (.x .ldxSx (FmtX.unpack w))
    else if k = 48 then .ok (.r .bfxur (FmtR.unpack w))
    else if k = 49 then .ok (.r .bfxsr (FmtR.unpack w))
    else if k = 50 then .ok (.r .bfir (FmtR.unpack w))
    else .error .functionCode
/-- Major 0x1b. -/
def decode1b (w : BitVec 32) : Except DecodeError Form :=
  match (bits w 5 3).toNat with
  | 0 => .ok (.amo .amoswap (FmtAmo.unpack w))
  | 1 => .ok (.amo .amoadd (FmtAmo.unpack w))
  | 2 => .ok (.amo .amoand (FmtAmo.unpack w))
  | 3 => .ok (.amo .amoor (FmtAmo.unpack w))
  | 4 => .ok (.amo .amomax (FmtAmo.unpack w))
  | 5 => .ok (.amo .amomin (FmtAmo.unpack w))
  | 6 => .ok (.amo .amomaxu (FmtAmo.unpack w))
  | 7 => .ok (.amo .cas (FmtAmo.unpack w))
  | _ => .error .functionCode
/-- Major 0x1c. -/
def decode1c (w : BitVec 32) : Except DecodeError Form :=
  match (bits w 22 4).toNat with
  | 0 => .ok (.b .beqz (FmtB.unpack w))
  | 1 => .ok (.b .bnez (FmtB.unpack w))
  | 2 => .ok (.b .bltz (FmtB.unpack w))
  | 3 => .ok (.b .bgez (FmtB.unpack w))
  | 4 => .ok (.b .bgtz (FmtB.unpack w))
  | 5 => .ok (.b .blez (FmtB.unpack w))
  | 6 => .ok (.b .beven (FmtB.unpack w))
  | 7 => .ok (.b .bodd (FmtB.unpack w))
  | _ => .error .functionCode
/-- Major 0x1d. -/
def decode1d (w : BitVec 32) : Except DecodeError Form :=
  .ok (.j .j (FmtJ.unpack w))
/-- Major 0x1e. -/
def decode1e (w : BitVec 32) : Except DecodeError Form :=
  .ok (.j .jl (FmtJ.unpack w))
/-- Major 0x1f. -/
def decode1f (w : BitVec 32) : Except DecodeError Form :=
  match (bits w 2 6).toNat with
  | 0 => .ok (.r .jr (FmtR.unpack w))
  | 1 => .ok (.r .jlr (FmtR.unpack w))
  | 2 => .ok (.r .ret (FmtR.unpack w))
  | _ => .error .functionCode
/-- Major 0x20. -/
def decode20 (w : BitVec 32) : Except DecodeError Form :=
  match (bits w 8 3).toNat with
  | 0 => zeros w 0xfc#32 (.sC .scene (FmtSC.unpack w))
  | 1 => zeros w 0xfc#32 (.sC .sceneChk (FmtSC.unpack w))
  | 6 => zeros w 0xfc#32 (.sC .redo (FmtSC.unpack w))
  | 7 => zeros w 0xfc#32 (.sC .commit (FmtSC.unpack w))
  | _ => .error .functionCode
/-- Major 0x21. -/
def decode21 (w : BitVec 32) : Except DecodeError Form :=
  match (bits w 18 8).toNat with
  | 0 => .ok (.s .nop (FmtS.unpack w))
  | 1 => .ok (.s .halt (FmtS.unpack w))
  | 2 => .ok (.s .crd (FmtS.unpack w))
  | 3 => .ok (.s .cwr (FmtS.unpack w))
  | 4 => .ok (.s .cbw (FmtS.unpack w))
  | 5 => .ok (.s .cbrd (FmtS.unpack w))
  | 6 => .ok (.s .cbld (FmtS.unpack w))
  | 64 => .ok (.ord .ldAcq (FmtOrd.unpack w))
  | 65 => .ok (.ord .ldAcq (FmtOrd.unpack w))
  | 66 => .ok (.ord .ldAcq (FmtOrd.unpack w))
  | 67 => .ok (.ord .ldAcq (FmtOrd.unpack w))
  | 68 => .ok (.ord .ldAcq (FmtOrd.unpack w))
  | 69 => .ok (.ord .ldAcq (FmtOrd.unpack w))
  | 70 => .ok (.ord .ldAcq (FmtOrd.unpack w))
  | 71 => .ok (.ord .ldAcq (FmtOrd.unpack w))
  | 72 => .ok (.ord .stRel (FmtOrd.unpack w))
  | 73 => .ok (.ord .stRel (FmtOrd.unpack w))
  | 74 => .ok (.ord .stRel (FmtOrd.unpack w))
  | 75 => .ok (.ord .stRel (FmtOrd.unpack w))
  | 76 => .ok (.ord .stRel (FmtOrd.unpack w))
  | 77 => .ok (.ord .stRel (FmtOrd.unpack w))
  | 78 => .ok (.ord .stRel (FmtOrd.unpack w))
  | 79 => .ok (.ord .stRel (FmtOrd.unpack w))
  | 80 => .ok (.s .lut4ld (FmtS.unpack w))
  | 81 => .ok (.s .bfset (FmtS.unpack w))
  | 82 => .ok (.s .bfrd (FmtS.unpack w))
  | 83 => if (bits w 5 2).toNat = 1 then .ok (.s .prefL2 (FmtS.unpack w)) else .ok (.s .prefL1 (FmtS.unpack w))
  | 84 => if (bits w 5 2).toNat = 1 then .ok (.s .mhintHome (FmtS.unpack w)) else if (bits w 5 2).toNat = 2 then .ok (.s .mhintPage (FmtS.unpack w)) else .ok (.s .mhintNear (FmtS.unpack w))
  | _ => .error .functionCode
/-- Major 0x22. -/
def decode22 (w : BitVec 32) : Except DecodeError Form :=
  match (bits w 2 6).toNat with
  | 0 => .ok (.r .spawn (FmtR.unpack w))
  | 1 => .ok (.r .join (FmtR.unpack w))
  | 2 => .ok (.r .suspend (FmtR.unpack w))
  | 3 => .ok (.r .yield (FmtR.unpack w))
  | 4 => .ok (.r .exit (FmtR.unpack w))
  | 5 => .ok (.r .exitJ (FmtR.unpack w))
  | 6 => .ok (.r .wake (FmtR.unpack w))
  | 9 => .ok (.r .bar (FmtR.unpack w))
  | 10 => .ok (.r .chain (FmtR.unpack w))
  | 16 => zeros w 0x3f00#32 (.wid .widf (FmtWid.unpack w))
  | 17 => zeros w 0x3f00#32 (.wid .widf (FmtWid.unpack w))
  | 18 => zeros w 0x3f00#32 (.wid .widf (FmtWid.unpack w))
  | 19 => zeros w 0x3f00#32 (.wid .widf (FmtWid.unpack w))
  | 20 => zeros w 0x3f00#32 (.wid .widf (FmtWid.unpack w))
  | 21 => zeros w 0x3f00#32 (.wid .widf (FmtWid.unpack w))
  | 24 => zeros w 0x3f00#32 (.wid .widfr (FmtWid.unpack w))
  | 25 => zeros w 0x3f00#32 (.wid .widfr (FmtWid.unpack w))
  | 26 => zeros w 0x3f00#32 (.wid .widfr (FmtWid.unpack w))
  | 27 => zeros w 0x3f00#32 (.wid .widfr (FmtWid.unpack w))
  | 28 => zeros w 0x3f00#32 (.wid .widfr (FmtWid.unpack w))
  | 29 => zeros w 0x3f00#32 (.wid .widfr (FmtWid.unpack w))
  | _ => .error .functionCode
/-- Major 0x23. -/
def decode23 (w : BitVec 32) : Except DecodeError Form :=
  match (bits w 2 6).toNat with
  | 0 => .ok (.r .send (FmtR.unpack w))
  | 1 => .ok (.r .mclr (FmtR.unpack w))
  | 2 => .ok (.r .mwait (FmtR.unpack w))
  | 3 => .ok (.r .mwaitAny (FmtR.unpack w))
  | 16 => zeros w 0x3f00#32 (.rst .rst (FmtRst.unpack w))
  | 17 => zeros w 0x3f00#32 (.rst .rst (FmtRst.unpack w))
  | 18 => zeros w 0x3f00#32 (.rst .rst (FmtRst.unpack w))
  | 19 => zeros w 0x3f00#32 (.rst .rst (FmtRst.unpack w))
  | 20 => zeros w 0x3f00#32 (.rst .rstA (FmtRst.unpack w))
  | 21 => zeros w 0x3f00#32 (.rst .rstA (FmtRst.unpack w))
  | 22 => zeros w 0x3f00#32 (.rst .rstA (FmtRst.unpack w))
  | 23 => zeros w 0x3f00#32 (.rst .rstA (FmtRst.unpack w))
  | 24 => zeros w 0x2003f00#32 (.rsv .rstv (FmtRsv.unpack w))
  | 25 => zeros w 0x2003f00#32 (.rsv .rstvA (FmtRsv.unpack w))
  | _ => .error .functionCode
/-- Major 0x24. -/
def decode24 (w : BitVec 32) : Except DecodeError Form :=
  match (bits w 18 8).toNat with
  | 0 => .ok (.s .gang (FmtS.unpack w))
  | 1 => .ok (.s .ungang (FmtS.unpack w))
  | _ => .error .functionCode
/-- Major 0x25. -/
def decode25 (w : BitVec 32) : Except DecodeError Form :=
  match (bits w 18 8).toNat with
  | 0 => zeros w 0x3fffc#32 (.fence .fenceAcq (FmtFence.unpack w))
  | 1 => zeros w 0x3fffc#32 (.fence .fenceAcq (FmtFence.unpack w))
  | 2 => zeros w 0x3fffc#32 (.fence .fenceAcq (FmtFence.unpack w))
  | 3 => zeros w 0x3fffc#32 (.fence .fenceAcq (FmtFence.unpack w))
  | 4 => zeros w 0x3fffc#32 (.fence .fenceAcq (FmtFence.unpack w))
  | 5 => zeros w 0x3fffc#32 (.fence .fenceAcq (FmtFence.unpack w))
  | 6 => zeros w 0x3fffc#32 (.fence .fenceAcq (FmtFence.unpack w))
  | 7 => zeros w 0x3fffc#32 (.fence .fenceAcq (FmtFence.unpack w))
  | 8 => zeros w 0x3fffc#32 (.fence .fenceAcq (FmtFence.unpack w))
  | 9 => zeros w 0x3fffc#32 (.fence .fenceAcq (FmtFence.unpack w))
  | 10 => zeros w 0x3fffc#32 (.fence .fenceAcq (FmtFence.unpack w))
  | 11 => zeros w 0x3fffc#32 (.fence .fenceAcq (FmtFence.unpack w))
  | 16 => zeros w 0x3fffc#32 (.fence .fenceRel (FmtFence.unpack w))
  | 17 => zeros w 0x3fffc#32 (.fence .fenceRel (FmtFence.unpack w))
  | 18 => zeros w 0x3fffc#32 (.fence .fenceRel (FmtFence.unpack w))
  | 19 => zeros w 0x3fffc#32 (.fence .fenceRel (FmtFence.unpack w))
  | 20 => zeros w 0x3fffc#32 (.fence .fenceRel (FmtFence.unpack w))
  | 21 => zeros w 0x3fffc#32 (.fence .fenceRel (FmtFence.unpack w))
  | 22 => zeros w 0x3fffc#32 (.fence .fenceRel (FmtFence.unpack w))
  | 23 => zeros w 0x3fffc#32 (.fence .fenceRel (FmtFence.unpack w))
  | 24 => zeros w 0x3fffc#32 (.fence .fenceRel (FmtFence.unpack w))
  | 25 => zeros w 0x3fffc#32 (.fence .fenceRel (FmtFence.unpack w))
  | 26 => zeros w 0x3fffc#32 (.fence .fenceRel (FmtFence.unpack w))
  | 27 => zeros w 0x3fffc#32 (.fence .fenceRel (FmtFence.unpack w))
  | 32 => zeros w 0x3fffc#32 (.fence .fenceFull (FmtFence.unpack w))
  | 33 => zeros w 0x3fffc#32 (.fence .fenceFull (FmtFence.unpack w))
  | 34 => zeros w 0x3fffc#32 (.fence .fenceFull (FmtFence.unpack w))
  | 35 => zeros w 0x3fffc#32 (.fence .fenceFull (FmtFence.unpack w))
  | 36 => zeros w 0x3fffc#32 (.fence .fenceFull (FmtFence.unpack w))
  | 37 => zeros w 0x3fffc#32 (.fence .fenceFull (FmtFence.unpack w))
  | 38 => zeros w 0x3fffc#32 (.fence .fenceFull (FmtFence.unpack w))
  | 39 => zeros w 0x3fffc#32 (.fence .fenceFull (FmtFence.unpack w))
  | 40 => zeros w 0x3fffc#32 (.fence .fenceFull (FmtFence.unpack w))
  | 41 => zeros w 0x3fffc#32 (.fence .fenceFull (FmtFence.unpack w))
  | 42 => zeros w 0x3fffc#32 (.fence .fenceFull (FmtFence.unpack w))
  | 43 => zeros w 0x3fffc#32 (.fence .fenceFull (FmtFence.unpack w))
  | 48 => zeros w 0xffc#32 (.qf (FmtQf.unpack w))
  | 49 => zeros w 0xffc#32 (.qf (FmtQf.unpack w))
  | 50 => zeros w 0xffc#32 (.qf (FmtQf.unpack w))
  | 51 => zeros w 0xffc#32 (.qf (FmtQf.unpack w))
  | 52 => zeros w 0xffc#32 (.qf (FmtQf.unpack w))
  | 53 => zeros w 0xffc#32 (.qf (FmtQf.unpack w))
  | 54 => zeros w 0xffc#32 (.qf (FmtQf.unpack w))
  | 55 => zeros w 0xffc#32 (.qf (FmtQf.unpack w))
  | 56 => .ok (.s .qfenceAll (FmtS.unpack w))
  | _ => .error .functionCode
/-- Major 0x26. -/
def decode26 (w : BitVec 32) : Except DecodeError Form :=
  match (bits w 2 6).toNat with
  | 0 => .ok (.v .vadd (FmtV.unpack w))
  | 1 => .ok (.v .vsub (FmtV.unpack w))
  | 2 => .ok (.v .vmul (FmtV.unpack w))
  | 3 => .ok (.v .vmulh (FmtV.unpack w))
  | 4 => .ok (.v .vmulhu (FmtV.unpack w))
  | 5 => .ok (.v .vand (FmtV.unpack w))
  | 6 => .ok (.v .vor (FmtV.unpack w))
  | 7 => .ok (.v .vxor (FmtV.unpack w))
  | 8 => .ok (.v .vsll (FmtV.unpack w))
  | 9 => .ok (.v .vsrl (FmtV.unpack w))
  | 10 => .ok (.v .vsra (FmtV.unpack w))
  | 11 => .ok (.v .vmin (FmtV.unpack w))
  | 12 => .ok (.v .vmax (FmtV.unpack w))
  | 13 => .ok (.v .vminu (FmtV.unpack w))
  | 14 => .ok (.v .vmaxu (FmtV.unpack w))
  | 15 => .ok (.v .vadds (FmtV.unpack w))
  | 16 => .ok (.v .vsubs (FmtV.unpack w))
  | 17 => .ok (.v .vaddus (FmtV.unpack w))
  | 18 => .ok (.v .vsubus (FmtV.unpack w))
  | 19 => .ok (.v .vabs (FmtV.unpack w))
  | 20 => .ok (.v .vsel (FmtV.unpack w))
  | 24 => .ok (.v .vcmpeq (FmtV.unpack w))
  | 25 => .ok (.v .vcmpne (FmtV.unpack w))
  | 26 => .ok (.v .vcmplt (FmtV.unpack w))
  | 27 => .ok (.v .vcmpge (FmtV.unpack w))
  | 28 => .ok (.v .vcmpltu (FmtV.unpack w))
  | 29 => .ok (.v .vcmpgeu (FmtV.unpack w))
  | _ => .error .functionCode
/-- Major 0x27. -/
def decode27 (w : BitVec 32) : Except DecodeError Form :=
  match (bits w 2 6).toNat with
  | 0 => .ok (.vF .vfadd (FmtVF.unpack w))
  | 1 => .ok (.vF .vfadd (FmtVF.unpack w))
  | 2 => .ok (.vF .vfadd (FmtVF.unpack w))
  | 3 => .ok (.vF .vfadd (FmtVF.unpack w))
  | 4 => .ok (.vF .vfadd (FmtVF.unpack w))
  | 5 => .ok (.vF .vfsub (FmtVF.unpack w))
  | 6 => .ok (.vF .vfsub (FmtVF.unpack w))
  | 7 => .ok (.vF .vfsub (FmtVF.unpack w))
  | 8 => .ok (.vF .vfsub (FmtVF.unpack w))
  | 9 => .ok (.vF .vfsub (FmtVF.unpack w))
  | 10 => .ok (.vF .vfmul (FmtVF.unpack w))
  | 11 => .ok (.vF .vfmul (FmtVF.unpack w))
  | 12 => .ok (.vF .vfmul (FmtVF.unpack w))
  | 13 => .ok (.vF .vfmul (FmtVF.unpack w))
  | 14 => .ok (.vF .vfmul (FmtVF.unpack w))
  | 15 => .ok (.vF .vfdiv (FmtVF.unpack w))
  | 16 => .ok (.vF .vfdiv (FmtVF.unpack w))
  | 17 => .ok (.vF .vfdiv (FmtVF.unpack w))
  | 18 => .ok (.vF .vfdiv (FmtVF.unpack w))
  | 19 => .ok (.vF .vfdiv (FmtVF.unpack w))
  | 20 => .ok (.vF .vfsqrt (FmtVF.unpack w))
  | 21 => .ok (.vF .vfsqrt (FmtVF.unpack w))
  | 22 => .ok (.vF .vfsqrt (FmtVF.unpack w))
  | 23 => .ok (.vF .vfsqrt (FmtVF.unpack w))
  | 24 => .ok (.vF .vfsqrt (FmtVF.unpack w))
  | 25 => .ok (.vF .vfmadd (FmtVF.unpack w))
  | 26 => .ok (.vF .vfmadd (FmtVF.unpack w))
  | 27 => .ok (.vF .vfmadd (FmtVF.unpack w))
  | 28 => .ok (.vF .vfmadd (FmtVF.unpack w))
  | 29 => .ok (.vF .vfmadd (FmtVF.unpack w))
  | 30 => .ok (.vF .vfmsub (FmtVF.unpack w))
  | 31 => .ok (.vF .vfmsub (FmtVF.unpack w))
  | 32 => .ok (.vF .vfmsub (FmtVF.unpack w))
  | 33 => .ok (.vF .vfmsub (FmtVF.unpack w))
  | 34 => .ok (.vF .vfmsub (FmtVF.unpack w))
  | 35 => .ok (.vF .vfnmsub (FmtVF.unpack w))
  | 36 => .ok (.vF .vfnmsub (FmtVF.unpack w))
  | 37 => .ok (.vF .vfnmsub (FmtVF.unpack w))
  | 38 => .ok (.vF .vfnmsub (FmtVF.unpack w))
  | 39 => .ok (.vF .vfnmsub (FmtVF.unpack w))
  | 40 => .ok (.v .vfmin (FmtV.unpack w))
  | 41 => .ok (.v .vfmax (FmtV.unpack w))
  | 42 => .ok (.v .vfabs (FmtV.unpack w))
  | 43 => .ok (.v .vfneg (FmtV.unpack w))
  | 44 => .ok (.v .vfsgnj (FmtV.unpack w))
  | 48 => .ok (.v .vfeq (FmtV.unpack w))
  | 49 => .ok (.v .vflt (FmtV.unpack w))
  | 50 => .ok (.v .vfle (FmtV.unpack w))
  | 51 => .ok (.v .vfun (FmtV.unpack w))
  | _ => .error .functionCode
/-- Major 0x28. -/
def decode28 (w : BitVec 32) : Except DecodeError Form :=
  match (bits w 2 5).toNat with
  | 0 => .ok (.vS .vaddVs (FmtVS.unpack w))
  | 1 => .ok (.vS .vsubVs (FmtVS.unpack w))
  | 2 => .ok (.vS .vrsubVs (FmtVS.unpack w))
  | 3 => .ok (.vS .vmulVs (FmtVS.unpack w))
  | 4 => .ok (.vS .vandVs (FmtVS.unpack w))
  | 5 => .ok (.vS .vorVs (FmtVS.unpack w))
  | 6 => .ok (.vS .vxorVs (FmtVS.unpack w))
  | 7 => .ok (.vS .vsllVs (FmtVS.unpack w))
  | 8 => .ok (.vS .vsrlVs (FmtVS.unpack w))
  | 9 => .ok (.vS .vsraVs (FmtVS.unpack w))
  | 10 => .ok (.vS .vminVs (FmtVS.unpack w))
  | 11 => .ok (.vS .vmaxVs (FmtVS.unpack w))
  | 12 => .ok (.vS .vcvtn (FmtVS.unpack w))
  | 13 => .ok (.vS .vcvtw (FmtVS.unpack w))
  | 16 => .ok (.vS .vfaddVs (FmtVS.unpack w))
  | 17 => .ok (.vS .vfsubVs (FmtVS.unpack w))
  | 18 => .ok (.vS .vfrsubVs (FmtVS.unpack w))
  | 19 => .ok (.vS .vfmulVs (FmtVS.unpack w))
  | 20 => .ok (.vS .vfmaddVs (FmtVS.unpack w))
  | 21 => .ok (.vS .vfminVs (FmtVS.unpack w))
  | 22 => .ok (.vS .vfmaxVs (FmtVS.unpack w))
  | 23 => .ok (.vS .vmovVs (FmtVS.unpack w))
  | 24 => .ok (.vS .vcmpeqVs (FmtVS.unpack w))
  | 25 => .ok (.vS .vcmpltVs (FmtVS.unpack w))
  | 26 => .ok (.vS .vcmpltuVs (FmtVS.unpack w))
  | 27 => .ok (.vS .vfeqVs (FmtVS.unpack w))
  | 28 => .ok (.vS .vfltVs (FmtVS.unpack w))
  | 29 => .ok (.vS .vfleVs (FmtVS.unpack w))
  | _ => .error .functionCode
/-- The reductions of major 0x29: the kind stands in bits 25:21 (R219). -/
def decode29Red (w : BitVec 32) : Except DecodeError Form :=
  match (bits w 21 5).toNat with
  | 0 => .ok (.vr .vredadd (FmtVr.unpack w))
  | 1 => .ok (.vr .vredmin (FmtVr.unpack w))
  | 2 => .ok (.vr .vredmax (FmtVr.unpack w))
  | 3 => .ok (.vr .vredminu (FmtVr.unpack w))
  | 4 => .ok (.vr .vredmaxu (FmtVr.unpack w))
  | 5 => .ok (.vr .vredand (FmtVr.unpack w))
  | 6 => .ok (.vr .vredor (FmtVr.unpack w))
  | 7 => .ok (.vr .vredxor (FmtVr.unpack w))
  | 8 => .ok (.vr .vredfadd (FmtVr.unpack w))
  | 9 => .ok (.vr .vredfmin (FmtVr.unpack w))
  | 10 => .ok (.vr .vredfmax (FmtVr.unpack w))
  | 11 => .ok (.vr .vredfamax (FmtVr.unpack w))
  | _ => .error .functionCode
/-- Major 0x29. -/
def decode29 (w : BitVec 32) : Except DecodeError Form :=
  match (bits w 2 5).toNat with
  | 0 => .ok (.vM .vld (FmtVM.unpack w))
  | 1 => .ok (.vM .vld (FmtVM.unpack w))
  | 2 => .ok (.vM .vld (FmtVM.unpack w))
  | 3 => .ok (.vM .vld (FmtVM.unpack w))
  | 4 => .ok (.vM .vld (FmtVM.unpack w))
  | 5 => .ok (.vM .vld (FmtVM.unpack w))
  | 6 => .ok (.vM .vld (FmtVM.unpack w))
  | 7 => .ok (.vM .vld (FmtVM.unpack w))
  | 8 => .ok (.vM .vst (FmtVM.unpack w))
  | 9 => .ok (.vM .vst (FmtVM.unpack w))
  | 10 => .ok (.vM .vst (FmtVM.unpack w))
  | 11 => .ok (.vM .vst (FmtVM.unpack w))
  | 12 => .ok (.vM .vst (FmtVM.unpack w))
  | 13 => .ok (.vM .vst (FmtVM.unpack w))
  | 14 => .ok (.vM .vst (FmtVM.unpack w))
  | 15 => .ok (.vM .vst (FmtVM.unpack w))
  | 16 => .ok (.vG .vgather (FmtVG.unpack w))
  | 17 => .ok (.vG .vgather (FmtVG.unpack w))
  | 18 => .ok (.vG .vgather (FmtVG.unpack w))
  | 19 => .ok (.vG .vgather (FmtVG.unpack w))
  | 20 => .ok (.vG .vscatter (FmtVG.unpack w))
  | 21 => .ok (.vG .vscatter (FmtVG.unpack w))
  | 22 => .ok (.vG .vscatter (FmtVG.unpack w))
  | 23 => .ok (.vG .vscatter (FmtVG.unpack w))
  | 24 => .ok (.vS .vlds (FmtVS.unpack w))
  | 25 => .ok (.vS .vsts (FmtVS.unpack w))
  | 26 => .ok (.vS .vext (FmtVS.unpack w))
  | 27 => .ok (.vS .kmovs (FmtVS.unpack w))
  | 28 => .ok (.vS .kset (FmtVS.unpack w))
  | 29 => .ok (.vS .vstat (FmtVS.unpack w))
  | 30 => decode29Red w
  | 31 => .ok (.vS .vrot (FmtVS.unpack w))
  | _ => .error .functionCode
/-- Major 0x2a. -/
def decode2a (w : BitVec 32) : Except DecodeError Form :=
  match (bits w 2 6).toNat with
  | 0 => .ok (.v .vrcp (FmtV.unpack w))
  | 1 => .ok (.v .vrsqrt (FmtV.unpack w))
  | 2 => .ok (.v .vexp2 (FmtV.unpack w))
  | 3 => .ok (.v .vlog2 (FmtV.unpack w))
  | 4 => .ok (.v .vtanh (FmtV.unpack w))
  | 5 => .ok (.v .vsigm (FmtV.unpack w))
  | 6 => .ok (.v .vsinpi (FmtV.unpack w))
  | 7 => .ok (.v .vcospi (FmtV.unpack w))
  | 8 => .ok (.v .vperm (FmtV.unpack w))
  | 9 => .ok (.v .vmov (FmtV.unpack w))
  | 16 => .ok (.v .vcvtSI (FmtV.unpack w))
  | 17 => .ok (.v .vcvtIS (FmtV.unpack w))
  | 18 => .ok (.v .vcvtSH (FmtV.unpack w))
  | 19 => .ok (.v .vcvtHS (FmtV.unpack w))
  | 20 => .ok (.v .vcvtSBf (FmtV.unpack w))
  | 21 => .ok (.v .vcvtBfS (FmtV.unpack w))
  | 22 => .ok (.v .vcvtSU (FmtV.unpack w))
  | 23 => .ok (.v .vcvtUS (FmtV.unpack w))
  | 24 => .ok (.v .kand (FmtV.unpack w))
  | 25 => .ok (.v .kor (FmtV.unpack w))
  | 26 => .ok (.v .kxor (FmtV.unpack w))
  | 27 => .ok (.v .kandn (FmtV.unpack w))
  | 28 => .ok (.v .knot (FmtV.unpack w))
  | 29 => .ok (.v .vfence (FmtV.unpack w))
  | 32 => .ok (.v .vgmov (FmtV.unpack w))
  | 33 => .ok (.v .vgadd (FmtV.unpack w))
  | 34 => .ok (.v .vgfadd (FmtV.unpack w))
  | 35 => .ok (.v .vgfmax (FmtV.unpack w))
  | _ => .error .functionCode
/-- Engine 0 of major 0x2b. -/
def decode2bEng0 (w : BitVec 32) : Except DecodeError Form :=
  match (bits w 2 7).toNat with
  | 0 => .ok (.cop .mzero (FmtCop.unpack w))
  | 1 => .ok (.cop .mmaN (FmtCop.unpack w))
  | 2 => .ok (.cop .mmaH (FmtCop.unpack w))
  | 3 => .ok (.cop .mmaBf (FmtCop.unpack w))
  | 4 => .ok (.cop .mmaS (FmtCop.unpack w))
  | 8 => .ok (.cop .mdrain (FmtCop.unpack w))
  | 16 => .ok (.cop .mtask (FmtCop.unpack w))
  | _ => .error .functionCode
/-- Engine 1 of major 0x2b. -/
def decode2bEng1 (w : BitVec 32) : Except DecodeError Form :=
  match (bits w 2 6).toNat with
  | 0 => .ok (.cpy .cpy (FmtCpy.unpack w))
  | 1 => .ok (.cpy .cfill (FmtCpy.unpack w))
  | _ => .error .functionCode
/-- Engine 2 of major 0x2b. -/
def decode2bEng2 (w : BitVec 32) : Except DecodeError Form :=
  match (bits w 2 7).toNat with
  | 0 => .ok (.cop .ssamp (FmtCop.unpack w))
  | 1 => .ok (.cop .sdraw (FmtCop.unpack w))
  | _ => .error .functionCode
/-- Engine 3 of major 0x2b. -/
def decode2bEng3 (w : BitVec 32) : Except DecodeError Form :=
  match (bits w 2 7).toNat with
  | 0 => .ok (.cop .gstep (FmtCop.unpack w))
  | 1 => .ok (.cop .gmask (FmtCop.unpack w))
  | 2 => .ok (.cop .gflush (FmtCop.unpack w))
  | _ => .error .functionCode
/-- Engine 4 of major 0x2b. -/
def decode2bEng4 (w : BitVec 32) : Except DecodeError Form :=
  match (bits w 2 7).toNat with
  | 0 => .ok (.cop .sin (FmtCop.unpack w))
  | 1 => .ok (.cop .sadv (FmtCop.unpack w))
  | 2 => .ok (.cop .stok (FmtCop.unpack w))
  | 3 => .ok (.cop .sopen (FmtCop.unpack w))
  | _ => .error .functionCode
/-- Engine 5 of major 0x2b. -/
def decode2bEng5 (w : BitVec 32) : Except DecodeError Form :=
  match (bits w 2 7).toNat with
  | 0 => .ok (.cop .cpost (FmtCop.unpack w))
  | 1 => .ok (.cop .cpubl (FmtCop.unpack w))
  | 2 => .ok (.cop .cread (FmtCop.unpack w))
  | _ => .error .functionCode
/-- Engine 6 of major 0x2b. -/
def decode2bEng6 (w : BitVec 32) : Except DecodeError Form :=
  match (bits w 2 7).toNat with
  | 0 => .ok (.cop .evput (FmtCop.unpack w))
  | _ => .error .functionCode
/-- Engine 7 of major 0x2b. -/
def decode2bEng7 (w : BitVec 32) : Except DecodeError Form :=
  match (bits w 2 7).toNat with
  | 0 => .ok (.cop .csave (FmtCop.unpack w))
  | 1 => .ok (.cop .crestore (FmtCop.unpack w))
  | _ => .error .functionCode
/-- Major 0x2b. -/
def decode2b (w : BitVec 32) : Except DecodeError Form :=
  match (bits w 23 3).toNat with
  | 0 => decode2bEng0 w
  | 1 => decode2bEng1 w
  | 2 => decode2bEng2 w
  | 3 => decode2bEng3 w
  | 4 => decode2bEng4 w
  | 5 => decode2bEng5 w
  | 6 => decode2bEng6 w
  | _ => decode2bEng7 w
/-- Major 0x2c. -/
def decode2c (w : BitVec 32) : Except DecodeError Form :=
  match (bits w 11 6).toNat with
  | 0 => .ok (.cpw .copw (FmtCpw.unpack w))
  | 1 => .ok (.cpw .coprd (FmtCpw.unpack w))
  | 2 => zeros w 0x7c0#32 (.esy (FmtEsy.unpack w))
  | _ => .error .functionCode
/-- Major 0x2d. -/
def decode2d (w : BitVec 32) : Except DecodeError Form :=
  match (bits w 18 8).toNat with
  | 0 => .ok (.s .trap (FmtS.unpack w))
  | 1 => .ok (.s .rett (FmtS.unpack w))
  | 2 => .ok (.s .rettRedo (FmtS.unpack w))
  | 3 => .ok (.s .rettKill (FmtS.unpack w))
  | 4 => .ok (.s .swin (FmtS.unpack w))
  | 5 => .ok (.s .swinW (FmtS.unpack w))
  | 6 => .ok (.s .csfreeze (FmtS.unpack w))
  | 7 => .ok (.s .csthaw (FmtS.unpack w))
  | 8 => .ok (.s .seize (FmtS.unpack w))
  | 9 => .ok (.s .release (FmtS.unpack w))
  | _ => .error .functionCode

/-- Majors and function fields (R48, R49.1, R49.2) and the fixed zeros of the formats. -/
def decodeRaw (w : BitVec 32) : Except DecodeError Form :=
  match (bits w 26 6).toNat with
  | 1 => decode01 w
  | 2 => decode02 w
  | 3 => decode03 w
  | 4 => decode04 w
  | 5 => decode05 w
  | 6 => decode06 w
  | 7 => decode07 w
  | 8 => decode08 w
  | 9 => decode09 w
  | 10 => decode0a w
  | 11 => decode0b w
  | 12 => decode0c w
  | 13 => decode0d w
  | 18 => decode12 w
  | 19 => decode13 w
  | 20 => decode14 w
  | 21 => decode15 w
  | 22 => decode16 w
  | 23 => decode17 w
  | 24 => decode18 w
  | 25 => decode19 w
  | 26 => decode1a w
  | 27 => decode1b w
  | 28 => decode1c w
  | 29 => decode1d w
  | 30 => decode1e w
  | 31 => decode1f w
  | 32 => decode20 w
  | 33 => decode21 w
  | 34 => decode22 w
  | 35 => decode23 w
  | 36 => decode24 w
  | 37 => decode25 w
  | 38 => decode26 w
  | 39 => decode27 w
  | 40 => decode28 w
  | 41 => decode29 w
  | 42 => decode2a w
  | 43 => decode2b w
  | 44 => decode2c w
  | 45 => decode2d w
  | _ => .error .reservedMajor

/-- R49: a word is an instruction, or an illegal encoding for a named reason. -/
def decodeWord (w : BitVec 32) : Except DecodeError Form :=
  match decodeRaw w with
  | .error e => .error e
  | .ok i =>
    match i.check with
    | some e => .error e
    | none => .ok i

/-- What the word decodes to: an instruction's form, or ILLEGAL with the word (R49 to R51). -/
def decodeForm (w : BitVec 32) : Form :=
  match decodeWord w with
  | .ok i => i
  | .error _ => .illegal w

/-- The instruction a word decodes to. (`noncomputable` only because the compiler bounds the number of constructors
that carry fields; the kernel evaluates it, and the machine runs the form.) -/
noncomputable def decode (w : BitVec 32) : Instr := (decodeForm w).toInstr

/-- The four bytes of a word as they lie in memory, lowest address first (R9). -/
def wordBytes (w : BitVec 32) : List (BitVec 8) :=
  [w.extractLsb' 0 8, w.extractLsb' 8 8, w.extractLsb' 16 8, w.extractLsb' 24 8]

/-- The instruction word in the first four bytes, little-endian (R9), and the bytes after it. -/
def takeWord : List (BitVec 8) → Option (BitVec 32 × List (BitVec 8))
  | b0 :: b1 :: b2 :: b3 :: r => some (b3 ++ b2 ++ b1 ++ b0, r)
  | _ => none

/-- Decoding from bytes: total, with the rest of the bytes; none when four bytes are not there. -/
noncomputable def decodeBytes (bs : List (BitVec 8)) : Option (Instr × List (BitVec 8)) :=
  match takeWord bs with
  | some (w, r) => some (decode w, r)
  | none => none

/-- What the decoder reads from an instruction whose bits, numbered as spec/opcode_table.json numbers them, are `w`. -/
noncomputable def decodeTableWord (_nbits w : Nat) : Option Instr :=
  match decodeBytes (wordBytes (BitVec.ofNat 32 w)) with
  | some (i, _) => some i
  | none => none

/-! The encoder, from the same tables. -/

/-- The word of the R format. -/
def FmtR.pack (maj : BitVec 6) (fn : BitVec 6) (f : FmtR) : BitVec 32 :=
  maj ++ f.rd ++ f.ra ++ f.rb ++ fn ++ f.hold
/-- The word of the I format. -/
def FmtI.pack (maj : BitVec 6) (f : FmtI) : BitVec 32 :=
  maj ++ f.rd ++ f.ra ++ f.imm ++ f.hold
/-- The word of the Sh format. -/
def FmtSh.pack (maj : BitVec 6) (kind : BitVec 2) (f : FmtSh) : BitVec 32 :=
  maj ++ f.rd ++ f.ra ++ kind ++ 0#4 ++ f.amt ++ f.hold
/-- The word of the Slt format. -/
def FmtSlt.pack (maj : BitVec 6) (kind : BitVec 2) (f : FmtSlt) : BitVec 32 :=
  maj ++ f.rd ++ f.ra ++ kind ++ f.imm ++ f.hold
/-- The word of the K format. -/
def FmtK.pack (maj : BitVec 6) (f : FmtK) : BitVec 32 :=
  maj ++ f.rd ++ f.pos ++ f.imm ++ f.hold
/-- The word of the BF format. -/
def FmtBF.pack (maj : BitVec 6) (f : FmtBF) : BitVec 32 :=
  maj ++ f.rd ++ f.ra ++ f.off ++ f.wid ++ f.hold
/-- The word of the FR format. -/
def FmtFR.pack (maj : BitVec 6) (op : Nat) (f : FmtFR) : BitVec 32 :=
  maj ++ f.rd ++ f.ra ++ f.rb ++ BitVec.ofNat 5 (op * 5 + f.rnd.toIdx) ++ f.ty ++ f.hold
/-- The word of the FT format. -/
def FmtFT.pack (maj : BitVec 6) (code : BitVec 5) (f : FmtFT) : BitVec 32 :=
  maj ++ f.rd ++ f.ra ++ f.rb ++ code ++ f.ty ++ f.hold
/-- The word of the C format. -/
def FmtC.pack (maj : BitVec 6) (op : BitVec 3) (f : FmtC) : BitVec 32 :=
  maj ++ f.rd ++ f.ra ++ f.cb ++ op ++ f.ty ++ f.hold
/-- The word of the F20 format. -/
def FmtF20.pack (maj : BitVec 6) (f : FmtF20) : BitVec 32 :=
  maj ++ f.rd ++ f.f20
/-- The word of the Cvt format. -/
def FmtCvt.pack (maj : BitVec 6) (f : FmtCvt) : BitVec 32 :=
  maj ++ f.rd ++ f.ra ++ f.rb ++ f.dst ++ f.src ++ f.hold
/-- The word of the M format. -/
def FmtM.pack (maj : BitVec 6) (f : FmtM) : BitVec 32 :=
  maj ++ f.rd ++ f.ra ++ f.seg ++ f.sz ++ f.sx ++ f.imm ++ f.hold
/-- The word of the X format. -/
def FmtX.pack (maj : BitVec 6) (op : BitVec 2) (f : FmtX) : BitVec 32 :=
  maj ++ f.rd ++ f.ra ++ f.rb ++ op ++ f.seg ++ f.sz ++ f.hold
/-- The word of the Amo format. -/
def FmtAmo.pack (maj : BitVec 6) (op : BitVec 3) (f : FmtAmo) : BitVec 32 :=
  maj ++ f.rd ++ f.ra ++ f.rb ++ op ++ f.d ++ f.seg ++ f.hold
/-- The word of the B format. -/
def FmtB.pack (maj : BitVec 6) (cond : BitVec 4) (f : FmtB) : BitVec 32 :=
  maj ++ cond ++ f.ra ++ f.disp ++ f.hold
/-- The word of the J format. -/
def FmtJ.pack (maj : BitVec 6) (f : FmtJ) : BitVec 32 :=
  maj ++ f.disp ++ f.hold
/-- The word of the SC format. -/
def FmtSC.pack (maj : BitVec 6) (form : BitVec 3) (f : FmtSC) : BitVec 32 :=
  maj ++ f.mask ++ form ++ 0#6 ++ f.hold
/-- The word of the S format. -/
def FmtS.pack (maj : BitVec 6) (fn : BitVec 8) (f : FmtS) : BitVec 32 :=
  maj ++ fn ++ f.ra ++ f.imm ++ f.hold
/-- The word of the Ord format. -/
def FmtOrd.pack (maj : BitVec 6) (dir : BitVec 1) (f : FmtOrd) : BitVec 32 :=
  maj ++ 4#4 ++ dir ++ f.d ++ f.seg ++ f.ra ++ f.scope ++ f.rx ++ f.hold
/-- The word of the Fence format. -/
def FmtFence.pack (maj : BitVec 6) (kind : BitVec 4) (f : FmtFence) : BitVec 32 :=
  maj ++ kind ++ f.scope ++ 0#16 ++ f.hold
/-- The word of the Qf format. -/
def FmtQf.pack (maj : BitVec 6) (f : FmtQf) : BitVec 32 :=
  maj ++ 6#5 ++ f.eng ++ f.ra ++ 0#10 ++ f.hold
/-- The word of the Wid format. -/
def FmtWid.pack (maj : BitVec 6) (fnh : BitVec 3) (f : FmtWid) : BitVec 32 :=
  maj ++ f.rd ++ f.ra ++ 0#6 ++ fnh ++ f.k ++ f.hold
/-- The word of the Rst format. -/
def FmtRst.pack (maj : BitVec 6) (fnh : BitVec 4) (f : FmtRst) : BitVec 32 :=
  maj ++ f.rs ++ f.ra ++ 0#6 ++ fnh ++ f.sz ++ f.hold
/-- The word of the Rsv format. -/
def FmtRsv.pack (maj : BitVec 6) (fn : BitVec 6) (f : FmtRsv) : BitVec 32 :=
  maj ++ 0#1 ++ f.vs ++ f.ra ++ 0#6 ++ fn ++ f.hold
/-- The word of the V format. -/
def FmtV.pack (maj : BitVec 6) (fn : BitVec 6) (f : FmtV) : BitVec 32 :=
  maj ++ f.vd ++ f.va ++ f.vb ++ f.km ++ fn ++ f.hold
/-- The word of the VF format. -/
def FmtVF.pack (maj : BitVec 6) (op : Nat) (f : FmtVF) : BitVec 32 :=
  maj ++ f.vd ++ f.va ++ f.vb ++ f.km ++ BitVec.ofNat 6 (op * 5 + f.rnd.toIdx) ++ f.hold
/-- The word of the VS format. -/
def FmtVS.pack (maj : BitVec 6) (fn : BitVec 5) (f : FmtVS) : BitVec 32 :=
  maj ++ f.vd ++ f.va ++ f.sb ++ f.km ++ fn ++ f.hold
/-- The word of the VM format. -/
def FmtVM.pack (maj : BitVec 6) (fnh : BitVec 2) (f : FmtVM) : BitVec 32 :=
  maj ++ f.vd ++ f.va ++ f.sb ++ f.km ++ fnh ++ f.seg ++ f.hold
/-- The word of the VG format. -/
def FmtVG.pack (maj : BitVec 6) (fnh : BitVec 3) (f : FmtVG) : BitVec 32 :=
  maj ++ f.vd ++ f.va ++ f.sb ++ f.km ++ fnh ++ f.seg ++ f.hold
/-- The word of the Vr format. -/
def FmtVr.pack (maj : BitVec 6) (kind : BitVec 5) (f : FmtVr) : BitVec 32 :=
  maj ++ kind ++ f.va ++ f.sb ++ f.km ++ 0x1e#5 ++ f.hold
/-- The word of the Cop format. -/
def FmtCop.pack (maj : BitVec 6) (eng : BitVec 3) (op : BitVec 7) (f : FmtCop) : BitVec 32 :=
  maj ++ eng ++ f.sa ++ f.sb ++ f.q ++ op ++ f.hold
/-- The word of the Cpy format. -/
def FmtCpy.pack (maj : BitVec 6) (op : BitVec 6) (f : FmtCpy) : BitVec 32 :=
  maj ++ 1#3 ++ f.sa ++ f.sb ++ f.c ++ op ++ f.hold
/-- The word of the Cpw format. -/
def FmtCpw.pack (maj : BitVec 6) (sub : BitVec 6) (f : FmtCpw) : BitVec 32 :=
  maj ++ f.eng ++ f.sa ++ sub ++ f.n ++ f.hold
/-- The word of the Esy format. -/
def FmtEsy.pack (maj : BitVec 6) (f : FmtEsy) : BitVec 32 :=
  maj ++ f.eng ++ f.sa ++ 2#6 ++ 0#5 ++ f.mask ++ f.hold
/-- Major and function values of the operations of the R format. -/
def OpR.code : OpR → BitVec 6 × BitVec 6
  | .add => (0x01#6, 0x0#6)
  | .sub => (0x01#6, 0x1#6)
  | .and => (0x01#6, 0x2#6)
  | .or => (0x01#6, 0x3#6)
  | .xor => (0x01#6, 0x4#6)
  | .andn => (0x01#6, 0x5#6)
  | .orn => (0x01#6, 0x6#6)
  | .sll => (0x01#6, 0x8#6)
  | .srl => (0x01#6, 0x9#6)
  | .sra => (0x01#6, 0xa#6)
  | .rol => (0x01#6, 0xb#6)
  | .ror => (0x01#6, 0xc#6)
  | .min => (0x01#6, 0x10#6)
  | .max => (0x01#6, 0x11#6)
  | .minu => (0x01#6, 0x12#6)
  | .maxu => (0x01#6, 0x13#6)
  | .adds => (0x01#6, 0x14#6)
  | .subs => (0x01#6, 0x15#6)
  | .addus => (0x01#6, 0x16#6)
  | .subus => (0x01#6, 0x17#6)
  | .clz => (0x01#6, 0x18#6)
  | .ctz => (0x01#6, 0x19#6)
  | .popc => (0x01#6, 0x1a#6)
  | .bswap => (0x01#6, 0x1b#6)
  | .abs => (0x01#6, 0x1c#6)
  | .mul => (0x0c#6, 0x0#6)
  | .mulh => (0x0c#6, 0x1#6)
  | .mulhu => (0x0c#6, 0x2#6)
  | .mulhsu => (0x0c#6, 0x3#6)
  | .div => (0x0c#6, 0x4#6)
  | .divu => (0x0c#6, 0x5#6)
  | .rem => (0x0c#6, 0x6#6)
  | .remu => (0x0c#6, 0x7#6)
  | .cmpeq => (0x0d#6, 0x0#6)
  | .cmpne => (0x0d#6, 0x1#6)
  | .cmplt => (0x0d#6, 0x2#6)
  | .cmpge => (0x0d#6, 0x3#6)
  | .cmpltu => (0x0d#6, 0x4#6)
  | .cmpgeu => (0x0d#6, 0x5#6)
  | .csel => (0x0d#6, 0x8#6)
  | .cmovz => (0x0d#6, 0x9#6)
  | .cmovnz => (0x0d#6, 0xa#6)
  | .bfxur => (0x1a#6, 0x30#6)
  | .bfxsr => (0x1a#6, 0x31#6)
  | .bfir => (0x1a#6, 0x32#6)
  | .jr => (0x1f#6, 0x0#6)
  | .jlr => (0x1f#6, 0x1#6)
  | .ret => (0x1f#6, 0x2#6)
  | .spawn => (0x22#6, 0x0#6)
  | .join => (0x22#6, 0x1#6)
  | .suspend => (0x22#6, 0x2#6)
  | .yield => (0x22#6, 0x3#6)
  | .exit => (0x22#6, 0x4#6)
  | .exitJ => (0x22#6, 0x5#6)
  | .wake => (0x22#6, 0x6#6)
  | .bar => (0x22#6, 0x9#6)
  | .chain => (0x22#6, 0xa#6)
  | .send => (0x23#6, 0x0#6)
  | .mclr => (0x23#6, 0x1#6)
  | .mwait => (0x23#6, 0x2#6)
  | .mwaitAny => (0x23#6, 0x3#6)

/-- Major and function values of the operations of the I format. -/
def OpI.code : OpI → BitVec 6
  | .addi => 0x02#6
  | .andi => 0x03#6
  | .ori => 0x04#6
  | .xori => 0x05#6

/-- Major and function values of the operations of the Sh format. -/
def OpSh.code : OpSh → BitVec 6 × BitVec 2
  | .slli => (0x06#6, 0#2)
  | .srli => (0x06#6, 1#2)
  | .srai => (0x06#6, 2#2)
  | .rori => (0x06#6, 3#2)

/-- Major and function values of the operations of the Slt format. -/
def OpSlt.code : OpSlt → BitVec 6 × BitVec 2
  | .slti => (0x07#6, 0#2)
  | .sltiu => (0x07#6, 1#2)
  | .seqi => (0x07#6, 2#2)
  | .snei => (0x07#6, 3#2)

/-- Major and function values of the operations of the BF format. -/
def OpBF.code : OpBF → BitVec 6
  | .bfxu => 0x09#6
  | .bfxs => 0x0a#6
  | .bfi => 0x0b#6

/-- Major and function values of the operations of the FR format. -/
def OpFR.code : OpFR → BitVec 6 × Nat
  | .fadd => (0x12#6, 0)
  | .fsub => (0x12#6, 1)
  | .fmul => (0x12#6, 2)
  | .fdiv => (0x12#6, 3)
  | .fsqrt => (0x12#6, 4)
  | .fmadd => (0x13#6, 0)
  | .fmsub => (0x13#6, 1)
  | .fnmsub => (0x13#6, 2)
  | .fnmadd => (0x13#6, 3)

/-- Major and function values of the operations of the FT format. -/
def OpFT.code : OpFT → BitVec 6 × BitVec 5
  | .fmin => (0x12#6, 25#5)
  | .fmax => (0x12#6, 26#5)
  | .fsgnj => (0x12#6, 27#5)
  | .fsgnjn => (0x12#6, 28#5)
  | .fsgnjx => (0x12#6, 29#5)
  | .fclass => (0x12#6, 30#5)
  | .feq => (0x17#6, 0#5)
  | .fne => (0x17#6, 1#5)
  | .flt => (0x17#6, 2#5)
  | .fle => (0x17#6, 3#5)
  | .funord => (0x17#6, 4#5)

/-- Major and function values of the operations of the C format. -/
def OpC.code : OpC → BitVec 6 × BitVec 3
  | .faddc => (0x14#6, 0#3)
  | .fsubc => (0x14#6, 1#3)
  | .frsubc => (0x14#6, 2#3)
  | .fmulc => (0x14#6, 3#3)
  | .fmulac => (0x14#6, 4#3)
  | .fmacc => (0x14#6, 5#3)
  | .fldc => (0x14#6, 6#3)

/-- Major and function values of the operations of the M format. -/
def OpM.code : OpM → BitVec 6
  | .ld => 0x18#6
  | .st => 0x19#6

/-- Major and function values of the operations of the X format. -/
def OpX.code : OpX → BitVec 6 × BitVec 2
  | .ldx => (0x1a#6, 0#2)
  | .stx => (0x1a#6, 1#2)
  | .ldxSx => (0x1a#6, 2#2)

/-- Major and function values of the operations of the Amo format. -/
def OpAmo.code : OpAmo → BitVec 6 × BitVec 3
  | .amoswap => (0x1b#6, 0#3)
  | .amoadd => (0x1b#6, 1#3)
  | .amoand => (0x1b#6, 2#3)
  | .amoor => (0x1b#6, 3#3)
  | .amomax => (0x1b#6, 4#3)
  | .amomin => (0x1b#6, 5#3)
  | .amomaxu => (0x1b#6, 6#3)
  | .cas => (0x1b#6, 7#3)

/-- Major and function values of the operations of the B format. -/
def OpB.code : OpB → BitVec 6 × BitVec 4
  | .beqz => (0x1c#6, 0#4)
  | .bnez => (0x1c#6, 1#4)
  | .bltz => (0x1c#6, 2#4)
  | .bgez => (0x1c#6, 3#4)
  | .bgtz => (0x1c#6, 4#4)
  | .blez => (0x1c#6, 5#4)
  | .beven => (0x1c#6, 6#4)
  | .bodd => (0x1c#6, 7#4)

/-- Major and function values of the operations of the J format. -/
def OpJ.code : OpJ → BitVec 6
  | .j => 0x1d#6
  | .jl => 0x1e#6

/-- Major and function values of the operations of the SC format. -/
def OpSC.code : OpSC → BitVec 6 × BitVec 3
  | .scene => (0x20#6, 0#3)
  | .sceneChk => (0x20#6, 1#3)
  | .redo => (0x20#6, 6#3)
  | .commit => (0x20#6, 7#3)

/-- Major and function values of the operations of the S format. -/
def OpS.code : OpS → BitVec 6 × BitVec 8
  | .nop => (0x21#6, 0x0#8)
  | .halt => (0x21#6, 0x1#8)
  | .crd => (0x21#6, 0x2#8)
  | .cwr => (0x21#6, 0x3#8)
  | .cbw => (0x21#6, 0x4#8)
  | .cbrd => (0x21#6, 0x5#8)
  | .cbld => (0x21#6, 0x6#8)
  | .lut4ld => (0x21#6, 0x50#8)
  | .bfset => (0x21#6, 0x51#8)
  | .bfrd => (0x21#6, 0x52#8)
  | .prefL1 => (0x21#6, 0x53#8)
  | .prefL2 => (0x21#6, 0x53#8)
  | .mhintNear => (0x21#6, 0x54#8)
  | .mhintHome => (0x21#6, 0x54#8)
  | .mhintPage => (0x21#6, 0x54#8)
  | .gang => (0x24#6, 0x0#8)
  | .ungang => (0x24#6, 0x1#8)
  | .qfenceAll => (0x25#6, 0x38#8)
  | .trap => (0x2d#6, 0x0#8)
  | .rett => (0x2d#6, 0x1#8)
  | .rettRedo => (0x2d#6, 0x2#8)
  | .rettKill => (0x2d#6, 0x3#8)
  | .swin => (0x2d#6, 0x4#8)
  | .swinW => (0x2d#6, 0x5#8)
  | .csfreeze => (0x2d#6, 0x6#8)
  | .csthaw => (0x2d#6, 0x7#8)
  | .seize => (0x2d#6, 0x8#8)
  | .release => (0x2d#6, 0x9#8)

/-- Major and function values of the operations of the Ord format. -/
def OpOrd.code : OpOrd → BitVec 6 × BitVec 1
  | .ldAcq => (0x21#6, 0#1)
  | .stRel => (0x21#6, 1#1)

/-- Major and function values of the operations of the Fence format. -/
def OpFence.code : OpFence → BitVec 6 × BitVec 4
  | .fenceAcq => (0x25#6, 0#4)
  | .fenceRel => (0x25#6, 1#4)
  | .fenceFull => (0x25#6, 2#4)

/-- Major and function values of the operations of the Wid format. -/
def OpWid.code : OpWid → BitVec 6 × BitVec 3
  | .widf => (0x22#6, 2#3)
  | .widfr => (0x22#6, 3#3)

/-- Major and function values of the operations of the Rst format. -/
def OpRst.code : OpRst → BitVec 6 × BitVec 4
  | .rst => (0x23#6, 4#4)
  | .rstA => (0x23#6, 5#4)

/-- Major and function values of the operations of the Rsv format. -/
def OpRsv.code : OpRsv → BitVec 6 × BitVec 6
  | .rstv => (0x23#6, 0x18#6)
  | .rstvA => (0x23#6, 0x19#6)

/-- Major and function values of the operations of the V format. -/
def OpV.code : OpV → BitVec 6 × BitVec 6
  | .vadd => (0x26#6, 0x0#6)
  | .vsub => (0x26#6, 0x1#6)
  | .vmul => (0x26#6, 0x2#6)
  | .vmulh => (0x26#6, 0x3#6)
  | .vmulhu => (0x26#6, 0x4#6)
  | .vand => (0x26#6, 0x5#6)
  | .vor => (0x26#6, 0x6#6)
  | .vxor => (0x26#6, 0x7#6)
  | .vsll => (0x26#6, 0x8#6)
  | .vsrl => (0x26#6, 0x9#6)
  | .vsra => (0x26#6, 0xa#6)
  | .vmin => (0x26#6, 0xb#6)
  | .vmax => (0x26#6, 0xc#6)
  | .vminu => (0x26#6, 0xd#6)
  | .vmaxu => (0x26#6, 0xe#6)
  | .vadds => (0x26#6, 0xf#6)
  | .vsubs => (0x26#6, 0x10#6)
  | .vaddus => (0x26#6, 0x11#6)
  | .vsubus => (0x26#6, 0x12#6)
  | .vabs => (0x26#6, 0x13#6)
  | .vsel => (0x26#6, 0x14#6)
  | .vcmpeq => (0x26#6, 0x18#6)
  | .vcmpne => (0x26#6, 0x19#6)
  | .vcmplt => (0x26#6, 0x1a#6)
  | .vcmpge => (0x26#6, 0x1b#6)
  | .vcmpltu => (0x26#6, 0x1c#6)
  | .vcmpgeu => (0x26#6, 0x1d#6)
  | .vfmin => (0x27#6, 0x28#6)
  | .vfmax => (0x27#6, 0x29#6)
  | .vfabs => (0x27#6, 0x2a#6)
  | .vfneg => (0x27#6, 0x2b#6)
  | .vfsgnj => (0x27#6, 0x2c#6)
  | .vfeq => (0x27#6, 0x30#6)
  | .vflt => (0x27#6, 0x31#6)
  | .vfle => (0x27#6, 0x32#6)
  | .vfun => (0x27#6, 0x33#6)
  | .vrcp => (0x2a#6, 0x0#6)
  | .vrsqrt => (0x2a#6, 0x1#6)
  | .vexp2 => (0x2a#6, 0x2#6)
  | .vlog2 => (0x2a#6, 0x3#6)
  | .vtanh => (0x2a#6, 0x4#6)
  | .vsigm => (0x2a#6, 0x5#6)
  | .vsinpi => (0x2a#6, 0x6#6)
  | .vcospi => (0x2a#6, 0x7#6)
  | .vperm => (0x2a#6, 0x8#6)
  | .vmov => (0x2a#6, 0x9#6)
  | .vcvtSI => (0x2a#6, 0x10#6)
  | .vcvtIS => (0x2a#6, 0x11#6)
  | .vcvtSH => (0x2a#6, 0x12#6)
  | .vcvtHS => (0x2a#6, 0x13#6)
  | .vcvtSBf => (0x2a#6, 0x14#6)
  | .vcvtBfS => (0x2a#6, 0x15#6)
  | .vcvtSU => (0x2a#6, 0x16#6)
  | .vcvtUS => (0x2a#6, 0x17#6)
  | .kand => (0x2a#6, 0x18#6)
  | .kor => (0x2a#6, 0x19#6)
  | .kxor => (0x2a#6, 0x1a#6)
  | .kandn => (0x2a#6, 0x1b#6)
  | .knot => (0x2a#6, 0x1c#6)
  | .vfence => (0x2a#6, 0x1d#6)
  | .vgmov => (0x2a#6, 0x20#6)
  | .vgadd => (0x2a#6, 0x21#6)
  | .vgfadd => (0x2a#6, 0x22#6)
  | .vgfmax => (0x2a#6, 0x23#6)

/-- Major and function values of the operations of the VF format. -/
def OpVF.code : OpVF → BitVec 6 × Nat
  | .vfadd => (0x27#6, 0)
  | .vfsub => (0x27#6, 1)
  | .vfmul => (0x27#6, 2)
  | .vfdiv => (0x27#6, 3)
  | .vfsqrt => (0x27#6, 4)
  | .vfmadd => (0x27#6, 5)
  | .vfmsub => (0x27#6, 6)
  | .vfnmsub => (0x27#6, 7)

/-- Major and function values of the operations of the VS format. -/
def OpVS.code : OpVS → BitVec 6 × BitVec 5
  | .vaddVs => (0x28#6, 0x0#5)
  | .vsubVs => (0x28#6, 0x1#5)
  | .vrsubVs => (0x28#6, 0x2#5)
  | .vmulVs => (0x28#6, 0x3#5)
  | .vandVs => (0x28#6, 0x4#5)
  | .vorVs => (0x28#6, 0x5#5)
  | .vxorVs => (0x28#6, 0x6#5)
  | .vsllVs => (0x28#6, 0x7#5)
  | .vsrlVs => (0x28#6, 0x8#5)
  | .vsraVs => (0x28#6, 0x9#5)
  | .vminVs => (0x28#6, 0xa#5)
  | .vmaxVs => (0x28#6, 0xb#5)
  | .vcvtn => (0x28#6, 0xc#5)
  | .vcvtw => (0x28#6, 0xd#5)
  | .vfaddVs => (0x28#6, 0x10#5)
  | .vfsubVs => (0x28#6, 0x11#5)
  | .vfrsubVs => (0x28#6, 0x12#5)
  | .vfmulVs => (0x28#6, 0x13#5)
  | .vfmaddVs => (0x28#6, 0x14#5)
  | .vfminVs => (0x28#6, 0x15#5)
  | .vfmaxVs => (0x28#6, 0x16#5)
  | .vmovVs => (0x28#6, 0x17#5)
  | .vcmpeqVs => (0x28#6, 0x18#5)
  | .vcmpltVs => (0x28#6, 0x19#5)
  | .vcmpltuVs => (0x28#6, 0x1a#5)
  | .vfeqVs => (0x28#6, 0x1b#5)
  | .vfltVs => (0x28#6, 0x1c#5)
  | .vfleVs => (0x28#6, 0x1d#5)
  | .vlds => (0x29#6, 0x18#5)
  | .vsts => (0x29#6, 0x19#5)
  | .vext => (0x29#6, 0x1a#5)
  | .kmovs => (0x29#6, 0x1b#5)
  | .kset => (0x29#6, 0x1c#5)
  | .vstat => (0x29#6, 0x1d#5)
  | .vrot => (0x29#6, 0x1f#5)

/-- Major and function values of the operations of the VM format. -/
def OpVM.code : OpVM → BitVec 6 × BitVec 2
  | .vld => (0x29#6, 0#2)
  | .vst => (0x29#6, 1#2)

/-- Major and function values of the operations of the VG format. -/
def OpVG.code : OpVG → BitVec 6 × BitVec 3
  | .vgather => (0x29#6, 4#3)
  | .vscatter => (0x29#6, 5#3)

/-- Major and function values of the operations of the Vr format. -/
def OpVr.code : OpVr → BitVec 6 × BitVec 5
  | .vredadd => (0x29#6, 0#5)
  | .vredmin => (0x29#6, 1#5)
  | .vredmax => (0x29#6, 2#5)
  | .vredminu => (0x29#6, 3#5)
  | .vredmaxu => (0x29#6, 4#5)
  | .vredand => (0x29#6, 5#5)
  | .vredor => (0x29#6, 6#5)
  | .vredxor => (0x29#6, 7#5)
  | .vredfadd => (0x29#6, 8#5)
  | .vredfmin => (0x29#6, 9#5)
  | .vredfmax => (0x29#6, 10#5)
  | .vredfamax => (0x29#6, 11#5)

/-- Major and function values of the operations of the Cop format. -/
def OpCop.code : OpCop → BitVec 6 × BitVec 3 × BitVec 7
  | .mzero => (0x2b#6, 0#3, 0x0#7)
  | .mmaN => (0x2b#6, 0#3, 0x1#7)
  | .mmaH => (0x2b#6, 0#3, 0x2#7)
  | .mmaBf => (0x2b#6, 0#3, 0x3#7)
  | .mmaS => (0x2b#6, 0#3, 0x4#7)
  | .mdrain => (0x2b#6, 0#3, 0x8#7)
  | .mtask => (0x2b#6, 0#3, 0x10#7)
  | .ssamp => (0x2b#6, 2#3, 0x0#7)
  | .sdraw => (0x2b#6, 2#3, 0x1#7)
  | .gstep => (0x2b#6, 3#3, 0x0#7)
  | .gmask => (0x2b#6, 3#3, 0x1#7)
  | .gflush => (0x2b#6, 3#3, 0x2#7)
  | .sin => (0x2b#6, 4#3, 0x0#7)
  | .sadv => (0x2b#6, 4#3, 0x1#7)
  | .stok => (0x2b#6, 4#3, 0x2#7)
  | .sopen => (0x2b#6, 4#3, 0x3#7)
  | .cpost => (0x2b#6, 5#3, 0x0#7)
  | .cpubl => (0x2b#6, 5#3, 0x1#7)
  | .cread => (0x2b#6, 5#3, 0x2#7)
  | .evput => (0x2b#6, 6#3, 0x0#7)
  | .csave => (0x2b#6, 7#3, 0x0#7)
  | .crestore => (0x2b#6, 7#3, 0x1#7)

/-- Major and function values of the operations of the Cpy format. -/
def OpCpy.code : OpCpy → BitVec 6 × BitVec 6
  | .cpy => (0x2b#6, 0x0#6)
  | .cfill => (0x2b#6, 0x1#6)

/-- Major and function values of the operations of the Cpw format. -/
def OpCpw.code : OpCpw → BitVec 6 × BitVec 6
  | .copw => (0x2c#6, 0#6)
  | .coprd => (0x2c#6, 1#6)

/-- The word of a form. -/
def Form.encode : Form → BitVec 32
  | .r op f => f.pack op.code.1 op.code.2
  | .i op f => f.pack op.code
  | .sh op f => f.pack op.code.1 op.code.2
  | .slt op f => f.pack op.code.1 op.code.2
  | .k f => f.pack 0x08#6
  | .bF op f => f.pack op.code
  | .fR op f => f.pack op.code.1 op.code.2
  | .fT op f => f.pack op.code.1 op.code.2
  | .c op f => f.pack op.code.1 op.code.2
  | .f20 f => f.pack 0x15#6
  | .cvt f => f.pack 0x16#6
  | .m op f => f.pack op.code
  | .x op f => f.pack op.code.1 op.code.2
  | .amo op f => f.pack op.code.1 op.code.2
  | .b op f => f.pack op.code.1 op.code.2
  | .j op f => f.pack op.code
  | .sC op f => f.pack op.code.1 op.code.2
  | .s op f => f.pack op.code.1 op.code.2
  | .ord op f => f.pack op.code.1 op.code.2
  | .fence op f => f.pack op.code.1 op.code.2
  | .qf f => f.pack 0x25#6
  | .wid op f => f.pack op.code.1 op.code.2
  | .rst op f => f.pack op.code.1 op.code.2
  | .rsv op f => f.pack op.code.1 op.code.2
  | .v op f => f.pack op.code.1 op.code.2
  | .vF op f => f.pack op.code.1 op.code.2
  | .vS op f => f.pack op.code.1 op.code.2
  | .vM op f => f.pack op.code.1 op.code.2
  | .vG op f => f.pack op.code.1 op.code.2
  | .vr op f => f.pack op.code.1 op.code.2
  | .cop op f => f.pack op.code.1 op.code.2.1 op.code.2.2
  | .cpy op f => f.pack op.code.1 op.code.2
  | .cpw op f => f.pack op.code.1 op.code.2
  | .esy f => f.pack 0x2c#6
  | .illegal w => w

/-- The instruction word of an instruction; an event has none. -/
def encode (i : Instr) : Option (BitVec 32) := i.toForm.map Form.encode

end Sys2Proof
end

