-- ==== Sys2Proof/Machine/State.lean ====
section
/-! DEFINITION. The state of a GX9 module as plain data: everything the spec gives the machine, the model's own input
fields (agenda, cores turned, current seat, free-value counter), and the state after module reset (R39). -/
namespace Sys2Proof.Machine

/-- A finite map: keys strictly rising; an absent key stands for a default that the reader of the map names. -/
abbrev SMap (α : Type) := List (Nat × α)

/-- A seat's register bank: a core, a seat of it, and on an X-seat one of four banks (R178). Seat 8 of a D-tile is the
reflex bank of its seat 7 (R423). -/
structure Place where
  core : Nat
  seat : Nat
  bank : Nat
deriving DecidableEq, Repr

/-- The causes of R148 in the order of its table, with `order` for a turn that neither issues nor counts. -/
inductive Stall where
  | parked | thermal | presence | queue | engine | memory | order
deriving DecidableEq, Repr

/-- How the last issue attempt of the current seat ended: it issued or nothing was tried; the seat was not eligible (R148);
it trapped or halted; its scene was discarded; it parked (R403); or it began and holds the seat (`Wip`). -/
inductive Ended where
  | done | stall (c : Stall) | trap | discard | parked | began
deriving DecidableEq, Repr

/-- The causes of R392 that an agent of the model produces. -/
inductive Cause where
  | illegalEncoding | holdShort | misaligned | swTrap | privInsn | preemptHalt
  | segLimit | segRights | addrUnmapped | pageAbsent | protPage | memUncorrectable | amoUnsupported | extAbort
  | sceneOverflow | sceneLivein | sceneLivelock
  | queueHangup | stageDoorFull | msgBounce | reflexBlock | gangBroken | dequeOverflow | syncInScene | seizeRefused
  | engineFault | engineAbsent | engineDesc | stackOverflow | lateFrame | copyFault | saveAreaFull | saveInvalid
  | watchdogKill | thermalDisplace | sigInvalid | privReg | machineCheck | linkDown | peerDown | queueInvalid
deriving DecidableEq, Repr

/-- A segment: base, limit and the rights G, X, W, R in bits 3 to 0 (R38). -/
structure Seg where
  base : Word
  limit : Word
  acc : BitVec 4
deriving DecidableEq, Repr

/-- A fixed-latency write in flight (R23): destination code, value, retirement si. Code 64 is a note of AMAX that lands as
its conversion retires (R81). -/
structure PendWrite where
  code : Nat
  val : Word
  at_ : Nat
deriving DecidableEq, Repr

/-- A variable-latency result in flight (R25): the pending mark on `code`, or 64 where the instruction has a note of AMAX and
no destination. `val` is absent until the result exists. -/
structure PendRes where
  id : Nat
  code : Nat
  cause : Stall
  val : Option Word
  /-- what the arrival must find joined or performed first: 0 nothing, 1 a vector command -/
  src : Nat
  /-- the note of AMAX that lands with it (R81) -/
  note : BitVec 32
deriving DecidableEq, Repr

/-- A continuation record of 64 bytes (R142, R143). -/
structure Rec where
  pc : Word
  wid : Word
  cp : Word
  s4 : Word
  s5 : Word
  s6 : Word
  s7 : Word
  ctl : Word
deriving DecidableEq, Repr

/-- What one or more store-buffer entries hold (R126, R181, R209, R272, R399). -/
inductive BufOp where
  /-- bytes by address key, with the translated pages (slot, page, sub-page) they are counted on (R247); an unfilled
  vector store waits for its command `vid` -/
  | store (cells : List (Nat × Byte)) (pages : List (Nat × Nat × Bool)) (vid : Option Nat)
  | cbw (i : Nat) (v : Word)
  | cbld (b : Nat) (vals : List Word)
  /-- a queue push and the si it retires in (R191) -/
  | push (v : Word) (at_ : Nat)
  /-- a push whose value vector command `vid` gives (R209, R226) -/
  | pushDue (vid : Nat)
  /-- a wake on the 128 bytes of a wait block (R185) -/
  | wake (block : List Nat)
  /-- the record that a wake of this commit has taken from its block, to be sent (R185, R255) -/
  | woken (r : Rec)
  | mclr (mask : BitVec 32) (clk : Nat)
  | chain (w : Word)
  | acquire (scope : Nat)
  | release (scope : Nat)
  | full (scope : Nat)
  | rst (dest : Word) (bytes : List Byte) (adaptive reserved : Bool) (vid : Option Nat)
  | lut4 (t : BitVec 128)
  | unseize (g : Nat)
deriving DecidableEq, Repr

/-- Store-buffer entries that one instruction took: how many, and what they hold. -/
structure Entry where
  n : Nat
  op : BufOp
deriving DecidableEq, Repr

/-- A coherent line that a scene read, with the lease it read under (R259). -/
structure LeaseRec where
  line : Nat
  wts : Nat
  rts : Nat
deriving DecidableEq, Repr

/-- An open scene (R125, R126, R128, R210, R259). SCPC, SCWS and REPRISE are bank registers. -/
structure Scene where
  form : Nat
  mask : BitVec 15
  entries : List Entry
  /-- pending AMAX notes, in the layout of AMAX -/
  notes : BitVec 32
  /-- scalar registers written in the scene -/
  written : List Nat
  /-- vector registers 0-31 and masks 32-39 read before written, and written (R210) -/
  vread : List Nat
  vwritten : List Nat
  /-- pops of qin and evq made in the scene: the cursors -/
  qinPops : Nat
  evPops : Nat
  reads : List LeaseRec
  /-- an uncorrectable read has been met since the scene opened or last committed (R249) -/
  ueSeen : Bool
  /-- a vector load of the scene has read uncorrectable data since it issued: PC of the load, its offset, the sector -/
  ueVec : Option (Word × Word × Nat)
deriving DecidableEq, Repr

/-- Run state of a bank: no continuation, running, halted (R51, R134), parked (R403), or halted by a machine check without a
continuation (R393). -/
inductive Run where
  | idle | running | halted | parked | stopped
deriving DecidableEq, Repr

/-- An instruction that has begun and waits in its own middle. -/
inductive Wip where
  | none
  /-- lut4ld outside a scene: table read, hold on the engines in force (R283) -/
  | lut4 (t : BitVec 128)
  /-- BFMT write: bank, value, the clk from which it may retire, the first command id it does not wait for (R233) -/
  | bfmt (b : Nat) (v : Word) (ready below : Nat)
  /-- qfence: engine (8 for all), queue mask, the first command id it does not wait for (R277) -/
  | qf (eng mask below : Nat)
  /-- arrived at a barrier, by count (R189) -/
  | bar (n : Nat)
  /-- issued gang n (R199) -/
  | gang (n : Nat)
  /-- rstv outside a scene: waits for its vector command (R281) -/
  | rstv (vid : Nat)
  /-- the first uncorrectable read of this instruction was met; it issues again (R249); the scene to open when it has retired,
  for an atomic whose commit has taken place (R275) -/
  | reissue (reopen : Option (Nat × BitVec 15))
  /-- its commit has written the coherent entries and performs the others in order (R260, R270) -/
  | commit
  /-- its commit has started, so that a buffered lut4ld holds the engines, and nothing of it is performed (R283) -/
  | committing
  /-- an atomic is performed, and its result waits for room in qout; the scene to open when it has retired (R191, R274) -/
  | push (v : Word) (reopen : Option (Nat × BitVec 15))
  /-- its access stands in the queue of a home slice that a page move blocks (R248) -/
  | home
  /-- the fetch of its word stands there -/
  | fetching
  /-- on an X-seat, its message has not been able to enter the mesh since this clk (R179) -/
  | mesh (since : Nat)
  /-- its message, of this number, has been handed to the network interface and waits to enter the mesh (R194, R281) -/
  | posted (no : Nat)
deriving DecidableEq, Repr

/-- Where a send goes (R193, R194). -/
inductive SendTo where
  | mail (core : Nat) (vdst : Option Nat)
  | held (vcore : Nat)
  | start (core off : Nat)
  | bounce
deriving DecidableEq, Repr

/-- The state of a register bank (R14, R144, R178): one per D-seat, four per X-seat, and the reflex bank of seat 7. -/
structure Bank where
  /-- s1-s27; m0-m31 belong to the seat (R178) -/
  regs : SMap Word
  pc : Word
  run : Run
  schk : Bool
  prio : Nat
  frm : BitVec 2
  amax : BitVec 32
  reprise : BitVec 8
  repriseLimit : BitVec 8
  scpc : Word
  scws : BitVec 18
  scene : Option Scene
  segs : SMap Seg
  wid : Word
  widw : BitVec 42
  joinc : BitVec 19
  vcore : BitVec 32
  cslot : BitVec 6
  /-- the control word the continuation was taken up with: NOSTEAL, REFLEX, AFF, ENS (R143) -/
  ctl : Word
  cause : BitVec 32
  faddr : Word
  epc : Word
  tstat : BitVec 7
  /-- SEG0 and SEG7 kept aside at trap entry (R394) -/
  kept : Option (Seg × Seg)
  /-- engine staging registers, keyed eng * 512 + number (R289) -/
  staging : SMap Word
  /-- faults not yet reported at an esync: engine, queue, fault address (R292) -/
  faults : List (Nat × Nat × Word)
  /-- issue slots passed (R21) -/
  si : Nat
  /-- empty si owed to a HOLD (R22) -/
  owed : Nat
  inflight : List PendWrite
  pending : List PendRes
  wip : Wip
  /-- the word of the instruction that has begun -/
  word : BitVec 32
  /-- clk of the pre-emption of this bank on an X-seat (R178) -/
  since : Nat
  /-- the engine queue in which a COP whose commit is in progress has reserved room (R287) -/
  copRoom : Option Nat
  /-- the destination of a send whose commit is in progress, resolved at issue, its stage-door entry reserved (R194) -/
  sendTo : Option SendTo
deriving DecidableEq, Repr

/-- The state a seat shares among its banks (R178). -/
structure Seat where
  /-- m0-m31 -/
  mail : SMap Word
  mpres : BitVec 32
  /-- clk of the last arrival in each mail register (R196) -/
  mailClk : SMap Nat
  icnt : Word
  /-- ECNT charged by engine steps, in 2^-32 J (R314) -/
  energy : Nat
  /-- instruction words retired, for the free energy of R314 -/
  retired : Nat
  /-- SCPRES, SCQUE, SCENG, SCMEM, SCHOLD, SCPARK, SCTHERM by number 0-6 (R312) -/
  stalls : SMap Word
  /-- qin: entries not yet consumed, oldest first; the upstream seat; the hang-ups (R155, R172) -/
  qin : List Word
  up : Option (Nat × Nat)
  upHup : Bool
  down : Option (Nat × Nat)
  dnHup : Bool
  /-- pushes reserved and not yet entered (R191) -/
  outRes : Nat
  /-- event queue, drops since the last overflow record, last marker (R339, R343) -/
  evq : List Word
  evDrop : BitVec 32
  /-- pops to come that read uncorrectable data (R336; log 10) -/
  evUe : Nat
  evMark : Option (BitVec 30)
  /-- running bank of an X-seat -/
  cur : Nat
  swsel : Word
  qsel : BitVec 6
deriving DecidableEq, Repr

/-- A vector command in the queue (R205): the instruction's form, and what was read at its issue (R206). -/
structure VCmd where
  id : Nat
  seat : Nat
  bank : Nat
  form : Form
  sb : Word
  rm : Nat
  pc : Word
  /-- the active lanes of a memory command with their address keys; of a gang-relative command, the positions and cores of
  the gang's members -/
  lanes : List (Nat × Nat)
  /-- 0: issued with no scene open; 1: in the open scene; from 2 on: in a scene since discarded, which the number names
  (R209) -/
  sc : Nat
  /-- the pending result it produces -/
  res : Option Nat
  ganged : Bool
  slot : Nat
  /-- a stage-door entry is reserved for its remote store (R281) -/
  resv : Bool
  /-- the bytes that its scene had buffered when it was discarded, which the command still sees (R209) -/
  snap : List Host.Cell
deriving DecidableEq, Repr

/-- A winner message (R351). -/
structure Winner where
  seq : W32
  pos : W32
  k : Nat
  win : Option (Nat × W32)
  late : Bool
  forced : Bool
deriving DecidableEq, Repr

/-- Progress of an ssamp (R350): 0 barrier, 1.. scans, then gather, deliver, and the end; winner (token, score); LATE, FORCED
and NONE; FTOK; the children's messages merged so far; the clk since which it waits for a mask or for children; it has been
aborted (R354). -/
structure Samp where
  phase : Nat
  win : Option (Nat × W32)
  late : Bool
  forced : Bool
  none_ : Bool
  ftok : W32
  got : List Winner
  since : Option Nat
  aborted : Bool
deriving DecidableEq, Repr

/-- What an engine command carries from step to step. -/
inductive EAux where
  | none
  /-- mma: the format registers of the cores of its operands, read at its start (R298) -/
  | mma (bfa bfb : List Word)
  /-- cpy, cfill: elements of the traversal done, elements sent and not acknowledged with their note of CAMAX, and the format
  registers of both ends of a converting copy, read at its start (R320, R321, R324) -/
  | copy (done sent : Nat) (note : BitVec 32) (conv : Option (Word × Word))
  /-- ssamp -/
  | samp (t : Samp)
  /-- gmask: record as read, units summed, allowed tokens so far and the first of them, the summary is known, units
  written (R361) -/
  | gmask (rec : List Byte) (scan cnt : Nat) (ftok : W32) (known : Bool) (units : Nat)
  /-- cpost: bytes written, the mailbox generation it fills (R329) -/
  | cpost (done gen : Nat)
  /-- cread: sampled version (stamp, version, vlen, flags) and bytes (R331) -/
  | cread (stamp : Word) (version vlen flags : Nat) (bytes : List Byte)
  /-- stream event handed to the engine (R368) -/
  | held
  /-- csave, crestore: area base and size (R418) -/
  | save (base size : Nat)
deriving DecidableEq, Repr

/-- An engine command (R287, R288). `state`: 1 running or waiting to start, 2 parked, 3 faulted (R296). -/
structure ECmd where
  id : Nat
  eng : Nat
  /-- queue or channel as the COP names it -/
  q : Nat
  op : Nat
  sa : Word
  sb : Word
  stg : SMap Word
  segs : SMap Seg
  frm : BitVec 2
  core : Nat
  seat : Nat
  bank : Nat
  slot : Nat
  vcore : BitVec 32
  pts : Nat
  started : Bool
  step : Nat
  state : Nat
  cause : Nat
  faddr : Word
  /-- an uncorrectable read has been met in this step (R305) -/
  retried : Bool
  /-- the largest timestamp of its units so far (R264) -/
  ts : Nat
  /-- tile task record: cluster and index (R311) -/
  task : Option (Nat × Nat)
  /-- the stores of its current step are on their way, and one of them has been refused (R307, R321) -/
  sent : Bool
  bounced : Bool
  /-- its wake has been sent (R288) -/
  woke : Bool
  reflex : Bool
  aux : EAux
deriving DecidableEq, Repr

/-- A record in a ready queue, with the DTIME of its arrival (R146, R442) and the HELD7 mark (R423). -/
structure Ready where
  r : Rec
  at_ : Nat
  held7 : Bool
deriving DecidableEq, Repr

/-- A flood generator of a core (R160, R161). -/
structure Gen where
  slot : Nat
  prio : Nat
  pc : Word
  next : Nat
  last : Nat
  wbase : Nat
  frame : Word
  framesz : Word
  s4 : Word
  s5 : Word
  s6 : Word
  s7 : Word
  vcore : Nat
deriving DecidableEq, Repr

/-- A line of an L1 with its lease (R239, R258): 128 bytes, of which the filled 32-byte sectors hold; the clk of its last
use and of its last fill or renewal (R261). -/
structure L1Line where
  wts : Nat
  rts : Nat
  data : List Byte
  filled : BitVec 4
  used : Nat
  since : Nat
deriving DecidableEq, Repr

/-- What a message carries (R52, R176, R193, R280, R351, R422, R425, R159, R166). -/
inductive Body where
  | mail (seat idx : Nat) (v : Word)
  | start (off : Nat)
  | bounce (seat bank : Nat) (word : Word)
  | store (off : Nat) (bytes : List Byte) (seat bank : Nat)
  /-- a remote store of an engine that is one unit of several pieces (R321) -/
  | stores (parts : List (Nat × List Byte))
  | wakeRec (r : Rec)
  /-- a launch's cue, with the address of its header (R159) -/
  | cue (slot : Nat) (header : Word)
  /-- a placement's claim that a green-room host holds (R245) -/
  | claim (slot : Nat)
  | steal (rs : List Rec)
  | fault (w0 w1 w2 w3 : Word)
  | winner (w : Winner)
  | seize (g pos : Nat) (r : Rec)
  | release (g : Nat)
deriving DecidableEq, Repr

/-- A message in flight (R262): its channel is (src, dst, cls); an adaptive one may be overtaken. `no` numbers the messages
of the module in the order in which they were sent. -/
structure Msg where
  no : Nat
  src : Nat
  dst : Nat
  /-- the virtual core it was addressed to, when it was -/
  vdst : Option Nat
  cls : Nat
  adaptive : Bool
  pts : Nat
  seat : Nat
  body : Body
deriving DecidableEq, Repr

/-- State of a core (R14, R146, R203, R257, R288, R397, R406). -/
structure Core where
  /-- control registers of core scope by number -/
  crs : SMap Word
  /-- shared engine registers of core scope, keyed eng * 512 + number -/
  eregs : SMap Word
  cbank : SMap Word
  /-- constant-bank writes not yet visible: clk of issue, entry, value (R28) -/
  cbNew : List (Nat × Nat × Word)
  lut4 : BitVec 128
  lutNew : List (Nat × BitVec 128)
  vregs : SMap (BitVec 2048)
  kregs : SMap Word
  vq : List VCmd
  /-- accumulators, keyed t * 1024 + r * 32 + c -/
  acc : SMap W32
  /-- engine queues, keyed eng * 16 + queue (copy: channel; Caddy, streams: die * 4 + q; matrix 4: the reflex queue) -/
  queues : SMap (List ECmd)
  winners : List Winner
  /-- barrel: the seat granted last, plus 1; 0 stands for N - 1 (R147) -/
  rr : Nat
  /-- the clk, plus 1, in which the barrel granted its last turn -/
  turnClk : Nat
  ready : List Ready
  /-- newest first -/
  deque : List Rec
  /-- spill rings by slot: place of the oldest record and number of records (R164) -/
  spill : SMap (Nat × Nat)
  gens : List Gen
  lastSlot : Option Nat
  lfsr : Option (BitVec 16)
  probeClk : Nat
  created : SMap Nat
  exited : SMap Nat
  gangPos : Nat
  gangLeader : Nat
  gangSize : Nat
  pts : Nat
  csts : Nat
  l1 : SMap L1Line
  /-- reflex starts pending on an X-tile: priority, record offset, arrival (R177) -/
  starts : List (Nat × Nat × Nat)
  overrun : Nat
  /-- pre-emption: 0 none, 1 entering, 2 in a handler; and its KIND (R406) -/
  preState : Nat
  preKind : Nat
  frozen : Bool
  /-- messages that the network interface holds and that have not entered the mesh, oldest first (R194, R409) -/
  outbox : List Msg
  /-- one more than the clk that MOPWAIT counted last (R296) -/
  opWait : Nat
  /-- the next spill of the network interface begins at the start of the spill area (R409) -/
  spillFresh : Bool
  /-- records in the spill area (R406, R409) -/
  spillN : Nat
  curtain : Bool
  /-- raises (true) and lowers of the curtain on their way to the core, oldest first (R413) -/
  curtReq : List Bool
  fenced : Bool
  sent : Nat
  recv : Nat
  retired : Nat
  /-- green-room: events held until the recall completes; next tag of a running recall (R245) -/
  heldEv : List Msg
  recallTag : Option Nat
  denied : Bool
  /-- the group of a seizure in force (R423) -/
  seized : Option Nat
  /-- the position and record of a seizure that waits for its take-up (R423) -/
  szPend : Option (Nat × Rec)
  /-- the discard that this seizure makes still waits for the vector commands of the scene (R209, R423) -/
  szWait : Bool
  /-- the groups that the core has left although their registers still name it (R421, R428, R451) -/
  left : List Nat
  /-- largest timestamp of completed commands, keyed queue key * 16 + seat, for joins (R262, R264) -/
  engTs : SMap Nat
  ids : Nat
  /-- next fire of each tick timer (R451) -/
  xfire : SMap Nat
  thermClk : Nat
  loads : SMap Nat
  ue : Nat
  /-- the clk, plus 1, of the last mail arrival (R195), and the logical ticks made (R257) -/
  arrClk : Nat
  ticks : Nat
  /-- reads of winner messages to come that are uncorrectable (R354; log 10) -/
  winUe : Nat
deriving DecidableEq, Repr

/-- State of a virtual core in the routing tables (R174); an absent one was never assigned. -/
inductive Route where
  | placed (core : Nat) | unplaced | swapped | exited
deriving DecidableEq, Repr

/-- A launch header (R157) as read at dispatch. -/
structure Header where
  kind : Nat
  prio : Nat
  scope : Nat
  eshape : Nat
  ex : Nat
  ey : Nat
  pc : Word
  widw : BitVec 42
  joinc : BitVec 16
  wbase : Nat
  wcount : Nat
  clfirst : Nat
  clcount : Nat
  tmask : BitVec 16
  root : Nat
  vbase : Nat
  slices : Nat
  segtab : Word
  frame : Word
  framesz : Word
  spill : Word
  spilln : Nat
  s4 : Word
  s5 : Word
  s6 : Word
  s7 : Word
deriving DecidableEq, Repr

/-- A command record (R439). -/
structure Cmd where
  op : Nat
  replay : Bool
  irq : Bool
  scope : Nat
  arg : Word
  saddr : Word
  sval : Word
  eaddr : Word
  bad : Bool
  raw : List Byte
deriving DecidableEq, Repr

/-- Phase of a slot's command (R441): none in hand; journalled, its acknowledgement awaited; accepted, its operation
still to begin; launch running; launch
terminated, its energy still to be written; waiting for a SEQ; its signal still to be performed. -/
inductive Phase where
  | idle | accepted | fetched | running | ended | wait | signal
  /-- waits for a page, or for its 1 KiB sub-page (R439): the phase it goes back to -/
  | page (va : Nat) (sub : Bool) (back : Phase)
deriving DecidableEq, Repr

/-- A hardware queue slot (R440, R441) with its current launch. -/
structure Slot where
  mapped : Bool
  qidx : Nat
  /-- the fields of the queue record, read when the queue is mapped (R438) -/
  ring : Nat
  log : Nat
  root : Nat
  segimg : Nat
  /-- TAIL as last read (R440) -/
  tail : Nat
  phase : Phase
  seq : Nat
  cmd : Option Cmd
  /-- value the signal will carry, after a refusal or kill inverted (R441) -/
  sigval : Word
  reps : Nat
  /-- entries that the understudy must have acknowledged before HEAD advances (R441) -/
  ackNo : Nat
  /-- commands to run again after a take-over: SEQ, replay count, record (R447) -/
  again : List (Nat × Nat × List Byte)
  hdr : Option Header
  /-- current segment image (R159) -/
  image : List Seg
  /-- virtual cores placed for the launch -/
  ens : Nat
  /-- ensemble members, their claims made, and the clk the placement began (R170) -/
  members : List Nat
  claimed : List Nat
  placing : Bool
  /-- the slot whose placement took a claim from this one (R170) -/
  yieldTo : Option Nat
  placedAt : Nat
  placed : Bool
  pre443 : Bool
  /-- the last wave: created, exited, quiet (R168) -/
  wave : Option (Nat × Nat × Bool)
  energy : Nat
  retired : Nat
  /-- DTIME of the last doorbell, and of the start of the watchdog's current step -/
  doorClk : Nat
  wdogClk : Nat
  wdogOn : Bool
  launches : Nat
  /-- barrier arrivals of the running ensemble by member, and the continuations of each member not yet exited; a member
  with none has exited (R170, R189) -/
  bars : SMap Nat
  mlive : SMap Nat
  /-- members whose continuation has left seat 0 of their core by an exit, a kill or a context save (R443) -/
  mleft : List Nat
deriving DecidableEq, Repr

/-- A Caddy mailbox (R327-R330). -/
structure Mailbox where
  desc : Word
  cur : Nat
  stg : Nat
  /-- 0 EMPTY, 1 FILLING, 2 FILLED, 3 PUBLISHED -/
  stage : Nat
  version : Nat
  stamp : Word
  vlen : Nat
  sstamp : Word
  svlen : Nat
  flipClk : Nat
  gen : Nat
  owner : Option (Nat × Nat)
  /-- pts of the version (R333) -/
  pts : Nat
  spts : Nat
  /-- the version that the last flip replaced (R331): buffer, VERSION, STAMP, vlen and pts -/
  was : Nat × Nat × Word × Nat × Nat
  /-- read windows: buffer and last clk (R331) -/
  windows : List (Nat × Nat)
deriving DecidableEq, Repr

/-- A cached grammar unit or summary (R361): its key, and what it holds. -/
structure GEntry where
  gid : Nat
  state : Nat
  top : Nat
  /-- unit number, or none for the summary -/
  unit_ : Option Nat
  bits : BitVec 512
  count : Nat
  ftok : W32
  /-- its data reads uncorrectable (R363) -/
  bad : Bool
deriving DecidableEq, Repr

/-- A stream event held by a duplex stream engine (R368). -/
structure SEvent where
  stream : Nat
  stamp : Nat
  cls : Nat
  trunc : Bool
  val : Word
  clk : Nat
  core : Nat
  queue : Nat
  cmd : Nat
deriving DecidableEq, Repr

/-- A doorbell of a scheduler (R310): the record's index, the slot, the core and seat of the mtask, and the first vector
command of the core that it does not wait for. -/
structure Bell where
  index : Nat
  slot : Nat
  core : Nat
  seat : Nat
  below : Nat
deriving DecidableEq, Repr

/-- A cluster's tile-task scheduler (R310, R311): doorbells, the ready list, and who posted each record (slot, core). -/
structure Sched where
  bells : List Bell
  ready : List Nat
  posted : SMap (Nat × Nat)
deriving DecidableEq, Repr

/-- A cached translation (R242): slot, page number (va / 2^21), the leaf, or the sub-page table. -/
structure Tlb where
  slot : Nat
  page : Nat
  sub : Option Nat
  leaf : Word
deriving DecidableEq, Repr

/-- An access counter (R247). -/
structure Counter where
  slot : Nat
  page : Nat
  sub : Bool
  count : Nat
  pend : Bool
  posted : Bool
deriving DecidableEq, Repr

/-- A park list entry (R403): slot, page, sub-page, and who waits on it: seats, and engine queues (core, key). -/
structure Park where
  slot : Nat
  page : Nat
  sub : Bool
  seats : List Place
  cmds : List (Nat × Nat)
deriving DecidableEq, Repr

/-- A cluster memory management unit (R241-R247, R403). -/
structure Mmu where
  tlb : List Tlb
  counters : List Counter
  parks : List Park
deriving DecidableEq, Repr

/-- Placement of a DRAM line in the L2 (R240). -/
structure L2Line where
  slice : Option Nat
  window : List Nat
  last : Option Nat
  run : Nat
  moved : Nat
  /-- the cluster to whose slice a run of sixteen decisions moves it, until it has moved -/
  due : Option Nat
deriving DecidableEq, Repr

/-- Who waits at a home slice (R248): a seat's bank, or an engine command of a core by its number. Vector memory commands reach
no DRAM (R222). -/
inductive Who where
  | seat (p : Place)
  | eng (core id : Nat)
deriving DecidableEq, Repr

/-- A page move (R248). -/
structure PageMove where
  src : Nat
  dst : Nat
  size : Nat
  /-- 0 idle, 1 blocking and copying, 2 redirecting, 3 failed -/
  state : Nat
  /-- accesses queued at the home slices in order of arrival: whose, and at which slice -/
  queue : List (Who × Nat)
  /-- END has been written and waits for the replay of the queued accesses (log 60) -/
  ending : Bool
deriving DecidableEq, Repr

/-- A posted write on its way to an external target (R265): who issued it, address key, bytes. -/
structure ExtWrite where
  core : Nat
  seat : Nat
  addr : Nat
  bytes : List Byte
deriving DecidableEq, Repr

/-- What leaves the module: interrupts, mirror traffic (R441, R446, R447). -/
inductive Output where
  | msi (v : Nat)
  | entry (n : Word) (bytes : List Byte)
  | ack (n : Word)
  | heartbeat
  | fence
  | xrow (core off : Nat) (bytes : List Byte)
deriving DecidableEq, Repr

/-- An error of a memory that an input of the model makes happen (R249; log 10). -/
inductive Upset where
  /-- the data of a 32-byte sector, by address key / 32, becomes uncorrectable -/
  | sector (q : Nat)
  /-- a read of a core meets a correctable error -/
  | corrected (core : Nat)
  /-- the data of the k-th entry of a cluster's grammar cache becomes uncorrectable (R363) -/
  | grammar (cluster k : Nat)
  /-- a pop of a seat's event queue to come will read uncorrectable data (R336) -/
  | event (core seat : Nat)
  /-- a read of a winner message by a core's sampler to come will read uncorrectable data (R354) -/
  | message (core : Nat)
deriving DecidableEq, Repr

/-- One turn of the machine, named by the agenda: a clk tick, a barrel turn of a core, an internal or external event
(DESIGN CHOICE, log 4), an error of a memory (log 10), the mesh stopping or letting go the messages of a core (log 17). -/
inductive Turn where
  | clk
  | barrel (core : Nat)
  | ev (i : Instr)
  | upset (u : Upset)
  | mesh (core : Nat) (stop : Bool)
deriving DecidableEq, Repr

/-- The module. -/
structure State where
  /-- the model's own inputs: turns to take next and the cores whose barrels have turned in this clk (log 4), the seat an
  instruction acts on, how the last issue attempt ended, and the free-value counter (log 3) -/
  agenda : List Turn
  turned : List Nat
  cur : Place
  ended : Ended
  fctr : Nat
  /-- clk since reset, DTIME in units of 1 / (23 * 10^6) ns, and the rate correction in parts per million (R34) -/
  clk : Nat
  dt : Nat
  ppm : Int
  banks : SMap Bank
  seats : SMap Seat
  cores : SMap Core
  /-- control registers of die and module scope, keyed die * 1024 + number (module scope: die 0) -/
  crs : SMap Word
  /-- shared engine registers of cluster and die scope, keyed unit * 4096 + eng * 512 + number -/
  eregs : SMap Word
  /-- all memory bytes in canonical form -/
  mem : List Host.Cell
  /-- 32-byte sectors whose data is uncorrectable (R249), by address key / 32 -/
  ue : List Nat
  /-- lines with timestamps (R258): key / 128, wts and rts -/
  lines : SMap (Nat × Nat)
  l2 : SMap L2Line
  net : List Msg
  /-- the number of the next message, and the cores whose messages the mesh stops (R262; log 17) -/
  msgNo : Nat
  meshStop : List Nat
  stage : SMap (List Msg)
  /-- stage-door entries reserved at issue (R194, R281), by die -/
  doorRes : SMap Nat
  routes : SMap Route
  slots : SMap Slot
  mmus : SMap Mmu
  moves : SMap PageMove
  tlbBusy : Bool
  extq : List ExtWrite
  boxes : SMap Mailbox
  evRoutes : SMap Word
  /-- frames of a receiver: of each open virtual channel the index and the bytes written, and the next index (R336) -/
  frames : SMap (Nat × Nat)
  pulses : Nat
  gcache : SMap (List GEntry)
  sevents : SMap (List SEvent)
  scheds : SMap Sched
  /-- a SIG_INVALID waits to be reported until a supervisor core runs (R452) -/
  sigDue : Bool
  /-- doorbells that wait for a slot (R440) -/
  bells : List Nat
  /-- seizure groups held: group, holder (R422) -/
  holds : SMap Place
  /-- prompt-book entries for SEQ bookkeeping: SEQ, slot, state, entry number (R445) -/
  book : List (Nat × Nat × Nat × Nat)
  acked : Nat
  /-- DTIME of the last peer heartbeat; 0 when there was none -/
  peerHb : Nat
  /-- understudy: X copies received: (copy, key, byte), the last complete one (R446) -/
  xcopy : SMap Byte
  stopped : Bool
  linkUp : Bool
  out : List Output
deriving DecidableEq, Repr

/-- Why the machine stops. No rule of the spec stops the module as a whole: every trap, halt and machine check is a
next state. -/
inductive Fault where
  /-- The agenda names an instruction where only a turn of R147 may issue one. Raised by nobody but a malformed
  agenda, which is the model's own input; safe. -/
  | badAgenda
deriving DecidableEq, Repr

/-- Why the model gives an instruction no meaning. -/
inductive Refusal where
  /-- The instruction of this mnemonic is not modelled. Safe. -/
  | notModelled (mnemonic : String)
deriving DecidableEq, Repr

/-- A bank after reset (R30-R38, R39): idle, all zero, REPRISE_LIMIT 8, VCORE the core's number (R35). -/
def Bank.reset (core : Nat) : Bank where
  regs := []
  pc := 0
  run := .idle
  schk := false
  prio := 0
  frm := 0
  amax := 0
  reprise := 0
  repriseLimit := 8
  scpc := 0
  scws := 0
  scene := none
  segs := []
  wid := 0
  widw := 0
  joinc := 0
  vcore := BitVec.ofNat 32 core
  cslot := 0
  ctl := 0
  cause := 0
  faddr := 0
  epc := 0
  tstat := 0
  kept := none
  staging := []
  faults := []
  si := 0
  owed := 0
  inflight := []
  pending := []
  wip := .none
  word := 0
  since := 0
  copRoom := none
  sendTo := none

/-- A seat after reset. -/
def Seat.reset : Seat where
  mail := []
  mpres := 0
  mailClk := []
  icnt := 0
  energy := 0
  retired := 0
  stalls := []
  qin := []
  up := none
  upHup := false
  down := none
  dnHup := false
  outRes := 0
  evq := []
  evDrop := 0
  evUe := 0
  evMark := none
  cur := 0
  swsel := 0
  qsel := 0

/-- A core after reset: everything zero or empty, LUT4 the sign-extended codes (R75). -/
def Core.reset : Core where
  crs := []
  eregs := []
  cbank := []
  cbNew := []
  lut4 := 0xfffefdfcfbfaf9f8_0706050403020100
  lutNew := []
  vregs := []
  kregs := []
  vq := []
  acc := []
  queues := []
  winners := []
  rr := 0
  turnClk := 0
  ready := []
  deque := []
  spill := []
  gens := []
  lastSlot := none
  lfsr := none
  probeClk := 0
  created := []
  exited := []
  gangPos := 0
  gangLeader := 0
  gangSize := 1
  pts := 0
  csts := 0
  l1 := []
  starts := []
  overrun := 0
  preState := 0
  preKind := 0
  frozen := false
  outbox := []
  opWait := 0
  spillFresh := false
  spillN := 0
  curtain := false
  curtReq := []
  fenced := false
  sent := 0
  recv := 0
  retired := 0
  heldEv := []
  recallTag := none
  denied := false
  seized := none
  szPend := none
  szWait := false
  left := []
  engTs := []
  ids := 0
  xfire := []
  thermClk := 0
  loads := []
  ue := 0
  arrClk := 0
  ticks := 0
  winUe := 0

/-- A slot with no queue mapped (R440). -/
def Slot.free : Slot where
  mapped := false
  qidx := 0
  ring := 0
  log := 1
  root := 0
  segimg := 0
  tail := 0
  phase := .idle
  seq := 0
  cmd := none
  sigval := 0
  reps := 0
  ackNo := 0
  again := []
  hdr := none
  image := []
  ens := 0
  members := []
  claimed := []
  placing := false
  yieldTo := none
  placedAt := 0
  placed := false
  pre443 := false
  wave := none
  energy := 0
  retired := 0
  doorClk := 0
  wdogClk := 0
  wdogOn := false
  launches := 0
  bars := []
  mlive := []
  mleft := []

/-- The module right after module reset (R39): no entry of any map differs from its reset value. -/
def State.reset : State where
  agenda := []
  turned := []
  cur := ⟨0, 0, 0⟩
  ended := .done
  fctr := 0
  clk := 0
  dt := 0
  ppm := 0
  banks := []
  seats := []
  cores := []
  crs := []
  eregs := []
  mem := []
  ue := []
  lines := []
  l2 := []
  net := []
  msgNo := 0
  meshStop := []
  stage := []
  doorRes := []
  routes := []
  slots := []
  mmus := []
  moves := []
  tlbBusy := false
  extq := []
  boxes := []
  evRoutes := []
  frames := []
  pulses := 0
  gcache := []
  sevents := []
  scheds := []
  sigDue := false
  bells := []
  holds := []
  book := []
  acked := 0
  peerHb := 0
  xcopy := []
  stopped := false
  linkUp := true
  out := []

end Sys2Proof.Machine
end

