-- ==== Sys2Proof/Machine/Store.lean ====
section
/-! DEFINITION. Finite maps and the bytes of memory: the only operations that look inside a map or the memory list.
Memory keeps one canonical form (log 1): addresses strictly rising, no entry equal to what an unlisted address reads as. -/
namespace Sys2Proof.Machine

/-- The entry of key `k`, if there is one. -/
def mfind {α : Type} : SMap α → Nat → Option α
  | [], _ => none
  | (j, v) :: t, k => if j = k then some v else mfind t k

/-- The entry of key `k`, or `d`. -/
def mget {α : Type} (m : SMap α) (k : Nat) (d : α) : α := (mfind m k).getD d

/-- The map with `v` at key `k`. -/
def mset {α : Type} : SMap α → Nat → α → SMap α
  | [], k, v => [(k, v)]
  | (j, w) :: t, k, v => if j = k then (k, v) :: t else if k < j then (k, v) :: (j, w) :: t else (j, w) :: mset t k v

/-- The map without key `k`. -/
def mdel {α : Type} : SMap α → Nat → SMap α
  | [], _ => []
  | (j, w) :: t, k => if j = k then mdel t k else (j, w) :: mdel t k

/-- The map with the entry of `k` (or `d`) changed by `f`. -/
def mmod {α : Type} (m : SMap α) (k : Nat) (d : α) (f : α → α) : SMap α := mset m k (f (mget m k d))

/-- What an unlisted byte of memory reads as (log 1). -/
def memDefault : Byte := 0

/-- The byte at address key `k`. -/
def memRead : List Host.Cell → Nat → Byte
  | [], _ => memDefault
  | (j, b) :: t, k => if j = k then b else if k < j then memDefault else memRead t k

/-- Memory with byte `b` at key `k`, in canonical form. -/
def memWrite : List Host.Cell → Nat → Byte → List Host.Cell
  | [], k, b => if b = memDefault then [] else [(k, b)]
  | (j, c) :: t, k, b =>
    if j = k then (if b = memDefault then t else (k, b) :: t)
    else if k < j then (if b = memDefault then (j, c) :: t else (k, b) :: (j, c) :: t)
    else (j, c) :: memWrite t k b

/-- Every address of the list is above `lo`, and they rise strictly; no entry holds the default. -/
def memAbove : Nat → List Host.Cell → Bool
  | _, [] => true
  | lo, (k, b) :: t => decide (lo ≤ k) && b != memDefault && memAbove (k + 1) t

/-- The canonical form of memory. -/
def Memory.wf (m : List Host.Cell) : Bool := memAbove 0 m

/-- The bytes at the given keys. -/
def memReads (m : List Host.Cell) (ks : List Nat) : List Byte := ks.map (memRead m)

/-- Memory after the given cells are written, in list order. -/
def memWrites (m : List Host.Cell) (cs : List Host.Cell) : List Host.Cell :=
  cs.foldl (fun a c => memWrite a c.1 c.2) m

/-- The little-endian number of a list of bytes (R9). -/
def leNat : List Byte → Nat
  | [] => 0
  | b :: t => b.toNat + 256 * leNat t

/-- `n` little-endian bytes of a number. -/
def leBytes : Nat → Nat → List Byte
  | 0, _ => []
  | n + 1, v => BitVec.ofNat 8 v :: leBytes n (v / 256)

/-- A 64-bit value of a list of bytes. -/
def leWord (bs : List Byte) : Word := BitVec.ofNat 64 (leNat bs)

/-- `n` consecutive keys from `k`. -/
def keysFrom (k n : Nat) : List Nat := (List.range n).map (k + ·)

/-- Bits `hi:lo` of a number. -/
def bits (v hi lo : Nat) : Nat := v / 2 ^ lo % 2 ^ (hi - lo + 1)

/-- Bit `i` of a number. -/
def bit (v i : Nat) : Bool := v.testBit i

/-- 1 for true, 0 for false. -/
def b2n (b : Bool) : Nat := if b then 1 else 0

/-- A word of a number, modulo 2^64. -/
def w64 (n : Nat) : Word := BitVec.ofNat 64 n

/-- A word of an integer, modulo 2^64 (wrap64, R62). -/
def wi64 (i : Int) : Word := BitVec.ofInt 64 i

/-- The list with element `k` removed. -/
def dropAt {α : Type} (l : List α) (k : Nat) : List α := l.take k ++ l.drop (k + 1)

/-- The list with element `k` changed. -/
def modAt {α : Type} (l : List α) (k : Nat) (f : α → α) : List α := l.modify k f

/-- The keys of `l` that satisfy `p`, as positions. -/
def findPos {α : Type} (p : α → Bool) (l : List α) : Option Nat := l.findIdx? p

end Sys2Proof.Machine
end

