-- ==== Sys2Proof/Machine/Ops.lean ====
section
/-! DEFINITION. The named operations over the state: banks, seats and cores, registers and their retirement, time,
messages, fault messages, and taking a trap (R394). -/
namespace Sys2Proof.Machine

/-- What every meaning answers. -/
abbrev Out := Host.Outcome State Fault Refusal

/-! Homes of state. -/

/-- The key of a bank in `State.banks`. -/
def Place.key (p : Place) : Nat := (p.core * 16 + p.seat) * 4 + p.bank
/-- The place of a key of `State.banks`. -/
def keyPlace (k : Nat) : Place := ⟨k / 64, k / 4 % 16, k % 4⟩
/-- The seat number that software sees: the reflex bank of seat 7 is seat 8 of the model (R423). -/
def Place.num (p : Place) : Nat := if p.seat = 8 then 7 else p.seat
/-- The bank follows the X-seat rules: an X-tile, or the reflex bank of seat 7 (R179, R424). -/
def Place.reflex (p : Place) : Bool := Config.isX p.core || p.seat == 8

/-- A core. One that nothing has touched is as after reset, with its logical clock gone on (R257). -/
def State.core (s : State) (c : Nat) : Core := mget s.cores c { Core.reset with pts := s.clk / 16, ticks := s.clk / 16 }
/-- The state with core `c` changed. -/
def State.modCore (s : State) (c : Nat) (f : Core → Core) : State := { s with cores := mset s.cores c (f (s.core c)) }
/-- Seat state: `i` 0 to 7, or 8 for the mail window of a reflex bank of seat 7. -/
def State.seat (s : State) (c i : Nat) : Seat := mget s.seats (c * 16 + i) Seat.reset
/-- The state with a seat changed. -/
def State.modSeat (s : State) (c i : Nat) (f : Seat → Seat) : State :=
  { s with seats := mset s.seats (c * 16 + i) (f (s.seat c i)) }
/-- A bank. -/
def State.bank (s : State) (p : Place) : Bank := mget s.banks p.key (Bank.reset p.core)
/-- The state with a bank changed. -/
def State.modBank (s : State) (p : Place) (f : Bank → Bank) : State :=
  { s with banks := mset s.banks p.key (f (s.bank p)) }
/-- The bank the current instruction acts on. -/
def State.b (s : State) : Bank := s.bank s.cur
/-- The state with the current bank changed. -/
def State.upd (s : State) (f : Bank → Bank) : State := s.modBank s.cur f
/-- A slot of the device. -/
def State.slot (s : State) (q : Nat) : Slot := mget s.slots q Slot.free
/-- The state with a slot changed. -/
def State.modSlot (s : State) (q : Nat) (f : Slot → Slot) : State := { s with slots := mset s.slots q (f (s.slot q)) }
/-- An engine queue of a core, by its key eng * 16 + q. -/
def State.queue (s : State) (c key : Nat) : List ECmd := mget (s.core c).queues key []
/-- The state with an engine queue changed. -/
def State.modQueue (s : State) (c key : Nat) (f : List ECmd → List ECmd) : State :=
  s.modCore c fun k => { k with queues := mmod k.queues key [] f }

/-- The banks of a core, running or not. -/
def placesOf (c : Nat) : List Place :=
  if Config.isX c then (List.range 2).flatMap fun i => (List.range 4).map fun b => ⟨c, i, b⟩
  else (List.range 9).map fun i => ⟨c, i, 0⟩

/-- Every core number. -/
def allCores : List Nat := List.range Config.cores

/-- The bank in use of a seat: an X-seat's running bank, seat 7's reflex bank while its tile is seized (R178, R423). -/
def State.placeOf (s : State) (c i : Nat) : Place :=
  if Config.isX c then ⟨c, i, (s.seat c i).cur⟩ else if i == 7 && (s.core c).seized.isSome then ⟨c, 8, 0⟩ else ⟨c, i, 0⟩

/-- The bank is in handler mode (R395). -/
def Bank.handler (b : Bank) : Bool := b.tstat.getLsbD 0
/-- A scene is open and not frozen (R395). -/
def Bank.live (b : Bank) : Bool := b.scene.isSome && !b.handler
/-- The scene the instruction runs in, if one is open and not frozen. -/
def Bank.openScene (b : Bank) : Option Scene := if b.handler then none else b.scene

/-! Control registers of core, die and module scope; engine registers. -/

/-- The value a control register of core scope has before it is written (R251, R397). -/
def crResetCore (c n : Nat) : Word :=
  if n = 0x188 then (if Config.isX c then 0 else 64) else if n = 0x28b then w64 (Config.dieOf c * 384) else 0
/-- A control register of core scope. -/
def State.crCore (s : State) (c n : Nat) : Word := mget (s.core c).crs n (crResetCore c n)
/-- Set a control register of core scope. -/
def State.setCrCore (s : State) (c n : Nat) (v : Word) : State := s.modCore c fun k => { k with crs := mset k.crs n v }
/-- The value a control register of die or module scope has before it is written (R251, R451). -/
def crResetGlob (n : Nat) : Word :=
  if n = 0x194 then 1 else if n = 0x305 then 0x0104_000a else if n = 0x306 then 8
  else if n = 0x309 then 0x2000_03e8_0064_0300 else if n = 0x30c then 0x0064_695f else if n = 0x30f then 380 else 0
/-- A control register of die scope; those of module scope are kept under die 0. -/
def State.crGlob (s : State) (d n : Nat) : Word := mget s.crs (d * 1024 + n) (crResetGlob n)
/-- Set a control register of die or module scope. -/
def State.setCrGlob (s : State) (d n : Nat) (v : Word) : State := { s with crs := mset s.crs (d * 1024 + n) v }

/-- The value a shared engine register has before it is written (R296, R326, R335, R340, R346, R364, R372, R416). -/
def eregReset (eng n : Nat) : Word :=
  match eng with
  | 0 => if n = 0x118 then 0x01a4_0060_0028_0018 else if n = 0x119 then 0x0000_0002_001e_0002 else 0
  | 1 => if n = 0x11e then 0x0040_0010 else 0
  | 2 => if n = 0x10c then 0x0030_0008 else 0
  | 3 => if n = 0x11c then 0x0020_0004 else 0
  | 4 => if n = 0x101 then 256 else if n = 0x107 then 0x10 else 0
  | 5 => if n = 0x10c then 0x0020_0020 else 0
  | 6 => if 0x100 ≤ n ∧ n < 0x104 then 0x0001_3000 else 0
  | _ => if n = 0x107 then 0x40 else 0
/-- A shared engine register of core scope. -/
def State.eregCore (s : State) (c eng n : Nat) : Word := mget (s.core c).eregs (eng * 512 + n) (eregReset eng n)
/-- Set a shared engine register of core scope. -/
def State.setEregCore (s : State) (c eng n : Nat) (v : Word) : State :=
  s.modCore c fun k => { k with eregs := mset k.eregs (eng * 512 + n) v }
/-- The unit of a cluster (0 to 47) or of a die (64, 65) that holds shared engine registers. -/
def unitDie (d : Nat) : Nat := 64 + d
/-- A shared engine register of cluster or die scope. -/
def State.eregUnit (s : State) (u eng n : Nat) : Word := mget s.eregs (u * 4096 + eng * 512 + n) (eregReset eng n)
/-- Set a shared engine register of cluster or die scope. -/
def State.setEregUnit (s : State) (u eng n : Nat) (v : Word) : State :=
  { s with eregs := mset s.eregs (u * 4096 + eng * 512 + n) v }

/-! Time. -/

/-- DTIME in ns (R34). -/
def State.dtime (s : State) : Nat := s.dt / (23 * 10 ^ 6)
/-- The number of clk in some ns at the rate of R34. -/
def clkOfNs (ns : Nat) : Nat := ns * 23 / 10

/-! The number of a cause (R392). -/
def Cause.num : Cause → Nat
  | .illegalEncoding => 0 | .holdShort => 1 | .misaligned => 2 | .swTrap => 3 | .privInsn => 4 | .preemptHalt => 5
  | .segLimit => 16 | .segRights => 17 | .addrUnmapped => 18 | .pageAbsent => 19 | .protPage => 20
  | .memUncorrectable => 21 | .amoUnsupported => 22 | .extAbort => 23 | .sceneOverflow => 32 | .sceneLivein => 33
  | .sceneLivelock => 34 | .queueHangup => 48 | .stageDoorFull => 49 | .msgBounce => 50 | .reflexBlock => 51
  | .gangBroken => 52 | .dequeOverflow => 53 | .syncInScene => 54 | .seizeRefused => 55 | .engineFault => 64
  | .engineAbsent => 65 | .engineDesc => 66 | .stackOverflow => 67 | .lateFrame => 68 | .copyFault => 69
  | .saveAreaFull => 70 | .saveInvalid => 71 | .watchdogKill => 80 | .thermalDisplace => 81 | .sigInvalid => 82
  | .privReg => 83 | .machineCheck => 84 | .linkDown => 85 | .peerDown => 86 | .queueInvalid => 87

/-! Registers. -/

/-- The value of a register by its code 0 to 59 (R14, R150); s0 reads zero. -/
def State.reg (s : State) (p : Place) (code : Nat) : Word :=
  if code = 0 then 0 else if code < 28 then mget (s.bank p).regs code 0 else mget (s.seat p.core p.seat).mail (code - 28) 0

/-- Write a register by its code 0 to 59; writes to s0 are discarded. Presence bits stay. -/
def State.setReg (s : State) (p : Place) (code : Nat) (v : Word) : State :=
  if code = 0 then s
  else if code < 28 then s.modBank p fun b => { b with regs := mset b.regs code v }
  else s.modSeat p.core p.seat fun t => { t with mail := mset t.mail (code - 28) v }

/-- The presence bit of a register of the mail window (R150); true of any other register. -/
def State.present (s : State) (p : Place) (code : Nat) : Bool :=
  if 28 ≤ code ∧ code < 60 then (s.seat p.core p.seat).mpres.getLsbD (code - 28) else true

/-- Merge two values in the layout of AMAX: NAN is ORed, MAG is the larger (R32). -/
def amaxMerge (a b : BitVec 32) : BitVec 32 :=
  ((a ||| b) &&& 0x8000_0000) |||
    (if (a &&& 0x7fff_ffff).toNat < (b &&& 0x7fff_ffff).toNat then b &&& 0x7fff_ffff else a &&& 0x7fff_ffff)

/-- A 32-bit word with bit `i` set. -/
def setBit32 (v : BitVec 32) (i : Nat) : BitVec 32 := v ||| BitVec.ofNat 32 (2 ^ i)

/-- An entry joins the qin of the seat downstream of `p`, or is dropped when it has hung up or gone (R172). -/
def State.enqueue (s : State) (p : Place) (v : Word) : State :=
  match (s.seat p.core p.num).down with
  | some (c, i) => s.modSeat c i fun t => { t with qin := t.qin ++ [v] }
  | none => s

/-- A fixed-latency write retires (R23, R92, R150): a mail register also becomes present, unless an arrival of this clk
already wrote it; a push enters its queue; a note lands in AMAX (R81). -/
def State.retire1 (s : State) (p : Place) (w : PendWrite) : State :=
  if w.code = 61 then
    (s.enqueue p w.val).modSeat p.core p.num fun t => { t with outRes := t.outRes - 1 }
  else if w.code = 64 then s.modBank p fun b => { b with amax := amaxMerge b.amax (w.val.setWidth 32) }
  else if 28 ≤ w.code ∧ w.code < 60 then
    let t := s.seat p.core p.seat
    if mget t.mailClk (w.code - 28) 0 = s.clk + 1 then s
    else (s.setReg p w.code w.val).modSeat p.core p.seat fun t => { t with mpres := setBit32 t.mpres (w.code - 28) }
  else s.setReg p w.code w.val

/-- Retire every write whose si has come. `inflight` is kept in order of retirement, issue order within one si. -/
def State.retireDue (s : State) (p : Place) : State :=
  let b := s.bank p
  let due := b.inflight.filter (·.at_ ≤ b.si)
  due.foldl (fun s w => s.retire1 p w) (s.modBank p fun b => { b with inflight := b.inflight.filter (b.si < ·.at_) })

/-- Every fixed-latency write of an earlier instruction retires (R26). -/
def State.retireAll (s : State) (p : Place) : State :=
  (s.bank p).inflight.foldl (fun s w => s.retire1 p w) (s.modBank p fun b => { b with inflight := [] })

/-- Put a write in flight, after every write that retires at its si or earlier (R23). -/
def insertWrite : List PendWrite → PendWrite → List PendWrite
  | [], w => [w]
  | x :: t, w => if x.at_ ≤ w.at_ then x :: insertWrite t w else w :: x :: t

/-- A variable-latency result reaches its register (R25); a push enters its queue. The presence bit of a mail register
stays (R150 sets it for fixed-latency writes only; log 21). -/
def State.land1 (s : State) (p : Place) (code : Nat) (v : Word) : State :=
  if code = 61 then (s.enqueue p v).modSeat p.core p.num fun t => { t with outRes := t.outRes - 1 } else s.setReg p code v

/-- A pending result lands, with its note of AMAX (R25, R81). -/
def State.landRes (s : State) (p : Place) (r : PendRes) (v : Word) : State :=
  let s := if r.note = 0 then s else s.modBank p fun b => { b with amax := amaxMerge b.amax r.note }
  if r.code = 64 then s else s.land1 p r.code v

/-- Every pending result that exists lands (the wait of R131 for pending marks). Results still to be made stay. -/
def State.landAll (s : State) (p : Place) : State :=
  (s.bank p).pending.foldl (fun s r => match r.val with | some v => s.landRes p r v | none => s)
    (s.modBank p fun b => { b with pending := b.pending.filter (·.val.isNone) })

/-! Messages (R262). -/

/-- Write a bounce word into m31 of a seat (R176). -/
def bounceWord (vcore seat midx cause : Nat) : Word :=
  w64 (vcore % 2 ^ 32 + seat % 8 * 2 ^ 32 + midx % 32 * 2 ^ 35 + cause % 128 * 2 ^ 40)
/-- The word that names the destination of a refused message. -/
def Msg.bounceOf (m : Msg) (c : Nat) (cause : Cause) : Word :=
  match m.body with
  | .mail i x _ => bounceWord (m.vdst.getD c) i x cause.num
  | _ => bounceWord (m.vdst.getD c) 0 0 cause.num
/-- The die of an agent; the device, as source of a message, stands at die 0. -/
def agentDie (c : Nat) : Nat := if c < Config.cores then Config.dieOf c else 0
/-- The link between the dies is lost, and a message would have to cross it (R437). -/
def State.crosses (s : State) (a b : Nat) : Bool := !s.linkUp && agentDie a != agentDie b
/-- A message that the mesh can stop: one that a send, a remote store or an engine hands to the network interface (R194,
R281, R409). -/
def Body.stoppable (b : Body) : Bool := match b with | .mail .. => true | .start _ => true | .store .. => true | .stores _ => true | _ => false
/-- The bytes that a store of n bytes takes in the spill area: header and payload in units of 16 bytes (R409). -/
def spillSize (n : Nat) : Nat := 16 + (n + 15) / 16 * 16
/-- The bytes that a message takes in the spill area (R409). -/
def Body.spill (b : Body) : Nat :=
  match b with
  | .mail .. => 32
  | .start _ => 32
  | .store _ bytes _ _ => spillSize bytes.length
  | .stores ps => (ps.map fun x => spillSize x.2.length).sum
  | _ => 0
/-- The first offset of a store. -/
def Body.off (b : Body) : Nat := match b with | .store off .. => off | .stores ((o, _) :: _) => o | _ => 0
/-- The network interface of a core has room for messages of n bytes, as they would be spilled (R409): it never holds more than
fits in 2 KiB, and what it is handed goes on at once while the mesh takes messages (log 17). -/
def State.outRoom (s : State) (c n : Nat) : Bool :=
  !s.meshStop.contains c || decide (((s.core c).outbox.map (·.body.spill)).sum + n ≤ 2048)
/-- A message enters the mesh with the next number. Across a lost link it bounces to its sender, or is lost when it comes
from no send, remote store or engine (R437; log 75). -/
def State.toMesh (s : State) (m : Msg) : State :=
  let m' := { m with no := s.msgNo }
  let back := { m' with dst := m.src, vdst := none, cls := 1, body := .bounce m.seat m.body.off (m.bounceOf m.dst .msgBounce) }
  { s with
    net := s.net ++ (if !s.crosses m.src m.dst then [m'] else if m.body.stoppable then [back] else [])
    msgNo := s.msgNo + 1 }

/-- The message that a core sends now. -/
def State.msg (s : State) (src dst : Nat) (vdst : Option Nat) (cls : Nat) (adaptive : Bool) (pts seat : Nat) (b : Body) : Msg :=
  ⟨s.msgNo, src, dst, vdst, cls, adaptive, pts, seat, b⟩
/-- A message of its source is handed to the network interface (R414 counts it), and enters the mesh unless the mesh has
stopped the core (log 17). -/
def State.enter (s : State) (m : Msg) : State :=
  if s.meshStop.contains m.src && m.body.stoppable then
    { s.modCore m.src (fun k => { k with sent := k.sent + 1, outbox := k.outbox ++ [m] }) with msgNo := s.msgNo + 1 }
  else (s.modCore m.src fun k => { k with sent := k.sent + 1 }).toMesh m
/-- Hand a message to the mesh. It carries the sender's pts. -/
def State.post (s : State) (src dst : Nat) (vdst : Option Nat) (cls : Nat) (adaptive : Bool) (seat : Nat) (b : Body) :
    State :=
  s.enter (s.msg src dst vdst cls adaptive (s.core src).pts seat b)

/-- The supervisor core of a core (R397). -/
def State.sup (s : State) (c : Nat) : Nat := (s.crCore c 0x28b).toNat % 1024

/-- Send a fault message of R52 and R410 from a core to a supervisor core, on the control class. -/
def State.faultTo (s : State) (c dst seat cause vcore : Nat) (w1 w2 : Word) : State :=
  s.post c dst none 3 false seat
    (.fault (w64 (c + seat % 8 * 2 ^ 10 + cause * 2 ^ 16 + vcore * 2 ^ 32)) w1 w2 (w64 s.dtime))

/-- Send a fault message to the core's own supervisor core. -/
def State.faultMsg (s : State) (c seat : Nat) (cause : Cause) (vcore : Nat) (w1 w2 : Word) : State :=
  s.faultTo c (s.sup c) seat cause.num vcore w1 w2

/-- MEMERR.UE of a core rises, saturating (R249, R251). -/
def State.raiseUE (s : State) (c : Nat) : State :=
  let v := (s.crCore c 0x195).toNat
  s.setCrCore c 0x195 (w64 (v % 2 ^ 32 + min 0xffff (bits v 47 32 + 1) * 2 ^ 32))

/-- MEMERR.CE of a core rises by a corrected read, saturating (R249, R251). -/
def State.raiseCE (s : State) (c : Nat) : State :=
  let v := (s.crCore c 0x195).toNat
  s.setCrCore c 0x195 (w64 (v / 2 ^ 32 * 2 ^ 32 + min (2 ^ 32 - 1) (v % 2 ^ 32 + 1)))

/-- A read that is no instruction's meets uncorrectable data, which is not delivered: MEMERR.UE and a report with the
sector's address (R249, DESIGN CHOICE, log 22). -/
def State.reportUE (s : State) (c sec : Nat) : State :=
  (s.raiseUE c).faultMsg c 0 .memUncorrectable 0 (w64 (sec / 32 * 32)) 0

/-- A value lands in a mail register and sets its presence bit (R150). -/
def State.mailLand (s : State) (c i m : Nat) (v : Word) : State :=
  s.modSeat c i fun t => { t with
    mail := mset t.mail m v, mpres := setBit32 t.mpres m, mailClk := mset t.mailClk m (s.clk + 1) }

/-! Halting and trapping. -/

/-- The order of the causes in the table of R148. -/
def Stall.rank : Stall → Nat
  | .parked => 0 | .thermal => 1 | .presence => 2 | .queue => 3 | .engine => 4 | .memory => 5 | .order => 6
/-- The first cause of a list by R148. -/
def firstStall (l : List Stall) : Option Stall :=
  l.foldl (fun a c => match a with | none => some c | some d => if c.rank < d.rank then some c else a) none

/-- Release a stage-door entry of a die (R194, R281). -/
def State.doorRelease (s : State) (d : Nat) : State := { s with doorRes := mset s.doorRes d (mget s.doorRes d 0 - 1) }
/-- What the instruction of a bank had reserved while its commit waited is released (R194, R287). -/
def State.unreserve (s : State) (p : Place) : State :=
  let s := match (s.bank p).sendTo with | some (.held _) => s.doorRelease (Config.dieOf p.core) | _ => s
  s.modBank p fun b => { b with sendTo := none, copRoom := none }

/-- Halt a bank by R51: earlier writes retire, it stops issuing with its PC and scene as they stand, and a fault message
goes out. `w` is the instruction word, or 0 when none was decoded. -/
def State.haltBank (s : State) (p : Place) (cause : Cause) (w : W32) : State :=
  let s := (s.retireAll p).modBank p fun b => { b with run := .halted, owed := 0, wip := .none }
  let b := s.bank p
  s.faultMsg p.core p.num cause b.vcore.toNat b.pc (w.setWidth 64)

/-- The handler index of R394: the seat on a D-tile, 4 × seat + bank on an X-tile. -/
def Place.slotNo (p : Place) : Nat := if Config.isX p.core then 4 * p.num + p.bank else p.num

/-- The handler segments of a core (R394, R397). -/
def State.handlerSeg7 (s : State) (c : Nat) : Seg :=
  ⟨s.crCore c 0x285, s.crCore c 0x286, (s.crCore c 0x287).setWidth 4⟩
/-- The handler data segment of a bank. -/
def State.handlerSeg0 (s : State) (p : Place) : Seg :=
  ⟨s.crCore p.core 0x288 + w64 (768 * p.slotNo), s.crCore p.core 0x289, (s.crCore p.core 0x28a).setWidth 4⟩

/-- Enter the resident handler at `epc`: the part of R394 that traps and pre-emption (R407) share. -/
def State.enterHandler (s : State) (p : Place) (epc : Word) (kind len : Nat) (parked : Bool) : State :=
  let tvec := s.crCore p.core 0x284
  s.modBank p fun b => { b with
    epc := epc
    tstat := BitVec.ofNat 7 (1 + 2 * b2n b.scene.isSome + 4 * kind + 16 * len + 64 * b2n parked)
    kept := some (mget b.segs 0 ⟨0, 0, 0⟩, mget b.segs 7 ⟨0, 0, 0⟩)
    segs := mset (mset b.segs 0 (s.handlerSeg0 p)) 7 (s.handlerSeg7 p.core)
    pc := tvec >>> 2 <<< 2
    owed := 0
    wip := .none }

/-- A bank of a tile whose traps always halt: the reflex bank of seat 7 (R424), or a core with TVEC.EN = 0. -/
def State.trapsHalt (s : State) (p : Place) : Bool := p.seat == 8 || !(s.crCore p.core 0x284).getLsbD 0

/-- FADDR receives the offset that a trapping rule names (R18, R394). -/
def Bank.fault (b : Bank) (off : Option Word) : Bank := { b with faddr := off.getD b.faddr }

/-- Take a trap (R394). `epc` is the PC as the trapping rule leaves it; `len` is TSTAT.LEN; `w` the instruction word. FADDR
is written whether the seat enters its handler or halts. -/
def State.trapAt (s : State) (p : Place) (cause : Cause) (info : Nat) (faddr : Option Word) (epc : Word) (len : Nat)
    (w : W32) : State :=
  let s := ((s.unreserve p).retireAll p).modBank p fun b => { b.fault faddr with pc := epc }
  let s := { s with ended := .trap }
  if cause = .illegalEncoding ∨ (s.bank p).handler = true ∨ s.trapsHalt p = true then s.haltBank p cause w
  else
    let s := s.enterHandler p epc 0 len false
    s.modBank p fun b => { b with
      cause := BitVec.ofNat 32 (cause.num + info * 2 ^ 16) }

/-- Leave handler mode: SEG0 and SEG7 as kept at entry, IN := 0 (R401). -/
def Bank.leaveHandler (b : Bank) : Bank :=
  match b.kept with
  | some (g0, g7) => { b with segs := mset (mset b.segs 0 g0) 7 g7, kept := none, tstat := b.tstat &&& 0x7e }
  | none => { b with tstat := b.tstat &&& 0x7e }

/-- Rights and bounds of a segment. -/
def Bank.seg (b : Bank) (n : Nat) : Seg := mget b.segs n ⟨0, 0, 0⟩
/-- Right R. -/
def Seg.r (g : Seg) : Bool := g.acc.getLsbD 0
/-- Right W. -/
def Seg.w (g : Seg) : Bool := g.acc.getLsbD 1
/-- Right X. -/
def Seg.x (g : Seg) : Bool := g.acc.getLsbD 2
/-- The global path (R20). -/
def Seg.g (g : Seg) : Bool := g.acc.getLsbD 3

end Sys2Proof.Machine
end

