-- ==== Sys2Proof/Machine/Coherence.lean ====
section
/-! DEFINITION. The coherent path: lines with timestamps and leases, the L1, uncorrectable sectors, external locations,
the L2's majority windows (spec/10 R238-R240, R249; spec/11 R252-R261, R265). -/
namespace Sys2Proof.Machine

/-- A DRAM byte (R238). -/
def isDram (k : Nat) : Bool := k < 2 ^ 39
/-- Host memory (R238). -/
def isHost (k : Nat) : Bool := 2 ^ 46 ≤ k && k < 2 ^ 47
/-- The understudy's memory (R238). -/
def isPeer (k : Nat) : Bool := 2 ^ 47 ≤ k && k < 2 ^ 47 + 2 ^ 46
/-- An external location (R252). -/
def isExt (k : Nat) : Bool := isHost k || isPeer k
/-- The core of a byte of a local store, with its offset. -/
def tileOfKey (k : Nat) : Option (Nat × Nat) :=
  if 2 ^ 48 ≤ k ∧ k < 2 ^ 49 then some ((k - 2 ^ 48) / 2 ^ 21, (k - 2 ^ 48) % 2 ^ 21) else none
/-- A coherent location (R252): DRAM, a chip scratchpad, banks 16-23 of a D-tile. -/
def isCoh (k : Nat) : Bool :=
  isDram k || (2 ^ 49 ≤ k && k < 2 ^ 50) ||
  match tileOfKey k with
  | some (c, off) => !Config.isX c && 0x80000 ≤ off && off < 0xc0000
  | none => false

/-! Page moves (R248). -/

/-- Bytes of a move's page (R248). -/
def PageMove.bytes (m : PageMove) : Nat := if m.size = 0 then 2 ^ 10 else 2 ^ 21
/-- A physical address lies in the source page of a move. -/
def PageMove.covers (m : PageMove) (pa : Nat) : Bool := pa / m.bytes == m.src / m.bytes
/-- The address in the destination of an address in the source page. -/
def PageMove.to_ (m : PageMove) (pa : Nat) : Nat := if m.covers pa then m.dst / m.bytes * m.bytes + pa % m.bytes else pa

/-- Redirect a physical address that lies in the source page of a move in its second phase (R248). -/
def State.redirect (s : State) (pa : Nat) : Nat := s.moves.foldl (fun pa m => if m.2.state = 2 then m.2.to_ pa else pa) pa

/-- Bytes by address, past a page move. -/
def State.redirected (s : State) (l : List Host.Cell) : List Host.Cell := l.map fun c => (s.redirect c.1, c.2)

/-! Lines. -/

/-- The line of a byte. -/
def lineOf (k : Nat) : Nat := k / 128
/-- The distinct lines of some bytes, ascending. -/
def linesOf (ks : List Nat) : List Nat := (((ks.filter isCoh).map lineOf).insertionSort (· ≤ ·)).dedup
/-- Timestamps (wts, rts) of a line at its home (R258). -/
def State.lts (s : State) (l : Nat) : Nat × Nat := mget s.lines l (0, 0)
/-- The lease length of a core (R251, R258): 0 acts as 1. -/
def State.lease (s : State) (c : Nat) : Nat := max 1 ((s.crCore c 0x188).toNat % 2 ^ 16)
/-- Raise a core's pts (R257). -/
def State.raisePts (s : State) (c t : Nat) : State := s.modCore c fun k => { k with pts := max k.pts t }

/-- The home slice of a DRAM line, by its address (R240), as a slice number of the module. -/
def homeSlice (l : Nat) : Nat :=
  let pa := l * 128
  bits pa 12 12 * 24 + (bits pa 11 7 + bits pa 20 13) % 24

/-- An access to a DRAM line enters its majority window (R240); `c` is the accessing core. The sixteenth decision in a row for a
cluster whose slice does not hold the line makes its move due. -/
def State.l2Access (s : State) (c l : Nat) : State :=
  if !isDram (l * 128) then s else
  let e := mget s.l2 l ⟨none, [], none, 0, 0, none⟩
  let who := if Config.isX c then 48 else
    (let cl := Config.clusterOf c; if cl / 24 = bits (l * 128) 12 12 then cl else 48)
  let w := e.window ++ [who]
  let e := if w.length < 8 then { e with window := w } else
    let dec := (List.range 48).find? fun cl => 5 ≤ w.count cl
    let run := match dec with
      | none => 0
      | some d => if e.last = some d then e.run + 1 else 1
    let moves := run = 16 ∧ dec ≠ some (e.slice.getD (homeSlice l)) ∧ (s.crGlob (bits (l * 128) 12 12) 0x194).getLsbD 0 = true
    { e with window := [], last := dec, run := if moves then 0 else run, due := if moves then dec else e.due }
  { s with l2 := mset s.l2 l e }

/-- A read of a line served at its home for core `c` (R258): the lease returned, and the time t. -/
def State.serveRead (s : State) (c l : Nat) : State × Nat × Nat × Nat :=
  let (wts, rts) := s.lts l
  let t := max (s.core c).pts wts
  let rts' := max rts (t + s.lease c)
  ({ s.l2Access c l with lines := mset s.lines l (wts, rts') }, wts, rts', t)

/-- The L1 set of a line holds at most 8 lines; the least recently used gives way (R239; log 6). -/
def l1Insert (m : SMap L1Line) (l : Nat) (e : L1Line) : SMap L1Line :=
  let m := mdel m l
  let set := m.filter fun x => x.1 % 64 == l % 64
  let m := if set.length < 8 then m else
    match set.foldl (fun (a : Option (Nat × L1Line)) x => match a with
        | none => some x
        | some y => if x.2.used < y.2.used then some x else some y) none with
    | some v => mdel m v.1
    | none => m
  mset m l e

/-- What a read of coherent bytes of one line found: the lease, the time t, the 128 bytes of the line,
and whether its home served it. -/
structure LineRead where
  wts : Nat
  rts : Nat
  t : Nat
  data : List Byte
  home : Bool
deriving DecidableEq, Repr

/-- The 32-byte sectors of a line that some bytes touch (R239). -/
def sectorsOf (ks : List Nat) (l : Nat) : BitVec 4 :=
  ks.foldl (fun a k => if lineOf k = l then a ||| BitVec.ofNat 4 (2 ^ (k % 128 / 32)) else a) 0

/-- An L1 may serve a read of some sectors of a line at time `t` (R239, R258): they are filled, `t` lies within the lease, and
no more than (LEASE + 1) × 16 clk have passed since the fill, so that no value outlives the bound of R261 (log 72). -/
def State.l1Serves (s : State) (c : Nat) (e : L1Line) (secs : BitVec 4) (t : Nat) : Bool :=
  e.filled &&& secs == secs && t ≤ e.rts && s.clk ≤ e.since + (s.lease c + 1) * 16

/-- Read sectors of a coherent line for a core's seat (R239, R258): from the L1 while its lease is valid, else at the home. A
renewal that finds wts unchanged keeps the sectors already filled. -/
def State.readLine (s : State) (c l : Nat) (secs : BitVec 4) : State × LineRead :=
  let k := s.core c
  let cached := isDram (l * 128) && !Config.isX c && !(s.crCore c 0x188).getLsbD 16
  let here := if cached then mfind k.l1 l else none
  match here.filter fun e => s.l1Serves c e secs (max k.pts e.wts) with
  | some e =>
    (s.modCore c fun k => { k with l1 := mset k.l1 l { e with used := s.clk } },
      ⟨e.wts, e.rts, max k.pts e.wts, e.data, false⟩)
  | none =>
    let (s, wts, rts, t) := s.serveRead c l
    let d := memReads s.mem (keysFrom (l * 128) 128)
    let old := match here with | some e => if e.wts = wts then e.filled else 0 | none => 0
    (if cached then s.modCore c fun k => { k with l1 := l1Insert k.l1 l ⟨wts, rts, d, old ||| secs, s.clk, s.clk⟩ } else s,
      ⟨wts, rts, t, d, true⟩)

/-- Some of the bytes lie in an uncorrectable sector (R249). -/
def State.bad (s : State) (ks : List Nat) : Bool := ks.any fun k => s.ue.contains (k / 32)

/-- Write bytes at their homes. A store of all 32 bytes of an uncorrectable sector clears it; a smaller store into a DRAM
sector that is uncorrectable is dropped, and reported to the supervisor core of `c` (R249). -/
def State.poke (s : State) (c : Nat) (cells : List Host.Cell) : State :=
  if s.ue.isEmpty then { s with mem := memWrites s.mem cells } else
  let secs := (cells.map fun x => x.1 / 32).dedup.filter s.ue.contains
  let full := secs.filter fun q => (List.range 32).all fun i => cells.any fun x => x.1 == q * 32 + i
  let part := secs.filter fun q => !full.contains q && isDram (q * 32)
  let s' := { s with
    mem := memWrites s.mem (cells.filter fun x => !part.contains (x.1 / 32))
    ue := s.ue.filter fun q => !full.contains q }
  part.foldl (fun s q => s.faultMsg c 0 .memUncorrectable 0 (w64 (q * 32)) 0) s'

/-- Perform a unit with writes on the coherent path for core `c` (R254, R258): its timestamp is above pts, `lo` and every
reader's lease; wts = rts = ts. Bytes that are not coherent are written in the same place. The core's pts rises. -/
def State.unitWrite (s : State) (c lo : Nat) (cells : List Host.Cell) : State × Nat :=
  let ls := linesOf (cells.map (·.1))
  let ts := ls.foldl (fun a l => max a ((s.lts l).2 + 1)) (max (s.core c).pts lo)
  let s := ls.foldl (fun (s : State) l => { s.l2Access c l with lines := mset s.lines l (ts, ts) }) s
  ((s.poke c cells).raisePts c ts, ts)

/-- A unit with writes made by a device agent of no core, at a time not below `lo` (R254, R258), past a page move. One into a
page that a move blocks is made before its line is copied (R248; log 77). -/
def State.devWrite (s : State) (lo : Nat) (cells : List Host.Cell) : State :=
  let cells := s.redirected cells
  let ls := linesOf (cells.map (·.1))
  let ts := ls.foldl (fun a l => max a ((s.lts l).2 + 1)) lo
  (ls.foldl (fun (s : State) l => { s with lines := mset s.lines l (ts, ts) }) s).poke 0 cells

/-- The latest timestamp of any write: a release's own write has a later one, so that who observes it sees every write before
it (R255, R271). -/
def State.lastTs (s : State) : Nat := s.lines.foldl (fun a l => max a l.2.1) 0

/-- The cells of some bytes from a key on. -/
def cellsAt (k : Nat) (bs : List Byte) : List Host.Cell := (List.range bs.length).zipWith (fun i b => (k + i, b)) bs

/-- Read bytes as an engine or device unit does (R254, R303): the latest value at the home, with a lease for `c`. -/
def State.unitRead (s : State) (c : Nat) (ks : List Nat) : State × List Byte :=
  let ls := linesOf ks
  let s := ls.foldl (fun (s : State) l => (s.serveRead c l).1) s
  (s, memReads s.mem ks)

/-- The posted writes of a seat to a port, performed in order (R265). -/
def State.flushExt (s : State) (sel : ExtWrite → Bool) : State :=
  let (a, r) := s.extq.partition sel
  a.foldl (fun s w => { s with mem := memWrites s.mem ((List.range w.bytes.length).map fun i =>
    (w.addr + i, w.bytes.getD i 0)) }) { s with extq := r }

/-- A posted write of a seat to an external location (R265). -/
def State.postExt (s : State) (c i addr : Nat) (bytes : List Byte) : State :=
  { s with extq := s.extq ++ [⟨c, i, addr, bytes⟩] }

end Sys2Proof.Machine
end

