-- ==== Sys2Proof/Machine/Address.lean ====
section
/-! DEFINITION. From a segment offset to bytes: the checks of R18, the on-chip map (R231, R232, R235), translation
(R241-R243), access counters and migration notices (R246, R247). -/
namespace Sys2Proof.Machine

/-! Seizure groups (R421), which reserve banks 22-23 of their tiles. -/

/-- The value of SZGRPg. -/
def State.szgrp (s : State) (g : Nat) : Nat := (s.crGlob 0 (0x2a0 + g)).toNat
/-- The tiles that a SZGRP value names, in the order of R421. -/
def grpTiles (v : Nat) : List Nat :=
  ((List.range 48).filter (bit v ·)).flatMap fun cl =>
    ((List.range 16).filter fun i => bit v (48 + i)).map fun i => Config.tileOf cl i
/-- The SZGRP value names the core. -/
def grpHas (v c : Nat) : Bool :=
  !Config.isX c && bit v (Config.clusterOf c) && bit v (48 + Config.tileIdx c)
/-- The members of a group in order: a fenced core has left it (R421, R428). -/
def State.members (s : State) (g : Nat) : List Nat := (grpTiles (s.szgrp g)).filter fun c => !(s.core c).left.contains g
/-- The seizure group of a core (R421). -/
def State.groupOf (s : State) (c : Nat) : Option Nat :=
  (List.range 32).find? fun g => grpHas (s.szgrp g) c && !(s.core c).left.contains g

/-! The on-chip map. -/

/-- The byte at an on-chip address of a core, wherever its home is (R231, R235). -/
def onchipByte (c a : Nat) : Option Nat :=
  if Config.isX c then (if a < 0x20_0000 then some (Config.tileKey c a) else none)
  else if a < 0xc_0000 then some (Config.tileKey c a)
  else if 0x10_0000 ≤ a ∧ a < 0x10_8000 then some (Config.tileKey c a)
  else if 0x40_0000 ≤ a ∧ a < 0x80_0000 then
    let w := a - 0x40_0000
    let l := bits w 21 12 * 256 + bits w 7 0
    some (Config.tileKey (Config.tileOf (Config.clusterOf c) (bits w 11 8)) (0x8_0000 + l))
  else if 0x100_0000 ≤ a ∧ a < 0x500_0000 then some (Config.padKey 0 (a - 0x100_0000))
  else if 0x500_0000 ≤ a ∧ a < 0x900_0000 then some (Config.padKey 1 (a - 0x500_0000))
  else none

/-- A byte is reserved from the seat at `p` (R232). -/
def State.reservedFor (s : State) (p : Place) (k : Nat) : Bool :=
  match tileOfKey k with
  | some (c, off) =>
    !Config.isX c &&
    ((0x7_e000 ≤ off && off < 0x8_0000 && !(p.core == c && (s.bank p).handler)) ||
     (0xb_0000 ≤ off && off < 0xc_0000 && (s.groupOf c).isSome && !(p.core == c && p.seat == 8)))
  | none => false

/-- The bytes of an on-chip access of a seat, or the cause it traps with (R231). -/
def State.onchip (s : State) (p : Place) (a n : Nat) : Except Cause (List Nat) :=
  let ks := (List.range n).map fun i => onchipByte p.core (a + i)
  if ks.any fun k => match k with | some k => s.reservedFor p k | none => false then .error .segRights
  else if ks.any Option.isNone then .error .addrUnmapped
  else .ok (ks.filterMap id)

/-! Translation. -/

/-- The entry of a home slice's queue is still waited on: its access, or the commit that it belongs to, has not been made. -/
def State.atHome (s : State) (w : Who) : Bool :=
  match w with
  | .seat p => match (s.bank p).wip with | .home | .committing | .fetching | .reissue _ => true | _ => false
  | .eng c id => (s.core c).queues.any fun q => match q.2.head? with | some e => e.id == id && e.state == 1 | none => false
/-- The accesses that wait at a home slice for a move. -/
def State.homeQueue (s : State) (m : PageMove) (slice : Nat) : List Who :=
  (m.queue.filter fun e => e.2 == slice && s.atHome e.1).map (·.1)
/-- The die that a byte lives on; none for host and peer memory. -/
def keyDie (k : Nat) : Option Nat :=
  if isExt k then none
  else match tileOfKey k with
  | some (c, _) => some (Config.dieOf c)
  | none => some (if isDram k then bits k 12 12 else if k < 2 ^ 50 then (k - 2 ^ 49) / 2 ^ 26 else (k - 2 ^ 50) / 2 ^ 22)
/-- A request of core c for the byte would cross a lost link (R436, R437): it is not served, and waits (DEDUCED, log 75). -/
def State.farKey (s : State) (c k : Nat) : Bool :=
  !s.linkUp && match keyDie k with | some d => d != Config.dieOf c | none => false
/-- The core of an agent. -/
def Who.core : Who → Nat
  | .seat p => p.core
  | .eng c _ => c
/-- An access to a physical address is queued at its home slice (R248): the page is blocked, or accesses that arrived earlier
are replayed first. `who` makes it; none stands for the device and a recall, which make their access again.
So is one that would cross a lost link. -/
def State.homeHeld (s : State) (who : Option Who) (pa : Nat) : Bool :=
  (match who with | some w => s.farKey w.core pa | none => false) ||
  s.moves.any fun m => m.2.covers pa && (m.2.state == 1 || (m.2.state == 2 &&
    match s.homeQueue m.2 (homeSlice (pa / 128)) with | q :: _ => who != some q | [] => false))
/-- An access of an agent that stands in no queue must wait for a page move. -/
def State.blocked (s : State) (pa : Nat) : Bool := s.homeHeld none pa
/-- An access that a page move holds arrives at the home slice: it is queued there once, in order of arrival, while the slice
has room for it; none while it has not (R248). -/
def State.joinAt (s : State) (who : Who) (pa : Nat) : Option State :=
  let slice := homeSlice (pa / 128)
  match s.moves.find? fun m => m.2.covers pa && (m.2.state == 1 || m.2.state == 2) with
  | some (d, m) =>
    let q := m.queue.filter fun e => s.atHome e.1 || e.1 == who
    if q.contains (who, slice) then some s
    else if (q.filter fun e => e.2 == slice).length < 64 then
      some { s with moves := mset s.moves d { m with queue := q ++ [(who, slice)] } }
    else none
  | none => none
/-- The access is made: it leaves the queues. -/
def State.leaveHome (s : State) (who : Who) : State :=
  if s.moves.isEmpty then s else
  { s with moves := s.moves.map fun m => (m.1, { m.2 with queue := m.2.queue.filter fun e => e.1 != who }) }

/-- What a walk finds (R242). -/
inductive Xlate where
  | pa (pa : Nat) (sub : Bool)
  | absent (sub : Bool)
  | prot
  /-- a table entry lies in an uncorrectable sector (R249) -/
  | bad (sec : Nat)
  /-- the read of a table entry is queued at the home slice of this address (R248) -/
  | wait (pa : Nat)
deriving DecidableEq, Repr

/-- A table entry has a non-zero reserved bit (R241). -/
def pteReserved (e : Nat) : Bool := bits e 9 7 != 0 || bits e 5 4 != 0 || bits e 1 1 != 0
/-- A table entry in memory, past a page move (R248); uncorrectable data is not delivered (R249). -/
def State.pte (s : State) (who : Option Who) (pa : Nat) : Except Xlate Nat :=
  if s.homeHeld who pa then .error (.wait pa) else
  let ks := keysFrom (s.redirect pa) 8
  if s.bad ks then .error (.bad (s.redirect pa / 32 * 32)) else .ok (leNat (memReads s.mem ks))

/-- Walk tables of levels 5 to 2: the address of the level 1 table, or how the walk ends. -/
def State.walkTables (s : State) (who : Option Who) (va : Nat) : List (Nat × Nat) → Nat → Except Xlate Nat
  | [], tbl => .ok tbl
  | (hi, lo) :: t, tbl =>
    match s.pte who (tbl + 8 * bits va hi lo) with
    | .error x => .error x
    | .ok e =>
      if !bit e 0 then .error (.absent false)
      else if pteReserved e || bit e 6 || bits e 11 10 != 0 then .error .prot
      else s.walkTables who va t (bits e 47 12 * 2 ^ 12)

/-- The leaf of a virtual address and whether it is of a sub-page (R241-R243). -/
def State.walkLeaf (s : State) (who : Option Who) (root va : Nat) (tagged : Bool) : Except Xlate (Nat × Bool) :=
  match s.walkTables who va [(63, 57), (56, 48), (47, 39), (38, 30)] root with
  | .error x => .error x
  | .ok tbl =>
    match s.pte who (tbl + 8 * bits va 29 21) with
    | .error x => .error x
    | .ok e =>
    if !bit e 0 then .error (.absent false)
    else if bit e 6 then
      if pteReserved e || bits e 13 10 != 0 || !tagged then .error .prot else
      match s.pte who (bits e 47 14 * 2 ^ 14 + 8 * bits va 20 10) with
      | .error x => .error x
      | .ok f =>
        if !bit f 0 then .error (.absent true)
        else if pteReserved f || bit f 6 then .error .prot
        else .ok (f, true)
    else if pteReserved e || bits e 20 10 != 0 then .error .prot
    else .ok (e, false)

/-- The table entries that a walk reads, as far as it comes: of levels 5 to 2, of level 1, of a sub-page table (R241-R243). -/
def State.walkReads (s : State) (va : Nat) : List (Nat × Nat) → Nat → List Nat
  | [], tbl =>
    let a := tbl + 8 * bits va 29 21
    match s.pte none a with
    | .ok e => if bit e 0 && bit e 6 then [a, bits e 47 14 * 2 ^ 14 + 8 * bits va 20 10] else [a]
    | .error _ => [a]
  | (hi, lo) :: t, tbl =>
    let a := tbl + 8 * bits va hi lo
    match s.pte none a with
    | .ok e => if bit e 0 then a :: s.walkReads va t (bits e 47 12 * 2 ^ 12) else [a]
    | .error _ => [a]

/-- The virtual address lies in an enabled window of the core's REGION registers (R243, R251). -/
def State.tagged (s : State) (c va : Nat) : Bool :=
  (List.range 8).any fun n =>
    let v := (s.crCore c (0x180 + n)).toNat
    bit v 0 && bits v 63 21 ≤ va / 2 ^ 21 && va / 2 ^ 21 ≤ bits v 63 21 + bits v 11 1

/-- A cluster's memory management unit. -/
def State.mmu (s : State) (cl : Nat) : Mmu := mget s.mmus cl ⟨[], [], []⟩
/-- The state with an MMU changed. -/
def State.modMmu (s : State) (cl : Nat) (f : Mmu → Mmu) : State := { s with mmus := mset s.mmus cl (f (s.mmu cl)) }

/-- The rights of a leaf for an access, and the address it gives (R242, R238). -/
def leafPa (e : Nat) (sub : Bool) (va : Nat) (w x : Bool) : Xlate :=
  if (w && !bit e 2) || (x && !bit e 3) then .prot else
  let pa := if sub then bits e 47 10 * 2 ^ 10 + va % 2 ^ 10 else bits e 47 21 * 2 ^ 21 + va % 2 ^ 21
  if isDram pa || isExt pa then .pa pa sub else .prot

/-- Translate a virtual address in a slot's address space, for core `c`, filling the translation cache (R241-R243); the reads of a
walk enter the windows of their lines (R240). -/
def State.translate (s : State) (who : Option Who) (c slot va : Nat) (w x : Bool) : State × Xlate :=
  let cl := Config.clusterOf c
  let page := va / 2 ^ 21
  let tag := s.tagged c va
  let m := s.mmu cl
  match m.tlb.find? fun t => t.slot == slot && t.page == page &&
      (match t.sub with | none => true | some i => i == bits va 20 10) with
  | some t => (s, if t.sub.isSome && !tag then .prot else leafPa t.leaf.toNat t.sub.isSome va w x)
  | none =>
    let root := (s.slot slot).root
    match s.walkLeaf who root va tag with
    | .error e => (s, e)
    | .ok (e, sub) =>
      let s := (s.walkReads va [(63, 57), (56, 48), (47, 39), (38, 30)] root).foldl (fun (s : State) a =>
        s.l2Access c (lineOf (s.redirect a))) s
      (s.modMmu cl fun m => { m with
        tlb := m.tlb ++ [⟨slot, page, if sub then some (bits va 20 10) else none, w64 e⟩] }, leafPa e sub va w x)

/-! Access counters and the notification queue (R246, R247). -/

/-- The length of a die's notification ring. -/
def State.mnqLen (s : State) (d : Nat) : Nat := 2 ^ min 16 ((s.crGlob d 0x18b).toNat % 32)
/-- The notification queue has room. -/
def State.mnqRoom (s : State) (d : Nat) : Bool :=
  ((s.crGlob d 0x18d).toNat + 2 ^ 32 - (s.crGlob d 0x18c).toNat) % 2 ^ 32 ≠ s.mnqLen d
/-- Append a record to a die's notification queue, as a release (R246, R271). -/
def State.mnqPost (s : State) (d : Nat) (d0 d1 : Word) : State :=
  let tail := (s.crGlob d 0x18d).toNat
  let k := (s.crGlob d 0x18a).toNat / 4096 * 4096 + 16 * (tail % s.mnqLen d)
  (s.devWrite s.lastTs (cellsAt k (leBytes 8 d0.toNat ++ leBytes 8 d1.toNat))).setCrGlob d 0x18d (w64 ((tail + 1) % 2 ^ 32))
/-- Append a THRESH record of a counter entry. -/
def State.postThresh (s : State) (cl : Nat) (e : Counter) : State :=
  s.mnqPost (cl / 24) (w64 (1 + (if e.sub then e.page * 2 ^ 10 else e.page * 2 ^ 21) / 2 ^ 10 * 2 ^ 10))
    (w64 (e.slot + cl * 2 ^ 6 + b2n e.sub * 2 ^ 12 + e.count * 2 ^ 16))

/-- The number of a page: va / 2^10 for a sub-page, va / 2^21 otherwise. -/
def pageNo (va : Nat) (sub : Bool) : Nat := if sub then va / 2 ^ 10 else va / 2 ^ 21

/-- The entry to use for a page: the one that has it, a free one, or the one to replace (R247). -/
def counterSlot (l : List Counter) (slot page : Nat) (sub : Bool) : Option Nat :=
  match l.findIdx? fun e => e.slot == slot && e.page == page && e.sub == sub with
  | some i => some i
  | none =>
    if l.length < 256 then some l.length else
    let least := l.foldl (fun (a : Option Nat) e => if e.pend then a else
      match a with | none => some e.count | some n => some (min n e.count)) none
    match least with
    | none => none
    | some n => l.findIdx? fun e => !e.pend && e.count == n

/-- Raise or count the counter of a page at a cluster; a crossing posts a THRESH record when there is room (R247).
`lift` none counts one access; `some n` raises the count to n (R285). -/
def State.countPage (s : State) (cl slot page : Nat) (sub : Bool) (lift : Option Nat) : State :=
  let th := (s.crGlob (cl / 24) 0x18e).toNat % 2 ^ 16
  if th = 0 then s else
  let l := (s.mmu cl).counters
  match counterSlot l slot page sub with
  | none => s
  | some i =>
    let e := match l[i]? with
      | some e => if e.slot = slot ∧ e.page = page ∧ e.sub = sub then e else ⟨slot, page, sub, 0, false, false⟩
      | none => ⟨slot, page, sub, 0, false, false⟩
    let e := if e.pend then e else { e with count := match lift with | none => (e.count + 1) % 2 ^ 16 | some n => max n e.count }
    let hit := e.count = th ∧ e.pend = false
    let room := s.mnqRoom (cl / 24)
    let e' := if hit then { e with pend := true, posted := room } else e
    let s := s.modMmu cl fun m => { m with
      counters := if i < m.counters.length then m.counters.set i e' else m.counters ++ [e'] }
    if hit ∧ room = true then s.postThresh cl e else s

/-- Count an access of a core on the page that its translation took (R247); an X-tile translates nothing. -/
def State.countOn (s : State) (c : Nat) (page : Option (Nat × Nat × Bool)) : State :=
  match page with
  | some g => if Config.isX c then s else s.countPage (Config.clusterOf c) g.1 g.2.1 g.2.2 none
  | none => s

/-! Accesses of a seat. -/

/-- What the checks of an access give. -/
inductive Acc where
  /-- the bytes, and the translated page when it took the global path -/
  | ok (ks : List Nat) (page : Option (Nat × Nat × Bool))
  | trap (c : Cause)
  /-- PAGE_ABSENT: slot, virtual address, sub-page (R403) -/
  | park (slot va : Nat) (sub : Bool)
  /-- the walk met an uncorrectable sector (R249) -/
  | bad (sec : Nat)
  /-- the access, or a read of its walk, is queued at the home slice of this address (R248) -/
  | home (pa : Nat)
deriving DecidableEq, Repr

/-- The checks of R18 on a segment: alignment to `al`, an access of n bytes. -/
def segCheck (g : Seg) (off n al : Nat) (r w x : Bool) : Option Cause :=
  if (r && !g.r) || (w && !g.w) || (x && !g.x) then some .segRights
  else if g.limit.toNat < off + n then some .segLimit
  else if off % al ≠ 0 then some .misaligned
  else none

/-- Bytes of a checked address of segment `g` (R20, R231, R238). -/
def State.place (s : State) (p : Place) (g : Seg) (off n : Nat) (w x : Bool) : State × Acc :=
  let a := (g.base.toNat + off) % 2 ^ 64
  if g.g && !Config.isX p.core then
    let slot := (s.bank p).cslot.toNat
    match s.translate (some (.seat p)) p.core slot a w x with
    | (s, .pa pa sub) =>
      if s.homeHeld (some (.seat p)) pa then (s, .home pa) else (s, .ok (keysFrom (s.redirect pa) n) (some (slot, pageNo a sub, sub)))
    | (s, .absent sub) => (s, .park slot a sub)
    | (s, .prot) => (s, .trap .protPage)
    | (s, .bad sec) => (s, .bad sec)
    | (s, .wait pa) => (s, .home pa)
  else
    match s.onchip p a n with
    | .ok ks => (match ks.find? (s.farKey p.core) with | some k => (s, .home k) | none => (s, .ok ks none))
    | .error c => (s, .trap c)

/-- Check and locate an access of the seat at `p` to segment `seg` (R18, then R231 or R242). -/
def State.locate (s : State) (p : Place) (seg off n al : Nat) (r w x : Bool) : State × Acc :=
  let g := (s.bank p).seg seg
  match segCheck g off n al r w x with
  | some c => (s, .trap c)
  | none => s.place p g off n w x

end Sys2Proof.Machine
end

