-- ==== Sys2Proof/Machine/Effects.lean ====
section
/-! DEFINITION. Effects that reach beyond the seat: records and queues of work (R142-R146, R164), routing and the stage
door (R174-R176), remote stores (R281), wakes (R185), links (R172, R190), seizure releases (R425), scopes (R266). -/
namespace Sys2Proof.Machine

/-! Records (R142, R143). -/

/-- The bytes of a record. -/
def Rec.bytes (r : Rec) : List Byte :=
  [r.pc, r.wid, r.cp, r.s4, r.s5, r.s6, r.s7, r.ctl].flatMap fun w => leBytes 8 w.toNat
/-- The record of 64 bytes. -/
def Rec.ofBytes (bs : List Byte) : Rec :=
  let g := fun i => leWord ((bs.drop (8 * i)).take 8)
  ⟨g 0, g 1, g 2, g 3, g 4, g 5, g 6, g 7⟩
/-- Fields of the control word. -/
def Rec.vcore (r : Rec) : Nat := bits r.ctl.toNat 31 0
/-- Priority; values 24 to 31 act as 23. -/
def Rec.prio (r : Rec) : Nat := min 23 (bits r.ctl.toNat 41 37)
/-- Slot. -/
def Rec.slot (r : Rec) : Nat := bits r.ctl.toNat 47 42
/-- Ensemble number. -/
def Rec.ens (r : Rec) : Nat := bits r.ctl.toNat 59 48
/-- Steal affinity. -/
def Rec.aff (r : Rec) : Nat := bits r.ctl.toNat 61 60
/-- A reflex continuation. -/
def Rec.isReflex (r : Rec) : Bool := bit r.ctl.toNat 62
/-- Not to be stolen. -/
def Rec.noSteal (r : Rec) : Bool := bit r.ctl.toNat 63

/-- The ensemble number of the running continuation. -/
def Bank.ens (b : Bank) : Nat := bits b.ctl.toNat 59 48

/-- The record of the continuation a bank runs, resuming at `pc` (R145). DEDUCED (log 28): the current values are those that
the instruction itself would read; a fixed-latency write that has not retired is not among them. -/
def State.recOf (s : State) (p : Place) (pc : Word) : Rec :=
  let b := s.bank p
  let ctl := b.ctl.toNat / 2 ^ 48 * 2 ^ 48 + b.cslot.toNat * 2 ^ 42 + b.prio * 2 ^ 37 + b.vcore.toNat
  ⟨pc, b.wid, s.reg p 3, s.reg p 4, s.reg p 5, s.reg p 6, s.reg p 7, w64 ctl⟩

/-- The core is a green-room host (R244). -/
def State.host (s : State) (c : Nat) : Bool := !Config.isX c && (s.crCore c 0x189).getLsbD 0
/-- The core holds events back: a host, or one whose events held before are not all taken yet (R244, R245). -/
def State.holding (s : State) (c : Nat) : Bool := s.host c || !(s.core c).heldEv.isEmpty
/-- An event is held back; the first one of a host starts the recall (R244, R245). -/
def State.holdEvent (s : State) (c : Nat) (b : Body) : State :=
  let h := s.host c
  { s.modCore c fun k => { k with
      heldEv := k.heldEv ++ [s.msg c c none 2 false 0 0 b]
      recallTag := if h then some (k.recallTag.getD 0) else k.recallTag } with msgNo := s.msgNo + 1 }

/-! Routing and the stage door. -/

/-- Messages and reservations at a die's stage door (R175). -/
def State.doorCount (s : State) (d : Nat) : Nat := (mget s.stage d []).length + mget s.doorRes d 0
/-- The stage door of a die has a free entry. -/
def State.doorRoom (s : State) (d : Nat) : Bool := s.doorCount d < 4096
/-- Reserve, or release, a stage-door entry. -/
def State.doorReserve (s : State) (d : Nat) : State := { s with doorRes := mset s.doorRes d (mget s.doorRes d 0 + 1) }
/-- Hold a message at a die's stage door. -/
def State.hold (s : State) (d : Nat) (m : Msg) : State :=
  { s.modCore m.src (fun k => { k with sent := k.sent + 1 }) with
    stage := mmod s.stage d [] (· ++ [m]), msgNo := s.msgNo + 1 }

/-- Where a message goes (R174, R176). -/
inductive Dest where
  | to_ (core : Nat)
  | held
  | bounce
deriving DecidableEq, Repr

/-- The destination of a virtual core; one never assigned bounces (R174). The link between the dies must stand (R437). -/
def State.dest (s : State) (src vcore : Nat) : Dest :=
  match mfind s.routes vcore with
  | some (.placed c) => if Config.dieOf c = Config.dieOf src || s.linkUp then .to_ c else .bounce
  | some .unplaced => .held
  | some .swapped => .held
  | _ => .bounce
/-- The destination of a physical core number. -/
def State.destPhys (s : State) (src c : Nat) : Dest :=
  if c < Config.cores ∧ (Config.dieOf c = Config.dieOf src ∨ s.linkUp = true) ∧ (s.core c).fenced = false then .to_ c
  else .bounce

/-- The destination of a remote store's destination word (R280). -/
def State.rstDest (s : State) (src : Nat) (w : Word) : Dest :=
  let v := w.toNat
  if bit v 53 then s.destPhys src (bits v 30 21) else s.dest src (bits v 52 21)
/-- The store's span fits the destination's local store (R281). -/
def rstFits (c off n : Nat) : Bool := off + n ≤ (if Config.isX c then 0x20_0000 else 0xc_0000)

/-- The bounce word of a remote store (R281). -/
def rstBounce (w : Word) (cause : Cause) : Word :=
  bounceWord (if bit w.toNat 53 then bits w.toNat 30 21 else bits w.toNat 52 21) 0 0 cause.num

/-- A remote store of n bytes can be handed to the network interface, where it goes there (R281, R409). -/
def State.rstRoom (s : State) (c : Nat) (w : Word) (n : Nat) : Bool :=
  match s.rstDest c w with
  | .to_ _ => s.outRoom c (spillSize n)
  | _ => true
/-- Send a remote store from the seat at `p` (R281): to its destination, held at the stage door, or bounced into m31. -/
def State.sendRst (s : State) (p : Place) (w : Word) (bytes : List Byte) (adaptive : Bool) : State :=
  let off := bits w.toNat 20 0
  let v := if bit w.toNat 53 then none else some (bits w.toNat 52 21)
  let body := Body.store off bytes p.num p.bank
  match s.rstDest p.core w with
  | .to_ c =>
    if rstFits c off bytes.length then s.post p.core c v 2 adaptive p.num body
    else s.mailLand p.core p.num 31 (rstBounce w .msgBounce)
  | .held => s.hold (Config.dieOf p.core) (s.msg p.core 0 v 2 adaptive (s.core p.core).pts p.num body)
  | .bounce => s.mailLand p.core p.num 31 (rstBounce w .msgBounce)

/-! Wait and join blocks (R167, R185): one atomic step at the block's home. -/

/-- Read a dword of a block. -/
def State.blockRead (s : State) (ks : List Nat) (off : Nat) : Word := leWord (memReads s.mem ((ks.drop off).take 8))
/-- Write cells of a block as one unit of core `c`. -/
def State.blockWrite (s : State) (c : Nat) (ks : List Nat) (l : List (Nat × List Byte)) : State :=
  (s.unitWrite c 0 (l.flatMap fun x => (ks.drop x.1).zip x.2)).1

/-- Bytes that core `c` reads at their homes, as one unit (R254, R258). -/
def State.see (s : State) (c : Nat) (ks : List Nat) : State :=
  (linesOf ks).foldl (fun (s : State) l => let r := s.serveRead c l; r.1.raisePts c r.2.2.2) s

/-- Place a woken record: at the ready queue of the core its virtual core maps to (R185). The waker waits for room at the
stage door before (log 68). -/
def State.wakeRec (s : State) (p : Place) (r : Rec) : State :=
  match s.dest p.core r.vcore with
  | .to_ c => s.post p.core c (some r.vcore) 2 false p.num (.wakeRec r)
  | .held => s.hold (Config.dieOf p.core) (s.msg p.core 0 (some r.vcore) 2 false (s.core p.core).pts p.num (.wakeRec r))
  | .bounce => s.mailLand p.core p.num 31 (bounceWord r.vcore 0 0 Cause.msgBounce.num)

/-- The record that waits in a block. -/
def State.blockRec (s : State) (ks : List Nat) : Rec := Rec.ofBytes (memReads s.mem ((ks.drop 64).take 64))
/-- The cells that a wake writes, and the record that it sends (R185). -/
def State.wakeCells (s : State) (ks : List Nat) : List Host.Cell × Option Rec :=
  if s.blockRead ks 8 = 1 then ((ks.drop 8).zip (leBytes 8 0), some (s.blockRec ks))
  else (ks.zip (leBytes 8 (s.blockRead ks 0 + 1).toNat), none)
/-- A woken record must wait at the stage door and finds it full (R175, R185; log 68). -/
def State.wakeFull (s : State) (p : Place) (r : Rec) : Bool :=
  s.dest p.core r.vcore == .held && !s.doorRoom (Config.dieOf p.core)
/-- wake on a wait block (R185). -/
def State.wakeBlock (s : State) (p : Place) (ks : List Nat) : State :=
  match s.wakeCells ks with
  | (cells, some r) => ((s.see p.core ((ks.drop 64).take 64)).unitWrite p.core 0 cells).1.wakeRec p r
  | (cells, none) => (s.unitWrite p.core 0 cells).1

/-! Links (R172, R173, R190). -/

/-- A seat's qin is connected: its upstream is live, or has hung up and left entries that are still to be popped (R155,
R172, R190; log 67). -/
def Seat.qinOn (t : Seat) : Bool := t.up.isSome || (t.upHup && !t.qin.isEmpty)

/-- The pushes on their way of a bank enter their queue, so far as their values exist: an entry once reserved is never
refused (R191). -/
def State.landPushes (s : State) (p : Place) : State :=
  let b := s.bank p
  let late := fun (r : PendRes) => r.code == 61 && r.val.isSome
  let s := s.modBank p fun b => { b with inflight := b.inflight.filter (·.code != 61), pending := b.pending.filter (!late ·) }
  let s := (b.inflight.filter (·.code == 61)).foldl (fun s w => s.retire1 p w) s
  (b.pending.filter late).foldl (fun s r => s.landRes p r (r.val.getD 0)) s
/-- A push of a bank has reserved its entry and its value is still to come (R191). -/
def State.pushDue (s : State) (p : Place) : Bool := (s.bank p).pending.any fun r => r.code == 61 && r.val.isNone

/-- Pushes whose values are still to come are dropped, and the entries reserved for them are free again: their queue is
gone. -/
def State.dropPushes (s : State) (p : Place) : State :=
  let n := ((s.bank p).pending.filter (·.code == 61)).length
  if n = 0 then s else
  (s.modSeat p.core p.num fun t => { t with outRes := t.outRes - n }).modBank p fun b => { b with
    pending := b.pending.filter (·.code != 61) }

/-- Hang up a seat's qout: its pushes in flight enter, and the downstream keeps its entries and gets UPHUP (R173). A push whose
value is still to come is waited for before (R191); only a kill drops it. -/
def State.hangup (s : State) (p : Place) : State :=
  let s := (s.landPushes p).dropPushes p
  match (s.seat p.core p.num).down with
  | some (c, i) =>
    let s := s.modSeat c i fun t => { t with up := none, upHup := true }
    s.modSeat p.core p.num fun t => { t with down := none }
  | none => s

/-- The neighbour in a direction: column + 1, column − 1, row + 1, row − 1, same array and die (R190). -/
def neighbour (c dir : Nat) : Option Nat :=
  let d := Config.dieOf c
  let r := Config.rowOf c
  let k := Config.colOf c
  let cols := if Config.isX c then 2 else 24
  let num := fun r k => if Config.isX c then 768 + d * 32 + r * 2 + k else d * 384 + r * 24 + k
  match dir with
  | 0 => if k + 1 < cols then some (num r (k + 1)) else none
  | 1 => if 0 < k then some (num r (k - 1)) else none
  | 2 => if r + 1 < 16 then some (num (r + 1) k) else none
  | _ => if 0 < r then some (num (r - 1) k) else none

/-- Link the qout of seat `i` of core `a` to the qin of the same seat of core `c`, with an empty queue (R190, R169). -/
def State.link (s : State) (a c i : Nat) : State :=
  let s := s.modSeat a i fun t => { t with down := some (c, i), dnHup := false }
  s.modSeat c i fun t => { t with up := some (a, i), upHup := false, qin := [] }

/-- chain with a link word (R190). -/
def State.chainOp (s : State) (p : Place) (w : Word) : State :=
  let s := s.hangup p
  if w.getLsbD 2 then s else
  match neighbour p.core (w.toNat % 4) with
  | some c =>
    if p.num < Config.seats c ∧ (s.seat c p.num).qinOn = false then s.link p.core c p.num else s
  | none => s

/-! Seizure (R421, R425). -/

/-- End the hold of group `g` by the seat and bank `p`, and send the release to every member; nothing when it is not
held by them (R425). -/
def State.releaseGroup (s : State) (p : Place) (g : Nat) : State :=
  match mfind s.holds g with
  | some q =>
    if q = p then
      (s.members g).foldl (fun s c => s.post p.core c none 3 false p.num (.release g))
        { s with holds := mdel s.holds g }
    else s
  | none => s

/-! Scopes (R266). -/

/-- A destination core lies within the scope of an effect of core `a`. -/
def State.inScope (s : State) (a sc c : Nat) : Bool :=
  match sc with
  | 0 => false
  | 1 => false
  | 2 => a == c
  | 3 => a == c || ((s.core a).gangSize != 1 && (s.core c).gangSize != 1 && (s.core a).gangLeader == (s.core c).gangLeader)
  | 4 => Config.isX a == Config.isX c && Config.clusterOf a == Config.clusterOf c
  | 5 => Config.isX a == Config.isX c && Config.dieOf a == Config.dieOf c
  | 6 => Config.isX a == Config.isX c
  | _ => true

/-! Vector commands that a seat has issued (R205, R225); a seat is named by its number, whatever its bank. -/

/-- The number of the seat that issued a command. -/
def VCmd.num (v : VCmd) : Nat := if v.seat = 8 then 7 else v.seat
/-- A vector store to memory. -/
def VCmd.stores (v : VCmd) : Bool := match v.form with | .vM .vst _ => true | .vS .vsts _ => true | .vG .vscatter _ => true | _ => false
/-- A vector load from memory. -/
def VCmd.loads (v : VCmd) : Bool := match v.form with | .vM .vld _ => true | .vS .vlds _ => true | .vG .vgather _ => true | _ => false
/-- The command touches a byte. -/
def VCmd.touches (v : VCmd) (k : Nat) : Bool := v.lanes.any fun l => l.2 ≤ k && k < l.2 + 4
/-- A gang-relative command of the gang of a bank's core is not performed yet: a disband waits for it (R229). -/
def State.gangBusy (s : State) (p : Place) : Bool :=
  let k := s.core p.core
  k.gangSize != 1 && (List.range k.gangSize).any fun i => (s.core (k.gangLeader + i)).vq.any (·.ganged)
/-- The commands of a seat that are not yet performed. -/
def State.vqOf (s : State) (p : Place) : List VCmd := (s.core p.core).vq.filter fun v => v.num == p.num

/-- A location lies within the scope of an effect of core `a` (R266). -/
def keyInScope (a sc k : Nat) : Bool :=
  if isHost k then sc == 8 || sc == 11
  else if isPeer k then sc == 9 || sc == 11
  else match tileOfKey k with
  | some _ => if isCoh k then 4 ≤ sc else 2 ≤ sc
  | none => if isDram k then (if bits k 12 12 = Config.dieOf a then 5 else 6) ≤ sc
    else (if (k - 2 ^ 49) / 2 ^ 26 = Config.dieOf a then 5 else 6) ≤ sc

/-- Dword at an offset of a core's spill area. -/
def State.spillWord (s : State) (c off : Nat) : Nat := leNat (memReads s.mem (keysFrom (Config.tileKey c (0x7_f800 + off)) 8))
/-- Where the spill area goes on after n records from an offset on. -/
def State.spillOff (s : State) (c : Nat) : Nat → Nat → Nat
  | 0, a => a
  | n + 1, a => s.spillOff c n (a + 16 + 16 * bits (s.spillWord c (a + 8)) 15 8)
/-- Some record of the spill area of a core has an engine tag (0: of no engine) and a sending seat as `f` says (R409). -/
def State.spilledAs (s : State) (c : Nat) (f : Nat → Nat → Bool) : Bool :=
  (List.range (s.core c).spillN).any fun i =>
    let h := s.spillWord c (s.spillOff c i 0 + 8)
    f (bits h 63 48) (bits h 26 24)
/-- An effect of the seat at `p` with its destination within the scope has not been performed yet (R267): a message in the
mesh, one spilled from the network interface, a remote store held at the stage door, a posted write, a push whose value is still to come, a vector store issued
outside a scene. -/
def State.relPending (s : State) (p : Place) (sc : Nat) : Bool :=
  ((s.net ++ (s.core p.core).outbox).any fun m => m.src == p.core && m.seat == p.num &&
    (match m.body with | .wakeRec .. => true | b => b.stoppable) && s.inScope p.core sc m.dst) ||
  (5 ≤ sc && (mget s.stage (Config.dieOf p.core) []).any fun m => m.src == p.core && m.seat == p.num &&
    (match m.body with | .store .. => true | _ => false)) ||
  -- a message that a pre-emption has spilled is performed once it has been sent again; the handler that does so does not
  -- wait for it (DEDUCED, log 17)
  (!(s.bank p).handler && s.spilledAs p.core fun t seat => t == 0 && seat == p.num) ||
  (s.extq.any fun w => w.core == p.core && w.seat == p.num && keyInScope p.core sc w.addr) ||
  (s.pushDue p && (match (s.seat p.core p.num).down with | some (c, _) => s.inScope p.core sc c | none => false)) ||
  ((s.vqOf p).any fun v => v.stores && v.sc == 0 && v.lanes.any fun l => keyInScope p.core sc l.2)

/-- The seat has loads, or other variable-latency results, still to arrive, or vector loads still to be performed (R268). -/
def State.loadsDue (s : State) (p : Place) : Bool := !(s.bank p).pending.isEmpty || (s.vqOf p).any (·.loads)

/-- pts := max(pts, CSTS) (R268). -/
def State.acquire (s : State) (c : Nat) : State := s.raisePts c (s.core c).csts

end Sys2Proof.Machine
end

