-- ==== Sys2Proof/Machine/Flags.lean ====
section
/-! DEFINITION. What the seat keeps in place of flags: AMAX and its notes (R32, R80, R81), STATUS (R30). -/
namespace Sys2Proof.Machine

/-- Note a value, given in the layout of AMAX, of a conversion of latency `l`: with the open scene, or as the conversion
retires (R32, R81). -/
def Bank.note (b : Bank) (n : BitVec 32) (l : Nat) : Bank :=
  match b.openScene with
  | some sc => { b with scene := some { sc with notes := amaxMerge sc.notes n } }
  | none => { b with inflight := insertWrite b.inflight ⟨64, n.setWidth 64, b.si + l⟩ }

/-- STATUS of a bank (R30). -/
def State.status (s : State) (p : Place) : Word :=
  let b := s.bank p
  w64 (b2n b.schk + 2 * b2n b.scene.isSome + 4 * b2n (Config.isX p.core) + 8 * p.bank + 2 ^ 8 * b.prio)

/-- Entries in the open scene's store buffer (R37, R126). -/
def Scene.count (sc : Scene) : Nat := sc.entries.foldl (fun a e => a + e.n) 0

end Sys2Proof.Machine
end

