-- ==== Sys2Proof/Machine/Scene.lean ====
section
/-! DEFINITION. Scenes: opening, discard, commit (R125-R132, R209, R259, R260), and parking (R403). -/
namespace Sys2Proof.Machine

/-- An open scene with nothing in it. -/
def Scene.fresh (form : Nat) (mask : BitVec 15) : Scene := ⟨form, mask, [], 0, [], [], [], 0, 0, [], false, none⟩

/-- A scene opens at the offset where the seat goes on (R125). -/
def Bank.openAt (b : Bank) (form : Nat) (mask : BitVec 15) (pc : Word) : Bank :=
  { b with scene := some (Scene.fresh form mask), scpc := pc, reprise := 0,
           scws := BitVec.ofNat 18 (form * 2 ^ 15 + mask.toNat) }

/-- Stage-door entries that the scene's remote stores have reserved (R281). -/
def Scene.reserved (sc : Scene) : Nat :=
  (sc.entries.filter fun e => match e.op with | .rst _ _ _ r _ => r | _ => false).length

/-- The bytes that a scene buffers, oldest first. -/
def Scene.cells (sc : Scene) : List Host.Cell :=
  sc.entries.flatMap fun e => match e.op with | .store cells _ _ => cells | _ => []

/-- Drop what the open or frozen scene of a bank buffers; the scene stays open and empty (R131). The vector commands
that it issued are still performed, and what they would have buffered is dropped with it (R206, R209): until then they see
the bytes that the scene had buffered (R225). -/
def State.dropScene (s : State) (p : Place) : State :=
  let s := s.unreserve p
  match (s.bank p).scene with
  | none => s
  | some sc =>
    let d := Config.dieOf p.core
    let s := { s with doorRes := if sc.reserved = 0 then s.doorRes else mset s.doorRes d (mget s.doorRes d 0 - sc.reserved) }
    let s := s.modBank p fun b => { b with scene := some (Scene.fresh sc.form sc.mask), wip := .none }
    s.modCore p.core fun k => { k with
      ids := k.ids + 1
      vq := k.vq.map fun v =>
        if v.seat = p.seat ∧ v.bank = p.bank ∧ v.sc = 1 then { v with sc := 2 + k.ids, snap := sc.cells } else v }

/-- discard(WAITS, LIVELOCK) of R131. Without an open scene nothing happens. `ue` says that the discard is for the
scene's first uncorrectable read, which the scene remembers until it commits (R249). -/
def State.discard (s : State) (p : Place) (waits livelock ue : Bool) : State :=
  match (s.bank p).scene with
  | none => s
  | some sc0 =>
    let s := if waits then (s.retireAll p).landAll p else s
    let s := (s.dropScene p).modBank p fun b => { b with
      reprise := if b.reprise = 255 then 255 else b.reprise + 1
      pc := b.scpc
      owed := 0
      wip := .none
      scene := b.scene.map fun sc => { sc with ueSeen := ue || sc0.ueSeen } }
    let s := { s with ended := .discard }
    let b := s.bank p
    if livelock && b.repriseLimit.toNat ≤ b.reprise.toNat then s.trapAt p .sceneLivelock 0 none b.scpc 0 0 else s

/-- Add entries to the open scene's store buffer. -/
def Bank.buffer (b : Bank) (n : Nat) (op : BufOp) : Bank :=
  match b.scene with
  | some sc => { b with scene := some { sc with entries := sc.entries ++ [⟨n, op⟩] } }
  | none => b

/-- The open scene has room for `n` more entries (R127). -/
def Bank.fits (b : Bank) (n : Nat) : Bool :=
  match b.openScene with
  | some sc => sc.count + n ≤ 64
  | none => true

/-! Commit. -/

/-- The keys that an entry writes on the coherent path: those of a store, and the credits or state of a wake's block. -/
def Entry.cohKeys (e : Entry) : List Nat :=
  match e.op with
  | .store cells _ _ => (cells.map (·.1)).filter isCoh
  | .wake ks => (ks.take 16).filter isCoh
  | _ => []

/-- The place of a line in the key order of R259: DRAM by address, the scratchpads, windows by cluster and offset. -/
def lineRank (l : Nat) : Nat :=
  match tileOfKey (l * 128) with
  | some (c, off) =>
    let w := (off - 0x8_0000) / 256 * 4096 + Config.tileIdx c * 256 + off % 256
    2 ^ 60 + Config.clusterOf c * 2 ^ 22 + w
  | none => l * 128

/-- The extensions of R259, in ascending key order; false when one fails, with those made before it. -/
def State.extend (s : State) (ts : Nat) : List LeaseRec → State × Bool
  | [] => (s, true)
  | r :: t =>
    if (s.lts r.line).1 = r.wts then
      { s with lines := mset s.lines r.line (r.wts, max (s.lts r.line).2 ts) }.extend ts t
    else (s, false)

/-- An entry that the coherent part of a commit performs in whole or in part, and what is left of it: a store's bytes on
other paths, the record that a wake has taken. -/
def State.cohEntry (s : State) (c : Nat) (e : Entry) : State × List Entry :=
  match e.op with
  | .store cells pages vid =>
    let coh := cells.filter fun x => isCoh x.1
    let rest := cells.filter fun x => !isCoh x.1
    if coh.isEmpty then (s, [e]) else
    let s := pages.foldl (fun (s : State) g => s.countOn c (some g)) s
    (s.poke c coh, if rest.isEmpty then [] else [⟨e.n, .store rest [] vid⟩])
  | .wake ks =>
    if e.cohKeys.isEmpty then (s, [e]) else
    let (cells, r) := s.wakeCells ks
    (s.poke c cells, match r with | some r => [⟨e.n, .woken r⟩] | none => [])
  | _ => (s, [e])

/-- The coherent part of the entries in buffer order, and the entries left. -/
def State.cohEntries (s : State) (c : Nat) : List Entry → State × List Entry
  | [] => (s, [])
  | e :: t =>
    let (s, l) := s.cohEntry c e
    let (s, r) := s.cohEntries c t
    (s, l ++ r)

/-- How the coherent part of a commit ends. -/
inductive Coh where
  /-- performed: the entries left for the other paths -/
  | done (s : State) (rest : List Entry)
  /-- a lease could not be extended; the extensions made before stay -/
  | conflict (s : State)

/-- The coherent part of a commit (R259): one unit. With no coherent read or write nothing happens. -/
def State.commitCoherent (s : State) (c : Nat) (sc : Scene) : Coh :=
  let wr := linesOf (sc.entries.flatMap Entry.cohKeys)
  if wr.isEmpty && sc.reads.isEmpty then .done s sc.entries else
  let seen := linesOf (sc.entries.flatMap fun e => match e.op with
    | .wake ks => if s.blockRead ks 8 = 1 then (ks.drop 64).take 64 else []
    | _ => [])
  let ts := sc.reads.foldl (fun a r => max a r.wts) (s.core c).pts
  let ts := seen.foldl (fun a l => max a (s.lts l).1) ts
  let ts := wr.foldl (fun a l => max a ((s.lts l).2 + 1)) ts
  match s.extend ts ((sc.reads.filter fun r => r.rts < ts).insertionSort fun a b => lineRank a.line ≤ lineRank b.line) with
  | (s, false) => .conflict s
  | (s, true) =>
    let s := seen.foldl (fun (s : State) l =>
      { s with lines := mset s.lines l ((s.lts l).1, max (s.lts l).2 ts) }) s
    let s := wr.foldl (fun (s : State) l => { s.l2Access c l with lines := mset s.lines l (ts, ts) }) s
    let (s, rest) := s.cohEntries c sc.entries
    .done (s.raisePts c ts) rest

/-- A started command of the tile's engines 0, 1, 2 and 7 has not completed (R283). -/
def State.lutBusy (s : State) (c : Nat) : Bool :=
  (s.core c).queues.any fun q => (q.1 / 16 == 0 || q.1 / 16 == 1 || q.1 / 16 == 2 || q.1 / 16 == 7) &&
    q.2.any fun e => e.started

/-- Perform one store-buffer entry in its turn (R260, R270): the new state, or what the commit waits for. DESIGN CHOICE (log 24):
a presence bit that the seat's own fixed-latency write has set again since an mclr issued is cleared with the others; R196
spares arrivals alone. -/
def State.perform1 (s : State) (p : Place) (op : BufOp) : Except Stall State :=
  match op with
  | .store cells pages vid =>
    if vid.isSome then .error .memory
    else
      let s := pages.foldl (fun (s : State) g => s.countOn p.core (some g)) s
      if cells.any fun c => isExt c.1 then
        match cells with
        | [] => .ok s
        | c :: _ => .ok (s.postExt p.core p.num c.1 (cells.map (·.2)))
      else .ok (s.poke p.core cells)
  | .cbw i v => .ok (s.modCore p.core fun k => { k with cbNew := k.cbNew ++ [(s.clk, i, v)] })
  | .cbld b vals => .ok (s.modCore p.core fun k => { k with
      cbNew := k.cbNew ++ (List.range vals.length).zipWith (fun i v => (s.clk, 32 * b + i, v)) vals })
  | .push v _ =>
    match (s.seat p.core p.num).down with
    | some (c, i) => if (s.seat c i).qin.length + (s.seat p.core p.num).outRes < 16 then .ok (s.enqueue p v) else .error .queue
    | none => .ok s
  | .pushDue _ => .error .memory
  | .wake ks =>
    match (s.wakeCells ks).2 with
    | some r => if s.wakeFull p r then .error .queue else .ok (s.wakeBlock p ks)
    | none => .ok (s.wakeBlock p ks)
  | .woken r => if s.wakeFull p r then .error .queue else .ok (s.wakeRec p r)
  | .mclr mask clk =>
    .ok (s.modSeat p.core p.seat fun t => { t with mpres := (List.range 32).foldl (fun m i =>
      if mask.getLsbD i && mget t.mailClk i 0 ≤ clk then m &&& ~~~(BitVec.ofNat 32 (2 ^ i)) else m) t.mpres })
  | .chain w => if s.pushDue p then .error .memory else .ok (s.chainOp p w)
  | .acquire _ => if s.loadsDue p then .error .memory else .ok (s.acquire p.core)
  | .release sc => if s.relPending p sc then .error .memory else .ok (s.landPushes p)
  | .full sc =>
    if s.relPending p sc || s.loadsDue p then .error .memory else .ok ((s.landPushes p).acquire p.core)
  | .rst dest bytes adaptive reserved vid =>
    if vid.isSome then .error .memory
    else
      if !s.rstRoom p.core dest bytes.length then .error .queue else
      match s.rstDest p.core dest with
      | .held =>
        if reserved then .ok ((s.doorRelease (Config.dieOf p.core)).sendRst p dest bytes adaptive)
        else if s.doorRoom (Config.dieOf p.core) then .ok (s.sendRst p dest bytes adaptive) else .error .queue
      | _ => .ok ((if reserved then s.doorRelease (Config.dieOf p.core) else s).sendRst p dest bytes adaptive)
  | .lut4 t =>
    if s.lutBusy p.core then .error .memory
    else .ok (s.modCore p.core fun k => { k with lutNew := k.lutNew ++ [(s.clk, t)] })
  | .unseize g => .ok (s.releaseGroup p g)

/-- Perform the entries left in buffer order, as far as they can be. -/
def State.drain (s : State) (p : Place) : List Entry → State × List Entry × Option Stall
  | [] => (s, [], none)
  | e :: t =>
    match s.perform1 p e.op with
    | .error c => (s, e :: t, some c)
    | .ok s => s.drain p t

/-- Remove what the scene popped (R126, R172). -/
def State.consumePops (s : State) (p : Place) (sc : Scene) : State :=
  s.modSeat p.core p.num fun t => { t with qin := t.qin.drop sc.qinPops, evq := t.evq.drop sc.evPops }

/-- How an attempt to commit ends. -/
inductive Commit where
  /-- committed, or there was no scene: the scene is closed -/
  | done (s : State)
  /-- must wait; `begun` when the state holds progress of the commit -/
  | wait (c : Stall) (s : State) (begun : Bool)
  /-- a conflict discarded the scene (R259) -/
  | conflict (s : State)

/-- Vector commands of the open scene of a bank that have not been performed (R209). -/
def State.sceneVectors (s : State) (p : Place) : Bool :=
  (s.core p.core).vq.any fun v => v.seat == p.seat && v.bank == p.bank && v.sc == 1

/-- A commit cannot start: how its seat waits. From its first attempt on the seat holds what the commit has reserved, and
a buffered lut4ld holds the engines (R283, R287). -/
def State.commitWait (s : State) (p : Place) (c : Stall) : Commit :=
  match (s.bank p).wip with
  | .none => .wait c (s.modBank p fun b => { b with wip := .committing }) true
  | _ => .wait c s false

/-- The non-coherent part of a commit, in progress or just begun (R260), and its end (R129). -/
def State.commitRest (s : State) (p : Place) (sc : Scene) (entries : List Entry) : Commit :=
  match s.drain p entries with
  | (s, e :: t, some c) =>
    .wait c (s.modBank p fun b => { b with scene := some { sc with entries := e :: t, reads := [] }, wip := .commit })
      ((s.bank p).wip != .commit || t.length + 1 < entries.length)
  | (s, _, _) =>
    .done ((s.consumePops p sc).modBank p fun b => { b with
      scene := none, amax := amaxMerge b.amax sc.notes, reprise := 0, wip := .none })

/-- The bytes that the scene's commit accesses whose lines a page move holds at their homes (R248). -/
def State.sceneBlocked (s : State) (p : Place) (sc : Scene) : List Nat :=
  (sc.entries.flatMap Entry.cohKeys ++ sc.reads.map fun (r : LeaseRec) => r.line * 128).filter fun k =>
    s.homeHeld (some (.seat p)) k
/-- An entry with the bytes that a page move redirects at their new place (R248). -/
def State.entryNow (s : State) (e : Entry) : Entry :=
  match e.op with
  | .store cells pages vid => { e with op := .store (s.redirected cells) pages vid }
  | .wake ks => { e with op := .wake (ks.map s.redirect) }
  | _ => e
/-- A scene whose accesses a page move redirects as they are made (R248). -/
def State.sceneNow (s : State) (sc : Scene) : Scene :=
  if s.moves.isEmpty then sc else { sc with
    entries := sc.entries.map s.entryNow
    reads := sc.reads.map fun r => { r with line := lineOf (s.redirect (r.line * 128)) } }
/-- The commit of a scene joins the queue of every home slice that holds a line of it back (R248): its first attempt arrives at
all of them. -/
def State.commitHome (s : State) (p : Place) (pas : List Nat) : Commit :=
  (pas.foldl (fun (s : State) pa => (s.joinAt (.seat p) pa).getD s) s).commitWait p .memory
/-- What the entries of a commit meet, performed in buffer order: the state after them, what some of them wait for, and
whether a push finds no room, or no queue. -/
structure Dry where
  state : State
  waits : List Stall
  full : Bool
  lost : Bool
/-- One entry of a dry run from `s0`. A fence acts on what goes before the scene; what it waits for within the scene is on its
way when it comes to it (log 20). -/
def State.dry1 (s0 : State) (p : Place) (d : Dry) (e : Entry) : Dry :=
  let fence := fun (_ : Unit) => match s0.perform1 p e.op with | .error c => { d with waits := c :: d.waits } | .ok _ => d
  match e.op with
  | .acquire _ => fence ()
  | .release _ => fence ()
  | .full _ => fence ()
  | .push .. =>
    if (d.state.seat p.core p.num).down.isNone then { d with lost := true } else
    match d.state.perform1 p e.op with
    | .error c => { d with waits := c :: d.waits, full := true }
    | .ok s => { d with state := s }
  | op =>
    match d.state.perform1 p op with
    | .error c => { d with waits := c :: d.waits }
    | .ok s => { d with state := s }
/-- The entries of a commit are tried in buffer order on the state as it is now: room that one of them takes is not there for
the next, so that the commit is one event (R129). -/
def State.dryRun (s : State) (p : Place) (es : List Entry) : Dry := es.foldl (s.dry1 p) ⟨s, [], false, false⟩
/-- A result that the seat waits for before a discard is still to come (R131, R209, R405). -/
def State.unsettled (s : State) (p : Place) : Bool := s.sceneVectors p || (s.bank p).pending.any (·.val.isNone)
/-- Another commit of the core has performed entries and has others to perform: commits of a core are made one at a time
(R253). -/
def State.committing (s : State) (p : Place) : Bool :=
  (placesOf p.core).any fun q => q != p && (s.bank q).wip == .commit
/-- Private bytes that a commit half performed on the core has still to write: no other agent of the core sees half of a
scene (R253). -/
def State.halfway (s : State) (p : Place) (ks : List Nat) : Bool :=
  s.committing p && ks.any fun k => !isCoh k && !isExt k

/-- The private bytes that the entries of a scene write. -/
def Scene.privKeys (sc : Scene) : List Nat :=
  (sc.entries.flatMap fun e => match e.op with
    | .store cells _ _ => cells.map (·.1)
    | .wake ks => ks.take 16
    | _ => []).filter fun k => !isCoh k && !isExt k
/-- A vector command that another seat of the core issued before accesses some of the bytes (R253). -/
def State.vecBefore (s : State) (p : Place) (ks : List Nat) : Bool :=
  (s.core p.core).vq.any fun v => v.num != p.num && !v.ganged && (v.loads || v.sc == 0) && ks.any v.touches
/-- commit() of R129, refined by R209, R248, R253, R259 and R260. -/
def State.commit (s : State) (p : Place) : Commit :=
  match (s.bank p).openScene with
  | none => .done s
  | some sc =>
    if (s.bank p).wip = .commit then s.commitRest p sc sc.entries
    else if s.sceneVectors p || s.committing p || s.vecBefore p sc.privKeys then s.commitWait p .memory
    else if !(s.sceneBlocked p sc).isEmpty then s.commitHome p (s.sceneBlocked p sc)
    else
    let sc := s.sceneNow sc
    match firstStall (s.dryRun p sc.entries).waits with
    | some c => s.commitWait p c
    | none =>
      match s.commitCoherent p.core sc with
      | .conflict s' =>
        if s.unsettled p then s.commitWait p .memory else .conflict (s'.discard p true true false)
      | .done s' rest => s'.commitRest p sc rest

/-! Parking (R403). -/

/-- Park the seat at `p` on a page that its access at the offset `off` needs, which FADDR receives (R242): none when the
cluster MMU has no free entry (R403), or when the discard of the open scene still waits for results or vector commands
(R131, R209, R405). -/
def State.park (s : State) (p : Place) (off : Word) (slot va : Nat) (sub : Bool) : Option State :=
  let cl := Config.clusterOf p.core
  let page := pageNo va sub
  let m := s.mmu cl
  let b := s.bank p
  if b.openScene.isSome && s.unsettled p then none else
  let put := fun (s : State) =>
    let s := if b.openScene.isSome then s.discard p true false false else (s.retireAll p).landAll p
    { s.modBank p (fun b => { b.fault (some off) with run := .parked, owed := 0 }) with ended := .parked }
  if m.parks.any fun e => e.slot == slot && e.page == page && e.sub == sub then
    some (put (s.modMmu cl fun m => { m with parks := m.parks.map fun e =>
      if e.slot = slot ∧ e.page = page ∧ e.sub = sub then { e with seats := e.seats ++ [p] } else e }))
  else if m.parks.length < 64 then
    let s := put (s.modMmu cl fun m => { m with parks := m.parks ++ [⟨slot, page, sub, [p], []⟩] })
    some (s.faultMsg p.core p.num .pageAbsent b.vcore.toNat (w64 (if sub then page * 2 ^ 10 else page * 2 ^ 21))
      (w64 (slot + b2n sub * 2 ^ 8)))
  else none

end Sys2Proof.Machine
end

