-- ==== Sys2Proof/Machine/Operands.lean ====
section
/-! DEFINITION. Issue: instruction fetch (R19, R47), operand codes and literal words (R16, R17, R43), the conditions that
make a seat not eligible (R148), the order of the checks (R26), and what every instruction does when it retires. -/
namespace Sys2Proof.Machine

/-! Uncorrectable reads (R249). -/

/-- Trap MEM_UNCORRECTABLE at the instruction at `pc`, with the message to the supervisor core (R249). -/
def State.trapBad (s : State) (p : Place) (off : Word) (sec : Nat) (pc : Word) (len : Nat) (w : W32) : State :=
  (s.trapAt p .memUncorrectable 0 (some off) pc len w).faultMsg p.core p.num .memUncorrectable (s.bank p).vcore.toNat
    (w64 sec) 0
/-- An uncorrectable read of the open scene: the first discards it, any further one traps (R249). -/
def State.sceneBad (s : State) (p : Place) (sc : Scene) (off : Word) (sec : Nat) (pc : Word) (len : Nat) (w : W32) : State :=
  if sc.ueSeen then s.trapBad p off sec pc len w else s.discard p true true true

/-- What a vector load of the open scene has met (R249): the scene, the PC of the load, its offset and the sector. -/
def Bank.vecLost (b : Bank) : Option (Scene × Word × Word × Nat) :=
  b.openScene.bind fun sc => sc.ueVec.map fun u => (sc, u)
/-- A read of the instruction at `pc` met uncorrectable data at offset `off`, sector address `sec` (R249). -/
def State.uncorrectable (s : State) (p : Place) (off : Word) (sec len : Nat) (w : W32) : State :=
  let b := s.bank p
  match b.openScene with
  | some sc =>
    if s.unsettled p then { s with ended := .stall .memory } else
    (s.raiseUE p.core).sceneBad p sc off sec b.pc len w
  | none =>
    let s := s.raiseUE p.core
    match b.wip with
    | .reissue _ => s.trapBad p off sec b.pc len w
    | _ => { s.modBank p (fun b => { b with wip := .reissue none }) with ended := .began }

/-! Fetch. -/

/-- What the fetch of one word gives. -/
inductive Fetch where
  | ok (w : W32)
  | trap (c : Cause)
  | park (slot va : Nat) (sub : Bool)
  | wait
  | bad (sec : Nat)
  /-- it is queued at the home slice of this address (R248) -/
  | home (pa : Nat)
deriving DecidableEq, Repr

/-- Fetch the word at an offset of SEG7 of the bank `p`: right X, 4 bytes (R18, R19). DESIGN CHOICE (log 69): until the
FENCE.acq of R47 the word may be the old or the new value of one that was stored to; the model fetches the value that is
committed now, from its home, past the L1. `State.attempt` counts the access on its page (R247). -/
def State.fetch (s : State) (p : Place) (off : Word) : State × Fetch :=
  match s.locate p 7 off.toNat 4 1 false false true with
  | (s, .ok ks _) =>
    if s.bad ks then (s, .bad ((ks.headD 0) / 32 * 32)) else (s, .ok (BitVec.ofNat 32 (leNat (memReads s.mem ks))))
  | (s, .trap c) => (s, .trap c)
  | (s, .park slot va sub) => (s, .park slot va sub)
  | (s, .bad sec) => (s, .bad sec)
  | (s, .home pa) => (s, .home pa)

/-- The bank whose instruction stream the bank `p` follows: the gang leader's seat 0 for a follower (R200). -/
def State.stream (s : State) (p : Place) : Place :=
  let k := s.core p.core
  if p.seat = 0 ∧ k.gangSize ≠ 1 ∧ k.gangPos ≠ 0 then ⟨k.gangLeader, 0, 0⟩ else p
/-- The instruction is to be fetched: none has begun, one issues again (R249), or the fetch waits at its home (R248). -/
def Wip.afresh : Wip → Bool
  | .none => true
  | .fetching => true
  | .reissue _ => true
  | _ => false
/-- The word of the instruction that the bank is issuing: as taken when it began, or as fetched now. -/
def State.wordOf (s : State) (p : Place) : W32 :=
  let b := s.bank p
  if b.wip.afresh then (match s.fetch (s.stream p) b.pc with | (_, .ok w) => w | _ => 0) else b.word
/-- The bank is a gang follower (R200). -/
def State.follower (s : State) (p : Place) : Bool := p.seat == 0 && (s.core p.core).gangSize != 1 && (s.core p.core).gangPos != 0

/-! Shapes. -/

/-- How a literal word is taken, by the type of the operation (R17). -/
inductive Lit where
  | int | f32 | f64 | h16
deriving DecidableEq, Repr

/-- An FP32 pattern widened exactly to FP64 (R17). -/
def widen32 (w : W32) : Word :=
  let v := w.toNat
  let sgn := bits v 31 31
  let e := bits v 30 23
  let m := bits v 22 0
  let r :=
    if e = 255 then 2047 * 2 ^ 52 + m * 2 ^ 29
    else if e ≠ 0 then (e + 896) * 2 ^ 52 + m * 2 ^ 29
    else if m = 0 then 0
    else let h := Nat.log2 m; (h + 874) * 2 ^ 52 + (m - 2 ^ h) * 2 ^ (52 - h)
  w64 (sgn * 2 ^ 63 + r)

/-- The operand value of a literal word. -/
def litVal (l : Lit) (w : W32) : Word :=
  match l with
  | .int => w.signExtend 64
  | .f32 => w.setWidth 64
  | .f64 => widen32 w
  | .h16 => (w.setWidth 16).setWidth 64

/-- What a meaning sees: operand values in the order of its source fields, the offset of its word, of its successor. -/
structure Ctx where
  p : Place
  vals : List Word
  pc : Word
  next : Word
  word : W32

/-- Operand `i`. -/
def Ctx.v (x : Ctx) (i : Nat) : Word := x.vals.getD i 0

/-- Latency of a register result (R23, R25). -/
inductive Lat where
  | none | fixed (n : Nat) | var
deriving DecidableEq, Repr

/-- What the issue of an instruction looks at: its source fields in the order of R17 with their literal type, registers
read without a field, the destination code and its latency, vector registers and masks read and written (R210: 0-31
registers, 32-39 masks), whether it closes the scene (R130), store-buffer entries it takes in a scene. -/
structure Shape where
  srcs : List (Nat × Lit)
  imp : List Nat := []
  dst : Option Nat := Option.none
  lat : Lat := .none
  vr : List Nat := []
  vd : Option Nat := Option.none
  closes : Bool := false
  /-- what it reserves before the commit of its scene begins (R194, R287) -/
  keep : Ctx → State → State := fun _ s => s
  entries : Nat := 0
  /-- what is open after the commit, when it is not the old write set and form again (R124) -/
  opens : Option (Option (Nat × BitVec 15)) := Option.none

/-- Words of the instruction: 1 plus one for each literal (R40). -/
def Shape.words (h : Shape) : Nat := 1 + (h.srcs.filter fun x => x.1 == 63).length
/-- Registers read: s1-s59 among the source fields, and the implicit ones. -/
def Shape.reads (h : Shape) : List Nat := ((h.srcs.map (·.1)) ++ h.imp).filter fun r => r ≠ 0 ∧ r < 60
/-- Source fields that pop a queue code. -/
def Shape.popsOf (h : Shape) (code : Nat) : Nat := (h.srcs.filter fun x => x.1 == code).length
/-- The instruction pops a queue: its result has variable latency (R25, R191). -/
def Shape.pops (h : Shape) : Bool := h.popsOf 60 != 0 || h.popsOf 62 != 0
/-- The latency of the result, that of a pop counted. -/
def Shape.latency (h : Shape) : Lat := match h.lat with | .fixed n => if h.pops then .var else .fixed n | l => l
/-- The cause under which a reader of the result waits (R25). -/
def Shape.cause (h : Shape) : Stall := if h.pops then .queue else .memory

/-- How the work of an instruction ends, when its issue checks have passed. -/
inductive Act where
  /-- it retires: new state, register result, and the offset to go on at when that is not the successor -/
  | done (s : State) (v : Option Word) (pc : Option Word)
  /-- the seat is not eligible; nothing happens -/
  | wait (c : Stall)
  /-- it has begun, holds the seat, and goes on in a later turn -/
  | begun (s : State)
  | trap (c : Cause) (info : Nat) (faddr : Option Word)
  /-- it retires and the continuation leaves the seat -/
  | left (s : State)
  /-- the page of an access at this offset is not present (R242, R403) -/
  | park (off : Word) (slot va : Nat) (sub : Bool)
  /-- an uncorrectable read at this offset, in this sector (R249) -/
  | bad (off : Word) (sec : Nat)
  /-- its access is queued at the home slice of this physical address (R248) -/
  | atHome (pa : Nat)
  /-- its message cannot enter the mesh, and the X-seat waits at most 64 clk (R179) -/
  | atMesh
  /-- the state is final as it stands: a discard or a trap decided it -/
  | final (s : State)

/-- How an access that is not made ends its instruction; FADDR receives the offset (R18, R242, R248, R249). -/
def Acc.act (off : Word) : Acc → Act
  | .trap c => .trap c 0 (some off)
  | .park slot va sub => .park off slot va sub
  | .bad sec => .bad off sec
  | .home pa => .atHome pa
  | _ => .wait .memory

/-! Eligibility (R148) and the checks at issue (R24, R128, R172, R210). -/

/-- Entries of a seat's qin beyond the cursor of its scene. -/
def State.qinLeft (s : State) (p : Place) : List Word :=
  (s.seat p.core p.num).qin.drop (match (s.bank p).scene with | some sc => sc.qinPops | none => 0)
/-- Entries of a seat's evq beyond the cursor of its scene. -/
def State.evqLeft (s : State) (p : Place) : List Word :=
  (s.seat p.core p.num).evq.drop (match (s.bank p).scene with | some sc => sc.evPops | none => 0)
/-- Room in the queue downstream of a seat, pushes already reserved counted (R191). -/
def State.qoutRoom (s : State) (p : Place) : Bool :=
  match (s.seat p.core p.num).down with
  | some (c, i) => (s.seat c i).qin.length + (s.seat p.core p.num).outRes < 16
  | none => false

/-- A pending mark that the instruction waits on (R25): the first cause by R148. -/
def State.pendingOn (s : State) (p : Place) (h : Shape) : Option Stall :=
  let rs := h.reads ++ (match h.dst with | some d => if d < 60 then [d] else [] | none => [])
  firstStall (((s.bank p).pending.filter fun r => r.code ≠ 61 && rs.contains r.code).map (·.cause))

/-- A mail register it reads is not present (R150). -/
def State.absent (s : State) (p : Place) (h : Shape) : Bool := h.reads.any fun r => !s.present p r

/-- What makes the seat wait at its queues, on a seat that waits (R148, R172, R191). -/
def State.queueWait (s : State) (p : Place) (h : Shape) : Bool :=
  let t := s.seat p.core p.num
  ((s.qinLeft p).length < h.popsOf 60 && t.up.isSome) ||
  ((s.evqLeft p).length < h.popsOf 62) ||
  (h.dst == some 61 && t.down.isSome && (s.bank p).openScene.isNone && !s.qoutRoom p)

/-- The instruction would commit pushes that do not fit (R148, R172). A commit that has started goes on. -/
def State.commitFull (s : State) (p : Place) (h : Shape) : Bool :=
  match h.closes, (s.bank p).openScene with
  | true, some sc => (s.bank p).wip != .commit && (s.dryRun p sc.entries).full
  | _, _ => false

/-- A chain stands in the open scene of a bank: its link is made at the commit (R126, R190). -/
def Bank.chainDue (b : Bank) : Bool :=
  match b.openScene with
  | some sc => sc.entries.any fun e => match e.op with | .chain _ => true | _ => false
  | none => false
/-- A pop or push meets a hung-up or unconnected queue (R172). DESIGN CHOICE (log 67): a push that issues after a buffered chain
of the same scene is buffered too, since its link is only to come; the commit decides it by R190 step 4. -/
def State.hangupHit (s : State) (p : Place) (h : Shape) : Bool :=
  let t := s.seat p.core p.num
  ((s.qinLeft p).length < h.popsOf 60 && t.up.isNone) ||
    (h.dst == some 61 && t.down.isNone && !(s.bank p).chainDue)

/-- Empty si to come after an instruction, by its HOLD code (R22). -/
def holdSi (h : BitVec 2) : Nat := match h.toNat with | 0 => 0 | 1 => 1 | 2 => 3 | _ => 7

/-- HOLD_SHORT (R24). -/
def Bank.holdShort (b : Bank) (h : Shape) : Bool :=
  b.schk && (b.inflight.any (fun w => h.reads.contains w.code) ||
    match h.dst with
    | none => false
    | some d =>
      if d = 0 ∨ 60 ≤ d then false else
      match h.latency with
      | .fixed n => b.inflight.any fun w => w.code == d && b.si + n ≤ w.at_
      | .var => b.inflight.any fun w => w.code == d
      | .none => false)

/-- The vector read set after an instruction's reads are recorded (R210); k0 is never live-in. -/
def Scene.vreadAfter (sc : Scene) (h : Shape) : List Nat :=
  sc.vread ++ h.vr.filter fun r => r ≠ 32 ∧ r ∉ sc.vread ∧ r ∉ sc.vwritten

/-- SCENE_LIVEIN (R128, R210). -/
def Bank.liveIn (b : Bank) (h : Shape) : Bool :=
  match b.openScene with
  | none => false
  | some sc =>
    (b.schk || sc.form == 1) &&
    (h.reads.any (fun r => sc.mask.getLsbD (r / 4) && !sc.written.contains r) ||
     (match h.vd with | some d => d ≠ 32 && (sc.vreadAfter h).contains d | none => false))

/-! Operand read. -/

/-- Fetch the literal words of an instruction, in field order (R17), from offset `off` on. -/
def State.literals (s : State) (p : Place) : List (Nat × Lit) → Word → State × Except (Fetch × Word) (List Word)
  | [], _ => (s, .ok [])
  | (c, l) :: t, off =>
    if c = 63 then
      match s.fetch p off with
      | (s, .ok w) =>
        match s.literals p t (off + 4) with
        | (s, .ok ws) => (s, .ok (litVal l w :: ws))
        | (s, .error e) => (s, .error e)
      | (s, f) => (s, .error (f, off))
    else s.literals p t off

/-- Read one source code other than a literal; a pop advances the cursor of an open scene, or consumes (R172, R191). -/
def State.readCode (s : State) (p : Place) (c : Nat) : State × Word :=
  let b := s.bank p
  match c with
  | 60 =>
    let v := (s.qinLeft p).headD 0
    match b.openScene with
    | some sc => (s.modBank p fun b => { b with scene := some { sc with qinPops := sc.qinPops + 1 } }, v)
    | none =>
      let k := match b.scene with | some sc => sc.qinPops | none => 0
      (s.modSeat p.core p.num fun t => { t with qin := dropAt t.qin k }, v)
  | 62 =>
    let v := (s.evqLeft p).headD 0
    match b.openScene with
    | some sc => (s.modBank p fun b => { b with scene := some { sc with evPops := sc.evPops + 1 } }, v)
    | none =>
      let k := match b.scene with | some sc => sc.evPops | none => 0
      (s.modSeat p.core p.num fun t => { t with evq := dropAt t.evq k }, v)
  | c => (s, s.reg p c)

/-- Operand values in field order, with the literals already fetched (R17, R43). -/
def State.operands (s : State) (p : Place) : List (Nat × Lit) → List Word → State × List Word
  | [], _ => (s, [])
  | (c, _) :: t, lits =>
    if c = 63 then
      let (s', vs) := s.operands p t lits.tail
      (s', lits.headD 0 :: vs)
    else
      let (s', v) := s.readCode p c
      let (s'', vs) := s'.operands p t lits
      (s'', v :: vs)

/-! Retirement. -/

/-- Energy of an instruction is charged to the seat and to its slot, in 2^-32 J (R314). -/
def State.chargeInsn (s : State) (p : Place) (slot : Nat) (w : W32) : State :=
  let e := Config.instrEnergy w
  let s := s.modSeat p.core p.num fun t => { t with energy := t.energy + e }
  s.modSlot slot fun q => { q with energy := q.energy + e }

/-- The instruction counts in ICNT and in the core's count (R34, R414), and its energy is charged. -/
def State.countInsn (s : State) (p : Place) (slot : Nat) (w : W32) : State :=
  let s := s.modSeat p.core p.num fun t => { t with icnt := t.icnt + 1 }
  (s.modCore p.core fun k => { k with retired := k.retired + 1 }).chargeInsn p slot w

/-- Put a result of variable latency on its way with a note of AMAX, outside a scene (R25, R81, R191). -/
def State.putVar (s : State) (p : Place) (h : Shape) (d : Nat) (v : Word) (note : BitVec 32) : State :=
  let s := if d = 61 then s.modSeat p.core p.num fun t => { t with outRes := t.outRes + 1 } else s
  let id := (s.core p.core).ids
  (s.modCore p.core fun k => { k with ids := k.ids + 1 }).modBank p fun b => { b with
    pending := b.pending ++ [⟨id, d, h.cause, some v, 0, note⟩] }

/-- Put the register result of an instruction on its way: a fixed-latency write in flight, a push of the scene's
buffer, or a pending variable-latency result with its value (R23, R25, R126, R191). -/
def State.putResult (s : State) (p : Place) (h : Shape) (v : Option Word) : State :=
  match h.dst, v with
  | some d, some v =>
    if d = 0 then s else
    let b := s.bank p
    match h.latency with
    | .fixed n =>
      if d = 61 ∧ b.openScene.isSome = true then s.modBank p fun b => b.buffer 1 (.push v (b.si + n))
      else
        let s := if d = 61 then s.modSeat p.core p.num fun t => { t with outRes := t.outRes + 1 } else s
        s.modBank p fun b => { b with inflight := insertWrite b.inflight ⟨d, v, b.si + n⟩ }
    | .var =>
      if d = 61 ∧ b.openScene.isSome = true then s.modBank p fun b => b.buffer 1 (.push v b.si)
      else s.putVar p h d v 0
    | .none => s
  | _, _ => s

/-- Pushes of a scene enter in the order in which their instructions retire (R191): sort the payloads of the push
entries by si, leaving every entry in its place. -/
def sortPushes (es : List Entry) : List Entry :=
  let ps := (es.filterMap fun e => match e.op with | .push v a => some (v, a) | _ => none).insertionSort fun x y => x.2 ≤ y.2
  (es.foldl (fun (a : List Entry × List (Word × Nat)) e =>
    match e.op, a.2 with
    | .push _ _, (v, t) :: r => (a.1 ++ [⟨e.n, .push v t⟩], r)
    | _, _ => (a.1 ++ [e], a.2)) ([], ps)).1

/-- Note in the open scene what the instruction read and wrote (R128, R210). -/
def Bank.noteWritten (b : Bank) (h : Shape) : Bank :=
  match b.openScene with
  | none => b
  | some sc =>
    let vread := sc.vreadAfter h
    { b with scene := some { sc with
      written := match h.dst with | some d => if d < 60 ∧ d ∉ sc.written then d :: sc.written else sc.written | none => sc.written
      vread := vread
      vwritten := match h.vd with | some d => if d ∉ sc.vwritten then d :: sc.vwritten else sc.vwritten | none => sc.vwritten
      entries := if h.dst = some 61 then sortPushes sc.entries else sc.entries } }

/-- Cancel earlier fixed-latency writes of a variable-latency destination (R25). -/
def Bank.cancel (b : Bank) (h : Shape) : Bank :=
  match h.latency, h.dst with
  | .var, some d => if d = 61 then b else { b with inflight := b.inflight.filter (·.code ≠ d) }
  | _, _ => b

/-- An instruction retires: its result is on its way, the seat goes on at `pc`, owes the empty si of HOLD, and its issue
slot has passed (R21-R26). -/
def State.finish (s : State) (x : Ctx) (h : Shape) (hold : BitVec 2) (v : Option Word) (pc : Word) : State :=
  let s := s.modBank x.p fun b => b.cancel h
  let s := s.putResult x.p h v
  let s := s.modBank x.p fun b => { b.noteWritten h with
    pc := pc, owed := holdSi hold, wip := .none, si := b.si + 1, sendTo := none, copRoom := none }
  { (s.countInsn x.p (s.bank x.p).cslot.toNat x.word).retireDue x.p with ended := .done }

/-! Issue. -/

/-- The seat waits; nothing else changes. -/
def State.stall (s : State) (c : Stall) : State := { s with ended := .stall c }

/-- The access of a seat arrives at the home slice of a blocked line (R248). The seat makes its access again, and its turn in
the queue decides when it goes on; `w` tells how it holds the seat meanwhile. -/
def State.joinHome (s : State) (p : Place) (pa : Nat) (w : Wip) : State :=
  match s.joinAt (.seat p) pa with
  | some s' =>
    match (s.bank p).wip with
    | .none => { s'.modBank p (fun b => { b with wip := w }) with ended := .began }
    | _ => { s' with ended := .stall .memory }
  | none => s.stall .memory

/-- A trap of the instruction being issued: EPC is its own word, LEN its length (R394). -/
def State.trapHere (s : State) (p : Place) (h : Shape) (w : W32) (c : Cause) (info : Nat) (faddr : Option Word) : State :=
  s.trapAt p c info faddr (s.bank p).pc h.words w

/-- A message of an X-seat cannot enter the mesh: after 64 clk the seat traps, and nothing has been done (R179). -/
def State.meshWait (s : State) (p : Place) (h : Shape) (w : W32) : State :=
  match (s.bank p).wip with
  | .mesh t => if t + 64 ≤ s.clk then s.trapHere p h w .reflexBlock 0 none else s.stall .queue
  | _ => { s.modBank p (fun b => { b with wip := .mesh s.clk }) with ended := .began }

/-- Instruction in its own middle: operands were taken when it began. -/
def Wip.resuming : Wip → Bool
  | .none => false
  | .reissue _ => false
  | .commit => false
  | .committing => false
  | .home => false
  | .fetching => false
  | .mesh _ => false
  | _ => true

/-- Commit of a scene-closing instruction (R130), with the pops of its own fields undone while it waits. -/
def State.closeScene (s0 s : State) (p : Place) : Commit :=
  match s.commit p with
  | .wait c s' true =>
    match (s0.bank p).scene with
    | some sc0 => .wait c (s'.modBank p fun b => { b with
        scene := b.scene.map fun sc => { sc with qinPops := sc0.qinPops, evPops := sc0.evPops } }) true
    | none => .wait c s' true
  | .wait c _ false => .wait c s0 false
  | r => r

/-- A push buffered in the open scene finds no downstream when its turn in the commit comes: none is left, or a chain before
it makes no link (R172, R190). -/
def State.pushLost (s : State) (p : Place) : Bool :=
  match (s.bank p).openScene with
  | some sc => (s.bank p).wip != .commit && (s.dryRun p sc.entries).waits.isEmpty && (s.dryRun p sc.entries).lost
  | none => false

/-- The form and write set of the scene that a scene-closing instruction opens again (R130): those of the open scene, or of
the one that it closed before it issued again (R275). -/
def Bank.toOpen (b : Bank) : Option (Nat × BitVec 15) :=
  match b.wip with
  | .reissue r => r
  | _ => b.openScene.map fun sc => (sc.form, sc.mask)

/-- An instruction that has begun after its commit keeps the scene that is to open (R130): an atomic until it retires (R275);
one whose message waits for the mesh opens it at once. -/
def Bank.keepOpen (b : Bank) (reopen : Option (Nat × BitVec 15)) (x : Ctx) : Bank :=
  match reopen, b.wip with
  | some r, .push v _ => { b with wip := .push v (some r) }
  | some r, .reissue _ => { b with wip := .reissue (some r) }
  | some (f, m), .posted _ => b.openAt f m x.next
  | _, _ => b

/-- Carry out how the work ended. `s0` is the state before the issue. -/
def State.conclude (s0 : State) (x : Ctx) (h : Shape) (hold : BitVec 2) (reopen : Option (Nat × BitVec 15)) : Act → State
  | .done s v pc =>
    let pc := pc.getD x.next
    let s := match reopen with
      | some (f, m) => s.modBank x.p fun b => b.openAt f m pc
      | none => s
    s.finish x h hold v pc
  | .wait c => s0.stall c
  | .begun s => { s.modBank x.p (fun b => b.keepOpen reopen x) with ended := .began }
  | .trap c info fa => s0.trapHere x.p h x.word c info fa
  | .left s => { (s.countInsn x.p (s0.bank x.p).cslot.toNat x.word) with ended := .done }
  | .park off slot va sub =>
    match s0.park x.p off slot va sub with
    | some s => s
    | none => s0.stall .memory
  | .bad off sec => s0.uncorrectable x.p off sec h.words x.word
  | .atHome pa => s0.joinHome x.p pa .home
  | .atMesh => s0.meshWait x.p h x.word
  | .final s => s

/-- A check that an instruction makes at issue, before it closes the scene: none when it passes. -/
abbrev Check := Ctx → State → Option Act
/-- What an instruction itself makes its seat wait for before it can issue (R148, R207): the cause, from its operand values
and the state. -/
abbrev Waits := Ctx → State → Option Stall
/-- An instruction that waits for nothing of its own. -/
def noWaits : Waits := fun _ _ => none
/-- A rule that rests on operand values: it asks for nothing while they are not known. -/
def knowing (w : Waits) : Waits := fun x s => if x.vals.isEmpty then none else w x s

/-- The operand values of an instruction, looked at without being taken: none while one of them is pending or its literal word
cannot be fetched. -/
def State.peek (s : State) (p : Place) (h : Shape) : List Word :=
  if (s.bank p).pending.any fun r => h.reads.contains r.code then [] else
  match s.literals (s.stream p) h.srcs ((s.bank p).pc + 4) with
  | (s', .ok lits) => (s'.operands p h.srcs lits).2
  | (_, .error _) => []
/-- What the instruction's own rule makes its seat wait for: a rule that does not rest on operand values is asked before they
are known (R149, R207). -/
def State.ownWait (s : State) (p : Place) (h : Shape) (waits : Waits) : Option Stall :=
  waits ⟨p, s.peek p h, (s.bank p).pc, (s.bank p).pc + BitVec.ofNat 64 (4 * h.words), 0⟩ s

/-- The causes that keep the seat from issuing an instruction, the first of the table of R148 that applies (R149, R207). On
an X-seat an absent mail register, an empty qin and a full qout fault instead (R179). -/
def State.stalled (s : State) (p : Place) (h : Shape) (waits : Waits) : Option Stall :=
  let q := (if p.reflex then [] else (if s.absent p h then [.presence] else []) ++ (if s.queueWait p h then [.queue] else [])) ++
    (if s.commitFull p h then [.queue] else []) ++ (s.pendingOn p h).toList
  firstStall (q ++ (s.ownWait p h waits).toList)

/-- Issue an instruction of the current seat (R26, R130): eligibility; HOLD_SHORT; SCENE_LIVEIN; literal words; uncorrectable
reads of an event queue (R336); pops and operand values; the instruction's own checks; the commit of a scene-closing
instruction; its work. DESIGN CHOICE (log 70): where SCENE_OVERFLOW and a failing check of R18 both apply, a store's or
cbld's checks come first, and a load into qout is tested for overflow first. DESIGN CHOICE (log 10): the trap and the report of
an uncorrectable pop carry the PC as FADDR and the sector address 0. -/
def issueWith (h : Shape) (hold : BitVec 2) (waits : Waits) (check : Check) (body : Ctx → State → Act) (s0 : State) : State :=
  let p := s0.cur
  let b := s0.bank p
  let word := s0.wordOf p
  let next := b.pc + BitVec.ofNat 64 (4 * h.words)
  let reopen := h.opens.getD (if h.closes then b.toOpen else none)
  if b.wip.resuming then
    let x : Ctx := ⟨p, [], b.pc, next, word⟩
    s0.conclude x h hold none (body x s0)
  else
  let x0 : Ctx := ⟨p, [], b.pc, next, word⟩
  match s0.stalled p h waits with
  | some c => s0.stall c
  | none =>
  if b.holdShort h then s0.trapHere p h word .holdShort 0 none
  else if b.liveIn h then s0.trapHere p h word .sceneLivein 0 none
  else
  match s0.literals (s0.stream p) h.srcs (b.pc + 4) with
  | (s, .error (f, off)) =>
    match f with
    | .trap c => s0.trapHere p h word c 0 (some off)
    | .park slot va sub => s0.conclude x0 h hold none (.park off slot va sub)
    | .bad sec => s0.conclude x0 h hold none (.bad off sec)
    | .home pa => s0.conclude x0 h hold none (.atHome pa)
    | _ => s.stall .memory
  | (s, .ok lits) =>
  if s0.absent p h || s0.queueWait p h then s0.trapHere p h word .reflexBlock 0 none
  else if s0.hangupHit p h then s0.trapHere p h word .queueHangup 0 none
  else if h.popsOf 62 ≠ 0 ∧ (s0.seat p.core p.num).evUe ≠ 0 then
    (s0.modSeat p.core p.num fun t => { t with evUe := t.evUe - 1 }).conclude x0 h hold none (.bad b.pc 0)
  else
  let (s, vals) := s.operands p h.srcs lits
  let x : Ctx := ⟨p, vals, b.pc, next, word⟩
  match (if b.wip = .commit then none else check x s) with
  | some a => s0.conclude x h hold none a
  | none =>
  if !h.closes && !b.fits (h.entries + b2n (h.dst == some 61)) then s0.trapHere p h word .sceneOverflow 0 none
  else if h.closes then
    if s0.pushLost p then s0.trapHere p h word .queueHangup 0 none else
    match s0.closeScene (h.keep x s) p with
    | .done s => s0.conclude x h hold reopen (body x s)
    | .wait c s begun => if begun then { s with ended := .began } else s.stall c
    | .conflict s => s
  else s0.conclude x h hold none (body x s)

/-- The message of this number waits in the network interface of a core to enter the mesh (R194). -/
def State.inOutbox (s : State) (c no : Nat) : Bool := (s.core c).outbox.any (·.no == no)
/-- An instruction has handed its message to the network interface: it retires once the message has entered the mesh
(R194, R281). `no` is the number that the message took. -/
def posted (x : Ctx) (no : Nat) (s : State) : Act :=
  if s.inOutbox x.p.core no then .begun (s.modBank x.p fun b => { b with wip := .posted no }) else .done s none none
/-- It waits for its message to enter the mesh. -/
def postedAct (no : Nat) (x : Ctx) (s : State) : Act :=
  if s.inOutbox x.p.core no then .wait .queue else .done s none none
/-- On an X-seat whose core the mesh has stopped no message enters (R179). DESIGN CHOICE (log 17): a send that would bounce, or
be held at the stage door, and so enters no mesh, waits too, and traps after 64 clk (R202). -/
def meshChk (x : Ctx) (s : State) : Option Act :=
  if x.p.reflex && s.meshStop.contains x.p.core then some .atMesh else none

/-- Issue an instruction that makes no check of its own. -/
def issue (h : Shape) (hold : BitVec 2) (body : Ctx → State → Act) (s : State) : Out :=
  .next (issueWith h hold noWaits (fun _ _ => none) body s)

/-- Issue an instruction with checks of its own. -/
def issueChk (h : Shape) (hold : BitVec 2) (check : Check) (body : Ctx → State → Act) (s : State) : Out :=
  .next (issueWith h hold noWaits check body s)

/-- Issue an instruction that waits by a rule of its own, and makes checks of its own. -/
def issueWait (h : Shape) (hold : BitVec 2) (waits : Waits) (check : Check) (body : Ctx → State → Act) (s : State) : Out :=
  .next (issueWith h hold waits check body s)

end Sys2Proof.Machine
end

