-- ==== Sys2Proof/Machine/ScalarInt.lean ====
section
/-! DEFINITION. Scalar integer and bit-field instructions (spec/04 R90-R101, R104): one pure function per effect, one
meaning per instruction. -/
namespace Sys2Proof.Machine

/-- An integer source field. -/
def isrc (c : BitVec 6) : Nat × Lit := (c.toNat, .int)

/-- Shape of rd := op(ra, rb). -/
def shape2 (rd ra rb : BitVec 6) (l : Nat) : Shape := { srcs := [isrc ra, isrc rb], dst := some rd.toNat, lat := .fixed l }
/-- Shape of rd := op(ra). -/
def shape1 (rd ra : BitVec 6) (l : Nat) : Shape := { srcs := [isrc ra], dst := some rd.toNat, lat := .fixed l }
/-- Shape of rd := op(rd, ra, rb). -/
def shape3 (rd ra rb : BitVec 6) (l : Nat) : Shape :=
  { srcs := [isrc rd, isrc ra, isrc rb], dst := some rd.toNat, lat := .fixed l }
/-- Shape of rd := op(rd, ra). -/
def shapeRd (rd ra : BitVec 6) (l : Nat) : Shape := { srcs := [isrc rd, isrc ra], dst := some rd.toNat, lat := .fixed l }

/-- rd := op(value(ra), value(rb)) with fixed latency `l`. -/
def int2 (f : FmtR) (l : Nat) (op : Word → Word → Word) (s : State) : Out :=
  issue (shape2 f.rd f.ra f.rb l) f.hold (fun x s => .done s (some (op (x.v 0) (x.v 1))) none) s
/-- rd := op(value(ra)) with fixed latency 1. -/
def int1 (rd ra : BitVec 6) (hold : BitVec 2) (op : Word → Word) (s : State) : Out :=
  issue (shape1 rd ra 1) hold (fun x s => .done s (some (op (x.v 0))) none) s
/-- rd := op(old rd, value(ra), value(rb)) with fixed latency 1. -/
def int3 (f : FmtR) (op : Word → Word → Word → Word) (s : State) : Out :=
  issue (shape3 f.rd f.ra f.rb 1) f.hold (fun x s => .done s (some (op (x.v 0) (x.v 1) (x.v 2))) none) s

/-! Pure functions. -/

/-- The shift or rotate amount of a register (R93). -/
def amount (b : Word) : Nat := b.toNat % 64
/-- sats(i, 64) (R62). -/
def sats64 (i : Int) : Word := wi64 (max (-2 ^ 63) (min (2 ^ 63 - 1) i))
/-- satu(i, 64) (R62). -/
def satu64 (i : Int) : Word := wi64 (max 0 (min (2 ^ 64 - 1) i))
/-- Leading zero bits, 0 to 64. -/
def clz64 (a : Word) : Word := if a = 0 then 64 else w64 (63 - Nat.log2 a.toNat)
/-- Trailing zero bits, 0 to 64. -/
def ctz64 (a : Word) : Word := w64 (((List.range 64).takeWhile fun i => !a.getLsbD i).length)
/-- One bits. -/
def popc64 (a : Word) : Word := w64 (((List.range 64).filter fun i => a.getLsbD i).length)
/-- Bytes in reverse order. -/
def bswap64 (a : Word) : Word := leWord (leBytes 8 a.toNat).reverse
/-- Absolute value, modulo 2^64. -/
def abs64 (a : Word) : Word := if a.msb then -a else a
/-- Bits 127:64 of an exact product. -/
def high64 (p : Int) : Word := wi64 (p / 2 ^ 64)
/-- A condition as 1 or 0. -/
def flag (b : Bool) : Word := if b then 1 else 0

/-- Signed quotient, truncated towards zero; all ones for a zero divisor (R98). -/
def divS (a b : Word) : Word := if b = 0 then -1 else wi64 (Int.tdiv a.toInt b.toInt)
/-- Unsigned quotient (R98). -/
def divU (a b : Word) : Word := if b = 0 then -1 else w64 (a.toNat / b.toNat)
/-- Signed remainder, with the sign of a (R98). -/
def remS (a b : Word) : Word := if b = 0 then a else wi64 (Int.tmod a.toInt b.toInt)
/-- Unsigned remainder (R98). -/
def remU (a b : Word) : Word := if b = 0 then a else w64 (a.toNat % b.toNat)

/-- bf_eff (R101). -/
def bfEff (off w : Nat) : Nat := min w (64 - min off 64)
/-- bitfield(BFXU, off, w) of a (R101). -/
def bfxuVal (off w : Nat) (a : Word) : Word := w64 (a.toNat / 2 ^ off % 2 ^ bfEff off w)
/-- bitfield(BFXS, off, w) of a (R101). -/
def bfxsVal (off w : Nat) (a : Word) : Word :=
  let e := bfEff off w
  let v := a.toNat / 2 ^ off % 2 ^ e
  if e = 0 then 0 else if v.testBit (e - 1) then wi64 ((v : Int) - 2 ^ e) else w64 v
/-- bitfield(BFI, off, w) of a into rd (R101). -/
def bfiVal (off w : Nat) (rd a : Word) : Word :=
  let e := bfEff off w
  let mask := w64 ((2 ^ e - 1) * 2 ^ off)
  (rd &&& ~~~mask) ||| (w64 (a.toNat % 2 ^ e * 2 ^ off) &&& mask)
/-- The offset and width of a register bit-field form (R104). -/
def bfArg (b : Word) : Nat × Nat := (b.toNat % 128, b.toNat / 256 % 128)
/-- lik (R97). -/
def likVal (pos : Nat) (imm : BitVec 16) (rd : Word) : Word :=
  if pos = 0 then imm.setWidth 64
  else (rd &&& ~~~(w64 (0xffff * 2 ^ (16 * pos)))) ||| w64 (imm.toNat * 2 ^ (16 * pos))

/-! Meanings: major 0x01 (R93). -/

/-- add (R93). -/
def execAdd (f : FmtR) (s : State) : Out :=
  int2 f 1 (fun a b => a + b) s
/-- sub (R93). -/
def execSub (f : FmtR) (s : State) : Out :=
  int2 f 1 (fun a b => a - b) s
/-- and (R93). -/
def execAnd (f : FmtR) (s : State) : Out :=
  int2 f 1 (fun a b => a &&& b) s
/-- or (R93). -/
def execOr (f : FmtR) (s : State) : Out :=
  int2 f 1 (fun a b => a ||| b) s
/-- xor (R93). -/
def execXor (f : FmtR) (s : State) : Out :=
  int2 f 1 (fun a b => a ^^^ b) s
/-- andn (R93). -/
def execAndn (f : FmtR) (s : State) : Out :=
  int2 f 1 (fun a b => a &&& ~~~b) s
/-- orn (R93). -/
def execOrn (f : FmtR) (s : State) : Out :=
  int2 f 1 (fun a b => a ||| ~~~b) s
/-- sll (R93). -/
def execSll (f : FmtR) (s : State) : Out :=
  int2 f 1 (fun a b => a <<< amount b) s
/-- srl (R93). -/
def execSrl (f : FmtR) (s : State) : Out :=
  int2 f 1 (fun a b => a >>> amount b) s
/-- sra (R93). -/
def execSra (f : FmtR) (s : State) : Out :=
  int2 f 1 (fun a b => a.sshiftRight (amount b)) s
/-- rol (R93). -/
def execRol (f : FmtR) (s : State) : Out :=
  int2 f 1 (fun a b => a.rotateLeft (amount b)) s
/-- ror (R93). -/
def execRor (f : FmtR) (s : State) : Out :=
  int2 f 1 (fun a b => a.rotateRight (amount b)) s
/-- min (R93). -/
def execMin (f : FmtR) (s : State) : Out :=
  int2 f 1 (fun a b => if a.toInt < b.toInt then a else b) s
/-- max (R93). -/
def execMax (f : FmtR) (s : State) : Out :=
  int2 f 1 (fun a b => if a.toInt < b.toInt then b else a) s
/-- minu (R93). -/
def execMinu (f : FmtR) (s : State) : Out :=
  int2 f 1 (fun a b => if a.toNat < b.toNat then a else b) s
/-- maxu (R93). -/
def execMaxu (f : FmtR) (s : State) : Out :=
  int2 f 1 (fun a b => if a.toNat < b.toNat then b else a) s
/-- adds (R93). -/
def execAdds (f : FmtR) (s : State) : Out :=
  int2 f 1 (fun a b => sats64 (a.toInt + b.toInt)) s
/-- subs (R93). -/
def execSubs (f : FmtR) (s : State) : Out :=
  int2 f 1 (fun a b => sats64 (a.toInt - b.toInt)) s
/-- addus (R93). -/
def execAddus (f : FmtR) (s : State) : Out :=
  int2 f 1 (fun a b => satu64 (a.toNat + b.toNat)) s
/-- subus (R93). -/
def execSubus (f : FmtR) (s : State) : Out :=
  int2 f 1 (fun a b => satu64 ((a.toNat : Int) - b.toNat)) s
/-- clz (R93). -/
def execClz (f : FmtR) (s : State) : Out :=
  int1 f.rd f.ra f.hold clz64 s
/-- ctz (R93). -/
def execCtz (f : FmtR) (s : State) : Out :=
  int1 f.rd f.ra f.hold ctz64 s
/-- popc (R93). -/
def execPopc (f : FmtR) (s : State) : Out :=
  int1 f.rd f.ra f.hold popc64 s
/-- bswap (R93). -/
def execBswap (f : FmtR) (s : State) : Out :=
  int1 f.rd f.ra f.hold bswap64 s
/-- abs (R93). -/
def execAbs (f : FmtR) (s : State) : Out :=
  int1 f.rd f.ra f.hold abs64 s

/-! Immediate arithmetic (R94-R97). -/
/-- addi (R94). -/
def execAddi (f : FmtI) (s : State) : Out :=
  int1 f.rd f.ra f.hold (fun a => a + f.imm.signExtend 64) s
/-- andi (R94). -/
def execAndi (f : FmtI) (s : State) : Out :=
  int1 f.rd f.ra f.hold (fun a => a &&& f.imm.setWidth 64) s
/-- ori (R94). -/
def execOri (f : FmtI) (s : State) : Out :=
  int1 f.rd f.ra f.hold (fun a => a ||| f.imm.setWidth 64) s
/-- xori (R94). -/
def execXori (f : FmtI) (s : State) : Out :=
  int1 f.rd f.ra f.hold (fun a => a ^^^ f.imm.setWidth 64) s
/-- slli (R95). -/
def execSlli (f : FmtSh) (s : State) : Out :=
  int1 f.rd f.ra f.hold (fun a => a <<< f.amt.toNat) s
/-- srli (R95). -/
def execSrli (f : FmtSh) (s : State) : Out :=
  int1 f.rd f.ra f.hold (fun a => a >>> f.amt.toNat) s
/-- srai (R95). -/
def execSrai (f : FmtSh) (s : State) : Out :=
  int1 f.rd f.ra f.hold (fun a => a.sshiftRight f.amt.toNat) s
/-- rori (R95). -/
def execRori (f : FmtSh) (s : State) : Out :=
  int1 f.rd f.ra f.hold (fun a => a.rotateRight f.amt.toNat) s
/-- slti (R96). -/
def execSlti (f : FmtSlt) (s : State) : Out :=
  int1 f.rd f.ra f.hold (fun a => flag (a.toInt < f.imm.toInt)) s
/-- sltiu (R96). -/
def execSltiu (f : FmtSlt) (s : State) : Out :=
  int1 f.rd f.ra f.hold (fun a => flag (a.toNat < (f.imm.signExtend 64).toNat)) s
/-- seqi (R96). -/
def execSeqi (f : FmtSlt) (s : State) : Out :=
  int1 f.rd f.ra f.hold (fun a => flag (a == f.imm.signExtend 64)) s
/-- snei (R96). -/
def execSnei (f : FmtSlt) (s : State) : Out :=
  int1 f.rd f.ra f.hold (fun a => flag (a != f.imm.signExtend 64)) s
/-- lik (R97): with pos 0 rd is written only, otherwise read and written. -/
def execLik (f : FmtK) (s : State) : Out :=
  issue { srcs := if f.pos = 0 then [] else [isrc f.rd], dst := some f.rd.toNat, lat := .fixed 1 } f.hold
    (fun x s => .done s (some (likVal f.pos.toNat f.imm (x.v 0))) none) s

/-! Multiply and divide (R98). -/
/-- mul (R98). -/
def execMul (f : FmtR) (s : State) : Out :=
  int2 f 4 (fun a b => a * b) s
/-- mulh (R98). -/
def execMulh (f : FmtR) (s : State) : Out :=
  int2 f 4 (fun a b => high64 (a.toInt * b.toInt)) s
/-- mulhu (R98). -/
def execMulhu (f : FmtR) (s : State) : Out :=
  int2 f 4 (fun a b => high64 ((a.toNat : Int) * b.toNat)) s
/-- mulhsu (R98). -/
def execMulhsu (f : FmtR) (s : State) : Out :=
  int2 f 4 (fun a b => high64 (a.toInt * b.toNat)) s
/-- div (R98). -/
def execDiv (f : FmtR) (s : State) : Out :=
  int2 f 24 divS s
/-- divu (R98). -/
def execDivu (f : FmtR) (s : State) : Out :=
  int2 f 24 divU s
/-- rem (R98). -/
def execRem (f : FmtR) (s : State) : Out :=
  int2 f 24 remS s
/-- remu (R98). -/
def execRemu (f : FmtR) (s : State) : Out :=
  int2 f 24 remU s

/-! Compare and select (R99). -/
/-- cmpeq (R99). -/
def execCmpeq (f : FmtR) (s : State) : Out :=
  int2 f 1 (fun a b => flag (a == b)) s
/-- cmpne (R99). -/
def execCmpne (f : FmtR) (s : State) : Out :=
  int2 f 1 (fun a b => flag (a != b)) s
/-- cmplt (R99). -/
def execCmplt (f : FmtR) (s : State) : Out :=
  int2 f 1 (fun a b => flag (a.toInt < b.toInt)) s
/-- cmpge (R99). -/
def execCmpge (f : FmtR) (s : State) : Out :=
  int2 f 1 (fun a b => flag (b.toInt ≤ a.toInt)) s
/-- cmpltu (R99). -/
def execCmpltu (f : FmtR) (s : State) : Out :=
  int2 f 1 (fun a b => flag (a.toNat < b.toNat)) s
/-- cmpgeu (R99). -/
def execCmpgeu (f : FmtR) (s : State) : Out :=
  int2 f 1 (fun a b => flag (b.toNat ≤ a.toNat)) s
/-- csel (R99). -/
def execCsel (f : FmtR) (s : State) : Out :=
  int3 f (fun rd a b => if rd ≠ 0 then a else b) s
/-- cmovz (R99). -/
def execCmovz (f : FmtR) (s : State) : Out :=
  int3 f (fun rd a b => if a = 0 then b else rd) s
/-- cmovnz (R99). -/
def execCmovnz (f : FmtR) (s : State) : Out :=
  int3 f (fun rd a b => if a ≠ 0 then b else rd) s

/-! Bit fields (R100, R101, R104). -/
/-- bfxu (R100). -/
def execBfxu (f : FmtBF) (s : State) : Out :=
  int1 f.rd f.ra f.hold (bfxuVal f.off.toNat (f.wid.toNat + 1)) s
/-- bfxs (R100). -/
def execBfxs (f : FmtBF) (s : State) : Out :=
  int1 f.rd f.ra f.hold (bfxsVal f.off.toNat (f.wid.toNat + 1)) s
/-- bfi (R100); rd is read and written. -/
def execBfi (f : FmtBF) (s : State) : Out :=
  issue (shapeRd f.rd f.ra 1) f.hold
    (fun x s => .done s (some (bfiVal f.off.toNat (f.wid.toNat + 1) (x.v 0) (x.v 1))) none) s
/-- bfxur (R104). -/
def execBfxur (f : FmtR) (s : State) : Out :=
  int2 f 1 (fun a b => bfxuVal (bfArg b).1 (bfArg b).2 a) s
/-- bfxsr (R104). -/
def execBfxsr (f : FmtR) (s : State) : Out :=
  int2 f 1 (fun a b => bfxsVal (bfArg b).1 (bfArg b).2 a) s
/-- bfir (R104). -/
def execBfir (f : FmtR) (s : State) : Out :=
  int3 f (fun rd a b => bfiVal (bfArg b).1 (bfArg b).2 rd a) s

end Sys2Proof.Machine
end

