-- ==== Sys2Proof/Machine/Access.lean ====
section
/-! DEFINITION. Loads and stores of a seat (spec/04 R102-R106) on every path (R231, R238, R255-R259, R265). -/
namespace Sys2Proof.Machine

/-- The latest of some buffered bytes at a key. -/
def latest (cells : List Host.Cell) (k : Nat) : Option Byte := (cells.reverse.find? fun c => c.1 == k).map (·.2)
/-- The byte a scene has buffered at a key: the latest entry that has it (R105). -/
def Scene.buffered (sc : Scene) (k : Nat) : Option Byte := latest sc.cells k
/-- The byte that the open scene of a seat has buffered at a key, past a page move (R105, R248). -/
def State.ownByte (s : State) (p : Place) (k : Nat) : Option Byte :=
  match (s.bank p).openScene with | some sc => (s.sceneNow sc).buffered k | none => none

/-- A vector memory command that touches some of the bytes has not been performed: one of the seat (R225), or one that
another seat of the core issued before (R253). -/
def State.vecTouch (s : State) (p : Place) (ks : List Nat) : Bool :=
  ((s.vqOf p).any fun v => !v.ganged && ks.any v.touches) || s.vecBefore p ks

/-- A vector access to coherent bytes that the seat issued outside a scene is not performed yet, and holds its next coherent
access (R256). DEDUCED (log 33): a load too, since its timestamp must precede that of the later access. -/
def State.storeDue (s : State) (p : Place) (ks : List Nat) : Bool :=
  ks.any isCoh && (s.vqOf p).any fun v => (v.stores || v.loads) && v.sc == 0 && v.lanes.any fun l => isCoh l.2

/-- An access of the seat must wait for what goes before it (R225, R253, R256). -/
def State.heldBack (s : State) (p : Place) (ks : List Nat) : Bool := s.vecTouch p ks || s.storeDue p ks || s.halfway p ks

/-- What a scalar access waits for before it issues (R207): an access that fails its checks waits for nothing. -/
def State.accessWait (s : State) (p : Place) (seg : Nat) (off : Word) (n al : Nat) (r w : Bool) : Option Stall :=
  match s.locate p seg off.toNat n al r w false with
  | (_, .ok ks _) => if s.heldBack p ks then some .memory else none
  | _ => none

/-- Read one coherent line for the seat: outside a scene the unit takes ts := t, pts := t (R258); inside, the lease is
recorded (R259). Reads served at the home count on the page (R247). -/
def State.seatLine (s : State) (p : Place) (page : Option (Nat × Nat × Bool)) (ks : List Nat) (l : Nat) :
    State × List Byte :=
  let (s, r) := s.readLine p.core l (sectorsOf ks l)
  let s := if r.home then s.countOn p.core page else s
  match (s.bank p).openScene with
  | some sc => (s.modBank p fun b => { b with scene := some { sc with reads := sc.reads ++ [⟨l, r.wts, r.rts⟩] } }, r.data)
  | none => (s.raisePts p.core r.t, r.data)

/-- The bytes at some keys for a read of the seat, its own buffered stores first (R105, R255, R265). -/
def State.seatBytes (s : State) (p : Place) (page : Option (Nat × Nat × Bool)) (ks : List Nat) : State × List Byte :=
  let own := s.ownByte p
  if ks.all fun k => (own k).isSome then (s, ks.map fun k => (own k).getD 0) else
  if ks.any isExt then
    let s := (s.countOn p.core page).flushExt fun w =>
      w.core == p.core && w.seat == p.num && isHost w.addr == isHost (ks.headD 0)
    (s, ks.map fun k => (own k).getD (memRead s.mem k))
  else if ks.any isCoh then
    let step := fun (a : State × SMap (List Byte)) l =>
      let (s, d) := a.1.seatLine p page ks l
      (s, mset a.2 l d)
    let (s, ds) := (linesOf ks).foldl step (s, [])
    (s, ks.map fun k => (own k).getD (if isCoh k then (mget ds (lineOf k) []).getD (k % 128) 0 else memRead s.mem k))
  else (s, ks.map fun k => (own k).getD (memRead s.mem k))

/-- A checked read of n bytes at an offset of a segment: the bytes, or how the instruction ends instead. -/
def State.seatRead (s : State) (p : Place) (seg : Nat) (off : Word) (n al : Nat) : State × Except Act (List Byte) :=
  match s.locate p seg off.toNat n al true false false with
  | (s, .ok ks page) =>
    if s.heldBack p ks then (s, .error (.wait .memory))
    else if s.bad ks then (s, .error (.bad off ((ks.find? fun k => s.ue.contains (k / 32)).getD 0 / 32 * 32)))
    else
      let (s, bs) := s.seatBytes p page ks
      (s, .ok bs)
  | (s, a) => (s, .error (a.act off))

/-- Perform, or buffer, a located store of the seat (R103, R105, R126, R256, R265). -/
def State.seatStore (s : State) (p : Place) (page : Option (Nat × Nat × Bool)) (cells : List Host.Cell) : State :=
  match (s.bank p).openScene with
  | some _ => s.modBank p fun b => b.buffer 1 (.store cells page.toList none)
  | none =>
    match cells with
    | [] => s
    | c :: _ =>
      let s := s.countOn p.core page
      if isExt c.1 then s.postExt p.core p.num c.1 (cells.map (·.2))
      else if cells.any fun c => isCoh c.1 then (s.unitWrite p.core 0 cells).1 else s.poke p.core cells

/-- A checked store of n bytes of a value at an offset of a segment. -/
def State.seatWrite (s : State) (p : Place) (seg : Nat) (off : Word) (n : Nat) (v : Word) : State × Option Act :=
  match s.locate p seg off.toNat n n false true false with
  | (s, .ok ks page) =>
    if s.heldBack p ks then (s, some (.wait .memory)) else (s.seatStore p page (ks.zip (leBytes n v.toNat)), none)
  | (s, a) => (s, some (a.act off))

/-- The register value of loaded bytes (R103). -/
def loadVal (sx : Bool) (bs : List Byte) : Word :=
  let v := leNat bs
  let n := 8 * bs.length
  if sx && decide (2 ^ (n - 1) ≤ v) then wi64 ((v : Int) - 2 ^ n) else w64 v

/-- The work of a load: the value is taken at issue and lands when it arrives (R103, R106). -/
def loadAct (seg : Nat) (off : Word) (sz : Nat) (sx : Bool) (x : Ctx) (s : State) : Act :=
  match s.seatRead x.p seg off (2 ^ sz) (2 ^ sz) with
  | (_, .error a) => a
  | (s, .ok bs) => .done s (some (loadVal sx bs)) none

/-- The work of a store (R103). -/
def storeAct (seg : Nat) (off : Word) (sz : Nat) (v : Word) (x : Ctx) (s : State) : Act :=
  match s.seatWrite x.p seg off (2 ^ sz) v with
  | (_, some a) => a
  | (s, none) => .done s none none

/-- The check of a store, made before it takes its store-buffer entry (R105). -/
def storeChk (seg : Nat) (off : Word) (sz : Nat) (x : Ctx) (s : State) : Option Act :=
  match s.locate x.p seg off.toNat (2 ^ sz) (2 ^ sz) false true false with
  | (_, .ok ks _) => if s.heldBack x.p ks then some (.wait .memory) else none
  | (_, a) => some (a.act off)

/-- The check of a load that is made before it waits (R272). -/
def State.loadChk (s : State) (p : Place) (seg : Nat) (off : Word) (n : Nat) : Option Act :=
  match s.locate p seg off.toNat n n true false false with
  | (s, .ok ks _) => if s.heldBack p ks then some (.wait .memory) else none
  | (_, a) => some (a.act off)

/-- What a load, or a store, of size `sz` waits for before it issues, at the offset that its operand values give. -/
def loadWaits (seg : Nat) (off : List Word → Word) (sz : Nat) : Waits :=
  knowing fun x s => s.accessWait x.p seg (off x.vals) (2 ^ sz) (2 ^ sz) true false
/-- What a store waits for before it issues. -/
def storeWaits (seg : Nat) (off : List Word → Word) (sz : Nat) : Waits :=
  knowing fun x s => s.accessWait x.p seg (off x.vals) (2 ^ sz) (2 ^ sz) false true

/-- Displacement of the M format (R42). -/
def dispM (f : FmtM) : Word := f.imm.signExtend 64 * w64 (2 ^ f.sz.toNat)

/-- ld (R102, R103). -/
def execLd (f : FmtM) (s : State) : Out :=
  issueWait { srcs := [isrc f.ra], dst := some f.rd.toNat, lat := .var } f.hold
    (loadWaits f.seg.toNat (fun v => v.getD 0 0 + dispM f) f.sz.toNat) (fun _ _ => none)
    (fun x s => loadAct f.seg.toNat (x.v 0 + dispM f) f.sz.toNat (f.sx == 1) x s) s

/-- st (R102, R103). -/
def execSt (f : FmtM) (s : State) : Out :=
  issueWait { srcs := [isrc f.rd, isrc f.ra], entries := 1 } f.hold
    (storeWaits f.seg.toNat (fun v => v.getD 1 0 + dispM f) f.sz.toNat)
    (fun x s => storeChk f.seg.toNat (x.v 1 + dispM f) f.sz.toNat x s)
    (fun x s => storeAct f.seg.toNat (x.v 1 + dispM f) f.sz.toNat (x.v 0) x s) s

/-- Offset of an indexed access (R104). -/
def offX (f : FmtX) (a b : Word) : Word := a + b * w64 (2 ^ f.sz.toNat)

/-- ldx (R104). -/
def execLdx (f : FmtX) (s : State) : Out :=
  issueWait { srcs := [isrc f.ra, isrc f.rb], dst := some f.rd.toNat, lat := .var } f.hold
    (loadWaits f.seg.toNat (fun v => offX f (v.getD 0 0) (v.getD 1 0)) f.sz.toNat) (fun _ _ => none)
    (fun x s => loadAct f.seg.toNat (offX f (x.v 0) (x.v 1)) f.sz.toNat false x s) s

/-- stx (R104). -/
def execStx (f : FmtX) (s : State) : Out :=
  issueWait { srcs := [isrc f.rd, isrc f.ra, isrc f.rb], entries := 1 } f.hold
    (storeWaits f.seg.toNat (fun v => offX f (v.getD 1 0) (v.getD 2 0)) f.sz.toNat)
    (fun x s => storeChk f.seg.toNat (offX f (x.v 1) (x.v 2)) f.sz.toNat x s)
    (fun x s => storeAct f.seg.toNat (offX f (x.v 1) (x.v 2)) f.sz.toNat (x.v 0) x s) s

/-- ldx.sx (R104). -/
def execLdxSx (f : FmtX) (s : State) : Out :=
  issueWait { srcs := [isrc f.ra, isrc f.rb], dst := some f.rd.toNat, lat := .var } f.hold
    (loadWaits f.seg.toNat (fun v => offX f (v.getD 0 0) (v.getD 1 0)) f.sz.toNat) (fun _ _ => none)
    (fun x s => loadAct f.seg.toNat (offX f (x.v 0) (x.v 1)) f.sz.toNat true x s) s

end Sys2Proof.Machine
end

