-- ==== Sys2Proof/Machine/Atomic.lean ====
section
/-! DEFINITION. Atomics, fences, ordered accesses, remote stores of scalars, lut4ld and hints (spec/12 R272-R285; spec/11
R267-R270). qfence stands in Engine.lean, bfset and bfrd in ControlRegs.lean, rstv in Vector.lean. -/
namespace Sys2Proof.Machine

/-! Atomics (R273-R275). -/

/-- The new value of an AMO other than cas, on n-byte values (R273). -/
def amoNew (op n : Nat) (old b : Nat) : Nat :=
  let w := 8 * n
  let sg : Nat → Int := fun v => if v < 2 ^ (w - 1) then v else (v : Int) - 2 ^ w
  match op with
  | 0 => b
  | 1 => (old + b) % 2 ^ w
  | 2 => old &&& b
  | 3 => old ||| b
  | 4 => if sg old < sg b then b else old
  | 5 => if sg b < sg old then b else old
  | _ => if old < b then b else old

/-- The atomic read and write at its home, bank or port (R275): the old bytes are written over by `new`, or kept. An access
of a port draws a free value, by which `amoAct` decides its status. -/
def State.amoUnit (s : State) (p : Place) (page : Option (Nat × Nat × Bool)) (ks : List Nat) (new : Option Nat) : State :=
  let cells := match new with | some v => ks.zip (leBytes ks.length v) | none => []
  let s := s.countOn p.core page
  if ks.any isExt then { s with mem := memWrites s.mem cells, fctr := s.fctr + 1 }
  else if ks.any isCoh then
    let ls := linesOf ks
    let ts := ls.foldl (fun a l => max a (max (s.lts l).1 ((s.lts l).2 + 1))) (s.core p.core).pts
    let s := ls.foldl (fun (s : State) l => { s.l2Access p.core l with
      lines := mset s.lines l (if new.isSome then (ts, ts) else ((s.lts l).1, max (s.lts l).2 ts)) }) s
    (s.poke p.core cells).raisePts p.core ts
  else s.poke p.core cells

/-- What an instruction with the source fields `cs` has popped goes back: it is to issue again (R249, R275). -/
def State.unpop (s : State) (x : Ctx) (cs : List Nat) : State :=
  let back := fun code => ((cs.zip x.vals).filter fun f => f.1 == code).map (·.2)
  s.modSeat x.p.core x.p.num fun t => { t with qin := back 60 ++ t.qin, evq := back 62 ++ t.evq }

/-- An AMO with the source fields `cs` meets an uncorrectable sector after the commit (R275): the first time the atomic issues
again; the second time it traps. Neither time has it popped anything. -/
def amoBad (cs : List Nat) (off : Word) (sec : Nat) (x : Ctx) (s : State) : Act :=
  let b := s.bank x.p
  let s := (s.raiseUE x.p.core).unpop x cs
  match b.wip with
  | .reissue _ =>
    .final (s.trapBad x.p off sec x.pc ((x.next - x.pc).toNat / 4) x.word)
  | _ => .begun (s.modBank x.p fun b => { b with wip := .reissue none })

/-- On an X-seat a push of the old value must find room behind those of the open scene, which the AMO commits (R272). -/
def amoFull (rd : Nat) (x : Ctx) (s : State) : Bool :=
  rd == 61 && x.p.reflex && match (s.bank x.p).openScene with
  | some sc =>
    let t := (s.dryRun x.p sc.entries).state
    (t.seat x.p.core x.p.num).down.isSome && !t.qoutRoom x.p
  | none => false

/-- An atomic waits behind an earlier access of its seat or core that must be performed first (R225, R253, R256). -/
def amoWaits (seg n ia : Nat) : Waits := knowing fun x s => s.accessWait x.p seg (x.v ia) n n true true

/-- The checks of an AMO (R274). -/
def amoChk (op seg rd : Nat) (n ia : Nat) (x : Ctx) (s : State) : Option Act :=
  let off := x.v ia
  match s.locate x.p seg off.toNat n n true true false with
  | (s, .ok ks _) =>
    if ks.any isExt ∧ op ≠ 0 ∧ op ≠ 1 ∧ op ≠ 7 then some (.trap .amoUnsupported 0 none)
    else if amoFull rd x s then some (.trap .reflexBlock 0 none)
    else if s.heldBack x.p ks then some (.wait .memory)
    else none
  | (_, a) => some (a.act off)

/-- The old value reaches rd before the seat issues anything more (R272): at once; a push that finds no room holds the seat
until it does (R191). -/
def amoRd (rd : Nat) (v : Word) (x : Ctx) (s : State) : Act :=
  if rd = 61 then
    if s.qoutRoom x.p then .done (s.enqueue x.p v) none none
    else .begun (s.modBank x.p fun b => { b with wip := .push v none })
  else .done (s.setReg x.p rd v) none none

/-- The push of an atomic that waits for room: it enters, or is dropped when its queue has gone, and the scene opens. -/
def amoPush (v : Word) (reopen : Option (Nat × BitVec 15)) (x : Ctx) (s : State) : Act :=
  if (s.seat x.p.core x.p.num).down.isSome && !s.qoutRoom x.p then .wait .queue
  else
    let s := s.enqueue x.p v
    .done (match reopen with | some (f, m) => s.modBank x.p fun b => b.openAt f m x.next | none => s) none none

/-- The completion of an AMO from a port has an error status (R275): it traps; whether the target performed it, as in `t`,
is open. What it popped goes back (R26). -/
def amoAbort (cs : List Nat) (off : Word) (x : Ctx) (s t : State) : State :=
  ((if Config.portDone s.fctr then t else { s with fctr := s.fctr + 1 }).unpop x cs).trapAt x.p .extAbort 0 (some off) x.pc
    ((x.next - x.pc).toNat / 4) x.word

/-- The atomic of an AMO after the commit (R274, R275). -/
def amoDo (op seg rd n : Nat) (cs : List Nat) (ia : Nat) (x : Ctx) (s : State) : Act :=
  let off := x.v ia
  match s.locate x.p seg off.toNat n n true true false with
  | (s, .ok ks page) =>
    if s.bad ks then amoBad cs off ((ks.find? fun k => s.ue.contains (k / 32)).getD 0 / 32 * 32) x s else
    let s := if ks.any isExt then
      s.flushExt fun w => w.core == x.p.core && w.seat == x.p.num && isHost w.addr == isHost (ks.headD 0) else s
    let old := leNat (memReads s.mem ks)
    let b := (x.v (ia + 1)).toNat % 2 ^ (8 * n)
    let new := if op = 7 then (if old = (x.v 0).toNat % 2 ^ (8 * n) then some b else none) else some (amoNew op n old b)
    let t := s.amoUnit x.p page ks new
    if ks.any isExt && Config.portFails s.fctr then .final (amoAbort cs off x s t) else amoRd rd (w64 old) x t
  | (_, a) => a.act off

/-- The work of an AMO: it goes on with its push, or is performed. -/
def amoAct (op seg rd n : Nat) (cs : List Nat) (ia : Nat) (x : Ctx) (s : State) : Act :=
  match (s.bank x.p).wip with
  | .push v reopen => amoPush v reopen x s
  | _ => amoDo op seg rd n cs ia x s

/-- An AMO other than cas. -/
def amo (op : Nat) (f : FmtAmo) (s : State) : Out :=
  let n := 4 * (1 + f.d.toNat)
  let cs := [f.ra.toNat, f.rb.toNat]
  issueWait { srcs := [isrc f.ra, isrc f.rb], dst := some f.rd.toNat, lat := .var, closes := true } f.hold
    (amoWaits f.seg.toNat n 0) (amoChk op f.seg.toNat f.rd.toNat n 0) (amoAct op f.seg.toNat f.rd.toNat n cs 0) s

/-- amoswap (R273). -/
def execAmoswap (f : FmtAmo) (s : State) : Out := amo 0 f s
/-- amoadd (R273). -/
def execAmoadd (f : FmtAmo) (s : State) : Out := amo 1 f s
/-- amoand (R273). -/
def execAmoand (f : FmtAmo) (s : State) : Out := amo 2 f s
/-- amoor (R273). -/
def execAmoor (f : FmtAmo) (s : State) : Out := amo 3 f s
/-- amomax (R273). -/
def execAmomax (f : FmtAmo) (s : State) : Out := amo 4 f s
/-- amomin (R273). -/
def execAmomin (f : FmtAmo) (s : State) : Out := amo 5 f s
/-- amomaxu (R273). -/
def execAmomaxu (f : FmtAmo) (s : State) : Out := amo 6 f s
/-- cas (R273): rd is read as the expected value, then written. -/
def execCas (f : FmtAmo) (s : State) : Out :=
  let n := 4 * (1 + f.d.toNat)
  let cs := [f.rd.toNat, f.ra.toNat, f.rb.toNat]
  issueWait { srcs := [isrc f.rd, isrc f.ra, isrc f.rb], dst := some f.rd.toNat, lat := .var, closes := true } f.hold
    (amoWaits f.seg.toNat n 1) (amoChk 7 f.seg.toNat f.rd.toNat n 1) (amoAct 7 f.seg.toNat f.rd.toNat n cs 1) s

/-! Fences (R267-R270, R276). -/

/-- A fence: buffered in a scene, else it waits and acts. A release also lets the seat's fixed-latency pushes enter their
queue (R267; log 71). -/
def fenceAct (acq rel : Bool) (sc : Nat) (op : BufOp) (x : Ctx) (s : State) : Act :=
  if (s.bank x.p).openScene.isSome then .done (s.modBank x.p fun b => b.buffer 1 op) none none
  else if (rel && s.relPending x.p sc) || (acq && s.loadsDue x.p) then .wait .memory
  else
    let s := if rel then s.landPushes x.p else s
    .done (if acq then s.acquire x.p.core else s) none none

/-- fence.acq (R268). -/
def execFenceAcq (f : FmtFence) (s : State) : Out :=
  issue { srcs := [], entries := 1 } f.hold (fenceAct true false f.scope.toNat (.acquire f.scope.toNat)) s
/-- fence.rel (R267). -/
def execFenceRel (f : FmtFence) (s : State) : Out :=
  issue { srcs := [], entries := 1 } f.hold (fenceAct false true f.scope.toNat (.release f.scope.toNat)) s
/-- fence.full (R269). -/
def execFenceFull (f : FmtFence) (s : State) : Out :=
  issue { srcs := [], entries := 1 } f.hold (fenceAct true true f.scope.toNat (.full f.scope.toNat)) s

/-! Ordered accesses (R278). -/

/-- Scope codes 12 to 15 act as sys (R278). -/
def ordScope (f : FmtOrd) : Nat := min 11 f.scope.toNat

/-- The check of ld.acq, made at issue, before it waits for the seat's earlier loads (R268, R272). -/
def ldAcqChk (f : FmtOrd) (x : Ctx) (s : State) : Option Act :=
  match s.loadChk x.p f.seg.toNat (x.v 0) (4 * (1 + f.d.toNat)) with
  | some a => some a
  | none => if (s.bank x.p).openScene.isNone && s.loadsDue x.p then some (.wait .memory) else none

/-- The work of ld.acq (R270, R278): the load at issue, then the acquire, which is buffered in a scene. -/
def ldAcqAct (f : FmtOrd) (x : Ctx) (s : State) : Act :=
  let open_ := (s.bank x.p).openScene.isSome
  match loadAct f.seg.toNat (x.v 0) (2 + f.d.toNat) false x s with
  | .done s v pc =>
    if open_ then .done (s.modBank x.p fun b => b.buffer 1 (.acquire (ordScope f))) v pc
    else .done (s.acquire x.p.core) v pc
  | a => a

/-- ld.acq (R278). -/
def execLdAcq (f : FmtOrd) (s : State) : Out :=
  issueWait { srcs := [isrc f.ra], dst := some f.rx.toNat, lat := .var, entries := 1 } f.hold
    (loadWaits f.seg.toNat (·.getD 0 0) (2 + f.d.toNat)) (ldAcqChk f) (ldAcqAct f) s

/-- The work of st.rel (R270, R278): the release, then the store; both buffered in a scene. -/
def stRelAct (f : FmtOrd) (x : Ctx) (s : State) : Act :=
  if (s.bank x.p).openScene.isSome then
    storeAct f.seg.toNat (x.v 0) (2 + f.d.toNat) (x.v 1) x
      (s.modBank x.p fun b => b.buffer 1 (.release (ordScope f)))
  else if s.relPending x.p (ordScope f) then .wait .memory
  else storeAct f.seg.toNat (x.v 0) (2 + f.d.toNat) (x.v 1) x s

/-- st.rel (R278): ra is read first, then rs, which lies in imm10 (R17). -/
def execStRel (f : FmtOrd) (s : State) : Out :=
  issueWait { srcs := [isrc f.ra, isrc f.rx], entries := 2 } f.hold
    (storeWaits f.seg.toNat (·.getD 0 0) (2 + f.d.toNat))
    (fun x s => storeChk f.seg.toNat (x.v 0) (2 + f.d.toNat) x s) (stRelAct f) s

/-! Remote stores (R279-R281). -/

/-- The destination needs a stage-door entry (R281). -/
def State.rstHeld (s : State) (c : Nat) (w : Word) : Bool := s.rstDest c w == .held

/-- The checks of a remote store whose offset must be a multiple of `al` (R281). -/
def rstChk (al : Nat) (w : Word) (x : Ctx) (s : State) : Option Act :=
  let off := bits w.toNat 20 0
  if off % al ≠ 0 then some (.trap .misaligned 0 (some (w64 off)))
  else if s.rstHeld x.p.core w && !s.doorRoom (Config.dieOf x.p.core) then some (.trap .stageDoorFull 0 none)
  else none

/-- The destination word names a physical core that is none, or a span that no core has: it bounces at issue (R281). -/
def State.rstOff (s : State) (c : Nat) (w : Word) (n : Nat) : Bool :=
  let off := bits w.toNat 20 0
  match s.rstDest c w with
  | .to_ d => !rstFits d off n
  | _ => decide (0x20_0000 < off + n) || (bit w.toNat 53 && decide (Config.cores ≤ bits w.toNat 30 21))

/-- Outside a scene a remote store of an X-seat needs the mesh at once (R179). -/
def rstMesh (x : Ctx) (s : State) : Option Act := if (s.bank x.p).openScene.isSome then none else meshChk x s

/-- The work of rst (R281). -/
def rstAct (sz : Nat) (adaptive : Bool) (x : Ctx) (s : State) : Act :=
  let bytes := leBytes (2 ^ sz) (x.v 0).toNat
  match (s.bank x.p).wip with
  | .posted no => postedAct no x s
  | _ =>
  if (s.bank x.p).openScene.isSome then
    if s.rstOff x.p.core (x.v 1) bytes.length then .done (s.mailLand x.p.core x.p.num 31 (rstBounce (x.v 1) .msgBounce)) none none else
    let held := s.rstHeld x.p.core (x.v 1)
    let s := if held then s.doorReserve (Config.dieOf x.p.core) else s
    .done (s.modBank x.p fun b => b.buffer 1 (.rst (x.v 1) bytes adaptive held none)) none none
  else if s.rstRoom x.p.core (x.v 1) bytes.length then posted x s.msgNo (s.sendRst x.p (x.v 1) bytes adaptive)
  else .wait .queue

/-- rst (R279). -/
def execRst (f : FmtRst) (s : State) : Out :=
  issueChk { srcs := [isrc f.rs, isrc f.ra], entries := 1 } f.hold
    (fun x s => (rstChk (2 ^ f.sz.toNat) (x.v 1) x s).or (rstMesh x s)) (rstAct f.sz.toNat false) s
/-- rst.a (R279): the adaptive route. -/
def execRstA (f : FmtRst) (s : State) : Out :=
  issueChk { srcs := [isrc f.rs, isrc f.ra], entries := 1 } f.hold
    (fun x s => (rstChk (2 ^ f.sz.toNat) (x.v 1) x s).or (rstMesh x s)) (rstAct f.sz.toNat true) s

/-! lut4ld (R283). -/

/-- A hold of R283 is in force on the tile's engines 0, 1, 2 and 7. -/
def State.lutHeld (s : State) (c : Nat) : Bool :=
  (placesOf c).any fun p =>
    let b := s.bank p
    match b.wip with
    | .lut4 _ => true
    | .commit | .committing => (match b.scene with
      | some sc => sc.entries.any fun e => match e.op with | .lut4 _ => true | _ => false
      | none => false)
    | _ => false

/-- The work of lut4ld (R283). -/
def lut4Act (seg : Nat) (x : Ctx) (s : State) : Act :=
  match (s.bank x.p).wip with
  | .lut4 t =>
    if s.lutBusy x.p.core then .wait .memory
    else .done (s.modCore x.p.core fun k => { k with lutNew := k.lutNew ++ [(s.clk, t)] }) none none
  | _ =>
    match s.seatRead x.p seg (x.v 0) 16 16 with
    | (_, .error a) => a
    | (s, .ok bs) =>
      let t := BitVec.ofNat 128 (leNat bs)
      if (s.bank x.p).openScene.isSome then .done (s.modBank x.p fun b => b.buffer 1 (.lut4 t)) none none
      else .begun (s.modBank x.p fun b => { b with wip := .lut4 t })

/-- lut4ld (R282, R283). DESIGN CHOICE (log 70): inside a scene SCENE_OVERFLOW is tested before the checks of R18. -/
def execLut4ld (f : FmtS) (s : State) : Out :=
  issueWait { srcs := [isrc f.ra], entries := 1 } f.hold
    (knowing fun x s => s.accessWait x.p (f.imm.toNat % 8) (x.v 0) 16 16 true false) (fun _ _ => none)
    (lut4Act (f.imm.toNat % 8)) s

/-! Hints (R285). -/

/-- The DRAM line and the page of a hint's address: none when a check or the translation fails, when G is 0, or when a
page move blocks it. DESIGN CHOICE (log 33): the checks of R18 are those of a read of one byte. -/
def State.hintAt (s : State) (p : Place) (seg : Nat) (off : Word) : Option (State × Nat × (Nat × Nat × Bool)) :=
  match s.locate p seg off.toNat 1 1 true false false with
  | (s, .ok (k :: _) (some pg)) => some (s, k, pg)
  | _ => none

/-- A hint: the seat goes on at once whatever it finds. -/
def hint (f : FmtS) (act : Place → Nat → Nat × Nat × Bool → State → State) (s : State) : Out :=
  issue { srcs := [isrc f.ra] } f.hold (fun x s =>
    match s.hintAt x.p (f.imm.toNat % 8) (x.v 0) with
    | some (s', k, pg) => .done (act x.p k pg s') none none
    | none => .done s none none) s

/-- The lines of a home slice that reside elsewhere, oldest first (R240). -/
def State.migrants (s : State) (home : Nat) : List (Nat × L2Line) :=
  (s.l2.filter fun e => e.2.slice.isSome && homeSlice e.1 == home).insertionSort fun a b => a.2.moved ≤ b.2.moved
/-- Move a line to a slice, or home; the home's oldest migrant returns when its 4096 forwarding entries are in use. -/
def State.moveLine (s : State) (l : Nat) (to_ : Option Nat) : State :=
  let e := mget s.l2 l ⟨none, [], none, 0, 0, none⟩
  let home := homeSlice l
  match to_ with
  | none => { s with l2 := mset s.l2 l { e with slice := none } }
  | some t =>
    if t = home then { s with l2 := mset s.l2 l { e with slice := none } } else
    let s := if e.slice.isSome then s else
      match s.migrants home with
      | (l0, e0) :: r => if r.length + 1 < 4096 then s else { s with l2 := mset s.l2 l0 { e0 with slice := none } }
      | [] => s
    { s with l2 := mset s.l2 l { e with slice := some t, moved := s.clk } }

/-- pref.l1: fill the line into the L1 under a lease. -/
def execPrefL1 (f : FmtS) (s : State) : Out :=
  hint f (fun p k pg s => if f.imm.toNat / 8 % 4 = 0 ∧ isDram k = true ∧ !s.bad [k] then
    let r := s.readLine p.core (lineOf k) 0xf
    if r.2.home then r.1.countOn p.core (some pg) else r.1
  else s) s
/-- pref.l2: fill the line into its home slice; no value and no order changes, and residence in the L2 is not state. -/
def execPrefL2 (f : FmtS) (s : State) : Out :=
  hint f (fun _ _ _ s => s) s
/-- mhint.near: the line moves to the issuing cluster's nearest slice. -/
def execMhintNear (f : FmtS) (s : State) : Out :=
  hint f (fun p k _ s =>
    let d := bits k 12 12
    if f.imm.toNat / 8 % 4 = 0 ∧ isDram k = true ∧ (s.crGlob d 0x194).getLsbD 0 = true ∧
        Config.clusterOf p.core / 24 = d then s.moveLine (lineOf k) (some (Config.clusterOf p.core)) else s) s
/-- mhint.home: the line returns to its home slice. -/
def execMhintHome (f : FmtS) (s : State) : Out :=
  hint f (fun _ k _ s => if isDram k then s.moveLine (lineOf k) none else s) s
/-- mhint.page: the page's counter in the issuing cluster rises to CNTTH. -/
def execMhintPage (f : FmtS) (s : State) : Out :=
  hint f (fun p _ pg s =>
    s.countPage (Config.clusterOf p.core) pg.1 pg.2.1 pg.2.2
      (some ((s.crGlob (Config.dieOf p.core) 0x18e).toNat % 2 ^ 16))) s

end Sys2Proof.Machine
end

