-- ==== Sys2Proof/Machine/Slots.lean ====
section
/-! DEFINITION. What a slot gives its launch: virtual addresses (R439), segment images (R144, R159), core sets (R158), and
the queues of a core's work with the spill rings in memory (R146, R164). -/
namespace Sys2Proof.Machine

/-! Virtual addresses of a slot (R439). -/

/-- The pieces of n bytes from `a` on, cut at multiples of 1 KiB. -/
def kPieces (a n : Nat) : List (Nat × Nat) :=
  (List.range (n / 1024 + 2)).filterMap fun i =>
    let lo := max a ((a / 1024 + i) * 1024)
    let hi := min (a + n) ((a / 1024 + i + 1) * 1024)
    if lo < hi then some (lo, hi - lo) else none

/-- What a slot finds at a virtual address. -/
inductive Found where
  | ok (ks : List Nat)
  | prot (va : Nat)
  | park (va : Nat) (sub : Bool)
  | wait

/-- Translate pieces by the root table of slot `q`; `tag` says which addresses lie in a REGION window. -/
def State.vaMap (s : State) (q : Nat) (tag : Nat → Bool) (w : Bool) : List (Nat × Nat) → Found
  | [] => .ok []
  | (va, n) :: t =>
    match s.walkLeaf none (s.slot q).root (va % 2 ^ 64) (tag (va % 2 ^ 64)) with
    | .error (.absent sub) => .park va sub
    | .error (.wait _) => .wait
    | .error _ => .prot va
    | .ok (e, sub) =>
      match leafPa e sub (va % 2 ^ 64) w false with
      | .pa pa _ =>
        if s.blocked pa then .wait else
        match s.vaMap q tag w t with
        | .ok ks => .ok (keysFrom (s.redirect pa) n ++ ks)
        | r => r
      | .absent sub => .park va sub
      | _ => .prot va

/-- The bytes of n bytes at a virtual address of a slot, which has no REGION window. Uncorrectable data is never
delivered. -/
def State.slotFind (s : State) (q va n : Nat) (w : Bool) : Found :=
  match s.vaMap q (fun _ => false) w (kPieces va n) with
  | .ok ks => if !w && s.bad ks then .prot va else .ok ks
  | r => r

/-! Headers and images. -/

/-- Dword i of some bytes. -/
def dword (bs : List Byte) (i : Nat) : Nat := leNat ((bs.drop (8 * i)).take 8)

/-- The bits of TMASK: 0 acts as all (R157). -/
def Header.tiles (h : Header) : Nat := if h.tmask = 0 then 0xffff else h.tmask.toNat
/-- The core set in the order of R158. -/
def Header.coreSet (h : Header) : List Nat :=
  (List.range h.clcount).flatMap fun i =>
    ((List.range 16).filter (bit h.tiles ·)).map fun b => Config.tileOf (h.clfirst + i) b
/-- The first identifier of core j of n (R160). -/
def Header.first (h : Header) (n j : Nat) : Nat := h.wbase + j * h.wcount / n

/-- A core's index in the core set of a slot's launch. -/
def State.indexOf (s : State) (q c : Nat) : Option Nat :=
  match (s.slot q).hdr with | some h => h.coreSet.findIdx? (· == c) | none => none

/-- The segments of 192 bytes: base, limit and rights of SEG0 to SEG7 (R157). -/
def segsOf (bs : List Byte) : List Seg :=
  (List.range 8).map fun i =>
    let g := fun k => leWord ((bs.drop (24 * i + 8 * k)).take 8)
    ⟨g 0 &&& ~~~(0x3f : Word), g 1, (g 2).setWidth 4⟩
/-- The bytes of memory that the segments of a slot still come from: none once it has dispatched a launch. -/
def State.imageKeys (s : State) (q : Nat) : List Nat :=
  if (s.slot q).image.isEmpty then keysFrom (s.slot q).segimg 192 else []
/-- The current segment image of a slot: that of its last dispatch, or the one at SEGIMG (R159). DESIGN CHOICE (log 73):
before the slot's first dispatch an X-tile's copy (R2, R144) is taken from memory at each take-up. Uncorrectable data
gives no segments. -/
def State.slotImage (s : State) (q : Nat) : List Seg :=
  let ks := s.imageKeys q
  if ks.isEmpty then (s.slot q).image else if s.bad ks then [] else segsOf (memReads s.mem ks)
/-- A segment as a core holds it: G reads 0 on an X-tile (R38). -/
def Seg.onCore (g : Seg) (c : Nat) : Seg := if Config.isX c then { g with acc := g.acc &&& 7 } else g
/-- Segments as a bank's registers. -/
def segMap (l : List Seg) : SMap Seg := (List.range l.length).zip l
/-- JOINC from the joinc field of a header (R153, R157). -/
def joincOf (h : BitVec 16) : BitVec 19 := BitVec.ofNat 19 (h.toNat % 8 * 2 ^ 16 + h.toNat / 64 * 64)

/-! Spill rings (R164). Log 23: the ring of a launch lies in its segment JOINC.SEG, and each record goes to the ring of its
own launch. -/

/-- The 64 bytes of record i of core c's spill ring for the launch of slot q, if they can be reached. -/
def State.spillKeys (s : State) (c q i : Nat) : Option (List Nat) :=
  match (s.slot q).hdr, s.indexOf q c with
  | some h, some j =>
    let g := (s.slotImage q).getD (h.joinc.toNat % 8) ⟨0, 0, 0⟩
    let off := (h.spill + w64 ((j * h.spilln + i) * 64)).toNat
    if (segCheck g off 64 1 true true false).isSome then none else
    let a := (g.base.toNat + off) % 2 ^ 64
    if g.g then (match s.vaMap q (s.tagged c) true (kPieces a 64) with | .ok ks => some ks | _ => none)
    else (List.range 64).mapM fun k => onchipByte c (a + k)
  | _, _ => none

/-- Records per spill ring of the launch of a slot (R157). -/
def State.spilln (s : State) (q : Nat) : Nat := match (s.slot q).hdr with | some h => h.spilln | none => 0
/-- Place of the oldest record of a spill ring, and number of records. -/
def State.spillAt (s : State) (c q : Nat) : Nat × Nat := mget (s.core c).spill q (0, 0)
/-- The state with the place and number of a ring changed. -/
def State.setSpill (s : State) (c q : Nat) (a : Nat × Nat) : State :=
  s.modCore c fun k => { k with spill := if a.2 = 0 then mdel k.spill q else mset k.spill q a }
/-- Records in the spill rings of a core. -/
def State.spillCount (s : State) (c : Nat) : Nat := ((s.core c).spill.map fun x => x.2.2).sum

/-- The records of a spill ring, oldest first; none when the ring cannot be read. -/
def State.spillRead (s : State) (c q : Nat) : Option (List Rec) :=
  let (a, n) := s.spillAt c q
  (List.range n).mapM fun i => match s.spillKeys c q ((a + i) % s.spilln q) with
    | some ks => if s.bad ks then none else some (Rec.ofBytes (memReads s.mem ks))
    | none => none
/-- Write records into a spill ring from the place `i` on. -/
def State.spillWrite (s : State) (c q : Nat) : Nat → List Rec → Option State
  | _, [] => some s
  | i, r :: t =>
    match s.spillKeys c q (i % s.spilln q) with
    | some ks => State.spillWrite (s.unitWrite c 0 (ks.zip r.bytes)).1 c q (i + 1) t
    | none => none

/-- What is left of a spill ring when some records have gone, oldest first: it keeps its newest place. -/
def State.spillKeep (s : State) (c q : Nat) (l : List Rec) : Option State :=
  let (a, n) := s.spillAt c q
  let a := (a + (n - l.length)) % max 1 (s.spilln q)
  (s.spillWrite c q a l).map fun s => s.setSpill c q (a, l.length)

/-- Records, oldest first, move to the newest ends of the spill rings of their launches; none when a ring has fewer than 16
free places. -/
def State.spillOut (s : State) (c : Nat) (rs : List Rec) : Option State :=
  if rs.any fun r => s.spilln r.slot < (s.spillAt c r.slot).2 + 16 then none else
  rs.foldl (fun (s : Option State) r => s.bind fun s =>
    let (a, n) := s.spillAt c r.slot
    (s.spillWrite c r.slot (a + n) [r]).map fun s => s.setSpill c r.slot (a, n + 1)) (some s)
/-- The newest 16 records of a spill ring, or all of them if fewer, return: the ring of the lowest slot that has some. -/
def State.spillIn (s : State) (c : Nat) : Option State :=
  match (s.core c).spill with
  | [] => none
  | (q, a, n) :: _ =>
    (s.spillRead c q).map fun l =>
      (s.setSpill c q (a, n - 16)).modCore c fun k => { k with deque := k.deque ++ (l.drop (n - 16)).reverse }

/-! The deque and the ready queue (R146, R164). -/

/-- A push onto the newest end of a core's deque (R164): a full deque first moves its 16 oldest records to the spill
ring; none when the ring has fewer than 16 free places. -/
def State.pushDeque (s : State) (c : Nat) (r : Rec) : Option State :=
  let k := s.core c
  let put := fun (s : State) => s.modCore c fun k => { k with deque := r :: k.deque }
  if k.deque.length < 32 then some (put s)
  else (s.spillOut c (k.deque.drop (k.deque.length - 16)).reverse).map fun s =>
    put (s.modCore c fun k => { k with deque := k.deque.take (k.deque.length - 16) })

/-- A record enters the ready queue of a core, or its deque when the queue is full; none when neither has room (R146). -/
def State.enterReady (s : State) (c : Nat) (r : Rec) : Option State :=
  if ((s.core c).ready.filter fun x => !x.held7).length < 32 then
    some (s.modCore c fun k => { k with ready := k.ready ++ [⟨r, s.dtime, false⟩] })
  else s.pushDeque c r
/-- A record bound for the ready queue of a core: a green-room host holds it back (R244). -/
def State.pushReady (s : State) (c : Nat) (r : Rec) : Option State :=
  if s.holding c then some (s.holdEvent c (.wakeRec r)) else s.enterReady c r

end Sys2Proof.Machine
end

