-- ==== Sys2Proof/Machine/Work.lean ====
section
/-! DEFINITION. Continuations on seats: leaving a seat, exit and kill (R145, R173, R187, R402), take-up (R144, R146,
R161), the bank switch of an X-seat and reflex starts (R177, R178). -/
namespace Sys2Proof.Machine

/-! Leaving a seat. -/

/-- The bank holds a continuation. -/
def Bank.held (b : Bank) : Bool := b.run != .idle && b.run != .stopped

/-- The seat has no continuation any more. Earlier writes retire and results that exist land; a result still to come
lands only in the mail window and in qout, which belong to the seat (R145, R150, R191). -/
def State.vacate (s : State) (p : Place) : State :=
  let s := (s.retireAll p).landAll p
  s.modBank p fun b => { b with
    run := .idle, scene := none, owed := 0, wip := .none, pending := b.pending.filter fun r => 28 ≤ r.code ∧ r.code < 62 }

/-- A continuation of a slot ends on a core: exited rises, except for a reflex continuation (R168, R187, R202); its ensemble
member has one continuation less (R170), and one that ran on its seat 0 has left it (R443). -/
def State.countExit (s : State) (p : Place) : State :=
  let b := s.bank p
  let q := b.cslot.toNat
  if b.ctl.getLsbD 62 || p.reflex then s else
  let s := s.modCore p.core fun k => { k with exited := mset k.exited q (mget k.exited q 0 + 1) }
  if b.ens = 0 then s else
  match (s.slot q).hdr with
  | some h =>
    let i := b.vcore.toNat - h.vbase
    s.modSlot q fun t => { t with
      mlive := mmod t.mlive i 0 (· - 1)
      mleft := if p.seat = 0 ∧ t.members[i]? = some p.core then i :: t.mleft.filter (· != i) else t.mleft }
  | none => s

/-- A continuation of a slot begins on a core (R168). -/
def State.countBegin (s : State) (c q : Nat) : State :=
  s.modCore c fun k => { k with created := mset k.created q (mget k.created q 0 + 1) }
/-- A child of the running continuation begins (R168, R183). -/
def State.countSpawn (s : State) (p : Place) : State :=
  let b := s.bank p
  let s := s.countBegin p.core b.cslot.toNat
  if b.ens = 0 then s else
  match (s.slot b.cslot.toNat).hdr with
  | some h => s.modSlot b.cslot.toNat fun t => { t with mlive := mmod t.mlive (b.vcore.toNat - h.vbase) 0 (· + 1) }
  | none => s

/-- Release every seizure group that a seat and bank hold (R402, R422). -/
def State.releaseHeld (s : State) (p : Place) : State :=
  ((s.holds.filter fun h => h.2 == p).map (·.1)).foldl (fun s g => s.releaseGroup p g) s

/-! Take-up (R144). -/

/-- The bank takes up a record with given segments. Registers R144 does not name are kept; bits 1:0 of PC are 0 (R14). -/
def State.takeUp (s : State) (p : Place) (r : Rec) (segs : List Seg) : State :=
  let h := (s.slot r.slot).hdr
  let s := s.modBank p fun b => { b with
    regs := [(3, r.cp), (4, r.s4), (5, r.s5), (6, r.s6), (7, r.s7)]
    pc := r.pc &&& ~~~3
    run := .running
    schk := false
    prio := r.prio
    frm := 0
    amax := 0
    reprise := 0
    scene := none
    segs := segMap (segs.map (·.onCore p.core))
    wid := r.wid
    widw := match h with | some h => h.widw | none => 0
    joinc := match h with | some h => joincOf h.joinc | none => 0
    vcore := BitVec.ofNat 32 r.vcore
    cslot := BitVec.ofNat 6 r.slot
    ctl := r.ctl
    tstat := b.tstat &&& 0x7e
    kept := none
    inflight := []
    owed := 0
    wip := .none }
  s.modCore p.core fun k => { k with lastSlot := some r.slot }

/-- Registers hold no zero entries after a take-up as after reset: a zero value and no entry read alike. -/
def State.takeUpSlot (s : State) (p : Place) (r : Rec) : State := s.takeUp p r (s.slotImage r.slot)

/-! The X-seat (R177, R178). -/

/-- The 64-byte record at an offset of a tile's locked SRAM. -/
def State.lockedRec (s : State) (c off : Nat) : Rec := Rec.ofBytes (memReads s.mem (keysFrom (Config.tileKey c off) 64))
/-- Uncorrectable data in the record at `off`, or in the image that its start would take. -/
def State.startBad (s : State) (c off : Nat) : Option Nat :=
  ((keysFrom (Config.tileKey c off) 64 ++ s.imageKeys (s.lockedRec c off).slot).find? fun k => s.ue.contains (k / 32))
/-- Pending starts whose data has become uncorrectable are reported and dropped (R249, DESIGN CHOICE, log 22). -/
def State.dropStarts (s : State) (c : Nat) : State :=
  (s.core c).starts.foldl (fun s e => match s.startBad c e.2.1 with
    | some k => (s.reportUE c k).modCore c fun t => { t with starts := t.starts.filter (· != e) }
    | none => s) s
/-- Start the record at `off` in a bank. -/
def State.startIn (s : State) (p : Place) (off : Nat) : State := s.takeUpSlot p (s.lockedRec p.core off)
/-- The banks of an X-seat that hold a continuation. -/
def State.xHeld (s : State) (c i : Nat) : List Place :=
  ((List.range 4).map fun b => (⟨c, i, b⟩ : Place)).filter fun p => (s.bank p).run ≠ .idle
/-- The lowest free bank of an X-seat. -/
def State.xFree (s : State) (c i : Nat) : Option Place :=
  ((List.range 4).map fun b => (⟨c, i, b⟩ : Place)).find? fun p => (s.bank p).run == .idle

/-- Insert a start by priority, then arrival (R177). -/
def insertStart : List (Nat × Nat × Nat) → Nat × Nat × Nat → List (Nat × Nat × Nat)
  | [], e => [e]
  | x :: t, e => if e.1 ≤ x.1 then x :: insertStart t e else e :: x :: t

/-- The bank an X-seat runs once a bank is free: the highest priority, then the one pre-empted earliest; a pending start
of higher priority takes the freed bank (R178). -/
def State.xNext (s : State) (p : Place) : State :=
  let s := s.dropStarts p.core
  let best := (s.xHeld p.core p.seat).foldl (fun (a : Option Place) q => match a with
    | none => some q
    | some o =>
      let bo := s.bank o
      let bq := s.bank q
      if bo.prio < bq.prio || (bo.prio == bq.prio && bq.since < bo.since) then some q else a) none
  let cur := s.placeOf p.core p.seat
  let run := fun (s : State) => if cur ≠ p then s else match best with
    | some q => s.modSeat p.core p.seat fun t => { t with cur := q.bank }
    | none => s
  match (s.core p.core).starts with
  | (pr, off, _) :: rest =>
    if (match best with | some q => decide ((s.bank q).prio < pr) | none => true) = true then
      let s := if cur = p then s else (s.retireAll cur).modBank cur fun b => { b with since := s.clk }
      let s := s.modCore p.core fun k => { k with starts := rest }
      let s := s.modSeat p.core p.seat fun t => { t with cur := p.bank }
      s.startIn p off
    else run s
  | [] => run s

/-- A start event on an X-tile for the record at `off` (R177). -/
def State.reflexStart (s : State) (c off : Nat) : State :=
  match s.startBad c off with
  | some k => s.reportUE c k
  | none =>
  let pr := (s.lockedRec c off).prio
  match (List.range 2).find? fun i => (s.xHeld c i).isEmpty with
  | some i =>
    (s.modSeat c i fun t => { t with cur := 0 }).startIn ⟨c, i, 0⟩ off
  | none =>
    let cand := (List.range 2).filter fun i => (s.bank (s.placeOf c i)).prio < pr && (s.xFree c i).isSome
    let pick := cand.foldl (fun (a : Option Nat) i => match a with
      | none => some i
      | some j => if (s.bank (s.placeOf c i)).prio < (s.bank (s.placeOf c j)).prio then some i else a) none
    match pick with
    | some i =>
      match s.xFree c i with
      | some q =>
        let old := s.placeOf c i
        let s := (s.retireAll old).modBank old fun b => { b with since := s.clk }
        (s.modSeat c i fun t => { t with cur := q.bank }).startIn q off
      | none => s
    | none =>
      if (s.core c).starts.length < 16 then
        s.modCore c fun k => { k with starts := insertStart k.starts (pr, off, s.clk) }
      else s.modCore c fun k => { k with overrun := min 0xffff (k.overrun + 1) }

/-! Exit and kill. -/

/-- The continuation leaves its bank: on an X-seat the bank is free and the seat runs another (R178). -/
def State.leave (s : State) (p : Place) : State :=
  let s := s.vacate p
  if Config.isX p.core then s.xNext p else s

/-- exit (R187): counts, hang-up, the seizure groups held, and the seat is free. -/
def State.exitSeat (s : State) (p : Place) : State :=
  (((s.countExit p).hangup p).releaseHeld p).leave p

/-- Kill a continuation (R402). -/
def State.killSeat (s : State) (p : Place) : State :=
  let s := (s.dropScene p).modBank p fun b => { (b.leaveHandler) with scene := none, reprise := 0, wip := .none }
  s.exitSeat p

/-! Work for a D-seat (R146). -/

/-- Effective priority of a record in a ready queue (R442). -/
def State.effPrio (s : State) (x : Ready) : Nat :=
  let v := (s.crGlob 0 0x304).toNat
  let per := bits v 31 16
  if per = 0 then x.r.prio else min 23 (x.r.prio + min (v % 32) ((s.dtime - x.at_) / 1000 / per))

/-- The record in the ready queue that a seat takes up: the highest effective priority, first in first out (R146, R442);
not a HELD7 record, and not a reflex record (R143). -/
def State.pickReady (s : State) (l : List Ready) : Option Nat :=
  ((l.zipIdx.filter fun x => !x.1.held7 && !x.1.r.isReflex).foldl (fun (a : Option (Nat × Nat)) x =>
    let e := s.effPrio x.1
    match a with
    | none => some (x.2, e)
    | some y => if y.2 < e then some (x.2, e) else a) none).map (·.1)

/-- The next flood record of a generator (R161). -/
def Gen.record (g : Gen) : Rec :=
  ⟨g.pc, w64 g.next, g.frame + w64 (g.next - g.wbase) * g.framesz, g.s4, g.s5, g.s6, g.s7,
    w64 (g.slot * 2 ^ 42 + g.prio * 2 ^ 37 + g.vcore)⟩

/-- The newest record of a core's deque that a D-seat may take up: a reflex record stays (R143, R164). -/
def State.takeDeque (s : State) (c : Nat) : Option (State × Rec) :=
  match (s.core c).deque.findIdx? fun r => !r.isReflex with
  | some i =>
    match (s.core c).deque[i]? with
    | some r => some (s.modCore c fun k => { k with deque := dropAt k.deque i }, r)
    | none => none
  | none => none
/-- The deque, to which spilled records return first when it has none (R164). -/
def State.nextDeque (s : State) (c : Nat) : Option (State × Rec) :=
  match s.takeDeque c with
  | some r => some r
  | none => if 16 < (s.core c).deque.length then none else (s.spillIn c).bind fun s => s.takeDeque c

/-- Take the next work of a D-tile: ready queue, deque, generator (R146, R164). -/
def State.nextWork (s : State) (c : Nat) : Option (State × Rec) :=
  let k := s.core c
  match s.pickReady k.ready with
  | some i =>
    match k.ready[i]? with
    | some x => some (s.modCore c fun k => { k with ready := dropAt k.ready i }, x.r)
    | none => none
  | none =>
    match s.nextDeque c with
    | some r => some r
    | none =>
      if s.host c then none else
      match k.gens with
      | g :: t =>
        let k' := { k with gens := if g.next + 1 < g.last then { g with next := g.next + 1 } :: t else t }
        some ((s.modCore c fun _ => k').countBegin c g.slot, g.record)
      | [] => none

/-- Thermal control has disabled the seat (R449). -/
def State.hotSeat (s : State) (c i : Nat) : Bool := (s.crCore c 0x30e).getLsbD i && !Config.isX c

/-- A D-seat may take up work now. -/
def State.canTake (s : State) (c i : Nat) : Bool :=
  let k := s.core c
  !Config.isX c && decide (i < 8) && (s.bank ⟨c, i, 0⟩).run == .idle && !(i == 7 && k.seized.isSome) &&
    !s.hotSeat c i && !k.frozen && !k.curtain && !k.fenced && k.preState == 0

/-- TAKE_UP of a D-seat (R144, R146). -/
def State.takeWork (s : State) (c i : Nat) : State :=
  if s.canTake c i then
    match s.nextWork c with
    | some (s, r) => s.takeUpSlot ⟨c, i, 0⟩ r
    | none => s
  else s

end Sys2Proof.Machine
end

