-- ==== Sys2Proof/Machine/Parallel.lean ====
section
/-! DEFINITION. Instructions for parallel work (spec/08 R181-R202): PAR, MSG and GANG. -/
namespace Sys2Proof.Machine

/-! Checks (R181, R200-R202, R395). -/

/-- The seat is ganged. -/
def State.ganged (s : State) (p : Place) : Bool := p.seat == 0 && (s.core p.core).gangSize != 1

/-- What stops a suspension point: handler mode, an X-seat, a gang (R201, R202, R395). -/
def suspChk (x : Ctx) (s : State) : Option Act :=
  if (s.bank x.p).handler then some (.trap .privInsn 0 none)
  else if x.p.reflex then some (.trap .reflexBlock 0 none)
  else if s.ganged x.p then some (.trap .gangBroken 0 none)
  else none

/-- What stops bar, gang and ungang: handler mode, an open scene (R181, R395). -/
def syncChk (x : Ctx) (s : State) : Option Act :=
  if (s.bank x.p).handler then some (.trap .privInsn 0 none)
  else if (s.bank x.p).openScene.isSome then some (.trap .syncInScene 0 none)
  else none

/-! Join and wait blocks (R167, R183, R185). -/

/-- JOINC.SEG. -/
def Bank.joinSeg (b : Bank) : Nat := b.joinc.toNat / 2 ^ 16
/-- The join block of the running continuation: cp + JOINC.OFF with bits 5:0 cleared (R183). -/
def State.joinOff (s : State) (p : Place) : Word :=
  (s.reg p 3 + w64 ((s.bank p).joinc.toNat % 2 ^ 16)) &&& ~~~(0x3f : Word)
/-- A block offset: bits 5:0 are ignored. -/
def blockOff (v : Word) : Word := v &&& ~~~(0x3f : Word)

/-- The bytes of some dwords of a block, each located by itself: how it ends if one cannot be. -/
def State.blockPlace (s : State) (p : Place) (g : Seg) (off : Word) : List Nat → State × Except Act (List Nat)
  | [] => (s, .ok [])
  | i :: t =>
    match s.place p g (off.toNat + 8 * i) 8 true false with
    | (s, .ok ks _) =>
      match s.blockPlace p g off t with
      | (s, .ok r) => (s, .ok (ks ++ r))
      | (s, .error a) => (s, .error a)
    | (s, a) => (s, .error (a.act off))

/-- Check a block as a read and write of `n` bytes in JOINC.SEG (R18), and find its first `m` bytes, of which the counter,
the state and the record are used. -/
def State.blockAt (s : State) (p : Place) (off : Word) (n m : Nat) : State × Except Act (List Nat) :=
  let g := (s.bank p).seg (s.bank p).joinSeg
  match segCheck g off.toNat n 8 true true false with
  | some c => (s, .error (.trap c 0 (some off)))
  | none =>
    match s.blockPlace p g off (List.range (m / 8)) with
    | (s, .error a) => (s, .error a)
    | (s, .ok ks) =>
      let used := ks.take 16 ++ ks.drop 64
      if s.heldBack p used then (s, .error (.wait .memory))
      else if s.bad used then (s, .error (.bad off ((used.find? fun k => s.ue.contains (k / 32)).getD 0 / 32 * 32)))
      else (s, .ok ks)

/-- Do the work on the first `m` bytes of a block. -/
def withBlock (off : Word) (n m : Nat) (x : Ctx) (s : State) (f : State → List Nat → Act) : Act :=
  match s.blockAt x.p off n m with | (_, .error a) => a | (s, .ok ks) => f s ks
/-- Check a block whose first `m` bytes are used, and then as many as each of `more` in turn says they lead to. -/
def blockChk (off : Word) (n : Nat) (more : List (State → List Nat → Option Nat)) (m : Nat) (x : Ctx) (s : State) : Option Act :=
  match s.blockAt x.p off n m, more with
  | (_, .error a), _ => some a
  | (s, .ok ks), f :: t =>
    match f s ks with
    | some k => blockChk off n t k x s
    | none => none
  | (_, .ok _), [] => none
/-- The whole block of a waiting record is used when its counter is not 0 (R184). -/
def joinMore (s : State) (ks : List Nat) : Option Nat := if s.blockRead ks 0 = 0 then none else some 128

/-- A record made of current values needs them to be there: cp and s4 to s7 are not pending (R145). -/
def recWaits : Waits := fun x s =>
  if (s.bank x.p).pending.any fun r => 3 ≤ r.code && r.code ≤ 7 then some .memory else none
/-- A hang-up of qout waits for the pushes whose entries are reserved (R191). -/
def pushWaits : Waits := fun x s => if s.pushDue x.p then some .memory else none

/-- First of some checks. -/
def chks (l : List (Ctx → State → Option Act)) (x : Ctx) (s : State) : Option Act := l.findSome? fun c => c x s

/-- Cells of a waiting record, and the state 1 (R167, R185). -/
def waitCells (r : Rec) : List (Nat × List Byte) := [(64, r.bytes), (8, leBytes 8 1)]

/-! PAR (R182-R190). -/

/-- The checks of spawn (R183). -/
def spawnChk (x : Ctx) (s : State) : Option Act :=
  chks [suspChk,
    fun x _ => if (x.v 0).toNat % 4 ≠ 0 then some (.trap .misaligned 0 (some (x.v 0))) else none,
    fun x s => blockChk (s.joinOff x.p) 8 [] 8 x s,
    fun x s => if (s.pushDeque x.p.core (s.recOf x.p x.next)).isNone then some (.trap .dequeOverflow 0 none) else none] x s

/-- The work of spawn (R183). -/
def spawnAct (x : Ctx) (s : State) : Act :=
  withBlock (s.joinOff x.p) 8 8 x s fun s ks =>
    match s.pushDeque x.p.core (s.recOf x.p x.next) with
    | none => .wait .memory
    | some s =>
      let s := (s.blockWrite x.p.core ks [(0, leBytes 8 (s.blockRead ks 0 + 1).toNat)]).countSpawn x.p
      .done (s.setReg x.p 3 (x.v 1)) none (some (x.v 0))

/-- spawn (R183). -/
def execSpawn (f : FmtR) (s : State) : Out :=
  issueWait { srcs := [isrc f.ra, isrc f.rb], imp := [3], closes := true } f.hold recWaits spawnChk spawnAct s

/-- The work of join (R184). -/
def joinAct (x : Ctx) (s : State) : Act :=
  withBlock (s.joinOff x.p) 8 8 x s fun s ks =>
    if s.blockRead ks 0 = 0 then .done (s.see x.p.core ks) none none
    else withBlock (s.joinOff x.p) 8 128 x s fun s ks =>
      .left ((s.blockWrite x.p.core ks (waitCells (s.recOf x.p x.next))).leave x.p)

/-- join (R184). -/
def execJoin (f : FmtR) (s : State) : Out :=
  issueWait { srcs := [], imp := [3], closes := true } f.hold recWaits
    (chks [suspChk, fun x s => blockChk (s.joinOff x.p) 8 [joinMore] 8 x s]) joinAct s

/-- The work of suspend (R185). -/
def suspendAct (x : Ctx) (s : State) : Act :=
  withBlock (blockOff (x.v 0)) 128 128 x s fun s ks =>
    let cr := s.blockRead ks 0
    if cr ≠ 0 then .done (s.blockWrite x.p.core ks [(0, leBytes 8 (cr - 1).toNat)]) none none
    else .left ((s.blockWrite x.p.core ks (waitCells (s.recOf x.p x.next))).leave x.p)

/-- suspend (R185). -/
def execSuspend (f : FmtR) (s : State) : Out :=
  issueWait { srcs := [isrc f.ra], closes := true } f.hold recWaits
    (chks [suspChk, fun x s => blockChk (blockOff (x.v 0)) 128 [] 128 x s]) suspendAct s

/-- The yield finds no room: it does not take place, and the seat goes on (R146). DEDUCED (log 8): it commits no open scene. -/
def yieldRoom (x : Ctx) (s : State) : Option Act :=
  if (s.pushReady x.p.core (s.recOf x.p x.next)).isNone then some (.done s none none) else none

/-- The work of yield (R186). -/
def yieldAct (x : Ctx) (s : State) : Act :=
  match s.pushReady x.p.core (s.recOf x.p x.next) with
  | some s => .left (s.leave x.p)
  | none => .wait .memory

/-- yield (R186). -/
def execYield (f : FmtR) (s : State) : Out :=
  issueWait { srcs := [], closes := true } f.hold recWaits (chks [suspChk, yieldRoom]) yieldAct s

/-- What stops exit: handler mode, a gang (R201, R395). -/
def exitChk (x : Ctx) (s : State) : Option Act :=
  if (s.bank x.p).handler then some (.trap .privInsn 0 none)
  else if s.ganged x.p then some (.trap .gangBroken 0 none)
  else none

/-- exit (R187, R202). -/
def execExit (f : FmtR) (s : State) : Out :=
  issueWait { srcs := [], closes := true } f.hold pushWaits exitChk (fun x s => .left (s.exitSeat x.p)) s

/-- What exit.j uses of its block beyond the counter (R167): the state when the counter goes to 0, and the record when one
waits. -/
def exitMore : List (State → List Nat → Option Nat) :=
  [fun s ks => if s.blockRead ks 0 = 1 then some 16 else none, fun s ks => if s.blockRead ks 8 = 1 then some 128 else none]
/-- The work of exit.j (R167, R187): a waiting record goes to the core's own ready queue, through its network interface
when that has no room (R146). -/
def exitJAct (x : Ctx) (s : State) : Act :=
  withBlock (blockOff (x.v 0)) 8 8 x s fun s ks =>
    let n := s.blockRead ks 0
    if n = 0 then .left ((s.see x.p.core ks).exitSeat x.p)
    else if n = 1 then
      withBlock (blockOff (x.v 0)) 8 16 x s fun s ks =>
      if s.blockRead ks 8 = 1 then
        withBlock (blockOff (x.v 0)) 8 128 x s fun s ks =>
        let r := s.blockRec ks
        let s := (s.see x.p.core ((ks.drop 64).take 64)).blockWrite x.p.core ks [(0, leBytes 8 0), (8, leBytes 8 0)]
        match s.pushReady x.p.core r with
        | some s => .left (s.exitSeat x.p)
        | none => .left ((s.post x.p.core x.p.core none 2 false x.p.num (.wakeRec r)).exitSeat x.p)
      else .left (((s.see x.p.core ((ks.drop 8).take 8)).blockWrite x.p.core ks [(0, leBytes 8 0)]).exitSeat x.p)
    else .left ((s.blockWrite x.p.core ks [(0, leBytes 8 (n - 1).toNat)]).exitSeat x.p)

/-- exit.j (R187). -/
def execExitJ (f : FmtR) (s : State) : Out :=
  issueWait { srcs := [isrc f.ra], closes := true } f.hold pushWaits
    (chks [suspChk, fun x s => blockChk (blockOff (x.v 0)) 8 exitMore 8 x s]) exitJAct s

/-- The work of wake (R185): buffered in a scene. -/
def wakeAct (x : Ctx) (s : State) : Act :=
  withBlock (blockOff (x.v 0)) 128 128 x s fun s ks =>
    if (s.bank x.p).openScene.isSome then .done (s.modBank x.p fun b => b.buffer 1 (.wake ks)) none none
    else
      match (s.wakeCells ks).2 with
      | some r => if s.wakeFull x.p r then .wait .queue else .done (s.wakeBlock x.p ks) none none
      | none => .done (s.wakeBlock x.p ks) none none

/-- wake (R185, R202). -/
def execWake (f : FmtR) (s : State) : Out :=
  issueChk { srcs := [isrc f.ra], entries := 1 } f.hold
    (chks [fun x _ => if x.p.reflex then some (.trap .reflexBlock 0 none) else none,
      fun x s => blockChk (blockOff (x.v 0)) 128 [] 128 x s]) wakeAct s

/-- Every member of the ensemble of slot `q` has issued its n-th bar or has exited (R189). -/
def State.barDone (s : State) (q n : Nat) : Bool :=
  let t := s.slot q
  (List.range t.members.length).all fun i => n ≤ mget t.bars i 0 || mget t.mlive i 0 == 0

/-- The work of bar (R189, R201). -/
def barAct (x : Ctx) (s : State) : Act :=
  let b := s.bank x.p
  let q := b.cslot.toNat
  match b.wip with
  | .bar n => if s.barDone q n then .done s none none else .wait .presence
  | _ =>
    if b.ens = 0 ∨ s.ganged x.p = true then .done s none none else
    match (s.slot q).hdr with
    | none => .done s none none
    | some h =>
      let i := b.vcore.toNat - h.vbase
      let n := mget (s.slot q).bars i 0 + 1
      let s := s.modSlot q fun t => { t with bars := mset t.bars i n }
      if s.barDone q n then .done s none none
      else .begun (s.modBank x.p fun b => { b with wip := .bar n })

/-- bar (R189). -/
def execBar (f : FmtR) (s : State) : Out :=
  issueChk { srcs := [] } f.hold syncChk barAct s

/-- The work of chain (R190). -/
def chainAct (x : Ctx) (s : State) : Act :=
  if (s.bank x.p).openScene.isSome then .done (s.modBank x.p fun b => b.buffer 1 (.chain (x.v 0))) none none
  else .done (s.chainOp x.p (x.v 0)) none none

/-- chain (R190). -/
def execChain (f : FmtR) (s : State) : Out :=
  issueWait { srcs := [isrc f.ra], entries := 1 } f.hold
    (fun x s => if (s.bank x.p).openScene.isSome then none else pushWaits x s) (fun _ _ => none) chainAct s

/-- Width of field k of a work identifier (R152). -/
def widWidth (w : BitVec 42) (k : Nat) : Nat := w.toNat / 2 ^ (7 * k) % 128
/-- wfield (R188). -/
def wfield (w : BitVec 42) (x : Word) (k : Nat) : Word :=
  let g := ((List.range k).map (widWidth w)).sum
  let n := widWidth w k
  if n = 0 then 0 else w64 (x.toNat / 2 ^ g % 2 ^ n)

/-- widf (R188). -/
def execWidf (f : FmtWid) (s : State) : Out :=
  issue { srcs := [], dst := some f.rd.toNat, lat := .fixed 1 } f.hold
    (fun x s => .done s (some (wfield (s.bank x.p).widw (s.bank x.p).wid f.k.toNat)) none) s
/-- widfr (R188). -/
def execWidfr (f : FmtWid) (s : State) : Out :=
  issue { srcs := [isrc f.ra], dst := some f.rd.toNat, lat := .fixed 1 } f.hold
    (fun x s => .done s (some (wfield (s.bank x.p).widw (x.v 0) f.k.toNat)) none) s

/-! MSG (R192-R197). -/

/-- The destination of a send from core `c`: its word and its value (R193, R194). -/
def State.sendTo (s : State) (c : Nat) (w v : Word) : SendTo :=
  let n := w.toNat
  let seat := bits n 34 32
  if bit n 41 then
    match s.destPhys c (bits n 9 0) with
    | .to_ d => if Config.isX d ∧ v.toNat % 64 = 0 ∧ v.toNat < 0x20_0000 then .start d v.toNat else .bounce
    | _ => .bounce
  else if bit n 40 then
    match s.destPhys c (bits n 9 0) with
    | .to_ d => if seat < Config.seats d then .mail d none else .bounce
    | _ => .bounce
  else
    match s.dest c (bits n 31 0) with
    | .to_ d => if seat < Config.seats d then .mail d (some (bits n 31 0)) else .bounce
    | .held => .held (bits n 31 0)
    | .bounce => .bounce

/-- The destination that a send resolved when it issued (R194). -/
def State.sendDest (s : State) (x : Ctx) : SendTo := (s.bank x.p).sendTo.getD (s.sendTo x.p.core (x.v 0) (x.v 1))
/-- STAGE_DOOR_FULL (R175, R194). A send whose entry is reserved goes on. -/
def sendChk (x : Ctx) (s : State) : Option Act :=
  match (s.bank x.p).sendTo, s.sendDest x with
  | none, .held _ => if s.doorRoom (Config.dieOf x.p.core) then none else some (.trap .stageDoorFull 0 none)
  | _, _ => none
/-- A send keeps its destination, and reserves its stage-door entry, before its commit begins (R194). -/
def sendKeep (x : Ctx) (s : State) : State :=
  if (s.bank x.p).sendTo.isSome then s else
  let d := s.sendDest x
  let s := match d with | .held _ => s.doorReserve (Config.dieOf x.p.core) | _ => s
  s.modBank x.p fun b => { b with sendTo := some d }

/-- Hand the message of a send over (R194). -/
def sendGo (x : Ctx) (s : State) : Act :=
  let n := (x.v 0).toNat
  let c := x.p.core
  let body := Body.mail (bits n 34 32) (bits n 39 35) (x.v 1)
  match s.sendDest x with
  | .mail d v => if s.outRoom c 32 then posted x s.msgNo (s.post c d v 2 false x.p.num body) else .wait .queue
  | .start d off => if s.outRoom c 32 then posted x s.msgNo (s.post c d none 2 false x.p.num (.start off)) else .wait .queue
  | .held v =>
    let s := s.unreserve x.p
    .done (s.hold (Config.dieOf c) (s.msg c 0 (some v) 2 false (s.core c).pts x.p.num body)) none none
  | .bounce =>
    .done (s.mailLand c x.p.num 31 (bounceWord (bits n 31 0) (bits n 34 32) (bits n 39 35) Cause.msgBounce.num)) none none
/-- The work of send (R194). -/
def sendAct (x : Ctx) (s : State) : Act :=
  match (s.bank x.p).wip with
  | .posted no => postedAct no x s
  | _ => sendGo x s

/-- send (R193, R194). -/
def execSend (f : FmtR) (s : State) : Out :=
  issueChk { srcs := [isrc f.ra, isrc f.rb], closes := true, keep := sendKeep } f.hold (chks [sendChk, meshChk]) sendAct s

/-- The presence bits that an mclr of this clk clears: those set before it (R196). -/
def State.mclrMask (s : State) (p : Place) (mask : BitVec 32) : BitVec 32 :=
  let t := s.seat p.core p.seat
  (List.range 32).foldl (fun m i => if mask.getLsbD i && t.mpres.getLsbD i && mget t.mailClk i 0 ≤ s.clk
    then m ||| BitVec.ofNat 32 (2 ^ i) else m) 0

/-- The work of mclr (R196). -/
def mclrAct (x : Ctx) (s : State) : Act :=
  let m := s.mclrMask x.p ((x.v 0).setWidth 32)
  if (s.bank x.p).openScene.isSome then .done (s.modBank x.p fun b => b.buffer 1 (.mclr m s.clk)) none none
  else .done (s.modSeat x.p.core x.p.seat fun t => { t with mpres := t.mpres &&& ~~~m }) none none

/-- mclr (R196). -/
def execMclr (f : FmtR) (s : State) : Out :=
  issue { srcs := [isrc f.ra], entries := 1 } f.hold mclrAct s

/-- The presence bits that the mask of mwait selects (R197). -/
def State.mwaitPres (s : State) (x : Ctx) : BitVec 32 := (s.seat x.p.core x.p.seat).mpres &&& (x.v 0).setWidth 32
/-- The condition of mwait or mwait.any holds, or its deadline has passed (R197). -/
def State.mwaitOver (s : State) (any : Bool) (x : Ctx) : Bool :=
  let mask := (x.v 0).setWidth 32
  let pres := s.mwaitPres x
  (if any then pres != 0 || mask == 0 else pres == mask) || ((x.v 1) != 0 && (x.v 1).toNat ≤ s.dtime)
/-- mwait waits under the presence cause; on an X-seat only with a deadline (R197, R202). -/
def mwaitWaits (any : Bool) : Waits := knowing fun x s =>
  if s.mwaitOver any x || (x.p.reflex && x.v 1 == 0) then none else some .presence
/-- The work of mwait and mwait.any (R197, R202). -/
def mwaitAct (any : Bool) (x : Ctx) (s : State) : Act :=
  if s.mwaitOver any x then .done s (some ((s.mwaitPres x).setWidth 64)) none
  else if x.p.reflex ∧ x.v 1 = 0 then .trap .reflexBlock 0 none
  else .wait .presence

/-- mwait (R197). -/
def execMwait (f : FmtR) (s : State) : Out :=
  issueWait { srcs := [isrc f.ra, isrc f.rb], dst := some f.rd.toNat, lat := .fixed 1 } f.hold (mwaitWaits false)
    (fun _ _ => none) (mwaitAct false) s
/-- mwait.any (R197). -/
def execMwaitAny (f : FmtR) (s : State) : Out :=
  issueWait { srcs := [isrc f.ra, isrc f.rb], dst := some f.rd.toNat, lat := .fixed 1 } f.hold (mwaitWaits true)
    (fun _ _ => none) (mwaitAct true) s

/-! GANG (R198-R201). -/

/-- On an X-seat gang and ungang trap (R202). -/
def gangX (x : Ctx) (_ : State) : Option Act := if x.p.reflex then some (.trap .gangBroken 0 none) else none

/-- The members of the gang ensemble that the bank's continuation is a member of, and its size: shape 1 (R169, R199). -/
def State.gangMembers (s : State) (p : Place) : Option (List Nat × Nat) :=
  let b := s.bank p
  match (s.slot b.cslot.toNat).hdr with
  | some h =>
    if b.ens ≠ 0 ∧ h.kind = 2 ∧ h.eshape = 1 ∧ p.seat = 0 ∧ (s.slot b.cslot.toNat).members.contains p.core
    then some ((s.slot b.cslot.toNat).members, h.ex) else none
  | none => none

/-- A core waits in gang n. -/
def State.inGang (s : State) (n c : Nat) : Bool := (s.bank ⟨c, 0, 0⟩).wip == .gang n

/-- Every member that waits in its gang instruction traps GANG_BROKEN (R199). -/
def State.breakWaiting (s : State) (ms : List Nat) (n : Nat) : State :=
  (ms.filter (s.inGang n)).foldl (fun s c =>
    let pc := (s.bank ⟨c, 0, 0⟩).pc
    s.trapAt ⟨c, 0, 0⟩ .gangBroken 0 none pc 1 (match s.fetch ⟨c, 0, 0⟩ pc with | (_, .ok w) => w | _ => 0)) s

/-- The work of gang n (R199). -/
def gangAct (n : Nat) (x : Ctx) (s : State) : Act :=
  match (s.bank x.p).wip with
  | .gang _ => if (s.core x.p.core).gangSize = 1 then .wait .presence else .done s none none
  | _ =>
    match s.gangMembers x.p with
    | none => .trap .gangBroken 0 none
    | some (ms, ex) =>
      if n ≠ ex ∨ (n ≠ 2 ∧ n ≠ 4 ∧ n ≠ 8) then
        .final ((s.breakWaiting ms ex).trapAt x.p .gangBroken 0 none x.pc 1 x.word)
      else if s.ganged x.p then .done s none none
      else if ms.all fun c => c == x.p.core || s.inGang n c then
        .done ((List.range ms.length).foldl (fun s i => s.modCore (ms.getD i 0) fun k => { k with
          gangPos := i, gangLeader := ms.getD 0 0, gangSize := n }) s) none none
      else .begun (s.modBank x.p fun b => { b with wip := .gang n })

/-- gang (R199). -/
def execGang (f : FmtS) (s : State) : Out :=
  issueChk { srcs := [] } f.hold (chks [syncChk, gangX]) (gangAct f.imm.toNat) s

/-- ungang waits for gang-relative commands (R229). -/
def ungangWaits : Waits := fun x s => if s.ganged x.p && s.gangBusy x.p then some .engine else none

/-- ungang (R201). -/
def execUngang (f : FmtS) (s : State) : Out :=
  issueWait { srcs := [] } f.hold ungangWaits (chks [syncChk, gangX])
    (fun x s => .done (if s.ganged x.p then s.modCore x.p.core fun k => { k with gangSize := 1 } else s) none none) s

end Sys2Proof.Machine
end

