-- ==== Sys2Proof/Machine/Float.lean ====
section
/-! DEFINITION. Exact values, rounding, and the IEEE formats (spec/03 R62-R68, R76, R80, R87, R89; spec/05 R115-R117). -/
namespace Sys2Proof.Machine

/-- An exact value: NaN, an infinity, or ±(n / d) × 2^e with d > 0. -/
inductive FV where
  | nan
  | inf (neg : Bool)
  | num (neg : Bool) (n d : Nat) (e : Int)
deriving DecidableEq, Repr

/-- Rounding mode; SR carries the drawn number u (R76). -/
inductive RM where
  | rne | rtz | rup | rdn
  | sr (u : Nat)
deriving DecidableEq, Repr

/-- The mode of FRM.RM (R31). -/
def rmOfFrm (f : BitVec 2) : RM := match f.toNat with | 0 => .rne | 1 => .rtz | 2 => .rup | _ => .rdn
/-- The mode of a rounding index r (R112). -/
def rmOf (r : Rnd) (frm : BitVec 2) : RM :=
  match r with | .frm => rmOfFrm frm | .rne => .rne | .rtz => .rtz | .rup => .rup | .rdn => .rdn

/-- An IEEE format by its exponent and stored mantissa bits (R64). -/
structure Ieee where
  eb : Nat
  mb : Nat
deriving DecidableEq, Repr

/-- FP64. -/
def fp64 : Ieee := ⟨11, 52⟩
/-- FP32. -/
def fp32 : Ieee := ⟨8, 23⟩
/-- FP16. -/
def fp16 : Ieee := ⟨5, 10⟩
/-- BF16. -/
def bf16 : Ieee := ⟨8, 7⟩
/-- Width in bits. -/
def Ieee.width (F : Ieee) : Nat := 1 + F.eb + F.mb
/-- Exponent bias. -/
def Ieee.bias (F : Ieee) : Int := 2 ^ (F.eb - 1) - 1
/-- The magnitude code of infinity. -/
def Ieee.infCode (F : Ieee) : Nat := (2 ^ F.eb - 1) * 2 ^ F.mb
/-- The canonical NaN (R65, R66). -/
def Ieee.cnan (F : Ieee) : Nat := F.infCode + 2 ^ (F.mb - 1)

/-- The exact value of an encoding (R64). -/
def Ieee.decode (F : Ieee) (v : Nat) : FV :=
  let neg := v.testBit (F.eb + F.mb)
  let E := v / 2 ^ F.mb % 2 ^ F.eb
  let M := v % 2 ^ F.mb
  if E = 2 ^ F.eb - 1 then (if M = 0 then .inf neg else .nan)
  else if E = 0 then .num neg M 1 (1 - F.bias - F.mb)
  else .num neg (2 ^ F.mb + M) 1 (E - F.bias - F.mb)

/-! Rounding (R68). -/

/-- The magnitude chosen between code `c` and code `c + 1` for a value `r / den` of the way. -/
def pick (rm : RM) (neg : Bool) (c r den : Nat) : Nat :=
  if r = 0 then c else
  match rm with
  | .rne => if 2 * r < den then c else if den < 2 * r then c + 1 else if c % 2 = 0 then c else c + 1
  | .rtz => c
  | .rup => if neg then c else c + 1
  | .rdn => if neg then c + 1 else c
  | .sr u => if u < r * 2 ^ 32 / den then c + 1 else c

/-- (n / d) × 2^(e − g) as a fraction. -/
def scaled (n d : Nat) (e g : Int) : Nat × Nat := (n * 2 ^ (e - g).toNat, d * 2 ^ (g - e).toNat)

/-- The magnitude code of a positive value in a layout with `mb` mantissa bits and smallest normal exponent `emin`
(R68, R72): codes continue above the largest finite one. -/
def roundCode (rm : RM) (neg : Bool) (mb : Nat) (emin : Int) (n d : Nat) (e : Int) : Nat :=
  if n = 0 then 0 else
  let k : Int := (Nat.log2 n : Int) - (Nat.log2 d : Int) - 1 + e
  let try_ : Int → Int × Nat × Nat × Nat := fun k =>
    let ex := max k emin
    let (a, b) := scaled n d e (ex - mb)
    (ex, a / b, a % b, b)
  let t := try_ k
  let t := if 2 ^ (mb + 1) ≤ t.2.1 then try_ (k + 1) else t
  pick rm neg ((t.1 - emin).toNat * 2 ^ mb + t.2.1) t.2.2.1 t.2.2.2

/-- Overflow gives the largest finite magnitude, not infinity (R68). -/
def magDown (rm : RM) (neg : Bool) : Bool :=
  match rm with | .rtz => true | .rup => neg | .rdn => !neg | _ => false

/-- fround(x, F, rm) (R66, R68). -/
def fround (x : FV) (F : Ieee) (rm : RM) : Nat :=
  match x with
  | .nan => F.cnan
  | .inf neg => b2n neg * 2 ^ (F.eb + F.mb) + F.infCode
  | .num neg n d e =>
    let c := roundCode rm neg F.mb (1 - F.bias) n d e
    let c := if c < F.infCode then c else if magDown rm neg then F.infCode - 1 else F.infCode
    b2n neg * 2 ^ (F.eb + F.mb) + c

/-- to_int (R62): round to an integer by rm, then clamp; NaN gives 0. -/
def toInt (x : FV) (n : Nat) (signed : Bool) (rm : RM) : Int :=
  let lo : Int := if signed then -2 ^ (n - 1) else 0
  let hi : Int := if signed then 2 ^ (n - 1) - 1 else 2 ^ n - 1
  match x with
  | .nan => 0
  | .inf neg => if neg then lo else hi
  | .num neg m d e =>
    let (a, b) := scaled m d e 0
    let k := pick rm neg (a / b) (a % b) b
    max lo (min hi (if neg then -(k : Int) else k))

/-! Exact arithmetic. Sums need denominators 1. -/

/-- Sign of a value. -/
def FV.neg? : FV → Bool
  | .nan => false | .inf s => s | .num s _ _ _ => s
/-- Magnitude zero. -/
def FV.isZero : FV → Bool
  | .num _ n _ _ => n == 0 | _ => false
/-- NaN. -/
def FV.isNan : FV → Bool
  | .nan => true | _ => false
/-- The value with its sign changed. -/
def FV.negate : FV → FV
  | .nan => .nan | .inf s => .inf (!s) | .num s n d e => .num (!s) n d e
/-- The value with sign `s`. -/
def FV.withSign (s : Bool) : FV → FV
  | .nan => .nan | .inf _ => .inf s | .num _ n d e => .num s n d e

/-- The exact sum; an exact zero sum is +0, −0 under RDN, except of two zeros of one sign (R68, R115). -/
def FV.add (rm : RM) : FV → FV → FV
  | .nan, _ => .nan
  | _, .nan => .nan
  | .inf s, .inf t => if s = t then .inf s else .nan
  | .inf s, _ => .inf s
  | _, .inf t => .inf t
  | .num s n _ e, .num t m _ f =>
    let g := min e f
    let a : Int := (n : Int) * 2 ^ (e - g).toNat
    let b : Int := (m : Int) * 2 ^ (f - g).toNat
    let v := (if s then -a else a) + (if t then -b else b)
    if v = 0 then .num (if s = t then s else (match rm with | .rdn => true | _ => false)) 0 1 0
    else .num (v < 0) v.natAbs 1 g

/-- The exact product. -/
def FV.mul : FV → FV → FV
  | .nan, _ => .nan
  | _, .nan => .nan
  | .inf s, .inf t => .inf (s != t)
  | .inf s, .num t n _ _ => if n = 0 then .nan else .inf (s != t)
  | .num s n _ _, .inf t => if n = 0 then .nan else .inf (s != t)
  | .num s n d e, .num t m c f => .num (s != t) (n * m) (d * c) (e + f)

/-- The exact quotient (R115). -/
def FV.div : FV → FV → FV
  | .nan, _ => .nan
  | _, .nan => .nan
  | .inf _, .inf _ => .nan
  | .inf s, .num t _ _ _ => .inf (s != t)
  | .num s _ _ _, .inf t => .num (s != t) 0 1 0
  | .num s n d e, .num t m c f =>
    if m = 0 then (if n = 0 then .nan else .inf (s != t)) else .num (s != t) (n * c) (d * m) (e - f)

/-- The square root, with a sticky bit far below the rounding position of every format (R115). -/
def FV.sqrt : FV → FV
  | .nan => .nan
  | .inf s => if s then .nan else .inf false
  | .num s n _ e =>
    if n = 0 then .num s 0 1 0 else if s then .nan else
    let n := if e % 2 = 0 then n else 2 * n
    let e := e - e % 2
    let m := n * 4 ^ 60
    let r := Nat.sqrt m
    .num false (2 * r + b2n (r * r != m)) 1 (e / 2 - 61)

/-- a × b + c, exact; 0 × ∞ is NaN whatever c is (R117). -/
def FV.fma (rm : RM) (a b c : FV) : FV := (a.mul b).add rm c

/-- Compare two finite or infinite values: a < b. -/
def FV.lt : FV → FV → Bool
  | .nan, _ => false
  | _, .nan => false
  | .inf s, .inf t => s && !t
  | .inf s, .num .. => s
  | .num .., .inf t => !t
  | .num s n d e, .num t m c f =>
    let g := min e f
    let a : Int := (n : Int) * c * 2 ^ (e - g).toNat
    let b : Int := (m : Int) * d * 2 ^ (f - g).toNat
    decide ((if s then -a else a) < (if t then -b else b))
/-- a == b, with +0 == −0; false for NaN. -/
def FV.eq (a b : FV) : Bool := !a.isNan && !b.isNan && !a.lt b && !b.lt a

/-- The smaller of two encodings, −0 below +0, a NaN yielding to the other (R116). -/
def fminCode (F : Ieee) (a b : Nat) : Nat :=
  let x := F.decode a
  let y := F.decode b
  if x.isNan then (if y.isNan then F.cnan else b) else if y.isNan then a
  else if x.lt y then a else if y.lt x then b else if x.neg? then a else b
/-- The larger of two encodings (R116). -/
def fmaxCode (F : Ieee) (a b : Nat) : Nat :=
  let x := F.decode a
  let y := F.decode b
  if x.isNan then (if y.isNan then F.cnan else b) else if y.isNan then a
  else if x.lt y then b else if y.lt x then a else if x.neg? then b else a

/-- The encoding `a` with sign `s`; cnan when a is NaN (R116). -/
def signCode (F : Ieee) (a : Nat) (s : Bool) : Nat :=
  if (F.decode a).isNan then F.cnan else a % 2 ^ (F.eb + F.mb) + b2n s * 2 ^ (F.eb + F.mb)

/-- The class mask of an encoding (R116). -/
def classCode (F : Ieee) (a : Nat) : Nat :=
  let E := a / 2 ^ F.mb % 2 ^ F.eb
  let M := a % 2 ^ F.mb
  let neg := a.testBit (F.eb + F.mb)
  let k := if E = 2 ^ F.eb - 1 then (if M = 0 then (if neg then 0 else 7) else if M.testBit (F.mb - 1) then 9 else 8)
    else if E = 0 then (if M = 0 then (if neg then 3 else 4) else if neg then 2 else 5)
    else if neg then 1 else 6
  2 ^ k

/-- The AMAX note of an input value (R80). -/
def amaxNote (x : FV) : BitVec 32 :=
  match x with
  | .nan => 0x8000_0000
  | x => BitVec.ofNat 32 (fround (x.withSign false) fp32 .rup % 2 ^ 31)

/-! The generator (R87, R89). -/

/-- mix of R87. -/
def mix (z : Word) : Word :=
  let z := z ^^^ (z >>> 32)
  let z := z * 0xd6e8_feb8_6659_fd93
  let z := z ^^^ (z >>> 29)
  let z := z * 0xa0a3_c1d5_7b2e_6f19
  z ^^^ (z >>> 32)

/-- draw of R87. -/
def draw (seed stream position : Word) (purpose index : Nat) : Word :=
  let h := mix (seed ^^^ 0x6a09_e667_f3bc_c909)
  let h := mix (h ^^^ (stream + 0xbb67_ae85_84ca_a73b))
  let h := mix (h ^^^ (position + 0x3c6e_f372_fe94_f82b))
  let h := mix (h ^^^ (w64 (purpose * 2 ^ 32 + index) + 0xa54f_f53a_5f1d_36f1))
  mix (h ^^^ 0x510e_527f_ade6_82d1)

/-- The number u of a stochastic rounding (R76). -/
def srU (seed stream position : Word) (index : Nat) : Nat := (draw seed stream position 1 index).toNat / 2 ^ 32

/-- uniform24 of R89, as a multiple of 2^-24. -/
def uniform24 (d : Word) : Nat := d.toNat / 2 ^ 40

end Sys2Proof.Machine
end

