-- ==== Sys2Proof/Machine/Narrow.lean ====
section
/-! DEFINITION. Narrow formats, LUT4 codes and block scales (spec/03 R69-R79), and exact dot products (R82, R84). -/
namespace Sys2Proof.Machine

/-- A normalised format specifier (R69, R70). `blk` is 0, 16 or 32 elements. -/
structure Narrow where
  blk : Nat
  mode : Nat
  bias : Int
  kind : Bool
  S : Nat
  E : Nat
  M : Nat
deriving DecidableEq, Repr

/-- The normalised form of a specifier value (R69, R70). -/
def Narrow.of (v : Nat) : Narrow :=
  let blk := match bits v 19 18 with | 0 => 0 | 1 => 16 | _ => 32
  let mode := min 2 (bits v 17 16)
  let bias : Int := if bits v 15 8 < 128 then bits v 15 8 else (bits v 15 8 : Int) - 256
  if bit v 7 then ⟨blk, 2, 0, true, 0, 0, 4⟩ else
  let S := bits v 6 6
  let E := bits v 5 3
  let M := bits v 2 0
  let M' := if 8 < S + E + M then 8 - S - E else M
  let E' := if 8 < S + E + M' then 8 - S else E
  let M' := if S + E' + M' < 2 then 2 - S - E' else M'
  ⟨blk, if mode = 0 ∧ E' = 0 then 1 else mode, bias, false, S, E', M'⟩

/-- Element width w (R70). -/
def Narrow.width (F : Narrow) : Nat := F.S + F.E + F.M
/-- Container width in bits (R71). -/
def Narrow.cont (F : Narrow) : Nat := if F.width ≤ 2 then 2 else if F.width ≤ 4 then 4 else 8

/-- narrow_value (R72). -/
def Narrow.value (F : Narrow) (code : Nat) : FV :=
  let sg := F.S == 1 && code.testBit (F.width - 1)
  let ex := code / 2 ^ F.M % 2 ^ F.E
  let mn := code % 2 ^ F.M
  if F.mode = 0 ∧ ex = 2 ^ F.E - 1 then (if mn = 0 then .inf sg else .nan)
  else if F.mode = 1 ∧ ex = 2 ^ F.E - 1 ∧ mn = 2 ^ F.M - 1 then .nan
  else if F.E = 0 then .num sg mn 1 (-F.bias)
  else if ex = 0 then .num sg mn 1 (1 - F.bias - F.M)
  else .num sg (2 ^ F.M + mn) 1 (ex - F.bias - F.M)

/-- nan_code (R72). -/
def Narrow.nanCode (F : Narrow) : Nat :=
  if F.mode = 0 ∧ 0 < F.M then (2 ^ F.E - 1) * 2 ^ F.M + 2 ^ (F.M - 1)
  else if F.mode = 1 then 2 ^ (F.E + F.M) - 1 else 0

/-- The largest finite magnitude code (R68, R72). -/
def Narrow.maxCode (F : Narrow) : Nat :=
  if F.mode = 0 then (2 ^ F.E - 1) * 2 ^ F.M - 1
  else if F.mode = 1 then 2 ^ (F.E + F.M) - 2 else 2 ^ (F.E + F.M) - 1

/-- Entry of a LUT4 table, signed (R75). -/
def lutEntry (t : BitVec 128) (c : Nat) : Int := ((t >>> (8 * c)).setWidth 8).toInt

/-- The value of an integer. -/
def FV.ofInt (i : Int) : FV := .num (i < 0) i.natAbs 1 0

/-- Conversion into KIND = 1 (R75): nearest by value, ties and equal entries to the lowest code. -/
def lutEncode (t : BitVec 128) (x : FV) : Nat :=
  let es := (List.range 16).map (lutEntry t)
  match x with
  | .nan => (es.findIdx? (· == 0)).getD 0
  | .inf neg =>
    let m := es.foldl (fun a b => if neg then min a b else max a b) (es.headD 0)
    (es.findIdx? (· == m)).getD 0
  | x =>
    let dist := fun (k : Int) => ((x.add .rne (FV.ofInt (-k))).withSign false)
    (List.range 16).foldl (fun a c => if (dist (lutEntry t c)).lt (dist (lutEntry t a)) then c else a) 0

/-- The distance of a value with a denominator needs one denominator on both sides. -/
def FV.addAny : FV → FV → FV
  | .num s n d e, .num t m c f =>
    match (FV.num s (n * c) 1 e).add .rne (.num t (m * d) 1 f) with
    | .num u k _ g => .num u k (d * c) g
    | r => r
  | a, b => a.add .rne b

/-- narrow_encode for a float-style format (R74). -/
def Narrow.encodeF (F : Narrow) (x : FV) (rm : RM) : Nat :=
  let sgn := fun (neg : Bool) => b2n (neg && F.S == 1) * 2 ^ (F.width - 1)
  match x with
  | .nan => F.nanCode
  | .inf neg =>
    if F.S = 0 ∧ neg = true then 0
    else if F.mode = 0 then (2 ^ F.E - 1) * 2 ^ F.M + sgn neg
    else if F.mode = 1 then F.nanCode
    else F.maxCode + sgn neg
  | .num neg n d e =>
    if F.S = 0 ∧ neg = true then 0 else
    let c := if F.E = 0 then
        let (a, b) := scaled n d e (-F.bias)
        pick rm neg (a / b) (a % b) b
      else roundCode rm neg F.M (1 - F.bias) n d e
    let c := if c ≤ F.maxCode then c
      else if F.mode = 0 && !magDown rm neg then (2 ^ F.E - 1) * 2 ^ F.M else F.maxCode
    c + sgn neg

/-- Nearest LUT4 code for a value with any denominator (R75). -/
def lutEncodeAny (t : BitVec 128) (x : FV) : Nat :=
  match x with
  | .num .. =>
    let dist := fun (k : Int) => ((x.addAny (FV.ofInt (-k))).withSign false)
    (List.range 16).foldl (fun a c => if (dist (lutEntry t c)).lt (dist (lutEntry t a)) then c else a) 0
  | x => lutEncode t x

/-- narrow_encode with either KIND (R74, R75). -/
def Narrow.encode (F : Narrow) (t : BitVec 128) (x : FV) (rm : RM) : Nat :=
  if F.kind then lutEncodeAny t x else F.encodeF x rm
/-- The decoded value of a code with either KIND (R72, R75). -/
def Narrow.decode (F : Narrow) (t : BitVec 128) (code : Nat) : FV :=
  if F.kind then FV.ofInt (lutEntry t (code % 16)) else F.value (code % 2 ^ F.width)

/-! Block scales (R77-R79). -/

/-- scale_value (R77). -/
def scaleValue (c : Nat) : FV :=
  if c = 0 then .num false 0 1 0 else if c = 0x1ff then .nan
  else .num false (2 + c % 2) 1 ((c / 2 : Nat) - 128)

/-- The exact value of an element under its scale (R78). -/
def scaledBy (v s : FV) : FV :=
  match v, s with
  | .nan, _ => .nan
  | _, .nan => .nan
  | v, s => v.mul s

/-- The largest finite value of a format, in absolute value (R79). -/
def Narrow.maxfin (F : Narrow) (t : BitVec 128) : FV :=
  if F.kind then FV.ofInt (((List.range 16).map fun c => (lutEntry t c).natAbs).foldl max 0)
  else F.value F.maxCode

/-- choose_scale (R79). DESIGN CHOICE (log 78): with KIND = 1, every entry of the table 0 and an input that is NaN or infinite,
the pseudocode's first line decides (0x1ff), not the sentence after it (0x000). -/
def chooseScale (F : Narrow) (t : BitVec 128) (xs : List FV) : Nat :=
  if xs.any fun x => match x with | .num .. => false | _ => true then 0x1ff else
  let a := xs.foldl (fun a x => if a.lt (x.withSign false) then x.withSign false else a) (.num false 0 1 0)
  let m := F.maxfin t
  if a.isZero || (F.kind && m.isZero) then 0
  else ((List.range 0x1fe).find? fun i => !(m.mul (scaleValue (i + 1))).lt a).map (· + 1) |>.getD 0x1fe

/-- x / s before encoding under a chosen scale (R79): under a NaN or zero scale the element encodes as code 0, with the
sign of a zero kept. -/
def encodeScaled (F : Narrow) (t : BitVec 128) (c : Nat) (x : FV) (rm : RM) : Nat :=
  if c = 0x1ff then 0
  else if c = 0 then F.encode t (.num x.neg? 0 1 0) rm
  else F.encode t (x.div (scaleValue c)) rm

/-! Dot products (R82). -/

/-- dot32 (R82): the FP32 result of one K-step for one element. -/
def dot32 (acc : W32) (ab : List (FV × FV)) : W32 :=
  let a := fp32.decode acc.toNat
  let t := ab.foldl (fun (s : FV) p => s.add .rne (p.1.mul p.2)) a
  let r := fround t fp32 .rne
  BitVec.ofNat 32 (if r = 0x8000_0000 then 0 else r)

end Sys2Proof.Machine
end

