-- ==== Sys2Proof/Machine/ScalarFloat.lean ====
section
/-! DEFINITION. Scalar float arithmetic, conversions and compares (spec/05 R112-R123), and the reads of the constant bank
and of LUT4 at their issue (R28, R283). -/
namespace Sys2Proof.Machine

/-- The type of a float instruction: 0 is .d, 1 is .s (R114). -/
def ieeeOf (ty : BitVec 1) : Ieee := if ty = 0 then fp64 else fp32
/-- A float source field, with its literal type (R17). -/
def fsrc (ty : BitVec 1) (c : BitVec 6) : Nat × Lit := (c.toNat, if ty = 0 then .f64 else .f32)
/-- The encoding that a register holds for the type (R63): the low 32 bits for .s. -/
def fcode (ty : BitVec 1) (v : Word) : Nat := if ty = 0 then v.toNat else v.toNat % 2 ^ 32
/-- The exact value of a register. -/
def fval (ty : BitVec 1) (v : Word) : FV := (ieeeOf ty).decode (fcode ty v)
/-- The result register value of an exact value, rounded once (R68, R112). -/
def fres (ty : BitVec 1) (rm : RM) (x : FV) : Word := w64 (fround x (ieeeOf ty) rm)
/-- The mode of rounding index r for the bank, FRM read at issue (R112). -/
def State.rmIdx (s : State) (p : Place) (r : Rnd) : RM := rmOf r (s.bank p).frm

/-- The entry c[i] as a read that issues now sees it (R28). -/
def State.cbGet (s : State) (c i : Nat) : Word :=
  let k := s.core c
  ((k.cbNew.filter fun e => e.2.1 == i && e.1 + 4 ≤ s.clk).getLast?.map (·.2.2)).getD (mget k.cbank i 0)
/-- LUT4 as a read that issues now sees it (R283). -/
def State.lutGet (s : State) (c : Nat) : BitVec 128 :=
  let k := s.core c
  ((k.lutNew.filter fun e => e.1 + 4 ≤ s.clk).getLast?.map (·.2)).getD k.lut4
/-- LUT4 as the engines see it: a lut4ld that has been performed counts at once, since it held their starts meanwhile (R283,
R300). -/
def State.lutNow (s : State) (c : Nat) : BitVec 128 := ((s.core c).lutNew.getLast?.map (·.2)).getD (s.core c).lut4

/-! Shared shapes. -/

/-- rd := op(a, b) under a rounding index, with latency by type. -/
def flt2 (f : FmtFR) (ld ls : Nat) (op : RM → FV → FV → FV) (s : State) : Out :=
  issue { srcs := [fsrc f.ty f.ra, fsrc f.ty f.rb], dst := some f.rd.toNat, lat := .fixed (if f.ty = 0 then ld else ls) }
    f.hold (fun x s =>
      let rm := s.rmIdx x.p f.rnd
      .done s (some (fres f.ty rm (op rm (fval f.ty (x.v 0)) (fval f.ty (x.v 1))))) none) s

/-- rd := op(rd, a, b), rounded once (R117). -/
def flt3 (f : FmtFR) (op : RM → FV → FV → FV → FV) (s : State) : Out :=
  issue { srcs := [fsrc f.ty f.rd, fsrc f.ty f.ra, fsrc f.ty f.rb], dst := some f.rd.toNat, lat := .fixed 4 }
    f.hold (fun x s =>
      let rm := s.rmIdx x.p f.rnd
      .done s (some (fres f.ty rm (op rm (fval f.ty (x.v 0)) (fval f.ty (x.v 1)) (fval f.ty (x.v 2))))) none) s

/-- rd := op(code a, code b), exact on encodings, with latency 1 (R116, R123). -/
def fltCode (f : FmtFT) (op : Ieee → Nat → Nat → Nat) (s : State) : Out :=
  issue { srcs := [fsrc f.ty f.ra, fsrc f.ty f.rb], dst := some f.rd.toNat, lat := .fixed 1 }
    f.hold (fun x s => .done s (some (w64 (op (ieeeOf f.ty) (fcode f.ty (x.v 0)) (fcode f.ty (x.v 1))))) none) s

/-- rd := 1 when the relation holds of the exact values, else 0 (R123). -/
def fltCmp (f : FmtFT) (rel : FV → FV → Bool) (s : State) : Out :=
  fltCode f (fun F a b => b2n (rel (F.decode a) (F.decode b))) s

/-- rd := op(a, k) with the constant bank (R118). -/
def fltC (f : FmtC) (op : RM → FV → FV → FV) (s : State) : Out :=
  issue { srcs := [fsrc f.ty f.ra], dst := some f.rd.toNat, lat := .fixed 3 } f.hold (fun x s =>
    let rm := rmOfFrm (s.bank x.p).frm
    let k := s.cbGet x.p.core f.cb.toNat
    .done s (some (fres f.ty rm (op rm (fval f.ty (x.v 0)) (fval f.ty k)))) none) s

/-- rd := op(rd, a, k) with the constant bank, rounded once (R118). -/
def fltC3 (f : FmtC) (op : RM → FV → FV → FV → FV) (s : State) : Out :=
  issue { srcs := [fsrc f.ty f.rd, fsrc f.ty f.ra], dst := some f.rd.toNat, lat := .fixed 4 } f.hold (fun x s =>
    let rm := rmOfFrm (s.bank x.p).frm
    let k := s.cbGet x.p.core f.cb.toNat
    .done s (some (fres f.ty rm (op rm (fval f.ty (x.v 0)) (fval f.ty (x.v 1)) (fval f.ty k)))) none) s

/-! Major 0x12 (R114-R116). -/

/-- fadd (R114, R115). -/
def execFadd (f : FmtFR) (s : State) : Out :=
  flt2 f 3 3 (fun rm a b => a.add rm b) s
/-- fsub (R114, R115). -/
def execFsub (f : FmtFR) (s : State) : Out :=
  flt2 f 3 3 (fun rm a b => a.add rm b.negate) s
/-- fmul (R114, R115). -/
def execFmul (f : FmtFR) (s : State) : Out :=
  flt2 f 3 3 (fun _ a b => a.mul b) s
/-- fdiv (R114, R115). -/
def execFdiv (f : FmtFR) (s : State) : Out :=
  flt2 f 20 12 (fun _ a b => a.div b) s
/-- fsqrt (R114, R115); rb is unused. -/
def execFsqrt (f : FmtFR) (s : State) : Out :=
  issue { srcs := [fsrc f.ty f.ra], dst := some f.rd.toNat, lat := .fixed (if f.ty = 0 then 20 else 12) }
    f.hold (fun x s => .done s (some (fres f.ty (s.rmIdx x.p f.rnd) (fval f.ty (x.v 0)).sqrt)) none) s
/-- fmin (R116). -/
def execFmin (f : FmtFT) (s : State) : Out :=
  fltCode f fminCode s
/-- fmax (R116). -/
def execFmax (f : FmtFT) (s : State) : Out :=
  fltCode f fmaxCode s
/-- The sign bit of an encoding. -/
def Ieee.sign (F : Ieee) (a : Nat) : Bool := a.testBit (F.eb + F.mb)
/-- fsgnj (R114, R116). -/
def execFsgnj (f : FmtFT) (s : State) : Out :=
  fltCode f (fun F a b => signCode F a (F.sign b)) s
/-- fsgnjn (R114, R116). -/
def execFsgnjn (f : FmtFT) (s : State) : Out :=
  fltCode f (fun F a b => signCode F a (!F.sign b)) s
/-- fsgnjx (R114, R116). -/
def execFsgnjx (f : FmtFT) (s : State) : Out :=
  fltCode f (fun F a b => signCode F a (F.sign a != F.sign b)) s
/-- fclass (R116); rb is unused. -/
def execFclass (f : FmtFT) (s : State) : Out :=
  issue { srcs := [fsrc f.ty f.ra], dst := some f.rd.toNat, lat := .fixed 1 }
    f.hold (fun x s => .done s (some (w64 (classCode (ieeeOf f.ty) (fcode f.ty (x.v 0))))) none) s

/-! Major 0x13 (R117). -/

/-- fmadd (R117). -/
def execFmadd (f : FmtFR) (s : State) : Out :=
  flt3 f (fun rm c a b => a.fma rm b c) s
/-- fmsub (R117). -/
def execFmsub (f : FmtFR) (s : State) : Out :=
  flt3 f (fun rm c a b => a.fma rm b c.negate) s
/-- fnmsub (R117). -/
def execFnmsub (f : FmtFR) (s : State) : Out :=
  flt3 f (fun rm c a b => a.negate.fma rm b c) s
/-- fnmadd (R117). -/
def execFnmadd (f : FmtFR) (s : State) : Out :=
  flt3 f (fun rm c a b => a.negate.fma rm b c.negate) s

/-! Major 0x14 (R118). -/

/-- faddc (R118). -/
def execFaddc (f : FmtC) (s : State) : Out :=
  fltC f (fun rm a k => a.add rm k) s
/-- fsubc (R118). -/
def execFsubc (f : FmtC) (s : State) : Out :=
  fltC f (fun rm a k => a.add rm k.negate) s
/-- frsubc (R118). -/
def execFrsubc (f : FmtC) (s : State) : Out :=
  fltC f (fun rm a k => k.add rm a.negate) s
/-- fmulc (R118). -/
def execFmulc (f : FmtC) (s : State) : Out :=
  fltC f (fun _ a k => a.mul k) s
/-- fmulac (R118). -/
def execFmulac (f : FmtC) (s : State) : Out :=
  fltC3 f (fun rm rd a k => rd.fma rm a k) s
/-- fmacc (R118). -/
def execFmacc (f : FmtC) (s : State) : Out :=
  fltC3 f (fun rm rd a k => a.fma rm k rd) s
/-- fldc (R118): the entry bit for bit; ra is unused. -/
def execFldc (f : FmtC) (s : State) : Out :=
  issue { srcs := [], dst := some f.rd.toNat, lat := .fixed 1 } f.hold
    (fun x s => .done s (some (w64 (fcode f.ty (s.cbGet x.p.core f.cb.toNat)))) none) s

/-! Major 0x15 (R119). -/

/-- fli (R119). The format has no HOLD field. -/
def execFli (f : FmtF20) (s : State) : Out :=
  issue { srcs := [], dst := some f.rd.toNat, lat := .fixed 1 } 0
    (fun _ s => .done s (some (w64 (f.f20.toNat * 2 ^ 12))) none) s

/-! Major 0x16 (R120-R122). -/

/-- The literal type of a conversion's source (R17). -/
def cvtLit (src : Nat) : Lit := match src with | 0 => .f64 | 1 => .f32 | 2 => .h16 | 3 => .h16 | _ => .int
/-- The IEEE format of a type code below 4. -/
def cvtIeee (t : Nat) : Ieee := match t with | 0 => fp64 | 1 => fp32 | 2 => fp16 | _ => bf16
/-- A conversion is a converting instruction (R120). -/
def converting (dst src : Nat) : Bool :=
  !([(1, 1), (0, 0), (2, 2), (3, 3), (0, 1), (1, 2), (0, 2), (1, 3), (0, 3), (0, 6)].contains (dst, src))
/-- The exact value of the source (R122). -/
def cvtVal (src : Nat) (F : Narrow) (t : BitVec 128) (v : Word) : FV :=
  match src with
  | 4 => .ofInt v.toInt
  | 5 => .ofInt v.toNat
  | 6 => F.decode t v.toNat
  | k => (cvtIeee k).decode (v.toNat % 2 ^ (cvtIeee k).width)
/-- The mode of a conversion control word (R121); `u` is the draw of its key (R76). -/
def cvtRm (cc : Nat) (frm : BitVec 2) (u : Nat) : RM :=
  match bits cc 2 0 with | 1 => .rne | 2 => .rtz | 3 => .rup | 4 => .rdn | 5 => .sr u | _ => rmOfFrm frm
/-- The result (R122). -/
def cvtRes (dst : Nat) (F : Narrow) (t : BitVec 128) (x : FV) (rm : RM) : Word :=
  match dst with
  | 4 => wi64 (toInt x 64 true rm)
  | 5 => wi64 (toInt x 64 false rm)
  | 6 => w64 (F.encode t x rm)
  | k => w64 (fround x (cvtIeee k) rm)

/-- The result of a conversion and its note of AMAX on their way (R81): the note lands as the instruction retires, which one
that pops does as its result arrives (R25, R191). -/
def State.cvtPut (s : State) (p : Place) (h : Shape) (d : Nat) (note : BitVec 32) (v : Word) : State × Option Word :=
  if h.pops && (s.bank p).openScene.isNone then (s.putVar p h (if d = 0 then 64 else d) v note, none)
  else (s.modBank p fun b => b.note note 2, some v)

/-- The shape of a conversion. -/
def cvtShape (f : FmtCvt) : Shape :=
  { srcs := [(f.ra.toNat, cvtLit f.src.toNat), isrc f.rb], dst := some f.rd.toNat, lat := .fixed 2 }

/-- CVT (R120-R122). -/
def execCvt (f : FmtCvt) (s : State) : Out :=
  issue (cvtShape f) f.hold
    (fun x s =>
      let cc := (x.v 1).toNat
      let F := Narrow.of (bits cc 27 8)
      let t := s.lutGet x.p.core
      let v := cvtVal f.src.toNat F t (x.v 0)
      let rm := cvtRm cc (s.bank x.p).frm (srU (w64 (cc / 2 ^ 32)) 0 x.pc 0)
      let r := cvtRes f.dst.toNat F t v rm
      let (s, r) := if converting f.dst.toNat f.src.toNat then s.cvtPut x.p (cvtShape f) f.rd.toNat (amaxNote v) r else (s, some r)
      .done s r none) s

/-! Major 0x17 (R123). -/

/-- feq (R123). -/
def execFeq (f : FmtFT) (s : State) : Out :=
  fltCmp f (fun a b => a.eq b) s
/-- fne (R123). -/
def execFne (f : FmtFT) (s : State) : Out :=
  fltCmp f (fun a b => !a.eq b) s
/-- flt (R123). -/
def execFlt (f : FmtFT) (s : State) : Out :=
  fltCmp f (fun a b => a.lt b) s
/-- fle (R123). -/
def execFle (f : FmtFT) (s : State) : Out :=
  fltCmp f (fun a b => a.lt b || a.eq b) s
/-- fun (R123). -/
def execFunord (f : FmtFT) (s : State) : Out :=
  fltCmp f (fun a b => a.isNan || b.isNan) s

end Sys2Proof.Machine
end

