-- ==== Sys2Proof/Machine/SceneSys.lean ====
section
/-! DEFINITION. Illegal words (R51), scene instructions (R124-R132), nop, halt and the constant bank (R133-R137). crd and
cwr stand in ControlRegs.lean. -/
namespace Sys2Proof.Machine

/-- The check of an instruction that handler mode forbids (R395). -/
def noHandler (x : Ctx) (s : State) : Option Act := if (s.bank x.p).handler then some (.trap .privInsn 0 none) else none

/-- An illegal word halts its seat (R51). Its operands are not looked at. -/
def execIllegal (w : BitVec 32) (s : State) : Out :=
  .next { s.haltBank s.cur .illegalEncoding w with ended := .trap }

/-- scene (R124, R125): commits an open scene, then opens one with the write set. -/
def execScene (f : FmtSC) (s : State) : Out :=
  issueChk { srcs := [], closes := true, opens := some (some (0, f.mask)) } f.hold noHandler
    (fun _ s => .done s none none) s

/-- scene.chk (R124): as scene, with form 1. -/
def execSceneChk (f : FmtSC) (s : State) : Out :=
  issueChk { srcs := [], closes := true, opens := some (some (1, f.mask)) } f.hold noHandler
    (fun _ s => .done s none none) s

/-- commit (R124, R129): commits an open scene and leaves none. -/
def execCommit (f : FmtSC) (s : State) : Out :=
  issueChk { srcs := [], closes := true, opens := some none } f.hold noHandler (fun _ s => .done s none none) s

/-- The work of redo (R131): it waits for pending results and for the scene's vector commands, then discards. -/
def redoAct (x : Ctx) (s : State) : Act :=
  let b := s.bank x.p
  if b.openScene.isNone then .done s none none
  else if s.unsettled x.p then .wait .memory
  else
    let s := s.discard x.p true true false
    if s.ended = .trap then .final s else .done s none (some b.scpc)

/-- redo (R124, R131). -/
def execRedo (f : FmtSC) (s : State) : Out :=
  issueChk { srcs := [] } f.hold noHandler redoAct s

/-- nop (R134). -/
def execNop (f : FmtS) (s : State) : Out :=
  issue { srcs := [] } f.hold (fun _ s => .done s none none) s

/-- halt (R134): the seat stops after it retires, with PC at the next word. -/
def execHalt (f : FmtS) (s : State) : Out :=
  issue { srcs := [] } f.hold (fun x s => .done (s.modBank x.p fun b => { b with run := .halted }) none none) s

/-! The constant bank. -/

/-- CBCTL.LOCK of a core (R36). -/
def State.cbLocked (s : State) (c : Nat) : Bool := (s.crCore c 0x00a).getLsbD 0
/-- Writes to a locked constant bank trap (R28, R136). -/
def cbChk (x : Ctx) (s : State) : Option Act := if s.cbLocked x.p.core then some (.trap .segRights 0 none) else none

/-- The work of cbw (R136): buffered in a scene, else written as of this clk. -/
def cbwAct (i : Nat) (x : Ctx) (s : State) : Act :=
  if (s.bank x.p).openScene.isSome then .done (s.modBank x.p fun b => b.buffer 1 (.cbw i (x.v 0))) none none
  else .done (s.modCore x.p.core fun k => { k with cbNew := k.cbNew ++ [(s.clk, i, x.v 0)] }) none none

/-- cbw (R133, R136). -/
def execCbw (f : FmtS) (s : State) : Out :=
  issueChk { srcs := [isrc f.ra], entries := 1 } f.hold cbChk (cbwAct (f.imm.toNat % 256)) s

/-- cbrd (R136). -/
def execCbrd (f : FmtS) (s : State) : Out :=
  issue { srcs := [], dst := some f.ra.toNat, lat := .fixed 1 } f.hold
    (fun x s => .done s (some (s.cbGet x.p.core (f.imm.toNat % 256))) none) s

/-- The checks of R18 of 8-byte reads at some offsets of a segment in order: the first that fails. -/
def Bank.checkOffs (b : Bank) (seg : Nat) : List Word → Option Act
  | [] => none
  | off :: t =>
    match segCheck (b.seg seg) off.toNat 8 8 true false false with
    | some c => some (.trap c 0 (some off))
    | none => b.checkOffs seg t

/-- Locate 8-byte reads at some offsets in order: how the instruction ends at the first that cannot be made. -/
def State.locateOffs (s : State) (p : Place) (seg : Nat) : List Word → Option Act
  | [] => none
  | off :: t =>
    match s.locate p seg off.toNat 8 8 true false false with
    | (s, .ok _ _) => s.locateOffs p seg t
    | (_, a) => some (a.act off)

/-- The checks of cbld (R137): those of R18 for all dwords, then the translations. -/
def State.checkReads (s : State) (p : Place) (seg : Nat) (offs : List Word) : Option Act :=
  ((s.bank p).checkOffs seg offs).or (s.locateOffs p seg offs)

/-- Read 8 bytes at each offset in order: the dwords, or how the instruction ends instead. -/
def State.dwordReads (s : State) (p : Place) (seg : Nat) : List Word → State × Except Act (List Word)
  | [] => (s, .ok [])
  | off :: t =>
    match s.seatRead p seg off 8 8 with
    | (s, .error a) => (s, .error a)
    | (s, .ok bs) =>
      match s.dwordReads p seg t with
      | (s, .error a) => (s, .error a)
      | (s, .ok vs) => (s, .ok (leWord bs :: vs))

/-- The offsets of a constant-bank block. -/
def cbOffs (off : Word) : List Word := (List.range 32).map fun j => off + w64 (8 * j)

/-- The work of cbld (R137). -/
def cbldAct (seg b : Nat) (x : Ctx) (s : State) : Act :=
  match s.dwordReads x.p seg (cbOffs (x.v 0)) with
  | (_, .error a) => a
  | (s, .ok vals) =>
    if (s.bank x.p).openScene.isSome then .done (s.modBank x.p fun k => k.buffer 8 (.cbld b vals)) none none
    else .done (s.modCore x.p.core fun k => { k with
      cbNew := k.cbNew ++ (List.range vals.length).zipWith (fun i v => (s.clk, 32 * b + i, v)) vals }) none none

/-- cbld (R133, R137). DESIGN CHOICE (log 70): with CBCTL.LOCK = 1 and dwords that also fail R18 the LOCK trap comes
first. -/
def execCbld (f : FmtS) (s : State) : Out :=
  issueWait { srcs := [isrc f.ra], entries := 8 } f.hold
    (knowing fun x s => (cbOffs (x.v 0)).findSome? fun off => s.accessWait x.p (f.imm.toNat % 8) off 8 8 true false)
    (fun x s => match cbChk x s with
      | some a => some a
      | none => s.checkReads x.p (f.imm.toNat % 8) (cbOffs (x.v 0)))
    (cbldAct (f.imm.toNat % 8) (f.imm.toNat / 8 % 8)) s

end Sys2Proof.Machine
end

