-- ==== Sys2Proof/Machine/Engine.lean ====
section
/-! DEFINITION. The engine model (spec/13 R286-R293): COP issue, queues, steps, reads and writes of engines, their
messages, faults and parking; qfence (R277) and esync (R292). Engine registers stand in EngineRegs.lean. -/
namespace Sys2Proof.Machine

/-! Commands and queues. -/

/-- The engine of a queue key. -/
def keyEng (key : Nat) : Nat := key / 16
/-- The bank that issued a command. -/
def ECmd.place (e : ECmd) : Place := ⟨e.core, e.seat, e.bank⟩
/-- The seat number of a command's issuer as software sees it. -/
def ECmd.num (e : ECmd) : Nat := if e.seat = 8 then 7 else if e.task.isSome then 0 else e.seat
/-- A staging register of a command's copy. -/
def ECmd.st (e : ECmd) (n : Nat) : Nat := (mget e.stg n 0).toNat
/-- The head of an engine queue. -/
def State.headCmd (s : State) (c key : Nat) : Option ECmd := (s.queue c key).head?
/-- The state with the head of an engine queue changed. -/
def State.modHead (s : State) (c key : Nat) (f : ECmd → ECmd) : State :=
  s.modQueue c key fun l => match l with | e :: t => f e :: t | [] => []

/-- The engines of the core stop at their boundaries: curtain, fence, seizure (R413, R423, R428). The reflex queue of a
seized tile runs on under the curtain, and no other queue of engines 0, 1, 2 and 7 during a seizure. -/
def State.engStopped (s : State) (c key : Nat) : Bool :=
  let k := s.core c
  let eng := keyEng key
  k.fenced || (k.curtain && !(key == 4 && k.seized.isSome)) ||
  (k.seized.isSome && key != 4 && (eng == 0 || eng == 1 || eng == 2 || eng == 7))

/-! Spans of on-chip addresses, and the banks they touch (R233). -/

/-- A span of the issuer's on-chip map touches bank `b` of tile `c` (R233, R235). -/
def spanNames (c b : Nat) (sp : Nat × Nat) : Bool :=
  let lo := sp.1
  let hi := sp.1 + sp.2
  sp.2 != 0 &&
  ((lo < (b + 1) * 0x8000 && b * 0x8000 < hi) ||
   (!Config.isX c && 16 ≤ b && b < 24 && 0x40_0000 < hi && lo < 0x80_0000 &&
    (let q0 := max ((max lo 0x40_0000 - 0x40_0000) / 256) ((b - 16) * 2048)
     let q1 := min ((hi - 1 - 0x40_0000) / 256) ((b - 15) * 2048 - 1)
     q0 + (Config.tileIdx c + 16 - q0 % 16) % 16 ≤ q1)))

/-- Bits of a geometry register of a matrix command (R294). -/
structure Geom where
  zero : Bool
  acc : Nat
  nt : Nat
  mt : Nat
  nk : Nat
/-- MGEOM. -/
def Geom.of (v : Nat) : Geom := ⟨bit v 20, bits v 19 17, bits v 16 14 + 1, bits v 13 12 + 1, bits v 11 0 + 1⟩

/-- An operand of an mma (R295, R298): source word, specifier of an operand in no typed bank, its scale word, tiles along
it, strides. -/
structure Opnd where
  word : Nat
  spec : Nat
  scl : Nat
  n : Nat
  istr : Nat
  kstr : Nat

/-- Bytes of an mdrain tile (R306): FP32, FP16, BF16, or the container of MDFMT. -/
def tileBytes (ofmt spec : Nat) : Nat :=
  match ofmt with | 0 => 4096 | 1 => 2048 | 2 => 2048 | _ => 128 * (Narrow.of spec).cont

/-- KIND, base address or offset, and core or segment of a source word (R295). -/
def srcKind (w : Nat) : Nat := w % 4
/-- The address or offset that a source word names. -/
def srcBase (w : Nat) : Nat :=
  match w % 4 with | 0 => bits w 31 2 * 4 | 1 => bits w 20 2 * 4 | _ => bits w 63 6 * 64
/-- Address of block (i, kk) of an operand (R298). -/
def Opnd.at_ (o : Opnd) (i kk : Nat) : Nat := srcBase o.word + i * o.istr + kk * o.kstr
/-- The A operand of a matrix command. -/
def ECmd.opA (e : ECmd) : Opnd :=
  ⟨e.sa.toNat, e.st 3 % 2 ^ 32, e.st 5, (Geom.of (e.st 0)).mt, bits (e.st 1) 63 32, bits (e.st 1) 31 0⟩
/-- The B operand of a matrix command. -/
def ECmd.opB (e : ECmd) : Opnd :=
  ⟨e.sb.toNat, e.st 4 % 2 ^ 32, e.st 6, (Geom.of (e.st 0)).nt, bits (e.st 2) 63 32, bits (e.st 2) 31 0⟩

/-- BFMT of bank b of a core. -/
def State.bfmt (s : State) (c b : Nat) : Nat := (s.crCore c (0x1c0 + b)).toNat
/-- TYPED. -/
def bfTyped (v : Nat) : Bool := bit v 32
/-- Start of the scale area, in bytes (R233). -/
def bfScale (v : Nat) : Nat := 256 * (if bits v 46 40 = 0 then 120 else bits v 46 40)
/-- An address is in the local store of a D-tile or the locked SRAM of an X-tile. -/
def inStore (c a : Nat) : Bool := a < (if Config.isX c then 0x20_0000 else 0xc_0000)

/-- Bytes of a block of an mma whose operand is in a bank with format `bf`, or in none. -/
def blockBytes (op spec : Nat) (bf : Option Nat) : Nat :=
  match op with
  | 1 => 128 * (Narrow.of (match bf with | some v => (if bfTyped v then v % 2 ^ 32 else spec) | none => spec)).cont
  | 4 => 4096
  | _ => 2048

/-- Block length of a specifier's scales, or 0. -/
def specBlk (spec : Nat) : Nat := (Narrow.of spec).blk
/-- Scale bytes of a whole operand with no typed bank (R298). -/
def Opnd.scaleBytes (o : Opnd) (nk : Nat) : Nat :=
  if specBlk o.spec = 0 then 0 else 2 * (o.n * nk * 32 * (32 / specBlk o.spec))

/-- On-chip spans of the operand of an mma on tile c (R233): its blocks at their largest size, and its scales. -/
def Opnd.spans (o : Opnd) (nk op : Nat) : List (Nat × Nat) :=
  (if srcKind o.word = 0 then (List.range o.n).flatMap fun i => (List.range nk).map fun kk =>
    (o.at_ i kk, if op = 1 then 1024 else blockBytes op 0 none) else []) ++
  (if op = 1 ∧ srcKind o.scl = 0 then [(srcBase o.scl, o.scaleBytes nk)] else [])

/-- Span of positions of a copy traversal: the largest offset visited plus 1 (R318); strides from register `n`. -/
def copySpan (e : ECmd) (n : Nat) : Nat :=
  bits (e.st 0) 19 0 + 1 + ((List.range 5).map fun k => (e.st (n + k)) * (bits (e.st (1 + k)) 15 0)).sum
/-- Lowest and highest source offset of a copy, relative to its base (R318: signed strides). -/
def copySrcLo (e : ECmd) : Int :=
  ((List.range 5).map fun k => min 0 ((mget e.stg (0x11 + k) 0).toInt * (bits (e.st (1 + k)) 15 0))).sum
/-- Highest source offset, exclusive. -/
def copySrcHi (e : ECmd) : Int :=
  bits (e.st 0) 19 0 + 1 + ((List.range 5).map fun k => max 0 ((mget e.stg (0x11 + k) 0).toInt * (bits (e.st (1 + k)) 15 0))).sum
/-- Base position of a copy address word (R316). -/
def copyBase (w : Nat) : Nat :=
  match bits w 63 62 with | 0 => bits w 31 0 | 1 => bits w 20 0 | _ => bits w 58 0
/-- A copy address word lies in the issuer's own store. -/
def copyOwn (c w : Nat) : Bool := bits w 63 62 == 0 || (bits w 63 62 == 1 && bits w 30 21 == c)

/-- The on-chip spans of the issuing tile that a command may read or write (R233). -/
def ECmd.spans (e : ECmd) : List (Nat × Nat) :=
  let g := Geom.of (e.st 0)
  let dest := fun (w n : Nat) => if bit w 54 then [(w % 2 ^ 21, n)] else []
  match e.eng with
  | 0 =>
    if 1 ≤ e.op ∧ e.op ≤ 4 then e.opA.spans g.nk e.op ++ e.opB.spans g.nk e.op
    else if e.op = 8 then
      dest e.sa.toNat (((List.range 8).filter (bit (e.st 7) ·)).length * tileBytes (bits (e.st 7) 10 8) (e.st 8))
    else []
  | 1 =>
    let conv := 0x8000
    (if e.op = 0 ∧ copyOwn e.core e.sa.toNat then
      [(((copyBase e.sa.toNat : Int) + copySrcLo e).toNat, (copySrcHi e - copySrcLo e).toNat),
       (copyBase e.sa.toNat / conv * conv, 1)] else []) ++
    (if copyOwn e.core e.sb.toNat then
      [(copyBase e.sb.toNat, copySpan e 0x19), (copyBase e.sb.toNat / conv * conv, 1)] else [])
  | 2 =>
    if e.op = 0 then
      [(bits (e.st 1) 31 0, bits (e.st 0) 63 32 * (if bits (e.st 1) 33 32 = 0 then 4 else 2))] ++
      (if bit (e.st 2) 63 then [(bits (e.st 2) 31 0, 16 + bits (e.st 0) 63 32 / 8)] else []) ++
      (if bits (e.st 4) 15 0 = 0 then dest (e.st 7) 16 else [])
    else [(bits (e.st 0xa) 31 0, 8 * (bits (e.st 0xa) 47 32 + 1))]
  | 3 =>
    if e.op = 2 then [] else
      (0x40_0000 + e.sa.toNat, 32) :: (if e.op = 1 then dest e.sb.toNat (16 + 64 * (bits (e.st 0) 24 16 + 1)) else [])
  | 5 => if e.op = 1 then [] else [(e.sb.toNat, bits e.sa.toNat 28 16 + (if e.op = 2 then 16 else 0))]
  | 7 => ((List.range 24).filter (bit e.sb.toNat ·)).map fun b => (b * 0x8000, 0x8000)
  | _ => []

/-- A command names bank b of its issuer's tile (R233). -/
def ECmd.names (e : ECmd) (b : Nat) : Bool := e.task.isNone && e.spans.any (spanNames e.core b)

/-- A BFMT write in progress holds the command back (R233). -/
def State.bfHeld (s : State) (c : Nat) (e : ECmd) : Bool :=
  (placesOf c).any fun p => match (s.bank p).wip with
    | .bfmt b _ _ below => below ≤ e.id && e.names b
    | _ => false

/-- The key of the queue of the context-save engine. -/
def saveKey : Nat := 112
/-- Rows of a save area's body for a content mask (R417). -/
def saveRowCount (m : Nat) : Nat :=
  128 * ((List.range 24).filter (bit m)).length + 128 * bits m 24 24 + 33 * bits m 25 25 + 8 * bits m 26 26
/-- A crestore of the core that has come to its last step, the writes of the format registers and of LUT4 (R419). -/
def State.restoreLast (s : State) (c : Nat) : Option ECmd :=
  (s.headCmd c saveKey).filter fun e => e.op == 1 && e.started && e.state == 1 && decide (2 + saveRowCount (e.sb.toNat % 2 ^ 27) ≤ e.step)
/-- An operation that names a bank, and that has started or issued before the crestore, has still to complete (R233, R419). -/
def State.restoreNames (s : State) (c : Nat) (e : ECmd) : Bool :=
  (s.core c).queues.any fun q => q.1 != saveKey && q.2.any fun o => (decide (o.id < e.id) || o.started) && (List.range 24).any o.names
/-- The last step of a crestore holds a command from starting: one that names a bank and issued after it (R233); and, once the
format registers wait for nothing, every one of the engines that read LUT4 (R283). -/
def State.restoreHeld (s : State) (c key : Nat) (o : ECmd) : Bool :=
  match s.restoreLast c with
  | some e => key != saveKey &&
    ((decide (e.id < o.id) && (List.range 24).any o.names) || (keyEng key ≤ 2 && !s.restoreNames c e))
  | none => false
/-- A vector store that a seat of core c issued outside a scene before number `id` has not been performed yet (R264, R310). -/
def State.storesBefore (s : State) (c seat id : Nat) : Bool :=
  (s.core c).vq.any fun v => v.stores && v.num == seat && v.sc == 0 && decide (v.id < id)
/-- The head of a queue may take a step: it is not parked or faulted, its engine is not stopped, and it has started or
no hold keeps it from starting (R283, R293). Every vector store that its seat issued before its COP is performed first
(R264). -/
def State.runnable (s : State) (c key : Nat) (e : ECmd) : Bool :=
  let eng := keyEng key
  e.state == 1 && !s.engStopped c key &&
  (e.started ||
    (!((eng == 0 || eng == 1 || eng == 2 || eng == 7) && s.lutHeld c) && !s.bfHeld c e &&
      !s.restoreHeld c key e && (e.task.isSome || !s.storesBefore e.core e.num e.id)))

/-! Energy (R314). -/

/-- A step's energy is charged to the issuing seat and to the command's slot; a tile task's to the slot only. -/
def State.chargeStep (s : State) (e : ECmd) (units : Nat) : State :=
  let s := s.modSlot e.slot fun q => { q with energy := q.energy + units }
  if e.task.isSome then s else s.modSeat e.core e.num fun t => { t with energy := t.energy + units }

/-- Add to a core's engine counter. -/
def State.engCount (s : State) (c eng n k : Nat) : State := s.setEregCore c eng n (s.eregCore c eng n + w64 k)
/-- Add to the counter of a cluster or die engine. -/
def State.unitCount (s : State) (u eng n k : Nat) : State := s.setEregUnit u eng n (s.eregUnit u eng n + w64 k)

/-! Completion and joins (R262, R264, R288). -/

/-- The key under which the timestamp of a completed command waits for its join: the commands of the reflex queue stand
under the queue that their COP names (R292, R424). -/
def ECmd.tsKey (e : ECmd) (key : Nat) : Nat := (if key = 4 then 4 + e.q % 4 else key) * 16 + e.seat + 2 * e.bank
/-- The head of a queue completes and leaves it; its timestamp waits for a join. -/
def State.complete (s : State) (c key : Nat) : State :=
  match s.headCmd c key with
  | some e =>
    (s.modQueue c key List.tail).modCore c fun k => { k with
      engTs := mset k.engTs (e.tsKey key) (max (mget k.engTs (e.tsKey key) 0) (max e.pts e.ts)) }
  | none => s

/-- The completed commands whose queue and seat `sel` picks are joined: CSTS rises (R262, R264). -/
def State.joinTs (s : State) (c : Nat) (sel : Nat → Nat → Bool) : State :=
  s.modCore c fun k => { k with
    csts := k.engTs.foldl (fun a e => if sel (e.1 / 16) (e.1 % 16) then max a e.2 else a) k.csts }

/-! Faults (R292, R305) and parking (R403). -/

/-- The head of a queue faults; its issuer's next covering esync will trap. -/
def State.engFault (s : State) (c key cause : Nat) (faddr : Word) : State :=
  match s.headCmd c key with
  | some e =>
    let s := s.modHead c key fun e => { e with state := 3, cause := cause, faddr := faddr, sent := false, bounced := false }
    s.modBank e.place fun b => { b with faults := b.faults ++ [(e.eng, e.q, faddr)] }
  | none => s

/-- The report of a second uncorrectable read (R249). -/
def State.engReportUE (s : State) (e : ECmd) (sec : Nat) : State :=
  s.faultMsg e.core e.num .memUncorrectable e.vcore.toNat (w64 sec) 0

/-- A step met uncorrectable data in sector `sec`: it is performed again once, then the command faults (R305). -/
def State.engBad (s : State) (c key sec : Nat) (faddr : Word) : State :=
  match s.headCmd c key with
  | some e =>
    let s := s.raiseUE c
    if e.retried then (s.engFault c key Cause.memUncorrectable.num faddr).engReportUE e sec
    else s.modHead c key fun e => { e with retried := true }
  | none => s

/-- The head of a queue parks on a page (R403); with no free entry it waits. -/
def State.parkCmd (s : State) (c key slot va : Nat) (sub : Bool) (faddr : Word) : State :=
  let cl := Config.clusterOf c
  let page := pageNo va sub
  let m := s.mmu cl
  let put := fun (s : State) => s.modHead c key fun e => { e with state := 2, faddr := faddr }
  if m.parks.any fun e => e.slot == slot && e.page == page && e.sub == sub then
    put (s.modMmu cl fun m => { m with parks := m.parks.map fun e =>
      if e.slot = slot ∧ e.page = page ∧ e.sub = sub then { e with cmds := e.cmds ++ [(c, key)] } else e })
  else if m.parks.length < 64 then
    let s := put (s.modMmu cl fun m => { m with parks := m.parks ++ [⟨slot, page, sub, [], [(c, key)]⟩] })
    match s.headCmd c key with
    | some e => s.faultMsg c e.num .pageAbsent e.vcore.toNat (w64 (if sub then page * 2 ^ 10 else page * 2 ^ 21))
        (w64 (slot + b2n sub * 2 ^ 8))
    | none => s
  else s

/-! Reads and writes of engines (R254, R264, R303). -/

/-- An engine's read is a unit by itself: the latest values at the homes, at a time not below `lo`. A read from a port comes
after the posted writes of the core to it (R264, R265). -/
def State.engRead (s : State) (c lo : Nat) (ks : List Nat) : State × List Byte × Nat :=
  let s := if ks.any isExt then s.flushExt fun w => w.core == c && isHost w.addr == isHost (ks.headD 0) else s
  let (s, t) := (linesOf ks).foldl (fun (a : State × Nat) l =>
    let (wts, rts) := a.1.lts l
    let t := max a.2 wts
    ({ a.1.l2Access c l with lines := mset a.1.lines l (wts, max rts (t + a.1.lease c)) }, t)) (s, lo)
  (s, memReads s.mem ks, t)

/-- An engine's write is a unit by itself, at a time above `lo` and every reader's lease. -/
def State.engWrite (s : State) (c lo : Nat) (cells : List Host.Cell) : State × Nat :=
  let ls := linesOf (cells.map (·.1))
  let ts := ls.foldl (fun a l => max a ((s.lts l).2 + 1)) lo
  let s := ls.foldl (fun (s : State) l => { s.l2Access c l with lines := mset s.lines l (ts, ts) }) s
  let s := if cells.any fun x => isExt x.1 then
    s.flushExt fun w => w.core == c && isHost w.addr == isHost ((cells.headD (0, 0)).1) else s
  (s.poke c cells, ts)

/-- What an engine finds at an address. -/
inductive EFound where
  | ok (ks : List Nat)
  | park (va : Nat) (sub : Bool)
  | prot (va : Nat)
  /-- the walk met an uncorrectable sector (R249) -/
  | bad (sec : Nat)
  | rights
  /-- it is queued at the home slice of this address (R248) -/
  | wait (pa : Nat)
deriving DecidableEq, Repr

/-- Translate pieces of virtual addresses for the engine command `who` of core `c`, counting each on its page (R242, R247). -/
def State.engPieces (s : State) (who : Who) (c slot : Nat) (w : Bool) : List (Nat × Nat) → State × EFound
  | [] => (s, .ok [])
  | (va, n) :: t =>
    match s.translate (some who) c slot (va % 2 ^ 64) w false with
    | (s, .pa pa sub) =>
      if s.homeHeld (some who) pa then (s, .wait pa) else
      let s := s.countPage (Config.clusterOf c) slot (pageNo va sub) sub none
      match s.engPieces who c slot w t with
      | (s, .ok ks) => (s, .ok (keysFrom (s.redirect pa) n ++ ks))
      | r => r
    | (s, .absent sub) => (s, .park va sub)
    | (s, .prot) => (s, .prot va)
    | (s, .bad sec) => (s, .bad sec)
    | (s, .wait pa) => (s, .wait pa)
/-- The same for a whole access: one that a page move holds arrives at the home slice, and one that is made leaves it
(R248). -/
def State.engMap (s : State) (c id slot : Nat) (w : Bool) (l : List (Nat × Nat)) : State × EFound :=
  let who := Who.eng c id
  match s.engPieces who c slot w l with
  | (s, .wait pa) => ((s.joinAt who pa).getD s, .wait pa)
  | (s, .ok ks) => (s.leaveHome who, .ok ks)
  | r => r

/-- The first uncorrectable sector among some bytes. -/
def State.badSec (s : State) (ks : List Nat) : Option Nat :=
  (ks.find? fun k => s.ue.contains (k / 32)).map fun k => k / 32 * 32

/-! Messages of engines (R288, R307, R321). -/

/-- The sender tag of the engine of a queue in `Msg.seat`: engine stores are their own channel. -/
def engTag (key : Nat) : Nat := 100 + key
/-- The sender tag of a wake, which goes out as the send of its seat (R194). -/
def wakeTag (key num : Nat) : Nat := 1000 + key * 16 + num
/-- The tag of the engine queue that sent a message, or 0 for the core itself. -/
def Msg.sender (m : Msg) : Nat := if engTag 0 ≤ m.seat ∧ m.seat < wakeTag 0 0 then m.seat else 0
/-- The engine that sent a message; none for the core. The channel of R262 is of the engine, not of its queue. -/
def Msg.engine (m : Msg) : Option Nat := if m.sender = 0 then none else some (keyEng (m.sender - engTag 0))
/-- The sender tag of a winner message that is held at a stage door: its command has completed (R288). -/
def heldTag : Nat := 900
/-- A message of a command; it carries at least the command's timestamp. -/
def State.engMsg (s : State) (e : ECmd) (dst : Nat) (vdst : Option Nat) (tag : Nat) (b : Body) : Msg :=
  s.msg e.core dst vdst 2 false (max (s.core e.core).pts e.ts) tag b
/-- Hand a message of a command to the mesh. -/
def State.engPost (s : State) (e : ECmd) (dst : Nat) (vdst : Option Nat) (tag : Nat) (b : Body) : State :=
  s.enter (s.engMsg e dst vdst tag b)
/-- A message of a command is held at the stage door of its die (R175). -/
def State.engHold (s : State) (e : ECmd) (vdst : Option Nat) (tag : Nat) (b : Body) : State :=
  s.hold (Config.dieOf e.core) (s.engMsg e 0 vdst tag b)
/-- A store of an engine stands in the spill area of its core (R409). -/
def State.spilledOf (s : State) (c tag : Nat) : Bool := s.spilledAs c fun t _ => t == tag

/-- Remote stores of a queue that have not been written at their destination, other messages of it that have not been
delivered or held, or a refusal that has not come back. -/
def State.engOut (s : State) (c key : Nat) : Bool :=
  let f := fun (m : Msg) => m.src == c && m.seat == engTag key
  (s.net ++ (s.core c).outbox).any (fun m => f m || (m.dst == c && match m.body with | .bounce i _ _ => i == engTag key | _ => false)) ||
  s.stage.any (fun d => d.2.any f) || s.spilledOf c (engTag key)
/-- The wake of the head of a queue has not been delivered or held. -/
def State.wakeOut (s : State) (c key : Nat) : Bool :=
  let mine := fun t => decide (wakeTag key 0 ≤ t) && decide (t < wakeTag (key + 1) 0)
  (s.net ++ (s.core c).outbox).any (fun m => m.src == c && mine m.seat) || s.spilledAs c fun t _ => mine t

/-- How an engine's message or store is taken. -/
inductive ESent where
  | ok (s : State)
  | wait
  | bounce

/-- A remote store of a command to the destination word of R280 (R288, R307), with further pieces of the same unit at other
offsets of the destination (R321). -/
def State.engStore (s : State) (e : ECmd) (key : Nat) (w : Word) (bytes : List Byte)
    (more : List (Nat × List Byte) := []) : ESent :=
  let off := bits w.toNat 20 0
  let v := if bit w.toNat 53 then none else some (bits w.toNat 52 21)
  let body := if more.isEmpty then Body.store off bytes (engTag key) e.bank else .stores ((off, bytes) :: more)
  match s.rstDest e.core w with
  | .to_ c =>
    if ((off, bytes) :: more).any fun x => !rstFits c x.1 x.2.length then .bounce
    else if s.outRoom e.core body.spill then .ok (s.engPost e c v (engTag key) body) else .wait
  | .held =>
    if s.doorRoom (Config.dieOf e.core) then
      .ok (s.engHold e v (engTag key) body)
    else .wait
  | .bounce => .bounce

/-- The wake of a command: it sends `v` to the word of R193 as the issuing seat's send would (R194, R307). None while the
stage door, or the network interface, is full. -/
def State.engWake (s : State) (e : ECmd) (key : Nat) (w v : Word) : Option State :=
  let n := w.toNat
  let tag := wakeTag key e.num
  if !bit n 63 then some s else
  let body := Body.mail (bits n 34 32) (bits n 39 35) v
  match s.sendTo e.core (w &&& 0x7fff_ffff_ffff_ffff) v with
  | .mail d vd => if s.outRoom e.core 32 then some (s.engPost e d vd tag body) else none
  | .start d off => if s.outRoom e.core 32 then some (s.engPost e d none tag (.start off)) else none
  | .held vc =>
    if s.doorRoom (Config.dieOf e.core) then
      some (s.engHold e (some vc) tag body)
    else none
  | .bounce => some (s.mailLand e.core e.num 31 (bounceWord (bits n 31 0) (bits n 34 32) (bits n 39 35) Cause.msgBounce.num))

/-- The end of a command: its stores are written, then its wake is sent, and it completes once the wake has been delivered or is
held (R288). `ack` and `room` count its waits for acknowledgements and for room. -/
def State.engFinish (s : State) (c key : Nat) (e : ECmd) (w v : Word) (ack room fin : State → State) : State :=
  if s.engOut c key then ack s
  else if s.wakeOut c key then s
  else if e.woke then fin s
  else match s.engWake e key w v with
    | none => room s
    | some s =>
      let s := s.modHead c key fun e => { e with woke := true }
      if s.wakeOut c key then s else fin s

/-! Bytes of DRAM that an engine names by physical address (R358, R367), past a page move (R248). -/

/-- What such a read finds. -/
inductive DRead where
  | ok (bs : List Byte) (t : Nat)
  | bad (sec : Nat)
  /-- it is queued at the home slice of this address (R248) -/
  | wait (pa : Nat)

/-- The bytes at some physical addresses. -/
def State.dramBytes (s : State) (ks : List Nat) : List Byte := memReads s.mem (ks.map s.redirect)
/-- The access of an engine command arrives at the home slice that holds it (R248); the command goes on later. -/
def State.engJoin (s : State) (c id pa : Nat) : State := (s.joinAt (.eng c id) pa).getD s
/-- A read of the engine command `id` of core `c` on the coherent path. -/
def State.dramRead (s : State) (c id lo : Nat) (ks : List Nat) : State × DRead :=
  match ks.find? (s.homeHeld (some (.eng c id)) ·) with
  | some pa => (s, .wait pa)
  | none =>
  let s := s.leaveHome (.eng c id)
  match s.badSec (ks.map s.redirect) with
  | some sec => (s, .bad sec)
  | none => let (s, bs, t) := s.engRead c lo (ks.map s.redirect); (s, .ok bs t)

/-! COP issue (R286, R287). -/

/-- Presence (R287 step 2, R424). -/
def engChk (eng : Nat) (x : Ctx) (_ : State) : Option Act :=
  if x.p.reflex && !(eng == 0 || eng == 5 || eng == 6) then some (.trap .engineAbsent 0 none) else none

/-- Commands in a queue and room reserved in it by COPs of other seats whose commit is in progress (R287). -/
def State.queueLoad (s : State) (p : Place) (key : Nat) : Nat :=
  (s.queue p.core key).length +
  ((placesOf p.core).filter fun q => q != p && (s.bank q).copRoom == some key).length
/-- Room (R287 step 4). -/
def copRoomChk (key : List Word → Nat) (x : Ctx) (s : State) : Option Act :=
  if s.queueLoad x.p (key x.vals) < 8 then none
  else if x.p.reflex then some (.trap .reflexBlock 0 none) else some (.wait .engine)

/-- A failed check of an operation traps ENGINE_DESC (R287 step 3). -/
def descChk (f : Ctx → State → Bool) (x : Ctx) (s : State) : Option Act :=
  if f x s then some (.trap .engineDesc 0 none) else none

/-- The queue of a command: the reflex queue for engine 0 of a seized tile's reflex bank (R424), and one queue per die for
engines 4 and 5 (R328, R366). -/
def copKey (eng q : Nat) (reflex : Bool) (vals : List Word) : Nat :=
  let a := (vals.getD 0 0).toNat
  match eng with
  | 0 => if reflex then 4 else q
  | 4 => 64 + b2n (bit a 8) * 4 + q
  | 5 => 80 + b2n (bit a 12) * 4 + q
  | _ => eng * 16 + q

/-- The command that a COP forms (R287 step 6). -/
def State.formCmd (s : State) (p : Place) (eng q op : Nat) (a b : Word) : ECmd :=
  let k := s.bank p
  { id := (s.core p.core).ids, eng := eng, q := q, op := op, sa := a, sb := b
    stg := (k.staging.filter fun x => x.1 / 512 == eng).map fun x => (x.1 % 512, x.2)
    segs := k.segs, frm := k.frm, core := p.core, seat := p.seat, bank := p.bank
    slot := k.cslot.toNat, vcore := k.vcore, pts := (s.core p.core).pts
    started := false, step := 0, state := 1, cause := 0, faddr := 0, retried := false, ts := 0, task := none
    sent := false, bounced := false, woke := false
    reflex := p.seat == 8, aux := .none }

/-- Issue a COP: presence, the operation's checks, room, the commit, and the command enters its queue. -/
def cop (eng q op : Nat) (sa sb : BitVec 6) (hold : BitVec 2) (chk : ECmd → Ctx → State → Option Act) (s : State) : Out :=
  let reflex := s.cur.seat == 8
  issueChk { srcs := [isrc sa, isrc sb], closes := true
             keep := fun x s => s.modBank x.p fun b => { b with copRoom := some (copKey eng q reflex x.vals) } } hold
    (chks [engChk eng, fun x s => chk (s.formCmd x.p eng q op (x.v 0) (x.v 1)) x s, copRoomChk (copKey eng q reflex)])
    (fun x s =>
      let e := s.formCmd x.p eng q op (x.v 0) (x.v 1)
      .done ((s.modQueue x.p.core (copKey eng q reflex x.vals) (· ++ [e])).modCore x.p.core fun k =>
        { k with ids := k.ids + 1 }) none none) s

/-- An operation with no checks of its own. -/
def noChk (_ : ECmd) (_ : Ctx) (_ : State) : Option Act := none

/-! qfence (R277). -/

/-- A command issued before `below` to a masked queue of the engines named has not completed. -/
def State.qfBusy (s : State) (c eng mask below : Nat) : Bool :=
  (s.core c).queues.any fun x => (eng == 8 || keyEng x.1 == eng) &&
    x.2.any fun e => e.id < below && (eng == 8 || bit mask e.q)
/-- The completed commands of the masked queues are joined. -/
def State.qfJoin (s : State) (c eng mask : Nat) : State :=
  s.joinTs c fun key _ => eng == 8 || (keyEng key == eng && bit mask (if eng = 1 then key % 16 else key % 4))

/-- The work of qfence and qfence.all. -/
def qfAct (eng : Nat) (mask : Ctx → Nat) (x : Ctx) (s : State) : Act :=
  let c := x.p.core
  match (s.bank x.p).wip with
  | .qf e m below => if s.qfBusy c e m below then .wait .engine else .done (s.qfJoin c e m) none none
  | _ =>
    let below := (s.core c).ids
    if s.qfBusy c eng (mask x) below then .begun (s.modBank x.p fun b => { b with wip := .qf eng (mask x) below })
    else .done (s.qfJoin c eng (mask x)) none none

/-- qfence (R276, R277). -/
def execQfence (f : FmtQf) (s : State) : Out :=
  issue { srcs := [isrc f.ra] } f.hold (qfAct f.eng.toNat fun x => (x.v 0).toNat) s
/-- qfence.all (R276, R277). -/
def execQfenceAll (f : FmtS) (s : State) : Out :=
  issue { srcs := [] } f.hold (qfAct 8 fun _ => 0) s

/-! esync (R292). -/

/-- The seat's own commands in masked queues of an engine that have not completed. -/
def State.esyncBusy (s : State) (p : Place) (eng mask : Nat) : Bool :=
  (s.core p.core).queues.any fun x => keyEng x.1 == eng &&
    x.2.any fun e => e.task.isNone && e.seat == p.seat && e.bank == p.bank && bit mask (e.q % 4)
/-- The masked queues of an engine that hold no command of any seat of the core. -/
def State.emptyQueues (s : State) (c eng mask : Nat) : Nat :=
  ((List.range 4).map fun q => if bit mask q && !((s.core c).queues.any fun x => keyEng x.1 == eng &&
    x.2.any fun e => e.task.isNone && e.q % 4 == q) then 2 ^ q else 0).sum
/-- The first fault not yet reported that the mask covers. -/
def Bank.faultPos (b : Bank) (eng mask : Nat) : Option Nat :=
  b.faults.findIdx? fun f => f.1 == eng && bit mask (f.2.1 % 4)

/-- esync waits under the engine cause while a command that it covers has not completed and no fault is to be reported. -/
def esyncWaits (eng mask : Nat) : Waits := fun x s =>
  if ((s.bank x.p).faultPos eng mask).isNone && s.esyncBusy x.p eng mask then some .engine else none

/-- The work of esync, once its wait has ended. -/
def esyncAct (eng mask words : Nat) (x : Ctx) (s : State) : Act :=
  let b := s.bank x.p
  match b.faultPos eng mask with
  | some i =>
    let f := b.faults.getD i (0, 0, 0)
    .final ((s.modBank x.p fun b => { b with faults := dropAt b.faults i }).trapAt x.p .engineFault
      (eng + 8 * (f.2.1 % 4)) (some f.2.2) x.pc words x.word)
  | none =>
    let s := s.joinTs x.p.core fun key tag => keyEng key == eng && tag == x.p.seat + 2 * x.p.bank && bit mask (key % 4)
    .done s (some (w64 (s.emptyQueues x.p.core eng mask))) none

/-- esync (R290, R292). -/
def execEsync (f : FmtEsy) (s : State) : Out :=
  issueWait { srcs := [], dst := some f.sa.toNat, lat := .fixed 2 } f.hold (esyncWaits f.eng.toNat f.mask.toNat)
    (engChk f.eng.toNat)
    (esyncAct f.eng.toNat f.mask.toNat 1) s

end Sys2Proof.Machine
end

