-- ==== Sys2Proof/Machine/Space.lean ====
section
/-! DEFINITION. The spaces that engine operands and results lie in (R295, R316): their checks at issue (R299, R319), the
bytes a step finds in them, and packed arrays of narrow elements in banks (R71, R234). -/
namespace Sys2Proof.Machine

/-- Where an engine's bytes lie: the issuing tile's on-chip map, another tile's store, a segment on the global path. -/
inductive Space where
  | own
  | tile (c : Nat)
  | glob (seg : Nat)
deriving DecidableEq, Repr

/-- The mapped ranges of a tile's on-chip space (R231). -/
def tileRanges (c : Nat) : List (Nat × Nat) :=
  if Config.isX c then [(0, 0x20_0000)]
  else [(0, 0xc_0000), (0x10_0000, 0x10_8000), (0x40_0000, 0x80_0000), (0x100_0000, 0x500_0000), (0x500_0000, 0x900_0000)]
/-- A span lies wholly within one mapped range. -/
def oneRange (c a n : Nat) : Bool := (tileRanges c).any fun r => r.1 ≤ a && a + n ≤ r.2
/-- Addresses of a span that decide whether it is reserved: its first byte and every multiple of 256 within. -/
def spanProbe (a n : Nat) : List Nat :=
  if n = 0 then [] else a :: ((List.range (n / 256 + 1)).map fun i => (a / 256 + i + 1) * 256).filter (· < a + n)
/-- Some byte of an on-chip span of tile `c` is reserved for the bank `p` (R232). -/
def State.spanReserved (s : State) (p : Place) (c a n : Nat) : Bool :=
  (spanProbe a n).any fun x => match onchipByte c x with | some k => s.reservedFor p k | none => false
/-- A byte belongs to the reflex window of a tile in a seizure group, and the command is not that tile's reflex (R232). -/
def State.nowReserved (s : State) (e : ECmd) (k : Nat) : Bool :=
  match tileOfKey k with
  | some (c, off) =>
    !Config.isX c && 0xb_0000 ≤ off && off < 0xc_0000 && (s.groupOf c).isSome && !(e.reflex && c == e.core)
  | none => false

/-- The bytes of an access of a step: translated, or found on chip and checked again for reservation when `again`
(R299, R305). -/
def State.spaceKeys (s : State) (e : ECmd) (sp : Space) (a n : Nat) (w again : Bool) : State × EFound :=
  match sp with
  | .own =>
    let ks := (List.range n).map fun i => onchipByte e.core (a + i)
    if ks.any fun k => match k with | some k => again && s.nowReserved e k | none => true then (s, .rights)
    else match (ks.filterMap id).find? (s.farKey e.core) with
      | some k => (s, .wait k)
      | none => (s, .ok (ks.filterMap id))
  | .tile c =>
    let ks := keysFrom (Config.tileKey c a) n
    if again && ks.any (s.nowReserved e) then (s, .rights) else (s, .ok ks)
  | .glob g =>
    let base := (mget e.segs g ⟨0, 0, 0⟩).base.toNat
    s.engMap e.core e.id e.slot w (kPieces (base + a) n)

/-- The offset at which a step's access failed: a virtual address of the segment turned back into an offset. -/
def foundOff (e : ECmd) (sp : Space) (va a : Nat) : Word :=
  match sp with
  | .glob g => w64 va - (mget e.segs g ⟨0, 0, 0⟩).base
  | _ => w64 a

/-- What a failed access does to the head of a queue (R305, R325). -/
def State.notFound (s : State) (e : ECmd) (key : Nat) (sp : Space) (a : Nat) (fault : State → Nat → Word → State) :
    EFound → State
  | .park va sub => s.parkCmd e.core key e.slot va sub (foundOff e sp va a)
  | .prot va => fault s Cause.protPage.num (foundOff e sp va a)
  | .rights => fault s Cause.segRights.num (w64 a)
  | .bad sec => s.engBad e.core key sec (w64 a)
  | _ => s

/-! Packed arrays of narrow elements (R71, R234). -/

/-- Code in container i of a byte array. -/
def contAt (bs : List Byte) (cont i : Nat) : Nat := (bs.getD (i * cont / 8) 0).toNat / 2 ^ (i * cont % 8) % 2 ^ cont
/-- Bytes of consecutive containers of a width that divides 8. -/
def packCodes (cont : Nat) (codes : List Nat) : List Byte :=
  let per := 8 / cont
  (List.range (codes.length / per)).map fun j =>
    BitVec.ofNat 8 (((List.range per).map fun i => codes.getD (j * per + i) 0 % 2 ^ cont * 2 ^ (cont * i)).sum)
/-- The scale of block k of a typed bank of a core: 0x1ff beyond the end of the bank (R234). -/
def State.bankScale (s : State) (c b bf k : Nat) : Nat :=
  let o := bfScale bf + 2 * k
  if 0x8000 ≤ o + 1 then 0x1ff else leNat (memReads s.mem (keysFrom (Config.tileKey c (b * 0x8000 + o)) 2)) % 512
/-- The keys of the scale of block k of a bank, when it has one. -/
def bankScaleKeys (c b bf k : Nat) : List Nat :=
  let o := bfScale bf + 2 * k
  if 0x8000 ≤ o + 1 then [] else keysFrom (Config.tileKey c (b * 0x8000 + o)) 2

end Sys2Proof.Machine
end

