-- ==== Sys2Proof/Machine/Matrix.lean ====
section
/-! DEFINITION. Engine 0, the matrix engine, and the tile-task scheduler (spec/13 R294-R311). -/
namespace Sys2Proof.Machine

/-! Commands. -/

/-- An mma, or the mma of a tile task. -/
def ECmd.isMma (e : ECmd) : Bool := 1 ≤ e.op && e.op ≤ 4
/-- Geometry of a command; a task takes ZERO as 1 (R309). -/
def ECmd.geom (e : ECmd) : Geom := { Geom.of (e.st 0) with zero := (Geom.of (e.st 0)).zero || e.task.isSome }
/-- The accumulators a command names (R302). -/
def ECmd.accs (e : ECmd) : List Nat :=
  if e.isMma then (List.range (e.geom.mt * e.geom.nt)).map (e.geom.acc + ·)
  else (List.range 8).filter fun t => bit (if e.op = 0 then e.sa.toNat else e.st 7) t
/-- Steps of the mma of a command: quarter steps on an X-tile (R300). -/
def ECmd.mmaSteps (e : ECmd) : Nat := e.geom.nk * e.geom.mt * e.geom.nt * (if Config.isX e.core then 4 else 1)

/-- The space of a source word, with the core a KIND 1 word names (R295). -/
def srcSpace (w : Nat) : Space :=
  match w % 4 with | 0 => .own | 1 => .tile (bits w 41 32) | _ => .glob (bits w 4 2)
/-- The core whose store a block at `a` lies in, if it lies in one. -/
def srcOwner (c w a : Nat) : Option Nat :=
  match w % 4 with
  | 0 => if inStore c a then some c else none
  | 1 => some (bits w 41 32)
  | _ => none

/-- The format registers of the cores whose stores an operand may lie in. -/
def State.bfList (s : State) (c w : Nat) : List Word :=
  match w % 4 with
  | 0 => (List.range (if Config.isX c then 64 else 24)).map fun b => w64 (s.bfmt c b)
  | 1 => (List.range 24).map fun b => w64 (s.bfmt (bits w 41 32) b)
  | _ => []
/-- The format register of the bank that a block at `a` lies in, if any. -/
def bankFmt (c w : Nat) (bf : List Word) (a : Nat) : Option Nat :=
  (srcOwner c w a).map fun _ => (bf.getD (a / 0x8000) 0).toNat
/-- The block is in a typed bank. -/
def typedAt (c w : Nat) (bf : List Word) (a : Nat) : Bool := match bankFmt c w bf a with | some v => bfTyped v | none => false

/-! Checks (R299). -/

/-- A KIND 0 or KIND 1 span fails R299. A task may name any core of its cluster, and no local store by KIND 0 (R311). -/
def State.spanBad (s : State) (p : Place) (task : Bool) (w a n : Nat) : Bool :=
  let c := p.core
  if w % 4 = 0 then
    !oneRange c a n || s.spanReserved p c a n || (task && inStore c a) ||
    (inStore c a && (a % 256 != 0 || a / 0x8000 != (a + n - 1) / 0x8000 ||
      (bfTyped (s.bfmt c (a / 0x8000)) && bfScale (s.bfmt c (a / 0x8000)) < a % 0x8000 + n))) ||
    (!inStore c a && 0x40_0000 ≤ a && a % 256 != 0)
  else
    let o := bits w 41 32
    Config.cores ≤ o || Config.isX o || Config.isX c || Config.clusterOf o != Config.clusterOf c || (o == c && !task) ||
    0xc_0000 < a + n || a % 256 != 0 || a / 0x8000 != (a + n - 1) / 0x8000 ||
    (bfTyped (s.bfmt o (a / 0x8000)) && bfScale (s.bfmt o (a / 0x8000)) < a % 0x8000 + n) ||
    (spanProbe a n).any fun x => s.reservedFor p (Config.tileKey o x)

/-- A streamed span fails R18 against the copied segment with rights R and G (R299). -/
def streamBad (e : ECmd) (w lo n : Nat) : Bool :=
  let g := mget e.segs (bits w 4 2) ⟨0, 0, 0⟩
  !g.r || !g.g || g.limit.toNat < lo + n

/-- KIND 3, or a KIND that the tile or the reflex does not accept (R295, R424). -/
def kindBad (p : Place) (w : Nat) : Bool :=
  w % 4 == 3 || (Config.isX p.core && w % 4 != 0) || (p.seat == 8 && w % 4 == 2)

/-- An operand of an mma fails the checks of R299. -/
def State.opndBad (s : State) (p : Place) (e : ECmd) (o : Opnd) : Bool :=
  let c := p.core
  let nk := e.geom.nk
  let bf := s.bfList c o.word
  let ij := (List.range o.n).flatMap fun i => (List.range nk).map fun kk => (i, kk)
  kindBad p o.word ||
  (if o.word % 4 = 2 then
    let n := blockBytes e.op o.spec none
    (e.task.isSome && e.op == 1) || (ij.any fun x => o.at_ x.1 x.2 % 64 != 0) ||
    streamBad e o.word (srcBase o.word) ((o.n - 1) * o.istr + (nk - 1) * o.kstr + n)
  else
    (o.word % 4 == 1 && Config.cores ≤ bits o.word 41 32) ||
    ij.any fun x =>
      let a := o.at_ x.1 x.2
      s.spanBad p e.task.isSome o.word a (blockBytes e.op o.spec (bankFmt c o.word bf a))) ||
  (e.op == 1 && specBlk o.spec != 0 && (ij.any fun x => !typedAt c o.word bf (o.at_ x.1 x.2)) &&
    (kindBad p o.scl ||
      (if o.scl % 4 = 2 then streamBad e o.scl (srcBase o.scl) (o.scaleBytes nk)
       else s.spanBad p e.task.isSome o.scl (srcBase o.scl) (o.scaleBytes nk))))

/-- acc6 or acc7 of a tile in a seizure group, for any issuer but a reflex; any other accumulator for a reflex
(R299, R306, R424). -/
def State.accBad (s : State) (p : Place) (e : ECmd) : Bool :=
  if p.seat = 8 then e.accs.any (· < 6) else (s.groupOf p.core).isSome && e.accs.any (6 ≤ ·)

/-- The checks of an mma. -/
def State.mmaBad (s : State) (p : Place) (e : ECmd) : Bool :=
  7 < e.geom.acc + e.geom.mt * e.geom.nt - 1 || s.accBad p e || s.opndBad p e e.opA || s.opndBad p e e.opB

/-- A drain or result destination word and its wake word fail the checks of R307, for a span of n bytes. -/
def State.destBad (s : State) (p : Place) (dest wake n : Nat) : Bool :=
  (bit wake 63 && bit wake 41) ||
  (bit dest 54 && (bits dest 20 0 % 4 != 0 ||
    (n != 0 && (!inStore p.core (bits dest 20 0 + n - 1) || s.spanReserved p p.core (bits dest 20 0) n))))

/-- The checks of an mdrain (R306, R307). DESIGN CHOICE (log 36): MDFMT.BLK not 0, which R294 forbids and whose trap R307 lists
with LOCAL = 1, traps ENGINE_DESC for every LOCAL and OFMT. -/
def State.drainBad (s : State) (p : Place) (e : ECmd) : Bool :=
  let ofmt := bits (e.st 7) 10 8
  s.accBad p e || (bit e.sb.toNat 63 && bit e.sb.toNat 41) ||
  3 < ofmt || specBlk (e.st 8) != 0 ||
  s.destBad p e.sa.toNat 0 (e.accs.length * tileBytes ofmt (e.st 8))

/-- mzero (R297, R306). -/
def execMzero (f : FmtCop) (s : State) : Out :=
  cop 0 f.q.toNat 0 f.sa f.sb f.hold (fun e => descChk fun x s => s.accBad x.p e) s
/-- mma.n (R297). -/
def execMmaN (f : FmtCop) (s : State) : Out :=
  cop 0 f.q.toNat 1 f.sa f.sb f.hold (fun e => descChk fun x s => s.mmaBad x.p e) s
/-- mma.h (R297). -/
def execMmaH (f : FmtCop) (s : State) : Out :=
  cop 0 f.q.toNat 2 f.sa f.sb f.hold (fun e => descChk fun x s => s.mmaBad x.p e) s
/-- mma.bf (R297). -/
def execMmaBf (f : FmtCop) (s : State) : Out :=
  cop 0 f.q.toNat 3 f.sa f.sb f.hold (fun e => descChk fun x s => s.mmaBad x.p e) s
/-- mma.s (R297). -/
def execMmaS (f : FmtCop) (s : State) : Out :=
  cop 0 f.q.toNat 4 f.sa f.sb f.hold (fun e => descChk fun x s => s.mmaBad x.p e) s
/-- mdrain (R297). -/
def execMdrain (f : FmtCop) (s : State) : Out :=
  cop 0 f.q.toNat 8 f.sa f.sb f.hold (fun e => descChk fun x s => s.drainBad x.p e) s

/-! Tile tasks: the scheduler of a cluster (R309-R311). -/

/-- A cluster's scheduler. -/
def State.sched (s : State) (cl : Nat) : Sched := mget s.scheds cl ⟨[], [], []⟩
/-- The state with a scheduler changed. -/
def State.modSched (s : State) (cl : Nat) (f : Sched → Sched) : State :=
  { s with scheds := mset s.scheds cl (f (s.sched cl)) }
/-- TTCTL.LOG. -/
def State.ttLog (s : State) (cl : Nat) : Nat := min 11 ((s.eregUnit cl 0 0x181).toNat % 16)
/-- Keys of n bytes of task record i from byte o on (R309). -/
def State.taskKeys (s : State) (cl i o n : Nat) : List Nat :=
  let size := 64 * 2 ^ s.ttLog cl
  let base := (s.eregUnit cl 0 0x180).toNat / size * size
  (keysFrom (0x40_0000 + (base + 64 * i + o) % 0x40_0000) n).filterMap (onchipByte (Config.tileOf cl 0))
/-- A dword of a task record. -/
def State.taskDword (s : State) (cl i d : Nat) : Nat := leNat (memReads s.mem (s.taskKeys cl i (8 * d) 8))
/-- Uncorrectable data in a task record. It is not delivered (R249): what the scheduler would do with the record is not done,
and it is reported (DESIGN CHOICE, log 22). -/
def State.taskBad (s : State) (cl i : Nat) : Option Nat := (s.taskKeys cl i 0 64).find? fun k => s.ue.contains (k / 32)
/-- Write dword 0 of a record with its STATE changed, as a unit of core `c`. -/
def State.taskState (s : State) (cl i c st : Nat) : State :=
  match s.taskBad cl i with
  | some k => s.reportUE c k
  | none =>
  let d := s.taskDword cl i 0
  (s.engWrite c (s.core c).pts ((s.taskKeys cl i 0 8).zip (leBytes 8 (d - bits d 18 16 * 2 ^ 16 + st * 2 ^ 16)))).1
/-- The fault message of a task (R310, R311, R410). -/
def State.taskReport (s : State) (c i q : Nat) (faddr : Word) : State :=
  s.faultMsg c 0 .engineFault 0 faddr (w64 (q * 2 ^ 3 + i * 2 ^ 16))

/-- One decrement of DEP of record i, made by core `c` (R310). -/
def State.taskDec (s : State) (cl i c : Nat) : State :=
  match s.taskBad cl i with
  | some k => s.reportUE c k
  | none =>
  let d := s.taskDword cl i 0
  if bits d 15 0 = 0 then (s.taskState cl i c 4).taskReport c i 0 0
  else
    let s := (s.engWrite c (s.core c).pts ((s.taskKeys cl i 0 8).zip (leBytes 8 (d - 1)))).1
    if bits d 15 0 = 1 ∧ bits d 18 16 = 1 then s.modSched cl fun t => { t with ready := t.ready ++ [i] } else s

/-- The reservation of a doorbell of a cluster, in `Bank.copRoom` (R310). -/
def mtaskKey (cl : Nat) : Nat := 4096 + cl
/-- Doorbells of a cluster, and places reserved by mtasks of other seats whose commit is in progress (R287, R310). -/
def State.bellLoad (s : State) (p : Place) (cl : Nat) : Nat :=
  (s.sched cl).bells.length + (s.banks.filter fun b => b.1 != p.key && b.2.copRoom == some (mtaskKey cl)).length

/-- The checks of mtask: an X-seat, a reflex; EN = 0; a full doorbell queue makes it wait (R310). -/
def mtaskChk (x : Ctx) (s : State) : Option Act :=
  if x.p.reflex then some (.trap .engineAbsent 0 none) else
  let cl := Config.clusterOf x.p.core
  if !(s.eregUnit cl 0 0x181).getLsbD 4 then some (.trap .engineDesc 0 none)
  else if 64 ≤ s.bellLoad x.p cl then some (.wait .engine)
  else none

/-- mtask (R297, R310): the doorbell of the issuer's cluster. -/
def execMtask (f : FmtCop) (s : State) : Out :=
  issueChk { srcs := [isrc f.sa, isrc f.sb], closes := true
             keep := fun x s => s.modBank x.p fun b => { b with copRoom := some (mtaskKey (Config.clusterOf x.p.core)) } }
    f.hold mtaskChk
    (fun x s =>
      let cl := Config.clusterOf x.p.core
      let i := bits (x.v 0).toNat 10 0 % 2 ^ s.ttLog cl
      .done (s.modSched cl fun t => { t with
        bells := t.bells ++ [⟨i, (s.bank x.p).cslot.toNat, x.p.core, x.p.num, (s.core x.p.core).ids⟩] }) none none) s

/-- TILE_TASK_POST (R310): the scheduler takes its next doorbell, once every vector store that its seat issued before the
mtask has been performed (R264). -/
def State.taskPost (s : State) (cl : Nat) : State :=
  match (s.sched cl).bells with
  | b :: t =>
    if s.storesBefore b.core b.seat b.below then s else
    (s.modSched cl fun k => { k with bells := t, posted := mset k.posted b.index (b.slot, b.core) }).taskDec cl b.index b.core
  | [] => s

/-- The command of task record i on tile c (R309, R311). -/
def State.taskCmd (s : State) (cl i c : Nat) : ECmd :=
  let d := s.taskDword cl i
  let slot := (mget (s.sched cl).posted i (0, c)).1
  let poster := (mget (s.sched cl).posted i (0, c)).2
  let g := Geom.of (d 3)
  let ctl := d 7 / 256 * 256 + ((List.range (min 8 (g.mt * g.nt))).map fun t => 2 ^ (g.acc + t)).sum % 256
  { id := (s.core c).ids, eng := 0, q := 3, op := 1 + bits (d 0) 21 19, sa := w64 (d 1), sb := w64 (d 2)
    stg := [(0, w64 (d 3)), (1, w64 (d 4)), (2, w64 (d 5)), (7, w64 ctl), (0x40, w64 (d 6))]
    segs := segMap (s.slotImage slot), frm := 0, core := c, seat := 9, bank := 0
    slot := slot, vcore := 0, pts := (s.core poster).pts
    started := false, step := 0, state := 1, cause := 0, faddr := 0, retried := false, ts := 0, task := some (cl, i)
    sent := false, bounced := false, woke := false
    reflex := false, aux := .none }

/-- A started command of another queue of the core names one of some accumulators (R302). -/
def State.claimed (s : State) (c key : Nat) (accs : List Nat) : Bool :=
  (s.core c).queues.any fun q => keyEng q.1 == 0 && q.1 != key &&
    q.2.any fun e => e.started && e.accs.any accs.contains

/-- TILE_TASK_ISSUE (R311): the head of the ready list goes to the lowest tile that may take it. -/
def State.taskIssue (s : State) (cl : Nat) : State :=
  match (s.sched cl).ready with
  | [] => s
  | i :: t =>
    let ctl := (s.eregUnit cl 0 0x181).toNat
    if !bit ctl 4 then s else
    let pop := fun (s : State) => s.modSched cl fun k => { k with ready := t }
    let poster := (mget (s.sched cl).posted i (0, Config.tileOf cl 0)).2
    match s.taskBad cl i with
    | some k => (pop s).reportUE poster k
    | none =>
    if 4 ≤ bits (s.taskDword cl i 0) 21 19 then ((pop s).taskState cl i poster 4).taskReport poster i 3 0 else
    let accs := (s.taskCmd cl i poster).accs
    match (List.range 16).find? fun x =>
      let c := Config.tileOf cl x
      bit ctl (16 + x) && (s.queue c 3).isEmpty && !s.claimed c 3 accs && !((s.groupOf c).isSome && accs.any (6 ≤ ·)) with
    | none => s
    | some x =>
      let c := Config.tileOf cl x
      let e := s.taskCmd cl i c
      ((((pop s).taskState cl i poster 2).modQueue c 3 (· ++ [e])).modCore c fun k => { k with ids := k.ids + 1 })

/-- The end of a task (R311): STATE 3 as a release, TTDONE, the successors. -/
def State.taskDone (s : State) (e : ECmd) (cl i : Nat) : State :=
  let d := s.taskDword cl i 0
  let s := (s.complete e.core 3).taskState cl i e.core 3
  let s := s.unitCount cl 0 0x182 1
  if (s.taskBad cl i).isSome then s else
  [bits d 43 32, bits d 55 44].foldl (fun s j => if j = 0xfff then s else s.taskDec cl (j % 2 ^ s.ttLog cl) e.core) s

/-- A fault of a matrix command: a task is removed with STATE 4 and a message (R311), any other command stays. -/
def State.matFault (s : State) (c key cause : Nat) (faddr : Word) : State :=
  match s.headCmd c key with
  | some e =>
    match e.task with
    | some (cl, i) => (((s.modQueue c key List.tail)).taskState cl i c 4).taskReport c i 3 faddr
    | none => s.engFault c key cause faddr
  | none => s

/-- Uncorrectable data in a step of a matrix command (R305). -/
def State.matBad (s : State) (c key sec : Nat) (faddr : Word) : State :=
  match s.headCmd c key with
  | some e =>
    if e.task.isSome && e.retried then ((s.raiseUE c).matFault c key 0 faddr).engReportUE e sec else s.engBad c key sec faddr
  | none => s

/-! Steps. -/

/-- Count a step: busy clk, the step, skipped or not, and its energy (R296, R314). -/
def State.matCount (s : State) (e : ECmd) (clk energy : Nat) (skip : Bool) : State :=
  let s := (s.engCount e.core 0 0x110 clk).engCount e.core 0 0x111 1
  (if skip then s.engCount e.core 0 0x112 1 else s).chargeStep e energy
/-- A started command waits at a boundary for operands or room: MOPWAIT counts the clk once (R296). -/
def State.matWait (s : State) (e : ECmd) : State :=
  if !e.started || (s.core e.core).opWait == s.clk + 1 then s
  else (s.engCount e.core 0 0x113 1).modCore e.core fun k => { k with opWait := s.clk + 1 }

/-- An operand that has not arrived is waited for; one that parks or faults the command is not (R296). -/
def State.blockWait (s : State) (e : ECmd) : EFound → State
  | .wait _ => s.matWait e
  | .ok _ | .park .. | .prot _ | .bad _ | .rights => s

/-- An operand block of a step: its bytes, and where its scales come from. -/
structure Block where
  keys : List Nat
  bf : Option Nat
  addr : Nat
  owner : Nat
  scl : List Nat

/-- Find block (i, kk) of an operand, and its scales (R298). -/
def State.findBlock (s : State) (e : ECmd) (o : Opnd) (bf : List Word) (i kk : Nat) : State × Except (EFound × Space × Nat) Block :=
  let a := o.at_ i kk
  let f := bankFmt e.core o.word bf a
  let typed := typedAt e.core o.word bf a
  let owner := (srcOwner e.core o.word a).getD e.core
  match s.spaceKeys e (srcSpace o.word) a (blockBytes e.op o.spec f) false true with
  | (s, .ok ks) =>
    if e.op ≠ 1 then (s, .ok ⟨ks, none, a, owner, []⟩)
    else if typed then
      let v := f.getD 0
      let F := Narrow.of (v % 2 ^ 32)
      let e0 := a % 0x8000 * 8 / F.cont
      (s, .ok ⟨ks, some v, a, owner, if F.blk = 0 then [] else
        ((List.range (1024 / F.blk)).flatMap fun k => bankScaleKeys owner (a / 0x8000) v (e0 / F.blk + k))⟩)
    else if specBlk o.spec = 0 then (s, .ok ⟨ks, none, a, owner, []⟩)
    else
      let per := 32 / specBlk o.spec
      let sa := srcBase o.scl + 2 * ((i * e.geom.nk + kk) * 32 * per)
      match s.spaceKeys e (srcSpace o.scl) sa (64 * per) false true with
      | (s, .ok sk) => (s, .ok ⟨ks, none, a, owner, sk⟩)
      | (s, f) => (s, .error (f, srcSpace o.scl, sa))
  | (s, f) => (s, .error (f, srcSpace o.word, a))

/-- The element values of a block, row by row (R71, R78, R298), and whether each element and scale is finite (R234). -/
def State.blockVals (s : State) (e : ECmd) (o : Opnd) (b : Block) : List FV × Bool :=
  let bs := memReads s.mem b.keys
  match e.op with
  | 1 =>
    let F := Narrow.of (match b.bf with | some v => v % 2 ^ 32 | none => o.spec)
    let t := s.lutNow e.core
    let raw := (List.range 1024).map fun i => F.decode t (contAt bs F.cont i)
    let scale := fun (k : Nat) => match b.bf with
      | some v => s.bankScale b.owner (b.addr / 0x8000) v (b.addr % 0x8000 * 8 / F.cont / F.blk + k)
      | none => leNat (memReads s.mem ((b.scl.drop (2 * k)).take 2)) % 512
    let fin := (raw.all fun x => match x with | .num .. => true | _ => false) &&
      (F.blk == 0 || (List.range (1024 / F.blk)).all fun k => scale k != 0x1ff)
    (if F.blk = 0 then raw else (List.range 1024).zipWith (fun i x => scaledBy x (scaleValue (scale (i / F.blk)))) raw, fin)
  | 2 => ((List.range 1024).map fun i => fp16.decode (leNat ((bs.drop (2 * i)).take 2)), false)
  | 3 => ((List.range 1024).map fun i => bf16.decode (leNat ((bs.drop (2 * i)).take 2)), false)
  | _ => ((List.range 1024).map fun i => fp32.decode (leNat ((bs.drop (4 * i)).take 4)), false)

/-- Element (r, c) of an accumulator. -/
def State.accGet (s : State) (c t r k : Nat) : W32 := mget (s.core c).acc (t * 1024 + r * 32 + k) 0
/-- Set accumulators to +0. -/
def State.accZero (s : State) (c : Nat) (ts : List Nat) : State :=
  s.modCore c fun k => { k with acc := k.acc.filter fun x => !ts.contains (x.1 / 1024) }

/-- Nominal clk of a step (R300). -/
def mmaClk (op wa wb : Nat) : Nat :=
  match op with | 1 => if wa ≤ 4 ∧ wb ≤ 4 then 16 else 32 | 4 => 256 | _ => 64
/-- Energy of a step (R296). -/
def State.mmaEnergy (s : State) (c op wa wb : Nat) : Nat :=
  let v := (s.eregCore c 0 0x118).toNat
  match op with | 1 => if wa ≤ 4 ∧ wb ≤ 4 then bits v 15 0 else bits v 31 16 | 4 => bits v 63 48 | _ => bits v 47 32

/-- A command starts: a task's checks are made, and the format registers are read (R298, R311). -/
def State.mmaStart (s : State) (c key : Nat) (e : ECmd) : State :=
  let p : Place := ⟨c, 9, 0⟩
  if e.task.isSome && (s.mmaBad p e || 2 < bits (e.st 7) 10 8 || (bit (e.st 0x40) 54 && bits (e.st 0x40) 20 0 % 4 != 0)) then
    s.matFault c key Cause.engineDesc.num 0
  else s.modHead c key fun e => { e with
    started := true, aux := if e.isMma then .mma (s.bfList c e.sa.toNat) (s.bfList c e.sb.toNat) else .none }

/-- One step of an mma whose blocks are found (R300, R301). -/
def State.mmaApply (s : State) (c key : Nat) (e : ECmd) (ba bb : Block) : State :=
  let g := e.geom
  let x := Config.isX c
  let st := if x then e.step / 4 else e.step
  let u := e.step % 4
  let i := st / g.nt % g.mt
  let j := st % g.nt
  let t := g.acc + i * g.nt + j
  let (s, _, ta) := s.engRead c e.pts (ba.keys ++ ba.scl)
  let (s, _, tb) := s.engRead c e.pts (bb.keys ++ bb.scl)
  let s := if e.step = 0 ∧ g.zero = true then s.accZero c ((List.range (g.mt * g.nt)).map (g.acc + ·)) else s
  let (av, _) := s.blockVals e e.opA ba
  let (bv, bfin) := s.blockVals e e.opB bb
  let wid := fun (o : Opnd) (b : Block) => (Narrow.of (match b.bf with | some v => v % 2 ^ 32 | none => o.spec)).width
  let wa := wid e.opA ba
  let wb := wid e.opB bb
  let skip := e.op == 1 && bb.bf.isSome && bfin && (!x || u == 0) && av.all FV.isZero
  let adv := fun (s : State) (n : Nat) => s.modHead c key fun e => { e with
    step := e.step + n, retried := false, ts := max e.ts (max ta tb) }
  if skip then
    adv (s.matCount e 2 (bits (s.eregCore c 0 0x119).toNat 15 0) true) (if x then 4 else 1)
  else
    let rows := if x then (List.range 8).map (8 * u + ·) else List.range 32
    let s := rows.foldl (fun (s : State) r => (List.range 32).foldl (fun (s : State) k =>
      let v := dot32 (s.accGet c t r k) (((av.drop (32 * r)).take 32).zip ((bv.drop (32 * k)).take 32))
      s.modCore c fun q => { q with acc := mset q.acc (t * 1024 + r * 32 + k) v }) s) s
    adv (s.matCount e (mmaClk e.op wa wb) (s.mmaEnergy c e.op wa wb) false) 1

/-- The head may act on its queue now, or start: its accumulators are free (R302). -/
def State.matReady (s : State) (c key : Nat) (e : ECmd) : Bool :=
  s.runnable c key e && (e.started || !s.claimed c key e.accs) &&
  -- the reflex queue takes every boundary first (R424)
  (key == 4 || !((s.queue c 4).any fun r => s.runnable c 4 r))

/-- MMA_STEP (R300-R305). -/
def State.mmaStep (s : State) (c key : Nat) : State :=
  match s.headCmd c key with
  | none => s
  | some e =>
    if !e.isMma || !s.matReady c key e || (e.started && e.mmaSteps ≤ e.step) then s
    else if !e.started then s.mmaStart c key e
    else
      match e.aux with
      | .mma bfa bfb =>
        let g := e.geom
        let st := if Config.isX c then e.step / 4 else e.step
        let kk := st / (g.mt * g.nt)
        let i := st / g.nt % g.mt
        let j := st % g.nt
        let fault := fun (s : State) cause fa => s.matFault c key cause fa
        match s.findBlock e e.opA bfa i kk with
        | (s, .error (f, sp, a)) => (s.blockWait e f).notFound e key sp a fault f
        | (s, .ok ba) =>
          match s.findBlock e e.opB bfb j kk with
          | (s, .error (f, sp, a)) => (s.blockWait e f).notFound e key sp a fault f
          | (s, .ok bb) =>
            match s.badSec (ba.keys ++ ba.scl ++ bb.keys ++ bb.scl) with
            | some sec => s.matBad c key sec (w64 (if (s.badSec (ba.keys ++ ba.scl)).isSome then ba.addr else bb.addr))
            | none =>
              let s := s.mmaApply c key e ba bb
              match s.headCmd c key with
              | some e => if e.mmaSteps ≤ e.step && e.task.isNone then s.complete c key else s
              | none => s
      | _ => s

/-- MZERO_STEP (R306). -/
def State.mzeroStep (s : State) (c key : Nat) : State :=
  match s.headCmd c key with
  | none => s
  | some e =>
    if e.op ≠ 0 ∨ s.matReady c key e = false then s else
    let s := s.modHead c key fun e => { e with started := true }
    match e.accs[e.step]? with
    | none => s.complete c key
    | some t =>
      let s := ((s.accZero c [t]).matCount e 8 (bits (s.eregCore c 0 0x119).toNat 47 32) false).modHead c key fun e =>
        { e with step := e.step + 1 }
      if e.accs.length ≤ e.step + 1 then s.complete c key else s

/-- Rounding of a drained element (R294): the seat's FRM, a mode, or SR. -/
def drainRm (ctl : Nat) (frm : BitVec 2) (task : Bool) (pos : Word) (idx : Nat) : RM :=
  match bits ctl 14 12 with
  | 1 => .rne | 2 => .rtz | 3 => .rup | 4 => .rdn
  | 5 => .sr (srU (w64 (bits ctl 63 32)) 0 pos idx)
  | _ => if task then .rne else rmOfFrm frm

/-- The bytes of a drained accumulator whose first byte has position `pos`, and their maximum (R306). -/
def State.drainTile (s : State) (e : ECmd) (t : Nat) (pos : Word) : List Byte × BitVec 32 :=
  let ctl := e.st 7
  let xs := (List.range 1024).map fun i => mget (s.core e.core).acc (t * 1024 + i) 0
  let fs := xs.map fun x => fp32.decode x.toNat
  let note := fs.foldl (fun a x => amaxMerge a (amaxNote x)) 0
  let rm := fun p i => drainRm ctl e.frm e.task.isSome p i
  match bits ctl 10 8 with
  | 0 => (xs.flatMap fun x => leBytes 4 x.toNat, 0)
  | 3 =>
    let F := Narrow.of (e.st 8)
    let per := 8 / F.cont
    (packCodes F.cont ((List.range 1024).zipWith (fun i x =>
      F.encode (s.lutNow e.core) x (rm (pos + w64 (i / per)) (i % per))) fs), note)
  | o =>
    let F := if o = 1 then fp16 else bf16
    (((List.range 1024).zipWith (fun i x => leBytes 2 (fround x F (rm (pos + w64 (2 * i)) 0))) fs).flatten, note)

/-- The destination word of a drain: that of the COP, or of a task with LOCAL = 0. -/
def ECmd.drainDest (e : ECmd) : Nat := if e.task.isSome then (e.st 0x40) % 2 ^ 54 else e.sa.toNat

/-- The end of a drain: the wake, and the command completes (R307, R311). -/
def State.drainEnd (s : State) (c key : Nat) (e : ECmd) : State :=
  if s.engOut c key then s else
  match e.task with
  | some (cl, i) => s.taskDone e cl i
  | none => s.engFinish c key e e.sb (w64 (e.st 9)) id (·.matWait e) (·.complete c key)

/-- The clk of a drain step of `n` bytes (R306): at most 64; those of 2048 bytes take 32, as the opening example has it, and the
others are left open. -/
def State.drainClk (s : State) (n : Nat) : Nat := if n = 2048 then 32 else (Config.freeValue s.fctr).toNat % 64 + 1

/-- A drain step is performed: its bytes are written, or on their way (R293, R306). -/
def State.drainStep (s : State) (c key : Nat) (e : ECmd) (t n ts : Nat) (note : BitVec 32) : State :=
  let s := if bit (e.st 7) 11 then s.accZero c [t] else s
  let s := s.setEregCore c 0 0x10d ((amaxMerge ((s.eregCore c 0 0x10d).setWidth 32) note).setWidth 64)
  let s := (s.matCount e (s.drainClk n) (bits (s.eregCore c 0 0x119).toNat 31 16) false).modHead c key fun e =>
    { e with step := e.step + 1, ts := max e.ts ts, sent := false }
  { s with fctr := s.fctr + 1 }

/-- MDRAIN_STEP (R306, R307): one accumulator, or the end of the command. A remote step
waits at its boundary for 4 KiB of room in the network interface, and hands its bytes over; the command ends once they have been
written (R288). A refusal that comes back faults it at its next boundary, MFADDR naming the offset that was refused (log 36). -/
def State.mdrainStep (s : State) (c key : Nat) : State :=
  match s.headCmd c key with
  | none => s
  | some e =>
    let n0 := if e.task.isSome then e.mmaSteps else 0
    if !(e.op == 8 || (e.task.isSome && e.started && n0 ≤ e.step)) || !s.matReady c key e then s else
    if e.bounced then s.matFault c key Cause.msgBounce.num e.faddr else
    let s := s.modHead c key fun e => { e with started := true }
    match e.accs[e.step - n0]? with
    | none => s.drainEnd c key e
    | some t =>
      let dest := e.drainDest
      let off := bits dest 20 0 + (e.step - n0) * tileBytes (bits (e.st 7) 10 8) (e.st 8)
      let pos := if bit dest 54 then w64 off else w64 (bits dest 52 21 * 2 ^ 21 + off)
      let (bs, note) := s.drainTile e t pos
      if bit dest 54 then
        match s.spaceKeys e .own off bs.length true true with
        | (s, .ok ks) =>
          let (s, ts) := s.engWrite c e.pts (ks.zip bs)
          let s := s.drainStep c key e t bs.length ts note
          match s.headCmd c key with
          | some e => if e.accs.length + n0 ≤ e.step then s.drainEnd c key e else s
          | none => s
        | (s, _) => s.matFault c key Cause.segRights.num (w64 off)
      else if 2 ^ 21 ≤ off then s.matFault c key Cause.msgBounce.num (w64 off)
      else if !s.outRoom e.core 4096 then s.matWait e
      else match s.engStore e key (w64 (dest / 2 ^ 21 * 2 ^ 21 + off % 2 ^ 21)) bs with
        | .ok s => s.drainStep c key e t bs.length 0 note
        | .wait => s.matWait e
        | .bounce => s.matFault c key Cause.msgBounce.num (w64 off)

/-- MCTL_RESUME (R305): retry a faulted head from its step; ignored when the head is not faulted. -/
def State.engResume (s : State) (c key : Nat) : State :=
  s.modHead c key fun e => if e.state = 3 then { e with state := 1, cause := 0, retried := false, sent := false, bounced := false } else e
/-- The head of a queue is faulted. -/
def State.headFaulted (s : State) (c key : Nat) : Bool := match s.headCmd c key with | some e => e.state == 3 | none => false
/-- MCTL_ABORT (R305): remove a faulted head, which counts as completed. -/
def State.engAbort (s : State) (c key : Nat) : State := if s.headFaulted c key then s.complete c key else s

end Sys2Proof.Machine
end

