-- ==== Sys2Proof/Machine/Caddy.lean ====
section
/-! DEFINITION. Engine 5, the Caddy (spec/14 R327-R335). -/
namespace Sys2Proof.Machine

/-- A mailbox never described: not VALID, buffer 0 current, buffer 1 staging and EMPTY. -/
def Mailbox.reset : Mailbox := ⟨0, 0, 1, 0, 0, 0, 0, 0, 0, 0, 0, none, 0, 0, (0, 0, 0, 0, 0), []⟩
/-- Mailbox `mb` of a die. -/
def State.box (s : State) (die mb : Nat) : Mailbox := mget s.boxes (die * 4096 + mb) Mailbox.reset
/-- The state with a mailbox changed. -/
def State.modBox (s : State) (die mb : Nat) (f : Mailbox → Mailbox) : State :=
  { s with boxes := mset s.boxes (die * 4096 + mb) (f (s.box die mb)) }

/-- VALID. -/
def Mailbox.valid (m : Mailbox) : Bool := m.desc.getLsbD 63
/-- SIZE in bytes. -/
def Mailbox.bytes (m : Mailbox) : Nat := 64 * (bits m.desc.toNat 37 32 + 1)
/-- WCORE admits the core. -/
def Mailbox.admits (m : Mailbox) (c : Nat) : Bool := bits m.desc.toNat 57 48 == 0x3ff || bits m.desc.toNat 57 48 == c
/-- Key of byte o of buffer b (R327). -/
def Mailbox.key (m : Mailbox) (die b o : Nat) : Nat := Config.poolKey die (bits m.desc.toNat 15 0 * 64 + b * m.bytes + o)

/-- The current version: buffer, VERSION, STAMP, vlen and pts. -/
def Mailbox.current (m : Mailbox) : Nat × Nat × Word × Nat × Nat := (m.cur, m.version, m.stamp, m.vlen, m.pts)
/-- The mailbox has flipped in this clk. -/
def State.flipped (s : State) (m : Mailbox) : Bool := m.flipClk == s.clk + 16
/-- The version that a read starting in this clk samples: a flip of the same clk does not affect it (R331, R384). -/
def State.sample (s : State) (m : Mailbox) : Nat × Nat × Word × Nat × Nat := if s.flipped m then m.was else m.current

/-- Die and index of a mailbox word. -/
def boxDie (w : Word) : Nat := bits w.toNat 12 12
/-- Mailbox index. -/
def boxIdx (w : Word) : Nat := bits w.toNat 11 0
/-- LEN. -/
def boxLen (w : Word) : Nat := bits w.toNat 28 16

/-- The mailbox of a command lies across a lost link (R437): the command waits (log 75). -/
def State.boxFar (s : State) (c : Nat) (e : ECmd) : Bool := !s.linkUp && boxDie e.sa != Config.dieOf c
/-- The checks of cpost and cread for a span of `n` bytes (R328). -/
def State.caddyBad (s : State) (p : Place) (e : ECmd) (head : Nat) : Bool :=
  let len := boxLen e.sa
  let a := e.sb.toNat
  len == 0 || decide (4096 < len) || !inStore p.core (a + head + len - 1) || s.spanReserved p p.core a (head + len) ||
  (head != 0 && a % 16 != 0)

/-- cpost (R328). -/
def execCpost (f : FmtCop) (s : State) : Out :=
  cop 5 f.q.toNat 0 f.sa f.sb f.hold (fun e => descChk fun x s => s.caddyBad x.p e 0) s
/-- cpubl (R328). -/
def execCpubl (f : FmtCop) (s : State) : Out :=
  cop 5 f.q.toNat 1 f.sa f.sb f.hold noChk s
/-- cread (R328). -/
def execCread (f : FmtCop) (s : State) : Out :=
  cop 5 f.q.toNat 2 f.sa f.sb f.hold (fun e => descChk fun x s => s.caddyBad x.p e 16) s

/-- A counter of a die's Caddy. -/
def State.caddyCount (s : State) (die n : Nat) : State := s.unitCount (unitDie die) 5 n 1
/-- CXERR.UE (R334). -/
def State.caddyUE (s : State) (die : Nat) : State :=
  s.setEregUnit (unitDie die) 5 0x103 (s.eregUnit (unitDie die) 5 0x103 ||| 2)

/-- A command ends, charged by CXECOEF (R335). -/
def State.caddyDone (s : State) (c key die : Nat) (e : ECmd) : State :=
  let v := (s.eregUnit (unitDie die) 5 0x10c).toNat
  (s.chargeStep e (if e.op = 2 then bits v 31 16 else bits v 15 0)).complete c key

/-- The buffer is held by a read window (R330, R331). -/
def State.boxHeld (s : State) (m : Mailbox) (b : Nat) : Bool := m.windows.any fun w => w.1 == b && s.clk ≤ w.2

/-- CADDY_FLIP (R330): PUBLISHED, and 16 clk since the last flip. -/
def State.caddyFlip (s : State) (die mb : Nat) : State :=
  let m := s.box die mb
  if m.stage ≠ 3 ∨ s.clk < m.flipClk then s else
  match (List.range 5).find? fun b => b != m.stg && !s.boxHeld m b with
  | none => s
  | some b =>
    (s.modBox die mb fun m => { m with
      cur := m.stg, version := (m.version + 1) % 2 ^ 32, stamp := m.sstamp, vlen := m.svlen, pts := m.spts
      stg := b, stage := 0, owner := none, flipClk := s.clk + 16, was := m.current
      windows := m.windows.filter fun w => s.clk ≤ w.2 }).caddyCount die 0x108

/-- The command that fills a staging buffer is superseded: it completes and writes no more (R329, R335). -/
def State.supersede (s : State) (die mb : Nat) : State :=
  let m := s.box die mb
  match m.stage, m.owner with
  | 1, some (c, key) =>
    match s.headCmd c key with
    | some e => (s.caddyDone c key die e).caddyCount die 0x109
    | none => s
  | _, _ => s

/-- A cpost starts: it claims the staging buffer, or is dropped (R329). -/
def State.cpostStart (s : State) (c key : Nat) (e : ECmd) : State :=
  let die := boxDie e.sa
  let mb := boxIdx e.sa
  let m := s.box die mb
  if !m.valid || !m.admits c then (s.caddyCount die 0x10b).caddyDone c key die e else
  let s := s.caddyFlip die mb
  let m := s.box die mb
  let s := if 2 ≤ m.stage then s.caddyCount die 0x109 else s.supersede die mb
  let s := s.modBox die mb fun m => { m with stage := 1, owner := some (c, key), gen := m.gen + 1 }
  s.modHead c key fun e => { e with started := true, aux := .cpost 0 (s.box die mb).gen }

/-- The last byte is in staging (R329). What is PUBLISHED flips in the same clk where it can (R330). -/
def State.cpostEnd (s : State) (c key die mb : Nat) (e : ECmd) (count : Nat) : State :=
  let pub := bit e.sa.toNat 31
  ((s.modBox die mb fun m => { m with
    stage := if pub then 3 else 2, owner := none, svlen := count
    sstamp := if pub then w64 s.dtime else m.sstamp, spts := e.pts }).caddyFlip die mb).caddyDone c key die e

/-- CPOST_STEP (R329): up to 256 bytes into the staging buffer; the last step's write goes on with zeros to the buffer's end,
so every sector is written whole (R334). A buffer claimed in the clk of a flip is written from the next clk on, since a read
that starts in this clk may still sample it (R331). -/
def State.cpostStep (s : State) (c q : Nat) : State :=
  let key := 80 + q
  match s.headCmd c key with
  | none => s
  | some e =>
    if e.op ≠ 0 ∨ s.runnable c key e = false ∨ s.boxFar c e = true then s else
    let die := boxDie e.sa
    let mb := boxIdx e.sa
    match e.aux with
    | .cpost done gen =>
      let m := s.box die mb
      if s.flipped m then s else
      let count := min (boxLen e.sa) m.bytes
      let n := min 256 (count - done)
      match s.spaceKeys e .own (e.sb.toNat + done) n false false with
      | (s, .ok ks) =>
        if (s.badSec ks).isSome then
          if e.retried then
            ((((s.raiseUE c).engReportUE e ((s.badSec ks).getD 0)).caddyUE die).modBox die mb fun m =>
              { m with stage := 0, owner := none }).caddyDone c key die e
          else (s.raiseUE c).modHead c key fun e => { e with retried := true }
        else
          let (s, bs, t) := s.engRead c e.pts ks
          let rest := if count ≤ done + n then List.replicate (m.bytes - count) 0 else []
          let s := s.poke c (cellsAt (m.key die m.stg done) (bs ++ rest))
          let s := s.modHead c key fun e => { e with
            aux := .cpost (done + n) gen, step := e.step + 1, ts := max e.ts t }
          if count ≤ done + n then s.cpostEnd c key die mb e count else s
      | (s, _) => s.caddyDone c key die e
    | _ => s.cpostStart c key e

/-- CPUBL_APPLY (R329). -/
def State.cpublApply (s : State) (c q : Nat) : State :=
  let key := 80 + q
  match s.headCmd c key with
  | none => s
  | some e =>
    if e.op ≠ 1 ∨ s.runnable c key e = false ∨ s.boxFar c e = true then s else
    let die := boxDie e.sa
    let mb := boxIdx e.sa
    let m := s.box die mb
    let s :=
      if !m.valid || !m.admits c then s.caddyCount die 0x10b
      else if m.stage = 2 then (s.modBox die mb fun m => { m with
        stage := 3, sstamp := if e.sb = 0 then w64 s.dtime else e.sb }).caddyFlip die mb
      else s.caddyCount die 0x10a
    s.caddyDone c key die e

/-- The header that a cread writes last (R331). -/
def caddyHeader (stamp : Word) (version vlen flags : Nat) : List Byte :=
  leBytes 8 stamp.toNat ++ leBytes 4 version ++ leBytes 2 vlen ++ leBytes 2 flags

/-- A cread samples the current buffer (R331, R334). -/
def State.creadStart (s : State) (c key : Nat) (e : ECmd) : State :=
  let die := boxDie e.sa
  let mb := boxIdx e.sa
  let m := s.box die mb
  let len := boxLen e.sa
  let (buf, version, stamp, vlen, pts) := s.sample m
  let go := fun (s : State) aux => s.modHead c key fun e => { e with started := true, ts := max e.ts pts, aux := aux }
  if !m.valid then go s (.cread 0 0 0 1 []) else
  let n := min len vlen
  let ks := keysFrom (m.key die buf 0) n
  match s.badSec ks with
  | some sec =>
    go ((((s.raiseUE c).raiseUE c).caddyUE die).engReportUE e sec) (.cread stamp version 0 2 (List.replicate len 0))
  | none =>
    let bs := memReads s.mem ks
    let s := s.modBox die mb fun m =>
      let m := { m with windows := m.windows ++ [(buf, s.clk + 31)] }
      if m.stg ≠ buf then m else
      { m with stg := ((List.range 5).find? fun b => b != m.cur && !s.boxHeld m b).getD m.stg }
    go s (.cread stamp version vlen 0 (bs ++ List.replicate (len - n) 0))

/-- CREAD_STEP (R331): sample, data, header. -/
def State.creadStep (s : State) (c q : Nat) : State :=
  let key := 80 + q
  match s.headCmd c key with
  | none => s
  | some e =>
    if e.op ≠ 2 ∨ s.runnable c key e = false ∨ s.boxFar c e = true then s else
    let die := boxDie e.sa
    let write := fun (s : State) (a : Nat) (bs : List Byte) =>
      match s.spaceKeys e .own a bs.length true false with
      | (s, .ok ks) => s.engWrite c (max e.pts e.ts) (ks.zip bs)
      | (s, _) => (s, 0)
    match e.aux with
    | .cread stamp version vlen flags bytes =>
      if e.step = 0 ∧ bytes ≠ [] then
        let (s, ts) := write s (e.sb.toNat + 16) bytes
        s.modHead c key fun e => { e with step := 1, ts := max e.ts ts }
      else
        let (s, ts) := write s e.sb.toNat (caddyHeader stamp version vlen flags)
        (s.modHead c key fun e => { e with ts := max e.ts ts }).caddyDone c key die e
    | _ => s.creadStart c key e

/-- Granules of a mailbox description. -/
def boxSpan (desc : Nat) : Nat × Nat := (bits desc 15 0, bits desc 15 0 + 5 * (bits desc 37 32 + 1))
/-- The description would overlap another valid mailbox of the die, or pass granule 65 535 (R335). -/
def State.boxRefused (s : State) (die mb desc : Nat) : Bool :=
  bit desc 63 &&
  (decide (65536 < (boxSpan desc).2) ||
   s.boxes.any fun x => x.1 / 4096 == die && x.1 % 4096 != mb && x.2.valid &&
     (let o := boxSpan x.2.desc.toNat
      decide (o.1 < (boxSpan desc).2) && decide ((boxSpan desc).1 < o.2)))

/-- CXDESC_WRITE (R335): define or refuse a mailbox. -/
def State.cxdescWrite (s : State) (die mb : Nat) (v : Word) : State :=
  let desc := v &&& 0x83ff_003f_0000_ffff
  if s.boxRefused die mb desc.toNat then
    s.setEregUnit (unitDie die) 5 0x103 (s.eregUnit (unitDie die) 5 0x103 ||| 1)
  else
    let s := s.supersede die mb
    let s := { s with boxes := mset s.boxes (die * 4096 + mb) { Mailbox.reset with desc := desc } }
    if desc.getLsbD 63 then
      s.poke 0 (cellsAt (Config.poolKey die (64 * (boxSpan desc.toNat).1))
        (List.replicate (64 * ((boxSpan desc.toNat).2 - (boxSpan desc.toNat).1)) 0))
    else s

end Sys2Proof.Machine
end

