-- ==== Sys2Proof/Machine/Control.lean ====
section
/-! DEFINITION. Control flow (spec/04 R107-R111). A gang follower takes condition and target from its leader (R200): the
gang's turn gives it the leader's PC (Barrel.lean), and its own operands decide nothing. -/
namespace Sys2Proof.Machine

/-- The target of a B or J transfer: the offset of the instruction word plus 4 × sext(disp) (R46). -/
def relTarget {n : Nat} (pc : Word) (disp : BitVec n) : Word := pc + disp.signExtend 64 * 4

/-- A branch on value(ra) (R108). -/
def branch (f : FmtB) (cond : Word → Bool) (s : State) : Out :=
  issue { srcs := [isrc f.ra] } f.hold
    (fun x s => .done s none (if cond (x.v 0) then some (relTarget x.pc f.disp) else none)) s

/-- A transfer to a register target: MISALIGNED when its low two bits are not zero (R111). -/
def jumpReg (t : Word) (link : Option Word) (x : Ctx) (s : State) : Act :=
  if t.toNat % 4 ≠ 0 ∧ s.follower x.p = false then .trap .misaligned 0 (some t) else .done s link (some t)

/-- beqz (R108). -/
def execBeqz (f : FmtB) (s : State) : Out :=
  branch f (fun a => a == 0) s
/-- bnez (R108). -/
def execBnez (f : FmtB) (s : State) : Out :=
  branch f (fun a => a != 0) s
/-- bltz (R108). -/
def execBltz (f : FmtB) (s : State) : Out :=
  branch f (fun a => a.toInt < 0) s
/-- bgez (R108). -/
def execBgez (f : FmtB) (s : State) : Out :=
  branch f (fun a => 0 ≤ a.toInt) s
/-- bgtz (R108). -/
def execBgtz (f : FmtB) (s : State) : Out :=
  branch f (fun a => 0 < a.toInt) s
/-- blez (R108). -/
def execBlez (f : FmtB) (s : State) : Out :=
  branch f (fun a => a.toInt ≤ 0) s
/-- beven (R108). -/
def execBeven (f : FmtB) (s : State) : Out :=
  branch f (fun a => !a.getLsbD 0) s
/-- bodd (R108). -/
def execBodd (f : FmtB) (s : State) : Out :=
  branch f (fun a => a.getLsbD 0) s
/-- j (R109). -/
def execJ (f : FmtJ) (s : State) : Out :=
  issue { srcs := [] } f.hold (fun x s => .done s none (some (relTarget x.pc f.disp))) s
/-- jl (R109): lr := PC + 4. -/
def execJl (f : FmtJ) (s : State) : Out :=
  issue { srcs := [], dst := some 1, lat := .fixed 1 } f.hold
    (fun x s => .done s (some (x.pc + 4)) (some (relTarget x.pc f.disp))) s
/-- jr (R110). -/
def execJr (f : FmtR) (s : State) : Out :=
  issue { srcs := [isrc f.ra] } f.hold (fun x s => jumpReg (x.v 0) none x s) s
/-- jlr (R110): lr := the offset of the successor; ra is read before the link is written. -/
def execJlr (f : FmtR) (s : State) : Out :=
  issue { srcs := [isrc f.ra], dst := some 1, lat := .fixed 1 } f.hold
    (fun x s => jumpReg (x.v 0) (some x.next) x s) s
/-- ret (R110): s1 is read implicitly. -/
def execRet (f : FmtR) (s : State) : Out :=
  issue { srcs := [], imp := [1] } f.hold (fun x s => jumpReg (s.reg x.p 1) none x s) s

end Sys2Proof.Machine
end

