-- ==== Sys2Proof/Machine/Supervisor.lean ====
section
/-! DEFINITION. Handler mode and the supervisor (spec/19): trap and the returns from it (R399-R402), page wakes (R404),
pre-emption (R406-R409), resume and kill of a halted seat (R412), the curtain (R413, R414), machine checks, csfreeze
(R420). Taking a trap stands in Ops.lean. -/
namespace Sys2Proof.Machine

/-! Length of an instruction (R40). -/

/-- The operand fields of a form. -/
def Form.fields : Form → List (BitVec 6)
  | .r _ f => [f.rd, f.ra, f.rb] | .i _ f => [f.rd, f.ra] | .sh _ f => [f.rd, f.ra] | .slt _ f => [f.rd, f.ra]
  | .k f => [f.rd] | .bF _ f => [f.rd, f.ra] | .fR _ f => [f.rd, f.ra, f.rb] | .fT _ f => [f.rd, f.ra, f.rb]
  | .c _ f => [f.rd, f.ra] | .f20 f => [f.rd] | .cvt f => [f.rd, f.ra, f.rb] | .m _ f => [f.rd, f.ra]
  | .x _ f => [f.rd, f.ra, f.rb] | .amo _ f => [f.rd, f.ra, f.rb] | .b _ f => [f.ra] | .j _ _ => []
  | .sC _ _ => [] | .s .bfset f => [f.ra, f.imm.setWidth 6] | .s _ f => [f.ra] | .ord _ f => [f.ra, f.rx] | .fence _ _ => [] | .qf f => [f.ra]
  | .wid _ f => [f.rd, f.ra] | .rst _ f => [f.rs, f.ra] | .rsv _ f => [f.ra] | .v _ _ => [] | .vF _ _ => []
  | .vS _ f => [f.sb] | .vM _ f => [f.sb] | .vG _ f => [f.sb] | .vr _ f => [f.sb] | .cop _ f => [f.sa, f.sb]
  | .cpy _ f => [f.sa, f.sb] | .cpw _ f => [f.sa] | .esy f => [f.sa] | .illegal _ => []

/-- Words of the instruction that a word begins: 1 plus its fields with code 63; an illegal word stands alone (R40, R51). -/
def wordsOf (w : W32) : Nat :=
  match decodeWord w with
  | .ok f => 1 + ((Form.fields f).filter (· == 63)).length
  | .error _ => 1

/-! Traps (R400) and returns (R401). -/

/-- An instruction that needs handler mode traps PRIV_INSN outside it (R399). -/
def needHandler (x : Ctx) (s : State) : Option Act := if (s.bank x.p).handler then none else some (.trap .privInsn 0 none)

/-- trap n (R400). -/
def execTrap (f : FmtS) (s : State) : Out :=
  issueChk { srcs := [] } f.hold (fun _ _ => some (.trap .swTrap f.imm.toNat none)) (fun _ s => .done s none none) s

/-- rett (R401). -/
def execRett (f : FmtS) (s : State) : Out :=
  issueChk { srcs := [] } f.hold needHandler
    (fun x s => .done (s.modBank x.p Bank.leaveHandler) none (some (s.bank x.p).epc)) s

/-- The work of rett.redo (R401): with a frozen scene it discards, waiting for pending results (R405). -/
def rettRedoAct (x : Ctx) (s : State) : Act :=
  let b := s.bank x.p
  let s' := s.modBank x.p Bank.leaveHandler
  if !b.tstat.getLsbD 1 then .done s' none (some b.epc)
  else if s.unsettled x.p then .wait .memory
  else
    let s' := s'.discard x.p true true false
    if s'.ended = .trap then .final s' else .done s' none (some b.scpc)

/-- rett.redo (R401). -/
def execRettRedo (f : FmtS) (s : State) : Out :=
  issueChk { srcs := [] } f.hold needHandler rettRedoAct s
/-- rett.kill (R401, R402). -/
def execRettKill (f : FmtS) (s : State) : Out :=
  issueChk { srcs := [] } f.hold needHandler (fun x s => .left (s.killSeat x.p)) s
/-- csfreeze (R420). -/
def execCsfreeze (f : FmtS) (s : State) : Out :=
  issueChk { srcs := [] } f.hold needHandler
    (fun x s => .done (s.modCore x.p.core fun k => { k with frozen := true }) none none) s
/-- csthaw (R420). -/
def execCsthaw (f : FmtS) (s : State) : Out :=
  issueChk { srcs := [] } f.hold needHandler
    (fun x s => .done (s.modCore x.p.core fun k => { k with frozen := false }) none none) s

/-! Parking (R403, R404). -/

/-- A seat leaves the park lists. -/
def State.unpark (s : State) (p : Place) : State :=
  { s with mmus := s.mmus.map fun m => (m.1, { m.2 with parks := m.2.parks.map fun e =>
      { e with seats := e.seats.filter (· ≠ p) } }) }

/-- A park list entry is freed, and what waits on it goes on (R403, R305). -/
def State.wakeEntry (s : State) (e : Park) : State :=
  let s := e.seats.foldl (fun (s : State) p => s.modBank p fun b => if b.run = .parked then { b with run := .running } else b) s
  e.cmds.foldl (fun (s : State) c => s.modQueue c.1 c.2 fun l => match l with
    | h :: t => (if h.state = 2 then { h with state := 1 } else h) :: t
    | [] => []) s

/-- A wake names the entry: its page, or the 2 MiB page of its sub-page (R404). -/
def wakeTakes (slot va : Nat) (sub : Bool) (e : Park) : Bool :=
  e.slot == slot && (if sub then e.sub && e.page == va / 2 ^ 10 else (if e.sub then e.page / 2 ^ 11 else e.page) == va / 2 ^ 21)

/-- A slot that waits for a page goes on (R439). -/
def Slot.wake (t : Slot) (va : Nat) (sub : Bool) : Slot :=
  match t.phase with
  | .page a own back =>
    if (if sub then own && a / 2 ^ 10 == va / 2 ^ 10 else a / 2 ^ 21 == va / 2 ^ 21) then { t with phase := back } else t
  | _ => t

/-- PGWAKE_WRITE (R404). -/
def State.pageWake (s : State) (v : Word) : State :=
  let slot := bits v.toNat 5 0
  let va := bits v.toNat 63 10 * 2 ^ 10
  let sub := bit v.toNat 9
  let es := s.mmus.flatMap fun m => m.2.parks.filter (wakeTakes slot va sub)
  let s : State := { s with mmus := s.mmus.map fun (m : Nat × Mmu) =>
    (m.1, { m.2 with parks := m.2.parks.filter fun e => !wakeTakes slot va sub e }) }
  (es.foldl (fun s e => s.wakeEntry e) s).modSlot slot fun t => t.wake va sub

/-! Gangs (R171, R201). -/

/-- The members of the gang a core is in. -/
def State.gangOf (s : State) (c : Nat) : List Nat :=
  let k := s.core c
  if k.gangSize = 1 then [c] else (List.range k.gangSize).map (k.gangLeader + ·)

/-- A gang ends because of its member `c`: every other member traps GANG_BROKEN at the gang's instruction (R201). -/
def State.disband (s : State) (c : Nat) : State :=
  let k := s.core c
  if k.gangSize = 1 then s else
  let ms := s.gangOf c
  let pc := (s.bank ⟨k.gangLeader, 0, 0⟩).pc
  let w := match s.fetch ⟨k.gangLeader, 0, 0⟩ pc with | (_, .ok w) => w | _ => 0
  let s := ms.foldl (fun (s : State) m => s.modCore m fun k => { k with gangSize := 1 }) s
  let s := s.modBank ⟨c, 0, 0⟩ fun b => { b with pc := pc }
  (ms.filter (· ≠ c)).foldl (fun s m => s.trapAt ⟨m, 0, 0⟩ .gangBroken 0 none pc (wordsOf w) w) s

/-! Pre-emption (R406-R409). -/

/-- The seats of a core that a pre-emption acts on (R407). -/
def State.preTargets (s : State) (c : Nat) : List Place :=
  ((List.range 8).map fun i => (⟨c, i, 0⟩ : Place)).filter fun p =>
    let b := s.bank p
    (b.run == .running || b.run == .parked) && !b.handler && !(p.seat == 7 && (s.core c).seized.isSome)

/-- PREEMPT.STATE (R406). -/
def State.preStatus (s : State) (c : Nat) : Nat :=
  if (s.core c).preState = 1 ∧ (s.preTargets c).isEmpty = false then 1
  else if (placesOf c).any fun p => (s.bank p).handler && (s.bank p).tstat.toNat / 4 % 4 != 0 then 2 else 0

/-- What the abandoned instruction of a seat had begun is taken back (R407): its arrival at a barrier does not count. An atomic
that issues again after its commit stands in an open scene again, which is empty. -/
def State.abandon (s : State) (p : Place) : State :=
  let b := s.bank p
  let s := match b.wip, (s.slot b.cslot.toNat).hdr with
    | .bar n, some h => s.modSlot b.cslot.toNat fun t => { t with bars := mset t.bars (b.vcore.toNat - h.vbase) (n - 1) }
    | _, _ => s
  (s.unreserve p).modBank p fun b => match b.wip with
    | .reissue (some (f, m)) => { b.openAt f m b.pc with wip := .none }
    | _ => { b with wip := .none }

/-- The instruction of a seat that must complete before the seat is taken from it (R407, R423): a commit that has performed
entries, a message on its way, the result of an atomic that waits for room. -/
def Bank.mustEnd (b : Bank) : Bool :=
  match b.wip with
  | .commit => true
  | .rstv _ => true
  | .push .. => true
  | .posted _ => true
  | .reissue (some _) => b.run == .running
  | _ => false

/-- An instruction whose commit has begun, or stands at a home slice: a pre-emption lets it complete (R407, R248). -/
def Bank.inCommit (b : Bank) : Bool :=
  match b.wip with
  | .committing => true
  | .home => (match decodeWord b.word with
    | .ok (.m .st _) => true
    | .ok (.x .stx _) => true
    | .ok (.ord .stRel _) => true
    | .ok (.amo ..) => true
    | .ok (.r ..) => true
    | _ => false)
  | _ => false

/-- Step 2 of R407 for one seat: writes retire, pending marks clear, the scene is discarded. DESIGN CHOICE (log 46): empty si that
the HOLD of a completed instruction (R22) still owes are dropped. -/
def State.preemptSeat (s : State) (p : Place) : State :=
  let s := ((s.abandon p).retireAll p).landAll p
  let s := if (s.bank p).scene.isSome then s.discard p true false false else s
  (s.unpark p).modBank p fun b => { b with owed := 0 }

/-- The seat can be pre-empted now: it commits nothing, no result it must wait for is still to come, and no gang-relative
command of its gang (R229). -/
def State.preReady (s : State) (p : Place) : Bool :=
  let b := s.bank p
  !b.mustEnd && !b.inCommit && !b.pending.any (·.val.isNone) && !(b.scene.isSome && s.sceneVectors p) && !(p.seat == 0 && s.gangBusy p)

/-! The spill of the network interface (R408, R409). -/

/-- The destination word of a message as sent (R193, R280), and the kind of its record (R409). -/
def Msg.word (m : Msg) : Nat × Nat :=
  match m.body with
  | .mail i x _ => (match m.vdst with
    | some v => v + i * 2 ^ 32 + x * 2 ^ 35
    | none => m.dst + i * 2 ^ 32 + x * 2 ^ 35 + 2 ^ 40, 1)
  | .start _ => (m.dst + 2 ^ 41, 1)
  | .store off bytes _ _ => (match m.vdst with
    | some v => off + v * 2 ^ 21
    | none => off + m.dst * 2 ^ 21 + 2 ^ 53, if m.sender ≠ 0 then 4 else if bytes.length = 256 then 3 else 2)
  | _ => (0, 0)
/-- The payload of a message. -/
def Msg.payload (m : Msg) : List Byte :=
  match m.body with | .mail _ _ v => leBytes 8 v.toNat | .start off => leBytes 8 off | .store _ bytes _ _ => bytes | _ => []
/-- The messages as which one is spilled: a store of several pieces goes as one record for each (log 17). -/
def Msg.pieces (m : Msg) : List Msg :=
  match m.body with | .stores ps => ps.map fun x => { m with body := .store x.1 x.2 m.seat 0 } | _ => [m]
/-- A record of the spill area (R409). DESIGN CHOICE (log 17): bits 47:32 of header dword 1 hold the bytes of the payload, and
bits 63:48 the engine queue that sent it, or whose wake it is. -/
def Msg.record (m : Msg) : List Byte :=
  let n := m.payload.length
  let u := (n + 15) / 16
  leBytes 8 m.word.1 ++
  leBytes 8 (m.word.2 + m.cls * 2 ^ 4 + u * 2 ^ 8 + b2n m.adaptive * 2 ^ 16 + m.seat % 8 * 2 ^ 24 + n * 2 ^ 32 + (if m.seat < engTag 0 then 0 else m.seat) * 2 ^ 48) ++
  m.payload ++ List.replicate (16 * u - n) 0

/-- Step 3 of R407: the messages that the interface holds go to the spill area from its start, in order (R409); those that
seats in their commits hand over while the pre-emption enters follow them (log 46). -/
def State.netSpill (s : State) (c : Nat) : State :=
  if (s.core c).outbox.isEmpty then s else
  let s := if (s.core c).spillFresh then s.modCore c fun k => { k with spillN := 0, spillFresh := false } else s
  (s.core c).outbox.foldl (fun (s : State) m =>
    let a := s.spillOff c (s.core c).spillN 0
    let rec_ := m.pieces.flatMap Msg.record
    if 2048 < a + rec_.length then s else
    (s.poke c (cellsAt (Config.tileKey c (0x7_f800 + a)) rec_)).modCore c fun k => { k with
      spillN := k.spillN + m.pieces.length, outbox := k.outbox.filter (·.no != m.no) }) s

/-- A pre-emption request (R406, R407): ignored on an X-tile, merged into one under way. -/
def State.preRequest (s : State) (c kind : Nat) : State :=
  if Config.isX c || (s.core c).fenced || s.preStatus c != 0 then s
  else
    let s := s.modCore c fun k => { k with spillFresh := true }
    if (s.preTargets c).isEmpty then s.netSpill c else s.modCore c fun k => { k with preState := 1, preKind := kind }

/-- A pre-emption is over when no seat is left to pre-empt: the last one has entered its handler, halted, or gone (R406,
R407). -/
def State.preDone (s : State) (c : Nat) : State :=
  if (s.core c).preState = 1 ∧ (s.preTargets c).isEmpty = true then s.modCore c fun k => { k with preState := 0 } else s

/-- PREEMPT_HANDLER_ENTRY (R407): steps 2 to 4 for one seat. -/
def State.preEntry (s : State) (c i : Nat) : State :=
  let k := s.core c
  let p : Place := ⟨c, i, 0⟩
  let s := if k.preState = 1 ∧ k.curtain = false then s.netSpill c else s
  if k.preState ≠ 1 ∨ k.curtain = true ∨ ¬ (s.preTargets c).contains p ∨ s.preReady p = false then s else
  let parked := (s.bank p).run == .parked
  let s := if i = 0 then s.disband c else s
  let s := (s.preemptSeat p).modBank p fun b => { b with run := .running }
  let s :=
    if (s.crCore c 0x284).getLsbD 0 then s.enterHandler p (s.bank p).pc k.preKind 0 parked
    else (s.haltBank p .preemptHalt 0).modBank p fun b => { b with
      tstat := BitVec.ofNat 7 (4 * k.preKind + 64 * b2n parked) }
  { s with ended := .done }.preDone c

/-- PTIME_EXPIRY (R406). -/
def State.ptimeExpiry (s : State) (c : Nat) : State :=
  let dl := (s.crCore c 0x28d).toNat
  if dl ≠ 0 ∧ dl ≤ s.dtime then (s.setCrCore c 0x28d 0).preRequest c 1 else s

/-- A store of an engine is sent again (R409); where it cannot be sent its command learns of the bounce. -/
def State.resendEngine (s : State) (c : Nat) (w : Word) (bytes : List Byte) (tag : Nat) : State :=
  let off := bits w.toNat 20 0
  let v := if bit w.toNat 53 then none else some (bits w.toNat 52 21)
  let body := Body.store off bytes tag 0
  match s.rstDest c w with
  | .to_ d => s.post c d v 2 false tag body
  | .held => s.hold (Config.dieOf c) (s.msg c 0 v 2 false (s.core c).pts tag body)
  | .bounce => s.modHead c (tag - engTag 0) fun e => { e with bounced := true, faddr := w64 off }

/-- The record at an offset of the spill area is sent again by core c: none when it is no record, or when the stage door that
must hold it, or the interface beside what it holds (`late` bytes), is full. -/
def State.resend1 (s : State) (c late a : Nat) : Option State :=
  let w := w64 (s.spillWord c a)
  let h := s.spillWord c (a + 8)
  let n := if bits h 47 32 = 0 then 16 * bits h 15 8 else bits h 47 32
  let seat := if bits h 63 48 = 0 then bits h 26 24 else bits h 63 48
  if 2048 < a + 16 + 16 * bits h 15 8 then none else
  let bytes := memReads s.mem (keysFrom (Config.tileKey c (0x7_f800 + a + 16)) n)
  match bits h 3 0 with
  | 1 =>
    let v := leWord (bytes.take 8)
    let body := Body.mail (bits w.toNat 34 32) (bits w.toNat 39 35) v
    match s.sendTo c w v with
    | .mail d vd => if s.outRoom c (late + 32) then some (s.post c d vd 2 false seat body) else none
    | .start d off => if s.outRoom c (late + 32) then some (s.post c d none 2 false seat (.start off)) else none
    | .held vd =>
      if s.doorRoom (Config.dieOf c) then
        some (s.hold (Config.dieOf c) (s.msg c 0 (some vd) 2 false (s.core c).pts seat body))
      else none
    | .bounce => some (s.mailLand c (bits h 26 24) 31
        (bounceWord (bits w.toNat 31 0) (bits w.toNat 34 32) (bits w.toNat 39 35) Cause.msgBounce.num))
  | 0 => none
  | k =>
    if 4 < k ∨ (s.rstDest c w = .held ∧ s.doorRoom (Config.dieOf c) = false) ∨ s.rstRoom c w (late + n) = false then none
    else if bits h 63 48 ≠ 0 then some (s.resendEngine c w bytes seat)
    else some (s.sendRst ⟨c, seat, 0⟩ w bytes (bit h 16))
/-- Records from an offset on are sent again, at most n: how many were not, and where they begin. -/
def State.resendFrom (s : State) (c late : Nat) : Nat → Nat → State × Nat × Nat
  | 0, a => (s, 0, a)
  | n + 1, a =>
    match s.resend1 c late a with
    | some s => s.resendFrom c late n (a + 16 + 16 * bits (s.spillWord c (a + 8)) 15 8)
    | none => (s, n + 1, a)

/-- PREEMPT_RESEND (R409): the records of the spill area are sent in order, before what the interface has been handed since.
DESIGN CHOICE (log 17): with SPILLN = 0, on a core that has received its context with its bank 15, every record up to the
first header of no kind is sent; records that find the stage door full stay; a header of no kind ends what is left. -/
def State.preResend (s : State) (c : Nat) : State :=
  let n := (s.core c).spillN
  let late := (s.core c).outbox
  let s := s.modCore c fun k => { k with outbox := [] }
  let (s, left, a) := s.resendFrom c (late.map (·.body.spill)).sum (if n = 0 then 128 else n) 0
  let left := if n = 0 then 0 else left
  let stay := memReads s.mem (keysFrom (Config.tileKey c (0x7_f800 + a)) (s.spillOff c left a - a))
  (s.poke c (cellsAt (Config.tileKey c 0x7_f800) ((stay ++ leBytes 16 0).take 2048))).modCore c fun k => { k with
    spillN := left, outbox := k.outbox ++ late }

/-! Halted seats (R412). -/

/-- SWCMD_RESUME. A seat that a machine check has stopped without a continuation is idle again. -/
def State.swResume (s : State) (p : Place) : State :=
  if (s.core p.core).curtain then s else
  match (s.bank p).run with
  | .halted => s.modBank p fun b => { b with run := .running }
  | .stopped => s.modBank p fun b => { b with run := .idle }
  | _ => s
/-- SWCMD_KILL. -/
def State.swKill (s : State) (p : Place) : State :=
  if (s.core p.core).curtain then s else
  match (s.bank p).run with
  | .halted => s.killSeat p
  | .stopped => s.modBank p fun b => { b with run := .idle }
  | _ => s

/-! The curtain (R413, R414). -/

/-- CURTCTL.PART of a core. -/
def State.part (s : State) (c : Nat) : Nat := (s.crCore c 0x293).toNat % 64
/-- Send a raise or a lower to every core of a partition. -/
def State.curtSend (s : State) (part : Nat) (up : Bool) : State :=
  (allCores.filter fun c => s.part c == part).foldl (fun (s : State) c =>
    s.modCore c fun k => { k with curtReq := k.curtReq ++ [up] }) s

/-- CURTAIN_HALT: a raise reaches the core. -/
def State.curtHalt (s : State) (c : Nat) : State :=
  match (s.core c).curtReq with
  | true :: r =>
    let s := s.modCore c fun k => { k with curtReq := r }
    if (s.core c).curtain then s else
    let s := ((placesOf c).filter fun p => p.seat ≠ 8).foldl (fun s p => s.retireAll p) s
    let k := s.core c
    (((s.modCore c fun k => { k with curtain := true }).setCrCore c 0x294 (w64 k.retired)).setCrCore c 0x295
      (w64 k.sent)).setCrCore c 0x296 (w64 k.recv)
  | _ => s

/-- CURTAIN_RESUME: a lower reaches the core. -/
def State.curtResume (s : State) (c : Nat) : State :=
  match (s.core c).curtReq with
  | false :: r => s.modCore c fun k => { k with curtReq := r, curtain := false }
  | _ => s

/-- MACHINE_CHECK (R393, R413): every seat of the core halts, one that holds no continuation too, one message is sent, and the
curtain rises over its partition. -/
def State.machineCheck (s : State) (c : Nat) : State :=
  let s := (placesOf c).foldl (fun s p =>
    match (s.bank p).run with
    | .running | .parked =>
      (((s.unreserve p).retireAll p).unpark p).modBank p fun b => { b with run := .halted, owed := 0, wip := .none }
    | .idle => if p.seat = 8 then s else s.modBank p fun b => { b with run := .stopped }
    | _ => s) s
  let b := s.bank (s.placeOf c 0)
  (s.faultMsg c 0 .machineCheck b.vcore.toNat b.pc 0).curtSend (s.part c) true

/-! The events. -/

/-- PGWAKE_WRITE (R404). -/
def execPgwakeWrite (v : Word) (s : State) : Out := .next (s.pageWake v)
/-- PREEMPT_REQ (R406). -/
def execPreemptReq (core kind : Nat) (s : State) : Out := .next (s.preRequest core kind)
/-- PTIME_EXPIRY (R406). -/
def execPtimeExpiry (core : Nat) (s : State) : Out := .next (s.ptimeExpiry core)
/-- PREEMPT_HANDLER_ENTRY (R407). -/
def execPreemptHandlerEntry (core seat : Nat) (s : State) : Out := .next (s.preEntry core seat)
/-- PREEMPT_RESEND (R409). -/
def execPreemptResend (core : Nat) (s : State) : Out := .next (s.preResend core)
/-- SWCMD_RESUME (R412). -/
def execSwcmdResume (core seat bank : Nat) (s : State) : Out := .next (s.swResume ⟨core, seat, bank⟩)
/-- SWCMD_KILL (R412). -/
def execSwcmdKill (core seat bank : Nat) (s : State) : Out := .next (s.swKill ⟨core, seat, bank⟩)
/-- CURTAIN_RAISE (R413). -/
def execCurtainRaise (part : Nat) (s : State) : Out := .next (s.curtSend part true)
/-- CURTAIN_LOWER (R413). -/
def execCurtainLower (part : Nat) (s : State) : Out := .next (s.curtSend part false)
/-- CURTAIN_HALT (R413). -/
def execCurtainHalt (core : Nat) (s : State) : Out := .next (s.curtHalt core)
/-- CURTAIN_RESUME (R413). -/
def execCurtainResume (core : Nat) (s : State) : Out := .next (s.curtResume core)
/-- CURTDEV_RAISE (R413, R451). -/
def execCurtdevRaise (part : Nat) (s : State) : Out := .next (s.curtSend part true)
/-- CURTDEV_LOWER (R413, R451). -/
def execCurtdevLower (part : Nat) (s : State) : Out := .next (s.curtSend part false)
/-- MACHINE_CHECK (R393, R413). -/
def execMachineCheck (core : Nat) (s : State) : Out := .next (s.machineCheck core)

end Sys2Proof.Machine
end

