-- ==== Sys2Proof/Machine/Launch.lean ====
section
/-! DEFINITION. Launches (spec/07 R157-R170): headers, core sets, cues, flood generators, stealing, ensembles and their
placement (also spec/21 R442, R443), and the termination wave. -/
namespace Sys2Proof.Machine

/-! Headers and core sets (R157, R158). -/

/-- A launch header of 128 bytes. -/
def Header.ofBytes (bs : List Byte) : Header :=
  let d := dword bs
  let w := fun k => bits (d 2) (8 * k + 7) (8 * k)
  { kind := bits (d 0) 1 0, prio := bits (d 0) 6 2, scope := bits (d 0) 10 7, eshape := bits (d 0) 19 16
    ex := bits (d 0) 25 20, ey := bits (d 0) 31 26, pc := w64 (d 1)
    widw := BitVec.ofNat 42 (((List.range 6).map fun k => w k % 128 * 2 ^ (7 * k)).sum)
    joinc := BitVec.ofNat 16 (bits (d 2) 63 48), wbase := d 3, wcount := d 4
    clfirst := bits (d 5) 5 0, clcount := bits (d 5) 13 8, tmask := BitVec.ofNat 16 (bits (d 5) 31 16)
    root := bits (d 5) 41 32, vbase := bits (d 6) 31 0, slices := bits (d 6) 63 32, segtab := w64 (d 7)
    frame := w64 (d 8), framesz := w64 (d 9), spill := w64 (d 10), spilln := d 11
    s4 := w64 (d 12), s5 := w64 (d 13), s6 := w64 (d 14), s7 := w64 (d 15) }

/-- Members of an ensemble: 0 for a shape or size that is refused (R169). -/
def Header.memberCount (h : Header) : Nat :=
  let col := Config.colOf h.root
  match h.eshape with
  | 1 => if (h.ex = 2 ∨ h.ex = 4 ∨ h.ex = 8) ∧ col % h.ex = 0 then h.ex else 0
  | 2 => if 2 ≤ h.ex then h.ex else 0
  | 3 => if 2 ≤ h.ex ∧ h.ex ≤ 16 ∧ 2 ≤ h.ey ∧ h.ey ≤ 16 then h.ex * h.ey else 0
  | _ => 0
/-- Column and row of member i of an ensemble (R169). -/
def Header.memberAt (h : Header) (i : Nat) : Nat × Nat :=
  let col := Config.colOf h.root
  let row := Config.rowOf h.root
  match h.eshape with
  | 1 => (col + i, row)
  | 2 =>
    let l := 24 - col
    (if i / l % 2 = 0 then col + i % l else col + l - 1 - i % l, row + i / l)
  | _ => (col + i % h.ex, row + i / h.ex)
/-- The members' cores, member 0 first; none when one is no D-tile of the die (R169). -/
def Header.memberCores (h : Header) : Option (List Nat) :=
  if Config.isX h.root then none else
  ((List.range h.memberCount).mapM fun i =>
    let (c, r) := h.memberAt i
    if c < 24 ∧ r < 16 then some (Config.dieOf h.root * 384 + r * 24 + c) else none)

/-- A header breaks no limit (R157, R163, R169): its bytes, with the fields read from them. -/
def headerOk (bs : List Byte) (h : Header) : Bool :=
  let d := dword bs
  let ws := (List.range 6).map fun k => bits (d 2) (8 * k + 7) (8 * k)
  h.kind != 3 && decide (h.prio ≤ 23) && decide (h.scope ≤ 11) && bits (d 0) 15 11 == 0 && bits (d 0) 63 32 == 0 &&
  decide (ws.sum ≤ 64) && bits (d 2) 53 51 == 0 &&
  decide (1 ≤ h.clcount) && decide (h.clfirst + h.clcount ≤ 48) && bits (d 5) 63 42 == 0 &&
  h.framesz.toNat % 64 == 0 && h.spilln % 16 == 0 &&
  (match h.kind with
   | 1 => h.coreSet.contains h.root
   | 2 => (match h.memberCores with
     | some ms => decide (0 < ms.length) && ms.all h.coreSet.contains
     | none => false)
   | _ => true)

/-! Cues (R159-R163). -/

/-- The record of a placed continuation of a launch: identifier i above wbase, ensemble number. -/
def Header.record (h : Header) (q i ens : Nat) : Rec :=
  ⟨h.pc, w64 (h.wbase + i), h.frame + w64 i * h.framesz, h.s4, h.s5, h.s6, h.s7,
    w64 (ens % 4096 * 2 ^ 48 + q * 2 ^ 42 + h.prio * 2 ^ 37 + (h.vbase + i) % 2 ^ 32)⟩

/-- Generators stand by header priority, then in SEQ order (R442). -/
def insertGen (seq : Nat → Nat) : List Gen → Gen → List Gen
  | [], g => [g]
  | x :: t, g =>
    if g.prio < x.prio ∨ (g.prio = x.prio ∧ seq x.slot ≤ seq g.slot) then x :: insertGen seq t g else g :: x :: t

/-- A virtual core is placed (R174). -/
def State.placeV (s : State) (v c : Nat) : State := { s with routes := mset s.routes (v % 2 ^ 32) (.placed c) }

/-- A cue reaches core c of a slot's core set (R159-R163): the core reads the header at `addr`. None when its root record
finds no room, or while the header cannot be read (log 52). -/
def State.cueArrive (s : State) (q : Nat) (addr : Word) (c : Nat) : Option State :=
  match s.slotFind q addr.toNat 128 false with
  | .ok ks =>
    let h := Header.ofBytes (memReads s.mem ks)
    let s := s.see c ks
    match h.kind, h.coreSet.findIdx? (· == c) with
    | 0, some j =>
      let n := h.coreSet.length
      let s := s.placeV (h.vbase + j) c
      if h.first n j < h.first n (j + 1) then
        let g : Gen := ⟨q, h.prio, h.pc, h.first n j, h.first n (j + 1), h.wbase, h.frame, h.framesz, h.s4, h.s5, h.s6, h.s7,
          (h.vbase + j) % 2 ^ 32⟩
        some (s.modCore c fun k => { k with gens := insertGen (fun q => (s.slot q).seq) k.gens g })
      else some s
    | 1, some _ =>
      let s := s.modCore c fun k => { k with lastSlot := some q }
      if c = h.root then (s.enterReady c (h.record q 0 0)).map fun s => (s.placeV h.vbase c).countBegin c q else some s
    | _, _ => some s
  | _ => none

/-! Stealing (R165, R166). -/

/-- The generator of victims: the next 16-bit state. -/
def nextX (x : BitVec 16) : BitVec 16 := if x.getLsbD 0 then (x >>> 1) ^^^ 0xb400 else x >>> 1
/-- The victim's index for a state. -/
def victimOf (x : BitVec 16) (j n : Nat) : Nat := let v := x.toNat % (n - 1); if j ≤ v then v + 1 else v

/-- AFF of a record on core `victim` admits core `thief` (R166). -/
def Rec.affAdmits (r : Rec) (victim thief : Nat) : Bool :=
  match r.aff with
  | 0 => true
  | 1 => Config.dieOf victim == Config.dieOf thief
  | 2 => Config.clusterOf victim == Config.clusterOf thief
  | _ => false
/-- A record is stealable by a core of the launch (R166). -/
def stealable (q victim thief : Nat) (r : Rec) : Bool := r.slot == q && !r.noSteal && r.affAdmits victim thief

/-- The oldest k records of a list, newest first, that satisfy p: what stays, newest first, and what goes, oldest first. -/
def takeOldest (p : Rec → Bool) (k : Nat) (l : List Rec) : List Rec × List Rec :=
  l.reverse.foldl (fun (a : List Rec × List Rec) r =>
    if p r ∧ a.2.length < k then (a.1, a.2 ++ [r]) else (r :: a.1, a.2)) ([], [])

/-- The thief's condition to run its steal unit (R165). Seat 7 of a seized tile is not idle: it belongs to the reflex bank
until the release (R423, R424). -/
def State.stealIdle (s : State) (c : Nat) : Bool :=
  let k := s.core c
  !Config.isX c && !s.holding c && !k.frozen && !k.curtain && !k.fenced &&
  ((List.range 8).any fun i => (s.bank ⟨c, i, 0⟩).run == .idle && !(i == 7 && k.seized.isSome) && !s.hotSeat c i) &&
  (k.ready.filter fun x => !x.held7).isEmpty && k.deque.isEmpty && k.spill.isEmpty && k.gens.isEmpty &&
  !(s.net.any fun m => m.dst == c && match m.body with | .steal _ => true | _ => false)

/-- STEAL_PROBE (R165, R166). -/
def State.stealProbe (s : State) (c : Nat) : State :=
  let k := s.core c
  match k.lastSlot with
  | none => s
  | some q =>
    match (s.slot q).hdr, s.indexOf q c with
    | some h, some j =>
      let n := h.coreSet.length
      if n < 2 ∨ s.stealIdle c = false ∨ s.clk < k.probeClk then s else
      let x := nextX (k.lfsr.getD (BitVec.ofNat 16 (c + 1)))
      let v := h.coreSet.getD (victimOf x j n) 0
      let kv := s.core v
      let p := fun r => stealable q v c r && !s.crosses v c
      let ring := (s.spillRead v q).getD []
      let d := (kv.deque.filter p).length + (ring.filter p).length
      let s := s.modCore c fun k => { k with lfsr := some x, probeClk := if d = 0 then s.clk + 32 else k.probeClk }
      if d = 0 then s else
      let m := min 16 ((d + 1) / 2)
      let (sp, a) := takeOldest p m ring.reverse
      let (dq, b) := takeOldest p (m - a.length) kv.deque
      match (if a.isEmpty then some s else s.spillKeep v q sp.reverse) with
      | some s => (s.modCore v fun k => { k with deque := dq }).post v c none 2 false 0 (.steal (a ++ b))
      | none => s
    | _, _ => s

/-! Ensembles (R169, R170, R443). -/

/-- Seat 0 of a core holds a continuation of the ensemble of slot `q`. -/
def State.seatOf (s : State) (q c : Nat) : Bool :=
  let b := s.bank ⟨c, 0, 0⟩
  b.held && b.cslot.toNat == q && b.ens != 0
/-- A core runs a member of the ensemble of another slot: its seat 0 holds a continuation of the ensemble, or the member has
suspended and left the seat by no exit, kill or context save (R170, R443; log 51). -/
def State.runsMember (s : State) (q c : Nat) : Option Nat :=
  (s.slots.find? fun x => x.1 != q && x.2.placed &&
    (match x.2.members.findIdx? (· == c) with
     | some i => s.seatOf x.1 c || (mget x.2.mlive i 0 != 0 && !x.2.mleft.contains i)
     | none => false)).map (·.1)
/-- The slot whose placement holds a claim on a core. -/
def State.claimant (s : State) (c : Nat) : Option Nat :=
  (s.slots.find? fun x => x.2.placing && x.2.claimed.contains c).map (·.1)
/-- Priority of a slot's launch. -/
def State.slotPrio (s : State) (q : Nat) : Nat := match (s.slot q).hdr with | some h => h.prio | none => 0

/-- Seat 0 of a core lets a claim succeed: it is not halted or in handler mode, and the tile is no host (R170, R244). -/
def State.claimFree (s : State) (c : Nat) : Bool :=
  let b := s.bank ⟨c, 0, 0⟩
  b.run != .halted && b.run != .stopped && !b.handler && !s.host c && !(s.core c).fenced

/-- A member core can give up its seat 0: no commit goes on, and no result that the discard waits for is to come. -/
def State.memberReady (s : State) (c : Nat) : Bool :=
  s.claimFree c && ((s.bank ⟨c, 0, 0⟩).run == .idle || s.preReady ⟨c, 0, 0⟩)

/-- The continuation of seat 0 goes to the ready queue with its resume point (R170). -/
def State.displace (s : State) (c : Nat) : Option State :=
  let p : Place := ⟨c, 0, 0⟩
  if (s.bank p).run = .idle then some s else
  let s := s.preemptSeat p
  (s.pushReady c (s.recOf p (s.bank p).pc)).map fun s => s.vacate p

/-- Displace the continuations of every member, or none of them. -/
def State.displaceAll (s : State) : List Nat → Option State
  | [] => some s
  | c :: t => match s.displace c with | some s => s.displaceAll t | none => none

/-- The last claim has succeeded: one cue starts every member (R169, R170). DESIGN CHOICE (log 67): a chain takes the place of
a link that a member's qin or qout already has; the old upstream gets DNHUP, the old downstream UPHUP, and the queue is
emptied. -/
def State.startEnsemble (s : State) (q : Nat) (h : Header) : State :=
  let t := s.slot q
  let ens := 1 + Config.ensNumber (t.launches * 64 + q) % 4095
  let ms := t.members
  let s := s.modSlot q fun t => { t with
    placing := false, claimed := [], placed := true, bars := [], mleft := [], mlive := (List.range ms.length).map fun i => (i, 1) }
  let s := (List.range ms.length).foldl (fun (s : State) i =>
    let c := ms.getD i 0
    (((s.takeUpSlot ⟨c, 0, 0⟩ (h.record q i ens)).placeV (h.vbase + i) c).countBegin c q)) s
  if h.eshape = 2 then
    (List.range (ms.length - 1)).foldl (fun (s : State) i =>
      let a : Place := ⟨ms.getD i 0, 0, 0⟩
      let b : Place := ⟨ms.getD (i + 1) 0, 0, 0⟩
      let s := match (s.seat b.core 0).up with
        | some (c, i) => s.modSeat c i fun t => { t with down := none, dnHup := true }
        | none => s
      (s.hangup a).link a.core b.core 0) s
  else s

/-- Claim a core for a slot: a claim of lower priority gives way (R170). -/
def State.claim (s : State) (q c : Nat) : State :=
  let s := match s.claimant c with
    | some o => s.modSlot o fun t => { t with claimed := [], yieldTo := some q }
    | none => s
  s.modSlot q fun t => { t with claimed := t.claimed ++ [c], placedAt := s.dtime, pre443 := false }

/-- The next core that a placement claims, in ascending core number. -/
def Slot.nextClaim (t : Slot) : Option Nat := (t.members.filter fun c => !t.claimed.contains c).min?

/-- ENSEMBLE_CLAIM (R170): the next claim, or the start once all are made. A placement that has lost its claims starts again
when the one that took them has completed, and its wait of R443 begins anew. -/
def State.ensembleClaim (s : State) (q : Nat) : State :=
  let t := s.slot q
  let yields := match t.yieldTo with | some o => (s.slot o).placing | none => false
  if !t.placing || yields then s else
  let s := if t.yieldTo.isSome then s.modSlot q fun t => { t with yieldTo := none, placedAt := s.dtime, pre443 := false } else s
  match t.nextClaim with
  | some c =>
    if s.holding c then
      (if (s.core c).heldEv.any (·.body == .claim q) then s else s.holdEvent c (.claim q))
    else if !s.claimFree c || (s.runsMember q c).isSome then s
    else
      match s.claimant c with
      | some o => if s.slotPrio o < s.slotPrio q then s.claim q c else s
      | none => s.claim q c
  | none =>
    match t.hdr with
    | some h =>
      if t.members.all s.memberReady then
        match s.displaceAll t.members with
        | some s => { s.startEnsemble q h with ended := .done }
        | none => s
      else s
    | none => s

/-- PLACEMENT_WAIT_EXPIRY (R443): a request of KIND 1 on each core of the ensemble of lower priority. -/
def State.placementExpiry (s : State) (q : Nat) : State :=
  let t := s.slot q
  let wait := bits (s.crGlob 0 0x304).toNat 47 32
  if wait = 0 ∨ t.placing = false ∨ t.yieldTo.isSome = true ∨ t.pre443 = true ∨ s.dtime ≤ t.placedAt + wait * 1000 then s else
  match t.nextClaim with
  | some c =>
    match s.runsMember q c with
    | some o =>
      if s.slotPrio o < s.slotPrio q then
        (s.slot o).members.foldl (fun s c => s.preRequest c 1) (s.modSlot q fun t => { t with pre443 := true })
      else s
    | none => s
  | none => s

/-! Termination (R168). -/

/-- A record of a slot's launch that counts in it. -/
def Rec.ofSlot (r : Rec) (q : Nat) : Bool := r.slot == q && !r.isReflex

/-- A message that carries or starts work of a slot. -/
def Msg.ofSlot (m : Msg) (q : Nat) : Bool :=
  match m.body with
  | .steal rs => rs.any (·.ofSlot q)
  | .wakeRec r => r.ofSlot q
  | .cue o _ => o == q
  | _ => false

/-- A bank holds a continuation of a slot's launch. -/
def State.holdsOf (s : State) (q : Nat) (p : Place) : Bool :=
  let b := s.bank p
  b.held && b.cslot.toNat == q && !b.ctl.getLsbD 62 && !p.reflex

/-- A core is quiet for the launch of a slot (R168). -/
def State.quiet (s : State) (q c : Nat) : Bool :=
  let k := s.core c
  !((placesOf c).any (s.holdsOf q)) && !(k.ready.any fun x => x.r.ofSlot q) && !(k.deque.any (·.ofSlot q)) &&
  (s.spillAt c q).2 == 0 && !(k.vq.any fun v => v.slot == q && v.seat != 8 && !Config.isX c) && !(k.gens.any fun g => g.slot == q) && !(k.heldEv.any (·.ofSlot q)) &&
  !(k.queues.any fun x => x.2.any fun e => e.slot == q && !e.reflex) &&
  !(s.net.any fun m => (m.dst == c || m.src == c) && m.ofSlot q)

/-- TERMINATION_WAVE (R168): the sums over the core set; two equal quiet waves terminate the launch. -/
def State.wave (s : State) (q : Nat) : State :=
  let t := s.slot q
  match t.phase, t.hdr with
  | .running, some h =>
    if t.placing then s else
    let cs := h.coreSet
    let w := ((cs.map fun c => mget (s.core c).created q 0).sum, (cs.map fun c => mget (s.core c).exited q 0).sum,
      cs.all (s.quiet q))
    if t.wave = some w ∧ w.1 = w.2.1 ∧ w.2.2 = true then
      let n := match h.kind with | 0 => cs.length | 1 => 1 | _ => t.members.length
      let s := (List.range n).foldl (fun (s : State) i =>
        { s with routes := mset s.routes ((h.vbase + i) % 2 ^ 32) .exited }) s
      s.modSlot q fun t => { t with phase := .ended, wave := none, wdogOn := false, placed := false }
    else s.modSlot q fun t => { t with wave := some w }
  | _, _ => s

/-- STEAL_PROBE (R165). -/
def execStealProbe (core : Nat) (s : State) : Out := .next (s.stealProbe core)
/-- TERMINATION_WAVE (R168). -/
def execTerminationWave (slot : Nat) (s : State) : Out := .next (s.wave slot)
/-- ENSEMBLE_CLAIM (R170). -/
def execEnsembleClaim (slot : Nat) (s : State) : Out := .next (s.ensembleClaim slot)
/-- PLACEMENT_WAIT_EXPIRY (R443). -/
def execPlacementWaitExpiry (slot : Nat) (s : State) : Out := .next (s.placementExpiry slot)

end Sys2Proof.Machine
end

