-- ==== Sys2Proof/Machine/Sha.lean ====
section
/-! DEFINITION. SHA-384 (FIPS 180-4), which the prompt book (spec/21 R445) and the measurement (R452) use. -/
namespace Sys2Proof.Machine

/-- The prime numbers below n. -/
def primesBelow (n : Nat) : List Nat :=
  (List.range n).filter fun p => 2 ≤ p && (List.range p).all fun d => d < 2 || p % d != 0
/-- The integer part of the k-th root of n < 2^(72 k), found bit by bit. -/
def rootFloor (k n : Nat) : Nat :=
  (List.range 72).reverse.foldl (fun r i => if (r + 2 ^ i) ^ k ≤ n then r + 2 ^ i else r) 0
/-- The first 64 bits of the fraction of the k-th root of p: what FIPS 180-4 takes its constants from. -/
def rootBits (k p : Nat) : Word := BitVec.ofNat 64 (rootFloor k (p * 2 ^ (64 * k)))

/-- The round constants: from the cube roots of the first 80 primes. -/
def shaK : List Word := (primesBelow 410).map (rootBits 3)
/-- The initial hash value of SHA-384: from the square roots of the 9th to the 16th prime. -/
def shaInit : List Word := ((primesBelow 54).drop 8).map (rootBits 2)

/-- Big-endian number of some bytes. -/
def beNat (bs : List Byte) : Nat := bs.foldl (fun a b => a * 256 + b.toNat) 0
/-- Big-endian bytes of a word. -/
def beBytes8 (w : Word) : List Byte := (leBytes 8 w.toNat).reverse

/-- The padded message. -/
def shaPad (bs : List Byte) : List Byte :=
  let n := bs.length
  bs ++ 0x80 :: List.replicate ((239 - n % 128) % 128) 0 ++ (leBytes 16 (8 * n)).reverse

/-- The exclusive or of a word turned right by each of some counts. -/
def turned (x : Word) (l : List Nat) : Word := l.foldl (fun a n => a ^^^ x.rotateRight n) 0
/-- Choose, by the bits of `x`, between `y` and `z`. -/
def choose (x y z : Word) : Word := (x &&& y) ||| (~~~x &&& z)
/-- The bit that two or three of the words have. -/
def majority (x y z : Word) : Word := choose (x ^^^ y) z x

/-- One more word of the message schedule, which is kept newest first. -/
def shaExtend (w : List Word) : List Word :=
  let g := fun i => w.getD i 0
  ((turned (g 1) [19, 61] ^^^ (g 1 >>> 6)) + g 6 + (turned (g 14) [1, 8] ^^^ (g 14 >>> 7)) + g 15) :: w

/-- The 80 words of a block's schedule. -/
def shaSchedule (blk : List Byte) : List Word :=
  let w0 := (List.range 16).map fun i => BitVec.ofNat 64 (beNat ((blk.drop (8 * i)).take 8))
  ((List.range 64).foldl (fun w _ => shaExtend w) w0.reverse).reverse

/-- One round on the working variables a to h; `kw` is the sum of its constant and its schedule word. -/
def shaRound (v : List Word) (kw : Word) : List Word :=
  let g := fun i => v.getD i 0
  let add := kw + g 7 + choose (g 4) (g 5) (g 6) + turned (g 4) [14, 18, 41]
  (add + majority (g 0) (g 1) (g 2) + turned (g 0) [28, 34, 39]) :: v.take 3 ++ (g 3 + add) :: (v.drop 4).take 3

/-- One block. -/
def shaBlock (h : List Word) (blk : List Byte) : List Word :=
  let v := (List.zipWith (· + ·) shaK (shaSchedule blk)).foldl shaRound h
  List.zipWith (· + ·) h v

/-- The SHA-384 digest of some bytes, 48 bytes. -/
def sha384 (bs : List Byte) : List Byte :=
  let m := shaPad bs
  let h := (List.range (m.length / 128)).foldl (fun h i => shaBlock h ((m.drop (128 * i)).take 128)) shaInit
  (h.take 6).flatMap beBytes8

end Sys2Proof.Machine
end

