-- ==== Sys2Proof/Machine/Device.lean ====
section
/-! DEFINITION. Command queues (spec/21 R438-R445, R453): slots, doorbells, the machine of R441, the prompt book, quotes. -/
namespace Sys2Proof.Machine

/-! Reports and the prompt book (R410, R445). -/

/-- A report of the device, to the supervisor core of die 0. -/
def State.devReport (s : State) (c : Cause) (w1 w2 : Nat) : State := s.faultMsg 0 0 c 0 (w64 w1) (w64 w2)

/-- The module's role (R446): it is the understudy. -/
def State.understudy (s : State) : Bool := (s.crGlob 0 0x309).getLsbD 62
/-- It mirrors to an understudy. -/
def State.mirrors (s : State) : Bool := (s.crGlob 0 0x309).getLsbD 63 && !s.understudy
/-- Ring size of the prompt book: LOG between 8 and 24 (R451). -/
def State.bookLog (s : State) : Nat := max 8 (min 24 ((s.crGlob 0 0x306).toNat % 32))
/-- Address of entry n. -/
def State.bookAt (s : State) (n : Nat) : Nat := (s.crGlob 0 0x306).toNat / 4096 * 4096 + 128 * (n % 2 ^ s.bookLog)
/-- Entries appended. -/
def State.bookTail (s : State) : Nat := (s.crGlob 0 0x307).toNat

/-- Place entry n of the book, and note what it says of its SEQ. -/
def State.bookPut (s : State) (n seq slot st : Nat) (bytes : List Byte) : State :=
  let s := (s.devWrite s.lastTs (cellsAt (s.bookAt n) bytes)).setCrGlob 0 0x307 (w64 (n + 1))
  { s with book := (s.book.filter fun e => n < e.2.2.2 + 2 ^ s.bookLog) ++ [(seq, slot, st, n)] }

/-- Append an entry (R445); a primary that mirrors sends it. -/
def State.bookAppend (s : State) (seq slot st rep info : Nat) (raw copy : List Byte) : State :=
  let n := s.bookTail
  let bytes := leBytes 8 seq ++ leBytes 1 slot ++ leBytes 1 st ++ leBytes 1 rep ++ leBytes 5 0 ++ leBytes 8 s.dtime ++
    leBytes 8 info ++ (sha384 raw).take 16 ++ leBytes 16 0 ++ (if copy.isEmpty then leBytes 64 0 else copy)
  let m := s.mirrors
  let s := s.bookPut n seq slot st bytes
  if m then { s with out := s.out ++ [.entry (w64 n) bytes] } else s

/-- The latest state of a SEQ in the book. -/
def State.bookState (s : State) (seq : Nat) : Option Nat :=
  ((s.book.filter fun e => e.1 == seq).getLast?).map fun e => e.2.2.1

/-- Append a state of a slot's current command. -/
def State.logCmd (s : State) (q st info : Nat) : State :=
  let t := s.slot q
  match t.cmd with
  | some c => s.bookAppend t.seq q st t.reps info c.raw []
  | none => s

/-! Accesses of a slot (R439). -/

/-- The slot waits for a page (R439): one fault message, then it goes back to `back`. -/
def State.slotPark (s : State) (q va : Nat) (sub : Bool) (back : Phase) : State :=
  let page := pageNo va sub * (if sub then 2 ^ 10 else 2 ^ 21)
  (s.modSlot q fun t => { t with phase := .page va sub back }).devReport .pageAbsent page (q + b2n sub * 2 ^ 8)

/-- Writes of the device, in pieces that lie in one page each, at a time not below `lo`: into a memory of the package, or
posted to a port under the number of the slot. -/
def State.devPut (s : State) (q lo : Nat) : List (List Nat × List Byte) → State
  | [] => s
  | (ks, bs) :: t =>
    (if !ks.any isExt then s.devWrite lo (ks.zip bs)
    else if s.stopped then s else s.postExt 1024 q (ks.headD 0) bs).devPut q lo t
/-- Keys and bytes cut into runs of the given lengths. -/
def runsOf : List Nat → List Nat → List Byte → List (List Nat × List Byte)
  | [], _, _ => []
  | n :: t, ks, bs => (ks.take n, bs.take n) :: runsOf t (ks.drop n) (bs.drop n)

/-- Write bytes at a virtual address of a slot, at a time not below `lo`: true when the command goes on. A write that
PROT_PAGE stops is not made. -/
def State.slotWrite (s : State) (q lo : Nat) (va : Word) (bs : List Byte) (back : Phase) : State × Bool :=
  match s.slotFind q va.toNat bs.length true with
  | .ok ks => (s.devPut q lo (runsOf ((kPieces va.toNat bs.length).map (·.2)) ks bs), true)
  | .prot va => (s.devReport .protPage va q, true)
  | .park va sub => (s.slotPark q va sub back, false)
  | .wait => (s, false)

/-! Queue records and doorbells (R438, R440). -/

/-- The address of queue record i. -/
def State.qrec (s : State) (i : Nat) : Nat := (s.crGlob 0 0x300).toNat / 4096 * 4096 + 64 * i
/-- A dword of physical memory. -/
def State.dwordAt (s : State) (a : Nat) : Nat := leNat (memReads s.mem (keysFrom a 8))
/-- HEAD and TAIL of a slot's queue. -/
def State.ringHead (s : State) (t : Slot) : Nat := s.dwordAt (s.qrec t.qidx + 16)
/-- TAIL. -/
def State.ringTail (s : State) (t : Slot) : Nat := s.dwordAt (s.qrec t.qidx + 24)

/-- A refusal is recorded in QERR and reported (R440, R451). -/
def State.queueRefuse (s : State) (qidx kind : Nat) : State :=
  let n := min (2 ^ 32 - 1) (bits (s.crGlob 0 0x314).toNat 63 32 + 1)
  (s.setCrGlob 0 0x314 (w64 (n * 2 ^ 32 + kind * 2 ^ 12 + qidx))).devReport .queueInvalid qidx kind

/-- Set the watchdog's register of a slot from a queue record, or its STEP (R427, R438). -/
def State.wdogStep (s : State) (q step : Nat) : State :=
  s.setCrGlob 0 (0x2c0 + q) (w64 ((s.crGlob 0 (0x2c0 + q)).toNat % 2 ^ 52 + step * 2 ^ 52))

/-- Map a queue to a free slot (R438, R440), or refuse its record. -/
def State.mapQueue (s : State) (q qidx : Nat) : State :=
  let a := s.qrec qidx
  let ring := bits (s.dwordAt a) 47 6 * 64
  let log := s.dwordAt (a + 8) % 32
  let wd := s.dwordAt (a + 48)
  if log = 0 ∨ 16 < log ∨ isDram ring = false ∨ bits (s.dwordAt a) 63 48 ≠ 0 then s.queueRefuse qidx 2 else
  let s := s.modSlot q fun t => { Slot.free with
    mapped := true, qidx := qidx, ring := ring, log := log, root := bits (s.dwordAt (a + 32)) 47 10 * 2 ^ 10
    segimg := bits (s.dwordAt (a + 40)) 47 6 * 64, tail := s.dwordAt (a + 24), doorClk := s.dtime, launches := t.launches, again := t.again
    energy := t.energy }
  if bit wd 63 then s.setCrGlob 0 (0x2c0 + q) (w64 (wd % 2 ^ 52)) else s

/-- The slot a queue is mapped to. -/
def State.slotOf (s : State) (qidx : Nat) : Option Nat :=
  (List.range 64).find? fun q => (s.slot q).mapped && (s.slot q).qidx == qidx

/-- The firmware runs: BOOTST.STAGE is 2. Only then doorbells are answered (R452). -/
def State.firmware (s : State) : Bool := (s.crGlob 0 0x311).toNat % 16 == 2
/-- QDOOR_WRITE (R440). It waits at an understudy (R446), and before the firmware answers it (R452). -/
def State.doorbell (s : State) (v : Word) : State :=
  let i := v.toNat % 4096
  let wait := if s.bells.contains i then s else { s with bells := s.bells ++ [i] }
  if s.understudy || !s.firmware then wait
  else if (s.crGlob 0 0x300).toNat % 4096 < i then s.queueRefuse i 1
  else
    match s.slotOf i with
    | some q => s.modSlot q fun t => { t with doorClk := s.dtime, tail := s.ringTail t }
    | none =>
      match (List.range 64).find? fun q => !(s.slot q).mapped with
      | some q => s.mapQueue q i
      | none => wait

/-- The doorbells that wait ring again. -/
def State.ringWaiting (s : State) : State :=
  s.bells.foldl (fun s i => s.doorbell (w64 i)) { s with bells := [] }

/-- SLOT_FREE (R440): nothing to do for 100 µs. A doorbell that waits takes the slot. -/
def State.slotFree (s : State) (q : Nat) : State :=
  let t := s.slot q
  if t.mapped && t.phase == .idle && t.again.isEmpty && decide (t.tail ≤ s.ringHead t) &&
      decide (t.doorClk + 100000 ≤ s.dtime) then
    (s.modSlot q fun t => { Slot.free with launches := t.launches, energy := t.energy }).ringWaiting
  else s

/-! The machine of a slot (R441). -/

/-- A command record (R439). -/
def Cmd.ofBytes (bs : List Byte) : Cmd :=
  let d0 := dword bs 0
  { op := bits d0 3 0, replay := bit d0 4, irq := bit d0 5, scope := bits d0 11 8
    arg := w64 (dword bs 1), saddr := w64 (dword bs 2), sval := w64 (dword bs 3), eaddr := w64 (dword bs 4)
    bad := decide (bits d0 3 0 < 1) || decide (4 < bits d0 3 0) || bits d0 63 12 != 0 || (bs.drop 40).any (· ≠ 0)
    raw := bs }

/-- The command is refused (R441): REFUSED, and the signal inverted. -/
def State.refuseCmd (s : State) (q info : Nat) : State :=
  (s.logCmd q 5 info).modSlot q fun t => { t with sigval := t.sigval ^^^ 0x8000_0000_0000_0000, phase := .signal }

/-- HEAD advances, and a command with a bad record is refused. -/
def State.acceptEnd (s : State) (q : Nat) : State :=
  let t := s.slot q
  let s := s.devWrite 0 (cellsAt (s.qrec t.qidx + 16) (leBytes 8 (s.ringHead t + 1)))
  match t.cmd with
  | some c => if c.bad then s.refuseCmd q 1 else s.modSlot q fun t => { t with phase := .fetched }
  | none => s

/-- The primary waits for the understudy's acknowledgement (R441, R446). -/
def State.syncWait (s : State) (t : Slot) : Bool :=
  s.mirrors && (s.crGlob 0 0x309).getLsbD 61 && decide (s.acked < t.ackNo)

/-- COMMAND_ACCEPT (R441): the next command is journalled; once the journal stands at the understudy, HEAD advances. TAIL is
read at a doorbell and at an acceptance only (R440). -/
def State.accept (s : State) (q : Nat) : State :=
  let t := s.slot q
  if (!t.mapped && t.again.isEmpty) || s.stopped || s.understudy then s else
  match t.phase, t.again with
  | .idle, (seq, rep, raw) :: r =>
    let c := Cmd.ofBytes raw
    let s := s.modSlot q fun t => { t with
      again := r, seq := seq, reps := rep, cmd := some c, sigval := c.sval, phase := .fetched }
    if c.bad then s.refuseCmd q 1 else s
  | .idle, [] =>
    if t.tail ≤ s.ringHead t then s else
    let ks := keysFrom (t.ring + 64 * (s.ringHead t % 2 ^ t.log)) 64
    let raw := if s.bad ks then List.replicate 64 0 else memReads s.mem ks
    let c := Cmd.ofBytes raw
    let seq := (s.crGlob 0 0x308).toNat
    let s := (s.setCrGlob 0 0x308 (w64 (seq + 1))).bookAppend seq q 1 0 0 raw raw
    let s := s.modSlot q fun t => { t with
      tail := s.ringTail t, seq := seq, reps := 0, cmd := some c, sigval := c.sval, phase := .accepted, ackNo := s.bookTail }
    if s.syncWait (s.slot q) then s else s.acceptEnd q
  | .accepted, _ => if s.syncWait t then s else s.acceptEnd q
  | _, _ => s

/-- Virtual cores of a launch. -/
def Header.vcount (h : Header) (members : Nat) : Nat :=
  match h.kind with | 0 => h.coreSet.length | 1 => 1 | _ => members

/-- Dispatch a launch whose header lies at `addr` (R157-R159, R174, R441): the cue goes to every core of the set. -/
def State.dispatch (s : State) (q : Nat) (addr : Word) (h : Header) (image : List Seg) : State :=
  let ms := if h.kind = 2 then (h.memberCores).getD [] else []
  let cs := h.coreSet
  let s := s.modSlot q fun t => { t with
    energy := t.energy % 256, hdr := some h, image := image, members := ms, claimed := [], placing := h.kind == 2
    yieldTo := none, placedAt := s.dtime, placed := false, pre443 := false, wave := none, launches := t.launches + 1
    bars := [], mlive := [], mleft := [], wdogClk := s.dtime, wdogOn := true, phase := .running }
  let s := s.wdogStep q 0
  let s := cs.foldl (fun (s : State) c => s.modCore c fun k => { k with
    created := mset k.created q 0, exited := mset k.exited q 0 }) s
  let s := (List.range (h.vcount ms.length)).foldl (fun (s : State) i =>
    { s with routes := mset s.routes ((h.vbase + i) % 2 ^ 32) .unplaced }) s
  let s := cs.foldl (fun (s : State) c => s.toMesh (s.msg (1024 + q) c none 3 false 0 0 (.cue q addr))) s
  s.logCmd q 2 0

/-- CMD_LAUNCH (R157, R159, R439, R441). An understudy dispatches nothing (R446). -/
def State.cmdLaunch (s : State) (q : Nat) : State :=
  let t := s.slot q
  match t.phase, t.cmd with
  | .fetched, some c =>
    if c.op ≠ 1 || s.understudy then s else
    match s.slotFind q c.arg.toNat 128 false with
    | .ok ks =>
      let bs := memReads s.mem ks
      let h := Header.ofBytes bs
      if !headerOk bs h || c.arg.toNat % 64 != 0 then s.refuseCmd q 2
      else if h.segtab = 0 then
        let ks := keysFrom t.segimg 192
        if s.bad ks then s.refuseCmd q 2 else s.dispatch q c.arg h (segsOf (memReads s.mem ks))
      else
        match s.slotFind q h.segtab.toNat 192 false with
        | .ok ks => s.dispatch q c.arg h (segsOf (memReads s.mem ks))
        | .prot _ => s.refuseCmd q 2
        | .park va sub => s.slotPark q va sub .fetched
        | .wait => s
    | .prot _ => s.refuseCmd q 2
    | .park va sub => s.slotPark q va sub .fetched
    | .wait => s
  | _, _ => s

/-- The book says that a WAIT for a SEQ is over (R441). -/
def State.waitOver (s : State) (seq : Nat) : Bool :=
  decide (seq < (s.crGlob 0 0x308).toNat) && (match s.bookState seq with | some st => st == 4 | none => true)

/-- WAIT_SATISFIED (R441). -/
def State.waitDone (s : State) (q : Nat) : State :=
  let t := s.slot q
  match t.phase, t.cmd with
  | .wait, some c => if s.waitOver c.arg.toNat then (s.logCmd q 3 0).modSlot q fun t => { t with phase := .signal, wdogOn := false } else s
  | _, _ => s

/-- CMD_WAIT (R441). DEDUCED (log 63): the slot's watchdog counts from here, since it must end a WAIT that never completes. -/
def State.cmdWait (s : State) (q : Nat) : State :=
  let t := s.slot q
  match t.phase, t.cmd with
  | .fetched, some c => if c.op = 2 then
      ((s.wdogStep q 0).modSlot q fun t => { t with phase := .wait, wdogClk := s.dtime, wdogOn := true }).waitDone q
    else s
  | _, _ => s

/-- The scope at which the signal of a slot's command is released: the header's for a launch, else the record's (R157,
R439), in which 12 to 15 act as 11 (log 55). -/
def Slot.scope (t : Slot) : Nat :=
  match t.cmd, t.hdr with
  | some c, some h => if c.op = 1 then h.scope else min 11 c.scope
  | some c, none => min 11 c.scope
  | none, _ => 0
/-- Effects within the signal's scope are still to be performed (R271): those of the launch's cores, and writes that the
device has posted for the command. -/
def State.launchBusy (s : State) (q : Nat) (t : Slot) : Bool :=
  (s.extq.any fun w => w.core == 1024 && w.seat == q && keyInScope 0 t.scope w.addr) ||
  match t.cmd, t.hdr with
  | some c, some h => c.op == 1 && h.coreSet.any fun k =>
      (List.range 9).any fun i => s.relPending ⟨k, i, 0⟩ t.scope
  | _, _ => false

/-- signal(v) of R441. A fenced primary makes no host writes, so it raises no MSI-X vector (R447). -/
def State.signal (s : State) (q : Nat) : State :=
  let t := s.slot q
  match t.cmd with
  | none => s
  | some c =>
    if s.launchBusy q t then s else
    let (s, ok) := if c.saddr = 0 then (s, true) else s.slotWrite q s.lastTs c.saddr (leBytes 8 t.sigval.toNat) .signal
    if !ok then s else
    let s := (s.logCmd q 4 0).modSlot q fun t => { t with phase := .idle, cmd := none }
    if c.irq && !s.stopped then { s with out := s.out ++ [.msi q] } else s

/-- The launch has terminated (R441): its energy is written, DONE. -/
def State.launchEnd (s : State) (q : Nat) : State :=
  let t := s.slot q
  match t.cmd with
  | none => s
  | some c =>
    let (s, ok) := if c.eaddr = 0 then (s, true) else s.slotWrite q 0 c.eaddr (leBytes 8 (t.energy / 256)) .ended
    if !ok then s else (s.logCmd q 3 (t.energy / 256)).modSlot q fun t => { t with phase := .signal }

/-- CMD_SIGNAL (R271, R441): what is left of a command after its operation. -/
def State.cmdSignal (s : State) (q : Nat) : State :=
  let t := s.slot q
  match t.phase, t.cmd with
  | .fetched, some c => if c.op = 3 then (s.logCmd q 3 0).modSlot q fun t => { t with phase := .signal } else s
  | .ended, _ => s.launchEnd q
  | .signal, _ => s.signal q
  | _, _ => s

/-! Quotes (R453). -/

/-- The measurement, 48 bytes. -/
def State.meas (s : State) : List Byte := (List.range 6).flatMap fun n => leBytes 8 (s.crGlob 0 (0x318 + n)).toNat

/-- The 256 bytes of a quote over a nonce. -/
def State.quote (s : State) (nonce : List Byte) : List Byte :=
  let m := s.meas ++ nonce ++ (List.range 16).map Config.moduleId ++ (List.range 8).map Config.firmwareVersion ++
    leBytes 8 s.dtime
  m ++ (List.range 96).map (Config.quoteSignature s.fctr m) ++ List.replicate 32 0

/-- CMD_QUOTE (R439, R453). A nonce that cannot be read is a free value. -/
def State.cmdQuote (s : State) (q : Nat) : State :=
  let t := s.slot q
  match t.phase, t.cmd with
  | .fetched, some c =>
    if c.op ≠ 4 then s else
    let go := fun (s : State) (nonce : List Byte) =>
      let (s', ok) := s.slotWrite q 0 c.eaddr (s.quote nonce) .fetched
      if ok then (State.logCmd { s' with fctr := s'.fctr + 48 } q 3 0).modSlot q fun t => { t with phase := .signal } else s'
    match s.slotFind q c.arg.toNat 48 false with
    | .ok ks => go s (memReads s.mem ks)
    | .prot va => go (s.devReport .protPage va q) ((List.range 48).map fun i => (Config.freeValue (s.fctr + i)).setWidth 8)
    | .park va sub => s.slotPark q va sub .fetched
    | .wait => s
  | _, _ => s

/-! The events. -/

/-- QDOOR_WRITE (R440). -/
def execQdoorWrite (v : Word) (s : State) : Out := .next (s.doorbell v)
/-- COMMAND_ACCEPT (R441). -/
def execCommandAccept (slot : Nat) (s : State) : Out := .next (s.accept slot)
/-- CMD_LAUNCH (R441). -/
def execCmdLaunch (slot : Nat) (s : State) : Out := .next (s.cmdLaunch slot)
/-- CMD_WAIT (R441). -/
def execCmdWait (slot : Nat) (s : State) : Out := .next (s.cmdWait slot)
/-- WAIT_SATISFIED (R441). -/
def execWaitSatisfied (slot : Nat) (s : State) : Out := .next (s.waitDone slot)
/-- CMD_SIGNAL (R441). -/
def execCmdSignal (slot : Nat) (s : State) : Out := .next (s.cmdSignal slot)
/-- CMD_QUOTE (R453). -/
def execCmdQuote (slot : Nat) (s : State) : Out := .next (s.cmdQuote slot)
/-- SLOT_FREE (R440). -/
def execSlotFree (slot : Nat) (s : State) : Out := .next (s.slotFree slot)

end Sys2Proof.Machine
end

