-- ==== Sys2Proof/Machine/Copy.lean ====
section
/-! DEFINITION. Engine 1, the copy engine (spec/14 R315-R326, spec/10 R236). -/
namespace Sys2Proof.Machine

/-- The channel of a COP on the copy engine, from fn9[8:6] as it stands in the word (R315). -/
def FmtCpy.channel (f : FmtCpy) : Nat := f.c.toNat / 2 + 4 * (f.c.toNat % 2)

/-! Geometry (R316-R318). -/

/-- N_k of a command. -/
def ECmd.cn (e : ECmd) (k : Nat) : Nat := if k = 0 then bits (e.st 0) 19 0 + 1 else bits (e.st k) 15 0 + 1
/-- Elements of the whole traversal. -/
def ECmd.copyTotal (e : ECmd) : Nat := ((List.range 6).map e.cn).foldl (· * ·) 1
/-- Coordinate k of the i-th element. -/
def ECmd.coord (e : ECmd) (i k : Nat) : Nat := i / ((List.range k).map e.cn).foldl (· * ·) 1 % e.cn k
/-- Source position of the i-th byte. -/
def ECmd.srcPos (e : ECmd) (i : Nat) : Int :=
  copyBase e.sa.toNat + e.coord i 0 + ((List.range 5).map fun k => (e.coord i (k + 1) : Int) * (mget e.stg (0x11 + k) 0).toInt).sum
/-- Destination position of the i-th byte. -/
def ECmd.dstPos (e : ECmd) (i : Nat) : Nat :=
  copyBase e.sb.toNat + e.coord i 0 + ((List.range 5).map fun k => e.coord i (k + 1) * e.st (0x19 + k)).sum
/-- span_k of R318. -/
def ECmd.dspan (e : ECmd) : Nat → Nat
  | 0 => e.cn 0
  | k + 1 => e.st (0x19 + k) * (e.cn (k + 1) - 1) + e.dspan k
/-- R318 fails: destination positions would not rise. -/
def ECmd.strideBad (e : ECmd) : Bool :=
  (List.range 5).any fun k => decide (1 < e.cn (k + 1)) && decide (e.st (0x19 + k) < e.dspan k)

/-- The space of a copy address word (R316). -/
def copySpace (w : Nat) : Space :=
  match bits w 63 62 with | 0 => .own | 1 => .tile (bits w 30 21) | _ => .glob (bits w 61 59)
/-- A KIND 0 word of a D-tile names an address of the cluster-shared window (R231, R235). -/
def inWindow (c w : Nat) : Bool :=
  bits w 63 62 == 0 && !Config.isX c && decide (0x40_0000 ≤ copyBase w) && decide (copyBase w < 0x80_0000)
/-- A word names a local-store address (R319). -/
def copyLocal (w : Nat) : Bool := bits w 63 62 < 2 && decide (copyBase w < 0xc_0000)

/-! Checks (R319). -/

/-- The span from position `lo` to `hi` of an end fails its check. -/
def State.copySpanBad (s : State) (p : Place) (e : ECmd) (w : Nat) (lo hi : Int) (wr : Bool) : Bool :=
  lo < 0 ||
  (let a := lo.toNat
   let n := hi.toNat - a
   match copySpace w with
   | .own => !(oneRange p.core a n || (!Config.isX p.core && 0x100_0000 ≤ a && a + n ≤ 0x900_0000)) || s.spanReserved p p.core a n
   | .tile _ => 0xc_0000 < a + n
   | .glob g =>
     let g := mget e.segs g ⟨0, 0, 0⟩
     decide (2 ^ 48 < a + n) || !g.g || (segCheck g a n 1 (!wr) wr false).isSome)
/-- A word is refused whatever its span: KIND 3, or a KIND 1 core that is no D-tile. -/
def copyWordBad (w : Nat) : Bool := bits w 63 62 == 3 || (bits w 63 62 == 1 && 768 ≤ bits w 30 21)
/-- A KIND 2 word's segment lacks G or its right. -/
def copySegBad (e : ECmd) (w : Nat) (wr : Bool) : Bool :=
  match copySpace w with
  | .glob g => let g := mget e.segs g ⟨0, 0, 0⟩; !g.g || (if wr then !g.w else !g.r)
  | _ => false
/-- The source span fails. -/
def State.copySrcBad (s : State) (p : Place) (e : ECmd) : Bool :=
  s.copySpanBad p e e.sa.toNat (copyBase e.sa.toNat + copySrcLo e) (copyBase e.sa.toNat + copySrcHi e) false
/-- The destination span fails. -/
def State.copyDstBad (s : State) (p : Place) (e : ECmd) : Bool :=
  s.copySpanBad p e e.sb.toNat (copyBase e.sb.toNat) (copyBase e.sb.toNat + e.dspan 5) true
/-- A wake word with START = 1 (R326), whether it wakes or not. -/
def wakeBad (w : Nat) : Bool := bit w 41
/-- The span checks wait for the start: both ends may be converted (R319). -/
def ECmd.deferred (e : ECmd) : Bool := e.op == 0 && copyLocal e.sa.toNat && copyLocal e.sb.toNat

/-- The checks of cpy and cfill. -/
def State.copyBad (s : State) (p : Place) (e : ECmd) : Bool :=
  e.strideBad || copyWordBad e.sb.toNat || copySegBad e e.sb.toNat true || wakeBad (e.st 7) ||
  (e.op == 0 && (copyWordBad e.sa.toNat || copySegBad e e.sa.toNat false)) ||
  (!e.deferred && ((e.op == 0 && s.copySrcBad p e) || s.copyDstBad p e))

/-- cpy (R315). -/
def execCpy (f : FmtCpy) (s : State) : Out :=
  cop 1 (FmtCpy.channel f) 0 f.sa f.sb f.hold (fun e => descChk fun x s => s.copyBad x.p e) s
/-- cfill (R315). -/
def execCfill (f : FmtCpy) (s : State) : Out :=
  cop 1 (FmtCpy.channel f) 1 f.sa f.sb f.hold (fun e => descChk fun x s => s.copyBad x.p e) s

/-! Converting copies (R236, R324). -/

/-- The home of the first byte of a local end: its core, and its offset in the core's local store. A window byte's home is a
bank of a tile of the cluster (R235). -/
def copyHome (c w : Nat) : Nat × Nat :=
  if bits w 63 62 = 1 then (bits w 30 21, copyBase w)
  else if inWindow c w then
    (Config.tileOf (Config.clusterOf c) (bits (copyBase w) 11 8),
      0x8_0000 + bits (copyBase w - 0x40_0000) 21 12 * 256 + bits (copyBase w) 7 0)
  else (c, copyBase w)
/-- The address by which a word names offset `off` of its home's local store. -/
def copyName (c w off : Nat) : Nat :=
  if inWindow c w then
    0x40_0000 + (off - 0x8_0000) / 256 * 4096 + bits (copyBase w) 11 8 * 256 + off % 256
  else off
/-- A word names bytes that lie in banks: of a local store, or of the window. -/
def copyBanked (c w : Nat) : Bool := copyLocal w || inWindow c w
/-- The format register of the home bank at the base of a local end. -/
def State.copyFmt (s : State) (c w : Nat) : Nat := s.bfmt (copyHome c w).1 ((copyHome c w).2 / 0x8000)
/-- Both ends lie in typed banks whose normalised specifiers differ. -/
def State.converts (s : State) (e : ECmd) : Bool :=
  let a := s.copyFmt e.core e.sa.toNat
  let b := s.copyFmt e.core e.sb.toNat
  e.op == 0 && copyBanked e.core e.sa.toNat && copyBanked e.core e.sb.toNat && bfTyped a && bfTyped b &&
  Narrow.of (a % 2 ^ 32) != Narrow.of (b % 2 ^ 32)

/-- Bytes of n elements. -/
def elemBytes (F : Narrow) (n : Nat) : Nat := (n * F.cont + 7) / 8
/-- A converting copy fails its checks at start (R324). Within the window one bank holds 256 bytes in a row (R235). -/
def convBad (e : ECmd) (fa fb : Nat) : Bool :=
  let n := e.cn 0
  let A := Narrow.of (fa % 2 ^ 32)
  let B := Narrow.of (fb % 2 ^ 32)
  let oa := (copyHome e.core e.sa.toNat).2 % 0x8000
  let ob := (copyHome e.core e.sb.toNat).2 % 0x8000
  let wide := fun (w : Word) (o m : Nat) => inWindow e.core w.toNat && decide (256 < o % 256 + m)
  ((List.range 5).any fun k => bits (e.st (k + 1)) 15 0 != 0) ||
  decide (bfScale fa < oa + elemBytes A n) || decide (bfScale fb < ob + elemBytes B n) ||
  decide (0x8000 < oa + elemBytes A n) || decide (0x8000 < ob + elemBytes B n) ||
  wide e.sa oa (elemBytes A n) || wide e.sb ob (elemBytes B n) ||
  (if B.blk = 0 then n * B.cont % 8 != 0 else (ob * 8 / B.cont) % B.blk != 0 || n % B.blk != 0)

/-! Progress. -/

/-- Position after `done` elements (R322, R324). -/
def ECmd.posAfter (e : ECmd) (done : Nat) : Nat :=
  match e.aux with
  | .copy _ _ _ (some (_, fb)) => copyBase e.sb.toNat + done * (Narrow.of (fb.toNat % 2 ^ 32)).cont / 8
  | _ => if done = 0 then e.dstPos 0 else e.dstPos (done - 1) + 1
/-- Elements written. -/
def ECmd.copyDone (e : ECmd) : Nat := match e.aux with | .copy d _ _ _ => d | _ => 0
/-- Elements that a command moves in all. -/
def ECmd.copyAll (e : ECmd) : Nat := match e.aux with | .copy _ _ _ (some _) => e.cn 0 | _ => e.copyTotal
/-- CWPc as software reads it (R322). -/
def State.cwp (s : State) (c ch : Nat) : Word :=
  let v := (s.eregCore c 1 (0x108 + ch)).toNat
  match s.headCmd c (16 + ch) with
  | some e => w64 (v / 2 ^ 48 * 2 ^ 48 + e.posAfter e.copyDone % 2 ^ 48)
  | none => w64 v

/-- The head command of a channel ends: DONE rises, POS stays at its end (R322). -/
def State.copyComplete (s : State) (c ch : Nat) : State :=
  match s.headCmd c (16 + ch) with
  | some e =>
    let v := (s.eregCore c 1 (0x108 + ch)).toNat
    (s.complete c (16 + ch)).setEregCore c 1 (0x108 + ch)
      (w64 ((v / 2 ^ 48 + 1) % 2 ^ 16 * 2 ^ 48 + e.posAfter e.copyDone % 2 ^ 48))
  | none => s

/-- A step's elements are written: progress, counters, energy, and the note of their values (R324, R326). -/
def State.copyAdvance (s : State) (c ch : Nat) (e : ECmd) (n bytes ts : Nat) (note : BitVec 32) : State :=
  let far := (1 ≤ bits e.sb.toNat 63 62) || (e.op == 0 && 1 ≤ bits e.sa.toNat 63 62)
  let v := (s.eregCore c 1 0x11e).toNat
  let s := (s.engCount c 1 0x11a bytes).chargeStep e (if far then bits v 31 16 else bits v 15 0)
  let s := if note = 0 then s else
    s.setEregCore c 1 0x119 ((amaxMerge ((s.eregCore c 1 0x119).setWidth 32) note).setWidth 64)
  s.modHead c (16 + ch) fun e => { e with
    retried := false, step := e.step + 1, ts := max e.ts ts
    aux := match e.aux with | .copy d _ _ f => .copy (d + n) 0 0 f | a => a }

/-- Remote destination word of a KIND 1 end at an offset. -/
def copyRst (w off : Nat) : Word := w64 (2 ^ 53 + bits w 30 21 * 2 ^ 21 + off % 2 ^ 21)

/-- The remote store of a step: one message whatever its pieces, so that they are one unit (R321). -/
def State.copySend (s : State) (e : ECmd) (key : Nat) (w : Nat) : List (Nat × List Byte) → ESent
  | [] => .ok s
  | (o, bs) :: t => s.engStore e key (copyRst w o) bs t

/-- Write n elements' bytes at their destination: at once, or as a remote store to be acknowledged (R321). -/
def State.copyPut (s : State) (c ch : Nat) (e : ECmd) (n : Nat) (parts : List (Nat × List Byte)) (bytes rts : Nat)
    (note : BitVec 32) : State :=
  let key := 16 + ch
  let faultAt := w64 (e.posAfter e.copyDone)
  match copySpace e.sb.toNat with
  | .tile _ =>
    match s.copySend e key e.sb.toNat parts with
    | .ok s => s.modHead c key fun e => { e with
        ts := max e.ts rts, aux := match e.aux with | .copy d _ _ f => .copy d n note f | a => a }
    | .wait => s.engCount c 1 0x11d 1
    | .bounce => s.engFault c key Cause.msgBounce.num faultAt
  | sp =>
    let put := parts.foldl (fun (a : State × Except (EFound × Nat) (List Host.Cell)) x => match a.2 with
      | .ok cells => match a.1.spaceKeys e sp x.1 x.2.length true false with
        | (s, .ok ks) => (s, .ok (cells ++ ks.zip x.2))
        | (s, f) => (s, .error (f, x.1))
      | .error f => (a.1, .error f)) (s, .ok [])
    match put with
    | (s, .ok cells) =>
      let (s, ts) := s.engWrite c (max e.pts (e.ts + 1)) cells
      s.copyAdvance c ch e n bytes (max ts rts) note
    | (s, .error (f, a)) => s.notFound e key sp a (fun s cause fa => s.engFault c key cause fa) f

/-! Steps (R320, R323, R324). -/

/-- Length of the step that begins at element `i` (R320). -/
def ECmd.stepLen (e : ECmd) (i : Nat) : Nat :=
  let run := e.cn 0 - e.coord i 0
  let d := 256 - e.dstPos i % 256
  if e.op = 1 then min run d else min (min run d) (1024 - ((e.srcPos i) % 1024).toNat)

/-- One step of a copy that moves bytes. -/
def State.copyBytes (s : State) (c ch : Nat) (e : ECmd) : State :=
  let key := 16 + ch
  let i := e.copyDone
  let n := e.stepLen i
  if e.op = 1 then
    let bs := (List.range n).map fun j => BitVec.ofNat 8 (e.sa.toNat / 2 ^ (8 * ((e.dstPos i + j) % 8)))
    s.copyPut c ch e n [(e.dstPos i, bs)] n 0 0
  else
    let sp := copySpace e.sa.toNat
    let a := (e.srcPos i).toNat
    match s.spaceKeys e sp a n false false with
    | (s, .ok ks) =>
      match s.badSec ks with
      | some sec => s.engBad c key sec (w64 a)
      | none =>
        let (s, bs, t) := s.engRead c (max e.pts e.ts) ks
        s.copyPut c ch e n [(e.dstPos i, bs)] n t 0
    | (s, f) => s.notFound e key sp a (fun s cause fa => s.engFault c key cause fa) f

/-- One step of a converting copy (R236, R324). Offsets are those of the home banks of its ends. -/
def State.copyConv (s : State) (c ch : Nat) (e : ECmd) (fa fb : Nat) : State :=
  let key := 16 + ch
  let A := Narrow.of (fa % 2 ^ 32)
  let B := Narrow.of (fb % 2 ^ 32)
  let t := s.lutNow c
  let (ca, oa) := copyHome c e.sa.toNat
  let (cb, ob) := copyHome c e.sb.toNat
  let ba := oa / 0x8000
  let bb := ob / 0x8000
  let i := e.copyDone
  let n := if B.blk = 0 then min (e.cn 0 - i) (2048 / B.cont) else B.blk
  let ea := oa % 0x8000 * 8 / A.cont + i
  let eb := ob % 0x8000 * 8 / B.cont + i
  let lo := ea * A.cont / 8
  let keys := keysFrom (Config.tileKey ca (ba * 0x8000 + lo)) (((ea + n) * A.cont + 7) / 8 - lo)
  let sks := if A.blk = 0 then [] else
    (List.range (n / A.blk + 2)).flatMap fun k => bankScaleKeys ca ba fa (ea / A.blk + k)
  match s.badSec (keys ++ sks) with
  | some sec => s.engBad c key sec (w64 (copyName c e.sa.toNat (ba * 0x8000 + lo)))
  | none =>
    let (s, bs, rt) := s.engRead c (max e.pts e.ts) keys
    let xs := (List.range n).map fun j =>
      let v := A.decode t (contAt bs A.cont (ea + j - lo * 8 / A.cont))
      if A.blk = 0 then v else scaledBy v (scaleValue (s.bankScale ca ba fa ((ea + j) / A.blk)))
    let note := xs.foldl (fun a x => amaxMerge a (amaxNote x)) 0
    let per := 8 / B.cont
    let dpos := bb * 0x8000 + eb * B.cont / 8
    let pos := fun (j : Nat) => w64 (if cb = c then dpos + j / per else cb * 2 ^ 21 + dpos + j / per)
    let rm := fun (j : Nat) => if bits (e.st 6) 2 0 = 5 then RM.sr (srU (w64 (bits (e.st 6) 63 32)) 0 (pos j) (j % per)) else .rne
    let sc := if B.blk = 0 then 0 else chooseScale B t xs
    let codes := (List.range n).zipWith (fun j x => if B.blk = 0 then B.encode t x (rm j) else encodeScaled B t sc x (rm j)) xs
    let o := bfScale fb + 2 * (eb / max 1 B.blk)
    let name := copyName c e.sb.toNat
    let parts := [(name dpos, packCodes B.cont codes)] ++
      (if B.blk = 0 ∨ 0x8000 ≤ o + 1 then [] else [(name (bb * 0x8000 + o), leBytes 2 sc)])
    s.copyPut c ch e n parts (n * B.cont / 8) rt note

/-- The last byte is written: the wake, and the command completes (R326). -/
def State.copyEnd (s : State) (c ch : Nat) (e : ECmd) : State :=
  s.engFinish c (16 + ch) e (w64 (e.st 7)) (w64 (e.st 8)) id (·.engCount c 1 0x11d 1) (·.copyComplete c ch)

/-- A command starts: formats are read, and the deferred checks are made (R319, R324). -/
def State.copyStart (s : State) (c ch : Nat) (e : ECmd) : State :=
  let conv := s.converts e
  let fa := s.copyFmt c e.sa.toNat
  let fb := s.copyFmt c e.sb.toNat
  let res := fun (w : Word) f => bits w.toNat 63 62 == 0 &&
    s.spanReserved e.place c (copyBase w.toNat) (elemBytes (Narrow.of (f % 2 ^ 32)) (e.cn 0))
  if (if conv then convBad e fa fb || res e.sa fa || res e.sb fb
      else e.deferred && (s.copySrcBad e.place e || s.copyDstBad e.place e)) then
    s.engFault c (16 + ch) Cause.copyFault.num (w64 (copyBase e.sb.toNat))
  else s.modHead c (16 + ch) fun e => { e with
    started := true, aux := .copy 0 0 0 (if conv then some (w64 fa, w64 fb) else none) }

/-- COPY_STEP (R320-R325). -/
def State.copyStep (s : State) (c ch : Nat) : State :=
  let key := 16 + ch
  match s.headCmd c key with
  | none => s
  | some e =>
    if !s.runnable c key e then s
    else match e.aux with
      | .copy done sent note conv =>
        if s.engOut c key then s.engCount c 1 0x11d 1
        else if e.bounced then
          (s.modHead c key fun e => { e with aux := .copy done 0 0 conv }).engFault c key Cause.msgBounce.num
            (w64 (e.posAfter done))
        else if sent ≠ 0 then
          s.copyAdvance c ch e sent (match conv with
            | some (_, fb) => sent * (Narrow.of (fb.toNat % 2 ^ 32)).cont / 8
            | none => sent) 0 note
        else if e.copyAll ≤ done then s.copyEnd c ch e
        else match conv with
          | some (fa, fb) => s.copyConv c ch e fa.toNat fb.toNat
          | none => s.copyBytes c ch e
      | _ => s.copyStart c ch e

/-- CCMD_ABORT (R325): a faulted head is removed and counts as completed. -/
def State.copyAbort (s : State) (c ch : Nat) : State := if s.headFaulted c (16 + ch) then s.copyComplete c ch else s

end Sys2Proof.Machine
end

