-- ==== Sys2Proof/Machine/Grammar.lean ====
section
/-! DEFINITION. Engine 3, the grammar mask engine of a D-cluster (spec/15 R357-R365). -/
namespace Sys2Proof.Machine

/-- The checks of gstep and gmask on the record (R357). -/
def State.recordBad (s : State) (p : Place) (e : ECmd) : Bool :=
  e.sa.toNat % 32 != 0 || decide (0x40_0000 ≤ e.sa.toNat) || s.spanReserved p p.core (0x40_0000 + e.sa.toNat) 32
/-- The checks of gmask (R357). -/
def State.gmaskBad (s : State) (p : Place) (e : ECmd) : Bool :=
  s.recordBad p e || bit (e.st 1) 41 || s.destBad p e.sb.toNat (e.st 1) (16 + 64 * (bits (e.st 0) 24 16 + 1))

/-- gstep (R357). -/
def execGstep (f : FmtCop) (s : State) : Out :=
  cop 3 f.q.toNat 0 f.sa f.sb f.hold (fun e => descChk fun x s => s.recordBad x.p e) s
/-- gmask (R357). -/
def execGmask (f : FmtCop) (s : State) : Out :=
  cop 3 f.q.toNat 1 f.sa f.sb f.hold (fun e => descChk fun x s => s.gmaskBad x.p e) s
/-- gflush (R357). -/
def execGflush (f : FmtCop) (s : State) : Out :=
  cop 3 f.q.toNat 2 f.sa f.sb f.hold noChk s

/-! Images (R358). -/

/-- A grammar image: its base and the fields of its header. -/
structure Image where
  addr : Nat
  nsm1 : Nat
  ncm1 : Nat
  num1 : Nat
  cls : Nat
  trans : Nat

/-- Read bytes of an image: none when one names no DRAM. -/
def State.imgKeys (a n : Nat) : Option (List Nat) := if a + n ≤ 2 ^ 39 then some (keysFrom a n) else none
/-- What a read of an image's header finds. -/
inductive Header3 where
  | ok (m : Image) (t : Nat)
  /-- it names no DRAM -/
  | fault
  | bad (sec : Nat)
  | wait (pa : Nat)

/-- The header of grammar g, read on the coherent path for the command `id` of core c (R358). -/
def State.image (s : State) (c id lo g : Nat) : State × Header3 :=
  let a := (s.eregUnit (Config.clusterOf c) 3 (0x100 + g)).toNat / 64 * 64 % 2 ^ 48
  match State.imgKeys a 24 with
  | none => (s, .fault)
  | some ks =>
    match s.dramRead c id lo ks with
    | (s, .wait pa) => (s, .wait pa)
    | (s, .bad sec) => (s, .bad sec)
    | (s, .ok bs t) =>
      let d := fun i => leNat ((bs.drop (8 * i)).take 8)
      (s, .ok ⟨a, bits (d 0) 7 0, bits (d 0) 15 8, bits (d 0) 24 16, d 1, d 2⟩ t)
/-- VALID of grammar g. -/
def State.gvalid (s : State) (cl g : Nat) : Bool := (s.eregUnit cl 3 (0x100 + g)).getLsbD 0
/-- V, tokens of the vocabulary. -/
def Image.vocab (m : Image) : Nat := 512 * (m.num1 + 1)

/-- What a lookup of a token gives: its entry, no entry, or a read outside DRAM. -/
inductive Look where
  | entry (e : Nat)
  | none
  | fault
deriving DecidableEq, Repr

/-- Keys of the class of token t. -/
def Image.clsKeys (m : Image) (t : Nat) : Option (List Nat) := State.imgKeys (m.addr + m.cls + t) 1
/-- Keys of the entry of state q and class c. -/
def Image.entKeys (m : Image) (q c : Nat) : Option (List Nat) :=
  State.imgKeys (m.addr + m.trans + 2 * (q * (m.ncm1 + 1) + c)) 2
/-- The transition entry of token t in state q (R358, R359). -/
def State.look (s : State) (m : Image) (q t : Nat) : Look :=
  if m.vocab ≤ t then .none else
  match m.clsKeys t with
  | .none => .fault
  | some ck =>
    let c := leNat (s.dramBytes ck)
    if m.ncm1 < c then .none else
    match m.entKeys q c with
    | .none => .fault
    | some ek => .entry (leNat (s.dramBytes ek))
/-- The keys that a lookup reads. -/
def State.lookKeys (s : State) (m : Image) (q t : Nat) : List Nat :=
  if m.vocab ≤ t then [] else
  match m.clsKeys t with
  | .none => []
  | some ck =>
    let c := leNat (s.dramBytes ck)
    if m.ncm1 < c then ck else ck ++ (m.entKeys q c).getD []

/-! Sequence records (R359). -/

/-- Byte i of a record. -/
def recByte (r : List Byte) (i : Nat) : Nat := (r.getD i 0).toNat
/-- STATE. -/
def recState (r : List Byte) : Nat := recByte r 0
/-- DEPTH. -/
def recDepth (r : List Byte) : Nat := recByte r 1
/-- GID. -/
def recGid (r : List Byte) : Nat := recByte r 2 % 16
/-- The top of the stack, or 64 (R359). -/
def recTop (r : List Byte) : Nat := if recDepth r = 0 then 64 else recByte r (7 + recDepth r)
/-- POS. -/
def recPos (r : List Byte) : Nat := leNat ((r.drop 16).take 8)

/-- An entry allows its token under a stack top (R359). -/
def entAllowed (top e : Nat) : Bool :=
  bits e 9 8 != 3 && (bits e 9 8 != 2 || (top != 64 && top == bits e 15 10))

/-- The keys of the record of a command. -/
def State.recKeys (s : State) (e : ECmd) : List Nat :=
  match s.spaceKeys e .own (0x40_0000 + e.sa.toNat) 32 false false with | (_, .ok ks) => ks | _ => []

/-- The head of a grammar queue that may act, started. -/
def State.gramHead (s : State) (c q op : Nat) : Option (State × ECmd) :=
  match s.headCmd c (48 + q) with
  | none => none
  | some e =>
    if e.op ≠ op ∨ s.runnable c (48 + q) e = false then none
    else some (s.modHead c (48 + q) fun e => { e with started := true }, { e with started := true })

/-- A fault of a grammar command: the record's offset is its address (R360). -/
def State.gramFault (s : State) (c q : Nat) (cause : Cause) (e : ECmd) : State := s.engFault c (48 + q) cause.num e.sa
/-- Energy of a step: MISS for a computed unit, HIT otherwise (R364). -/
def State.gramEnergy (s : State) (e : ECmd) (miss : Bool) : State :=
  let v := (s.eregUnit (Config.clusterOf e.core) 3 0x11c).toNat
  s.chargeStep e (if miss then bits v 31 16 else bits v 15 0)

/-! gstep (R360). -/

/-- The record after an allowed token with entry `ent`. -/
def recStep (r : List Byte) (ent : Nat) : List Byte :=
  let d := recDepth r
  let r := if bits ent 9 8 = 1 then (r.set (8 + d) (BitVec.ofNat 8 (bits ent 15 10))).set 1 (BitVec.ofNat 8 (d + 1))
    else if bits ent 9 8 = 2 then r.set 1 (BitVec.ofNat 8 (d - 1)) else r
  let r := r.set 0 (BitVec.ofNat 8 (bits ent 7 0))
  r.take 16 ++ leBytes 8 (recPos r + 1) ++ r.drop 24

/-- GSTEP_APPLY: one unit that reads and writes the record. -/
def State.gstepApply (s : State) (c q : Nat) : State :=
  match s.gramHead c q 0 with
  | none => s
  | some (s0, e) =>
    let key := 48 + q
    let cl := Config.clusterOf c
    let rk := s0.recKeys e
    match s0.badSec rk with
    | some sec => s0.engBad c key sec e.sa
    | none =>
      let (s, r, t0) := s0.engRead c e.pts rk
      let done := fun (s : State) (t : Nat) =>
        ((s.gramEnergy e false).modHead c key fun e => { e with ts := max e.ts t }).complete c key
      let write := fun (s : State) (r : List Byte) => s.engWrite c t0 (rk.zip r)
      if bit (recByte r 3) 0 then done s t0 else
      if !s.gvalid cl (recGid r) || 8 < recDepth r then s.gramFault c q .engineDesc e else
      match s.image c e.id t0 (recGid r) with
      | (_, .wait pa) => s0.engJoin c e.id pa
      | (s, .fault) => s.gramFault c q .engineDesc e
      | (s, .bad sec) => s.engBad c key sec e.sa
      | (s, .ok m t1) =>
        if m.nsm1 < recState r then s.gramFault c q .engineDesc e else
        match s.dramRead c e.id t1 (s.lookKeys m (recState r) e.sb.toNat) with
        | (_, .wait pa) => s0.engJoin c e.id pa
        | (s, .bad sec) => s.engBad c key sec e.sa
        | (s, .ok _ t1) =>
          let reject := fun (s : State) =>
            let (s, t) := write s (r.set 3 (BitVec.ofNat 8 (recByte r 3 ||| 1)))
            done (s.unitCount cl 3 0x11b 1) (max t t1)
          match s.look m (recState r) e.sb.toNat with
          | .fault => s.gramFault c q .engineDesc e
          | .none => reject s
          | .entry ent =>
            if !entAllowed (recTop r) ent then reject s
            else if m.nsm1 < bits ent 7 0 then s.gramFault c q .engineDesc e
            else if bits ent 9 8 = 1 ∧ recDepth r = 8 then
              (write s (r.set 3 (BitVec.ofNat 8 (recByte r 3 ||| 2)))).1.gramFault c q .stackOverflow e
            else
              let (s, t) := write s (recStep r ent)
              done s (max t t1)

/-! gmask (R361, R362). -/

/-- The cache of a cluster, most recently used first. -/
def State.gcacheOf (s : State) (cl : Nat) : List GEntry := mget s.gcache cl []
/-- An entry is that of a key and unit. -/
def GEntry.is (g : GEntry) (gid state top : Nat) (u : Option Nat) : Bool :=
  g.gid == gid && g.state == state && g.top == top && g.unit_ == u
/-- The entry of a key and unit whose data reads correct; one that does not is dropped, and computed again (R363). -/
def State.gcacheGet (s : State) (cl : Nat) (r : List Byte) (u : Option Nat) : Option GEntry :=
  (s.gcacheOf cl).find? fun g => !g.bad && g.is (recGid r) (recState r) (recTop r) u
/-- Put an entry at the front: 2048 units and 512 summaries, least recently used first out. -/
def gcachePut (l : List GEntry) (g : GEntry) : List GEntry :=
  let l := g :: l.filter fun x => !x.is g.gid g.state g.top g.unit_
  (l.filter fun x => x.unit_.isSome).take 2048 ++ (l.filter fun x => x.unit_.isNone).take 512
/-- Put an entry into a cluster's cache. -/
def State.gcacheAdd (s : State) (cl : Nat) (g : GEntry) : State :=
  { s with gcache := mset s.gcache cl (gcachePut (s.gcacheOf cl) g) }

/-- The mask bits of unit u for a state and top, and the keys read; none when a read names no DRAM. -/
def State.unitMask (s : State) (m : Image) (q top u : Nat) : Option (BitVec 512) :=
  let ls := (List.range 512).map fun i => s.look m q (512 * u + i)
  if ls.any fun l => l == .fault then none
  else some (BitVec.ofNat 512 (((List.range 512).zipWith (fun i l => match l with
    | .entry e => if entAllowed top e then 2 ^ i else 0
    | _ => 0) ls).sum))
/-- The keys that unit u reads. -/
def State.unitKeys (s : State) (m : Image) (q u : Nat) : List Nat :=
  ((List.range 512).flatMap fun i => s.lookKeys m q (512 * u + i)).dedup

/-- Number of set bits of a unit, and its lowest one. -/
def maskCount (b : BitVec 512) : Nat × Option Nat :=
  let l := (List.range 512).filter b.getLsbD
  (l.length, l.head?)

/-- Set the progress of a gmask. -/
def State.gmaskSet (s : State) (c q t : Nat) (aux : EAux) : State :=
  s.modHead c (48 + q) fun e => { e with aux := aux, step := e.step + 1, retried := false, ts := max e.ts t }

/-- The first step: the record is read as one unit, and the checks are made. -/
def State.gmaskStart (s0 : State) (c q : Nat) (e : ECmd) : State :=
  let cl := Config.clusterOf c
  let rk := s0.recKeys e
  match s0.badSec rk with
  | some sec => s0.engBad c (48 + q) sec e.sa
  | none =>
    let (s, r, t) := s0.engRead c e.pts rk
    match s.image c e.id t (recGid r) with
    | (_, .wait pa) => s0.engJoin c e.id pa
    | (s, .fault) => s.gramFault c q .engineDesc e
    | (s, .bad sec) => s.engBad c (48 + q) sec e.sa
    | (s, .ok m t) =>
      if m.num1 < bits (e.st 0) 8 0 + bits (e.st 0) 24 16 || !s.gvalid cl (recGid r) || m.nsm1 < recState r || 8 < recDepth r then
        s.gramFault c q .engineDesc e
      else if bit (recByte r 3) 0 then (s.gramEnergy e false).gmaskSet c q t (.gmask r 0 0 0xffff_ffff true 0)
      else
        match s.gcacheGet cl r none with
        | some g => (((s.gcacheAdd cl g).unitCount cl 3 0x119 1).gramEnergy e false).gmaskSet c q t
            (.gmask r 0 g.count g.ftok true 0)
        | none => (s.gramEnergy e false).gmaskSet c q t (.gmask r 0 0 0xffff_ffff false 0)

/-- Compute the mask bits of unit u from the image for the next step of a gmask (R358, R363): they are read, then used. -/
def State.gmaskCalc (s0 : State) (c q : Nat) (e : ECmd) (r : List Byte) (u : Nat) (use : State → Image → BitVec 512 → Nat → State) :
    State :=
  match s0.image c e.id e.pts (recGid r) with
  | (_, .wait pa) => s0.engJoin c e.id pa
  | (s, .fault) => s.gramFault c q .engineDesc e
  | (s, .bad sec) => s.engBad c (48 + q) sec e.sa
  | (s, .ok m t) =>
    match s.dramRead c e.id t (s.unitKeys m (recState r) u) with
    | (_, .wait pa) => s0.engJoin c e.id pa
    | (s, .bad sec) => s.engBad c (48 + q) sec e.sa
    | (s, .ok _ t) =>
      match s.unitMask m (recState r) (recTop r) u with
      | none => s.gramFault c q .engineDesc e
      | some b => use s m b t

/-- One further step of a summary (R361). -/
def State.gmaskSum (s : State) (c q : Nat) (e : ECmd) (r : List Byte) (scan cnt : Nat) (ftok : W32) : State :=
  let cl := Config.clusterOf c
  s.gmaskCalc c q e r scan fun s m b t =>
    let (n, lo) := maskCount b
    let ftok := if cnt = 0 then (match lo with | some i => BitVec.ofNat 32 (512 * scan + i) | none => ftok) else ftok
    let s := s.gramEnergy e true
    if scan < m.num1 then s.gmaskSet c q t (.gmask r (scan + 1) (cnt + n) ftok false 0)
    else
      let f := if cnt + n = 1 then ftok else 0xffff_ffff
      ((s.gcacheAdd cl ⟨recGid r, recState r, recTop r, none, 0, cnt + n, f, false⟩).unitCount cl 3 0x11a 1).gmaskSet c q t
        (.gmask r (scan + 1) (cnt + n) f true 0)

/-- Deliver bytes of a gmask at an offset of its destination: at once, or by a remote store, whose acknowledgement the next
step waits for. `did` counts the step, once. -/
def State.gmaskPut (s : State) (c q : Nat) (e : ECmd) (o : Nat) (bs : List Byte) (did : State → State) (go : State → Nat → State) :
    State :=
  let w := e.sb.toNat
  let off := bits w 20 0 + o
  if bit w 54 then
    match s.spaceKeys e .own off bs.length true false with
    | (s, .ok ks) =>
      let (s, ts) := s.engWrite c (max e.pts e.ts) (ks.zip bs)
      go (did s) ts
    | (s, _) => s.gramFault c q .segRights e
  else if 2 ^ 21 ≤ off then s.gramFault c q .msgBounce e
  else match s.engStore e (48 + q) (w64 (w / 2 ^ 21 * 2 ^ 21 + off)) bs with
    | .ok s => (did s).modHead c (48 + q) fun e => { e with sent := true }
    | .wait => s
    | .bounce => s.gramFault c q .msgBounce e

/-- One unit of the mask: from the cache, or computed (R361). -/
def State.gmaskUnit (s : State) (c q : Nat) (e : ECmd) (r : List Byte) (units : Nat) (go : State → Nat → State) : State :=
  let cl := Config.clusterOf c
  let u := bits (e.st 0) 8 0 + units
  let put := fun (s : State) (b : BitVec 512) (t : Nat) did =>
    s.gmaskPut c q e (16 + 64 * units) (leBytes 64 b.toNat) did fun s t' => go s (max t t')
  if bit (recByte r 3) 0 then put s 0 0 (·.gramEnergy e false) else
  match s.gcacheGet cl r (some u) with
  | some g => put s g.bits 0 fun s => ((s.gcacheAdd cl g).unitCount cl 3 0x119 1).gramEnergy e false
  | none =>
    s.gmaskCalc c q e r u fun s _ b t => put s b t fun s =>
      ((s.gcacheAdd cl ⟨recGid r, recState r, recTop r, some u, b, 0, 0, false⟩).unitCount cl 3 0x11a 1).gramEnergy e true

/-- The header is at its destination: the wake, and the command completes. -/
def State.gmaskEnd (s : State) (c q : Nat) (e : ECmd) : State :=
  s.engFinish c (48 + q) e (w64 (e.st 1)) (w64 (e.st 2)) id id (·.complete c (48 + q))

/-- GMASK_STEP (R361): the record, the summary, a unit, the header last. A remote unit or header that has been refused faults
the command, and RESUME sends it again. -/
def State.gmaskStep (s : State) (c q : Nat) : State :=
  match s.gramHead c q 1 with
  | none => s
  | some (s, e) =>
    match e.aux with
    | .gmask r scan cnt ftok known units =>
      let n := bits (e.st 0) 24 16 + 1
      let next := fun (s : State) t => (s.modHead c (48 + q) fun e => { e with sent := false }).gmaskSet c q t
        (.gmask r scan cnt ftok known (units + 1))
      if s.engOut c (48 + q) then s
      else if e.bounced then s.gramFault c q .msgBounce e
      else if e.sent then next s 0
      else if !known then s.gmaskSum c q e r scan cnt ftok
      else if units < n then s.gmaskUnit c q e r units next
      else if units = n then
        s.gmaskPut c q e 0 ((r.drop 4).take 4 ++ leBytes 4 (recPos r) ++ leBytes 4 cnt ++ leBytes 4 ftok.toNat)
          (·.gramEnergy e false) fun s t =>
            let s := next s t
            match s.headCmd c (48 + q) with
            | some e => s.gmaskEnd c q e
            | none => s
      else s.gmaskEnd c q e
    | _ => s.gmaskStart c q e

/-- GFLUSH_APPLY (R362). -/
def State.gflushApply (s : State) (c q : Nat) : State :=
  match s.gramHead c q 2 with
  | none => s
  | some (s, e) =>
    let cl := Config.clusterOf c
    let g := bits e.sa.toNat 3 0
    let keep := (s.gcacheOf cl).filter fun x => !(bit e.sa.toNat 4 || x.gid == g)
    ({ s with gcache := mset s.gcache cl keep }.gramEnergy e false).complete c (48 + q)

end Sys2Proof.Machine
end

