-- ==== Sys2Proof/Machine/Special.lean ====
section
/-! DEFINITION. The special functions of the vector unit, each its exact value rounded once to FP32 with RNE (R216). The
transcendental ones are computed in fixed point with 640 fraction bits: every approximation lies within 2^-600 of the
exact value, and no exact value of an FP32 argument other than the special ones lies that near to a rounding boundary
(log 7). -/
namespace Sys2Proof.Machine

/-- Fraction bits of the fixed-point values. -/
def fxBits : Nat := 640
/-- 1 in fixed point. -/
def fxOne : Nat := 2 ^ fxBits
/-- Product in fixed point. -/
def fxMul (a b : Nat) : Nat := a * b / fxOne

/-- The sum of n terms of e^y = 1 + y + y²/2! + …, for y below 1. -/
def fxExpLoop (y : Nat) : Nat → Nat → Nat → Nat → Nat
  | 0, _, _, acc => acc
  | n + 1, k, t, acc => fxExpLoop y n (k + 1) (fxMul t y / k) (acc + t)
/-- e^y for y in [0, 1). -/
def fxExp (y : Nat) : Nat := fxExpLoop y 160 1 fxOne 0

/-- Terms of atanh z = z + z³/3 + …. -/
def fxAtanhLoop (z2 : Nat) : Nat → Nat → Nat → Nat → Nat
  | 0, _, _, acc => acc
  | n + 1, k, t, acc => fxAtanhLoop z2 n (k + 2) (fxMul t z2) (acc + t / k)
/-- ln(a / b) for 1 ≤ a / b < 2, as 2 atanh((a − b) / (a + b)). -/
def fxLn (a b : Nat) : Nat :=
  let z := (a - b) * fxOne / (a + b)
  2 * fxAtanhLoop (fxMul z z) 220 1 z 0
/-- ln 2, as 2 ln(4/3) + ln(9/8). -/
def fxLn2 : Nat := 2 * fxLn 4 3 + fxLn 9 8

/-- Terms of atan(1/q). -/
def fxAtanLoop (q2 : Nat) : Nat → Nat → Nat → Bool → Int → Int
  | 0, _, _, _, acc => acc
  | n + 1, k, t, neg, acc =>
    fxAtanLoop q2 n (k + 2) (t / q2) (!neg) (if neg then acc - ((t / k : Nat) : Int) else acc + ((t / k : Nat) : Int))
/-- atan(1/q). -/
def fxAtan (q : Nat) : Int := fxAtanLoop (q * q) 300 1 (fxOne / q) false 0
/-- π, by Machin's formula. -/
def fxPi : Nat := (16 * fxAtan 5 - 4 * fxAtan 239).toNat

/-- Terms of sin y. -/
def fxSinLoop (y2 : Nat) : Nat → Nat → Nat → Bool → Int → Int
  | 0, _, _, _, acc => acc
  | n + 1, k, t, neg, acc =>
    fxSinLoop y2 n (k + 2) (fxMul t y2 / ((k + 1) * (k + 2))) (!neg) (if neg then acc - (t : Int) else acc + (t : Int))
/-- sin y for y in [0, 2]. -/
def fxSin (y : Nat) : Nat := (fxSinLoop (fxMul y y) 100 1 y false 0).toNat

/-- e^(−t) for t below 128: (1 / e^(t/128))^128. -/
def fxExpNeg (t : Nat) : Nat :=
  let e := fxOne * fxOne / fxExp (t / 128)
  (List.range 7).foldl (fun a _ => fxMul a a) e

/-- The FP32 encoding of ±v in fixed point. -/
def fxRound (neg : Bool) (v : Nat) : Nat := fround (.num neg v 1 (-(fxBits : Int))) fp32 .rne

/-- |x| of a finite FP32 value m × 2^e in fixed point; exact, as e ≥ −149. -/
def fxOf (m : Nat) (e : Int) : Nat := m * 2 ^ (e + fxBits).toNat

/-- vrcp. -/
def sRcp (x : FV) : Nat := fround (FV.div (.num false 1 1 0) x) fp32 .rne
/-- vrsqrt: floor of the root with a sticky bit. -/
def sRsqrt (x : FV) : Nat :=
  match x with
  | .nan => fp32.cnan
  | .inf s => if s then fp32.cnan else 0
  | .num s m _ e =>
    if m = 0 then b2n s * 2 ^ 31 + fp32.infCode
    else if s then fp32.cnan
    else
      let m := if e % 2 = 0 then m else 2 * m
      let e := e - e % 2
      let q := 4 ^ 100 / m
      let r := Nat.sqrt q
      fround (.num false (2 * r + b2n (r * r * m != 4 ^ 100)) 1 (-101 - e / 2)) fp32 .rne
/-- vexp2. -/
def sExp2 (x : FV) : Nat :=
  match x with
  | .nan => fp32.cnan
  | .inf s => if s then 0 else fp32.infCode
  | .num s m _ e =>
    let a := fxOf m e
    if 2 ^ 9 * fxOne ≤ a then (if s then 0 else fp32.infCode) else
    let v : Int := if s then -(a : Int) else a
    let n := v / fxOne
    let f := (v % fxOne).toNat
    if f = 0 then fround (.num false 1 1 n) fp32 .rne
    else fround (.num false (fxExp (fxMul f fxLn2)) 1 (n - fxBits)) fp32 .rne
/-- vlog2. -/
def sLog2 (x : FV) : Nat :=
  match x with
  | .nan => fp32.cnan
  | .inf s => if s then fp32.cnan else fp32.infCode
  | .num s m _ e =>
    if m = 0 then 2 ^ 31 + fp32.infCode
    else if s then fp32.cnan
    else
      let k := Nat.log2 m
      let v : Int := (e + k) * (fxOne : Int) + (fxLn m (2 ^ k) * fxOne / fxLn2 : Nat)
      if v = 0 then 0 else fxRound (v < 0) v.natAbs
/-- vtanh. -/
def sTanh (x : FV) : Nat :=
  match x with
  | .nan => fp32.cnan
  | .inf s => b2n s * 2 ^ 31 + 0x3f80_0000
  | .num s m _ e =>
    let a := fxOf m e
    if m = 0 then b2n s * 2 ^ 31
    else if 60 * fxOne ≤ a then b2n s * 2 ^ 31 + 0x3f80_0000
    else
      let q := fxExpNeg (2 * a)
      fxRound s ((fxOne - q) * fxOne / (fxOne + q))
/-- vsigm. -/
def sSigm (x : FV) : Nat :=
  match x with
  | .nan => fp32.cnan
  | .inf s => if s then 0 else 0x3f80_0000
  | .num s m _ e =>
    let a := fxOf m e
    if 120 * fxOne ≤ a then (if s then 0 else 0x3f80_0000)
    else
      let q := fxExpNeg a
      fxRound false ((if s then q else fxOne) * fxOne / (fxOne + q))
/-- |sin(π t)| for t in [0, 1), and whether it is exact zero or one. -/
def fxSinPi (t : Nat) : Nat :=
  let t := if fxOne < 2 * t then fxOne - t else t
  if 2 * t = fxOne then fxOne else fxSin (fxMul t fxPi)
/-- vsinpi. -/
def sSinpi (x : FV) : Nat :=
  match x with
  | .nan => fp32.cnan
  | .inf _ => fp32.cnan
  | .num s m _ e =>
    let a := fxOf m e
    if a % fxOne = 0 then b2n s * 2 ^ 31
    else fxRound (s != (a / fxOne % 2 == 1)) (fxSinPi (a % fxOne))
/-- vcospi: sin(π (|x| + 1/2)). -/
def sCospi (x : FV) : Nat :=
  match x with
  | .nan => fp32.cnan
  | .inf _ => fp32.cnan
  | .num _ m _ e =>
    let a := fxOf m e + fxOne / 2
    if a % fxOne = 0 then 0
    else fxRound (a / fxOne % 2 == 1) (fxSinPi (a % fxOne))

end Sys2Proof.Machine
end

