-- ==== Sys2Proof/Machine/Sampler.lean ====
section
/-! DEFINITION. Engine 2, the sampler (spec/15 R344-R356). -/
namespace Sys2Proof.Machine

/-! Geometry and checks (R345, R347, R353). -/

/-- VLEN. -/
def ECmd.vlen (e : ECmd) : Nat := bits (e.st 0) 63 32
/-- VBASE. -/
def ECmd.vbase (e : ECmd) : Nat := bits (e.st 0) 31 0
/-- Bytes of a logit. -/
def ECmd.lsize (e : ECmd) : Nat := if bits (e.st 1) 33 32 = 0 then 4 else 2
/-- N of STREE. -/
def ECmd.slices (e : ECmd) : Nat := bits (e.st 4) 31 16
/-- K of STREE. -/
def ECmd.slice (e : ECmd) : Nat := bits (e.st 4) 15 0
/-- SMASK.EN. -/
def ECmd.masked (e : ECmd) : Bool := bit (e.st 2) 63
/-- A span lies outside the issuer's local store or in a reserved range. -/
def State.localBad (s : State) (p : Place) (a n : Nat) : Bool :=
  n != 0 && (!inStore p.core (a + n - 1) || s.spanReserved p p.core a n)

/-- The checks of ssamp. -/
def State.ssampBad (s : State) (p : Place) (e : ECmd) : Bool :=
  e.vlen == 0 || decide (2 ^ 20 < e.vlen) || decide (2 ^ 32 < e.vbase + e.vlen) || bits (e.st 1) 33 32 == 3 ||
  e.slices == 0 || decide (e.slices ≤ e.slice) ||
  s.localBad p (bits (e.st 1) 31 0) (e.vlen * e.lsize) ||
  (e.masked && (e.vbase % 512 != 0 || e.vlen % 512 != 0 || s.localBad p (bits (e.st 2) 31 0) (16 + e.vlen / 8))) ||
  (e.slice == 0 && s.destBad p (e.st 7) (e.st 8) 16)
/-- The checks of sdraw. -/
def State.sdrawBad (s : State) (p : Place) (e : ECmd) : Bool :=
  bits (e.st 0xb) 31 0 == 0 || s.localBad p (bits (e.st 0xa) 31 0) (8 * (bits (e.st 0xa) 47 32 + 1))

/-- ssamp (R344). -/
def execSsamp (f : FmtCop) (s : State) : Out :=
  cop 2 f.q.toNat 0 f.sa f.sb f.hold (fun e => descChk fun x s => s.ssampBad x.p e) s
/-- sdraw (R344). -/
def execSdraw (f : FmtCop) (s : State) : Out :=
  cop 2 f.q.toNat 1 f.sa f.sb f.hold (fun e => descChk fun x s => s.sdrawBad x.p e) s

/-! Scores (R348). -/

/-- −ln(−ln u) in fixed point, for u = (k + 1/2) × 2^-24. -/
def gumbel (k : Nat) : Int :=
  let a := 2 * k + 1
  let la := Nat.log2 a
  let m := (25 - la) * fxLn2 - fxLn a (2 ^ la)
  let lm := Nat.log2 m
  Int.neg (((lm : Int) - fxBits) * fxLn2 + fxLn m (2 ^ lm))

/-- score(t) for a logit x; none is INELIGIBLE. -/
def score (e : ECmd) (t : Nat) (x : FV) : Option W32 :=
  let s := if bit (e.st 3) 32 then x else
    let d := draw (mget e.stg 5 0) e.sa e.sb 2 t
    let g := gumbel (bits d.toNat 63 40)
    (x.mul (fp32.decode (bits (e.st 3) 31 0))).add .rne (.num (g < 0) g.natAbs 1 (-(fxBits : Int)))
  let r := fround s fp32 .rne
  match fp32.decode r with
  | .nan => none
  | .inf true => none
  | _ => some (BitVec.ofNat 32 r)

/-- The better of two candidates: the larger score, then the lower token. -/
def better (a b : Option (Nat × W32)) : Option (Nat × W32) :=
  match a, b with
  | none, b => b
  | a, none => a
  | some (t, x), some (u, y) =>
    let fx := fp32.decode x.toNat
    let fy := fp32.decode y.toNat
    if fy.lt fx || (!fx.lt fy && t < u) then some (t, x) else some (u, y)

/-- The logit element at some bytes. -/
def logit (e : ECmd) (bs : List Byte) : FV :=
  (match bits (e.st 1) 33 32 with | 0 => fp32 | 1 => fp16 | _ => bf16).decode (leNat bs)

/-! Steps (R350). -/

/-- Scan steps of a slice. -/
def ECmd.scans (e : ECmd) : Nat := (e.vlen + 511) / 512
/-- A step's energy: SCAN or OTHER (R346). -/
def State.sampEnergy (s : State) (e : ECmd) (scan : Bool) : State :=
  let v := (s.eregCore e.core 2 0x10c).toNat
  s.chargeStep e (if scan then bits v 31 16 else bits v 15 0)
/-- Set the progress of the head. -/
def State.sampSet (s : State) (c key : Nat) (t : Nat) (aux : EAux) : State :=
  s.modHead c key fun e => { e with aux := aux, step := e.step + 1, retried := false, ts := max e.ts t }

/-- Progress as the command starts, again after a RESUME: the children's messages merged before count on (R351). -/
def ECmd.sampStart (e : ECmd) : Samp :=
  { phase := if e.masked then 0 else 1, win := none, late := false, forced := false, none_ := false, ftok := 0
    got := (match e.aux with | .samp t => t.got | _ => []), since := none, aborted := false }
/-- The head of a sampler queue, started, with its progress. -/
def State.sampHead (s : State) (c q : Nat) : Option (State × ECmd × Samp) :=
  match s.headCmd c (32 + q) with
  | none => none
  | some e =>
    if e.op ≠ 0 ∨ s.runnable c (32 + q) e = false then none
    else match e.started, e.aux with
      | true, .samp t => some (s, e, t)
      | _, _ =>
        let f := fun (e : ECmd) => { e with started := true, aux := .samp e.sampStart }
        some (s.modHead c (32 + q) f, f e, e.sampStart)

/-- The clk since the last check of a wait count in SWAIT (R346); the wait goes on, or ends. -/
def State.sampWait (s : State) (c q : Nat) (t : Samp) (on : Bool) : State :=
  let s := match t.since with | some k => s.engCount c 2 0x10b (s.clk - k) | none => s
  s.modHead c (32 + q) fun e => { e with aux := .samp { t with since := if on then some s.clk else none } }

/-- SAMPLER_BARRIER_CHECK (R349, R350): the header first, then the deadline; every 16 clk. -/
def State.sampBarrier (s : State) (c q : Nat) : State :=
  match s.sampHead c q with
  | none => s
  | some (s, e, t) =>
    if t.phase != 0 || (match t.since with | some k => decide (s.clk < k + 16) | none => false) then s else
    match s.spaceKeys e .own (bits (e.st 2) 31 0) 16 false false with
    | (s, .ok ks) =>
      if (s.badSec ks).isSome then (s.raiseUE c).sampWait c q t true else
      let (s, bs, ts) := s.engRead c e.pts ks
      let h := leNat bs
      let go := fun (s : State) (t' : Samp) =>
        ((s.sampWait c q t false).sampEnergy e false).sampSet c (32 + q) ts (.samp { t' with since := none })
      if bits h 31 0 = e.sa.toNat % 2 ^ 32 ∧ bits h 63 32 = e.sb.toNat % 2 ^ 32 then
        match bits h 95 64 with
        | 0 => go s { t with phase := e.scans + 1, none_ := true }
        | 1 => go s { t with phase := e.scans + 1, forced := true, ftok := BitVec.ofNat 32 (bits h 127 96) }
        | _ => go s { t with phase := 1 }
      else if e.st 6 ≠ 0 ∧ e.st 6 ≤ s.dtime then go s { t with phase := e.scans + 1, late := true }
      else s.sampWait c q t true
    | (s, _) => s

/-- SAMPLER_SCAN_STEP (R350): the winner of up to 512 tokens. -/
def State.sampScan (s : State) (c q : Nat) : State :=
  match s.sampHead c q with
  | none => s
  | some (s, e, t) =>
    if t.phase = 0 ∨ e.scans < t.phase then s else
    let i0 := 512 * (t.phase - 1)
    let n := min 512 (e.vlen - i0)
    let la := bits (e.st 1) 31 0 + i0 * e.lsize
    let ma := bits (e.st 2) 31 0 + 16 + i0 / 8
    match s.spaceKeys e .own la (n * e.lsize) false false, s.spaceKeys e .own ma (if e.masked then 64 else 0) false false with
    | (_, .ok lk), (_, .ok mks) =>
      match s.badSec (lk ++ mks) with
      | some sec => s.engBad c (32 + q) sec (w64 la)
      | none =>
        let (s, bs, t0) := s.engRead c e.pts lk
        let (s, ms, t1) := s.engRead c e.pts mks
        let best := (List.range n).foldl (fun a i =>
          if e.masked && !(ms.getD (i / 8) 0).getLsbD (i % 8) then a else
          let t := e.vbase + i0 + i
          better a ((score e t (logit e ((bs.drop (i * e.lsize)).take e.lsize))).map fun x => (t, x))) t.win
        (s.sampEnergy e true).sampSet c (32 + q) (max t0 t1) (.samp { t with phase := t.phase + 1, win := best })
    | _, _ => s

/-- The children of a slice (R351). -/
def ECmd.children (e : ECmd) : List Nat := ((List.range 4).map fun i => 4 * e.slice + 1 + i).filter (· < e.slices)
/-- A winner message's tags are those of a command. -/
def Winner.tags (w : Winner) (e : ECmd) : Bool := w.seq == e.sa.setWidth 32 && w.pos == e.sb.setWidth 32

/-- SAMPLER_GATHER (R350, R351): merge every child's winner, once all have arrived. A message that reads uncorrectable is read
again once (R354). -/
def State.sampGather (s : State) (c q : Nat) : State :=
  match s.sampHead c q with
  | none => s
  | some (s, e, t) =>
    if t.phase ≠ e.scans + 1 then s else
    let mine := (s.core c).winners.filter fun m => m.tags e
    -- a child's first message is taken, a further one waits on, one of no child is dropped
    let (got, kept) := (s.core c).winners.foldl (fun (a : List Winner × List Winner) m =>
      if !m.tags e then (a.1, a.2 ++ [m])
      else if !e.children.contains m.k then a
      else if a.1.any (·.k == m.k) then (a.1, a.2 ++ [m])
      else (a.1 ++ [m], a.2)) (t.got, [])
    if !mine.isEmpty && (s.core c).winUe != 0 then
      (s.modCore c fun k => { k with winUe := k.winUe - 1 }).engBad c (32 + q) 0 0
    else
      let s := s.modCore c fun k => { k with winners := kept }
      let t := { t with got := got }
      if e.children.all fun k => got.any (·.k == k) then
        ((s.sampWait c q t false).sampEnergy e false).sampSet c (32 + q) 0 (.samp { t with
          phase := t.phase + 1, since := none
          win := got.foldl (fun a m => better a m.win) t.win, late := t.late || got.any (·.late) })
      else s.sampWait c q t true

/-- Send a winner message to the parent slice (R351). -/
def State.sendWinner (s : State) (e : ECmd) (q : Nat) (w : Winner) : ESent :=
  let vc := (bits (e.st 4) 63 32 + (e.slice - 1) / 4) % 2 ^ 32
  match s.dest e.core vc with
  | .to_ d => .ok (s.engPost e d (some vc) (engTag (32 + q)) (.winner w))
  | .held => if s.doorRoom (Config.dieOf e.core) then .ok (s.engHold e (some vc) heldTag (.winner w)) else .wait
  | .bounce => .bounce

/-- The result record of slice 0 (R351): token, score, flags. -/
def resultOf (e : ECmd) (win : Option (Nat × W32)) (late forced : Bool) (ftok : W32) : Nat × Nat × Nat :=
  let g := if bit (e.st 3) 32 then 8 else 0
  if late then (0xffff_ffff, 0, 4 + g)
  else if forced then (ftok.toNat, 0, 2 + g)
  else match win with
    | none => (0xffff_ffff, 0, 1 + g)
    | some (t, x) => (t, x.toNat, g)

/-- What the command sends is at its destination: the wake of slice 0, and the command completes (R351). -/
def State.sampEnd (s : State) (c q : Nat) (e : ECmd) : State :=
  s.engFinish c (32 + q) e (if e.slice = 0 then w64 (e.st 8) else 0) (w64 (e.st 9)) id id (·.complete c (32 + q))

/-- The step that delivers is performed: its energy, and the command goes on to its end. -/
def State.sampGone (s : State) (c q : Nat) (e : ECmd) (ts : Nat) (t : Samp) : State :=
  (s.sampEnergy e false).sampSet c (32 + q) ts (.samp { t with phase := e.scans + 3 })

/-- The result of slice 0 is written (R351, R346). -/
def State.sampDone (s : State) (c q : Nat) (e : ECmd) (ts : Nat) (t : Samp) : State :=
  let s := s.engCount c 2 0x108 1
  let s := if t.late then s.engCount c 2 0x109 1 else if t.forced then s.engCount c 2 0x10a 1 else s
  (s.modHead c (32 + q) fun e => { e with sent := false }).sampGone c q e ts t

/-- Write the result of slice 0 (R351); a remote one is written when its store has been acknowledged. -/
def State.sampResult (s : State) (c q : Nat) (e : ECmd) (t : Samp) : State :=
  let key := 32 + q
  let r := resultOf e t.win t.late t.forced t.ftok
  let bs := leBytes 4 r.1 ++ leBytes 4 r.2.1 ++ leBytes 4 e.sb.toNat ++ leBytes 2 r.2.2 ++ leBytes 2 e.sa.toNat
  let w := e.st 7
  if bit w 54 then
    match s.spaceKeys e .own (bits w 20 0) 16 true false with
    | (s, .ok ks) =>
      let (s, ts) := s.engWrite c (max e.pts e.ts) (ks.zip bs)
      let s := s.sampDone c q e ts t
      match s.headCmd c key with
      | some e => s.sampEnd c q e
      | none => s
    | (s, _) => s.engFault c key Cause.segRights.num (w64 (bits w 20 0))
  else if e.sent then s.sampDone c q e 0 t
  else match s.engStore e key (w64 w) bs with
    | .ok s => s.modHead c key fun e => { e with sent := true }
    | .wait => s
    | .bounce => s.engFault c key Cause.msgBounce.num (w64 (bits w 20 0))

/-- SAMPLER_DELIVER (R350, R351): the result, or the winner message; a command that has been aborted sends NONE and LATE and
ends even when that bounces (R354). -/
def State.sampDeliver (s : State) (c q : Nat) : State :=
  let key := 32 + q
  match s.sampHead c q with
  | none => s
  | some (s, e, t) =>
    if t.phase ≠ e.scans + 2 ∧ t.phase ≠ e.scans + 3 ∨ s.engOut c key = true then s
    else if e.bounced then
      if t.aborted then s.complete c key else s.engFault c key Cause.msgBounce.num (w64 (bits (e.st 7) 20 0))
    else if t.phase = e.scans + 3 then s.sampEnd c q e
    else if e.slice = 0 then s.sampResult c q e t
    else match s.sendWinner e q ⟨e.sa.setWidth 32, e.sb.setWidth 32, e.slice, t.win, t.late, t.forced⟩ with
      | .ok s =>
        let s := s.sampGone c q e 0 t
        match s.headCmd c key with
        | some e => s.sampEnd c q e
        | none => s
      | .wait => s
      | .bounce => if t.aborted then s.complete c key else s.engFault c key Cause.msgBounce.num 0

/-- SDRAW_STEP (R353): 32 draws. -/
def State.sdrawStep (s : State) (c q : Nat) : State :=
  let key := 32 + q
  match s.headCmd c key with
  | none => s
  | some e =>
    if e.op ≠ 1 ∨ s.runnable c key e = false then s else
    let n := bits (e.st 0xa) 47 32 + 1
    let i0 := 32 * e.step
    let m := min 32 (n - i0)
    let a := bits (e.st 0xa) 31 0 + 8 * i0
    let bs := (List.range m).flatMap fun i =>
      leBytes 8 (draw (mget e.stg 5 0) e.sa e.sb (bits (e.st 0xb) 31 0) ((bits (e.st 0xb) 63 32 + i0 + i) % 2 ^ 32)).toNat
    match s.spaceKeys e .own a (8 * m) true false with
    | (s, .ok ks) =>
      let (s, ts) := s.engWrite c (max e.pts e.ts) (ks.zip bs)
      let s := (s.sampEnergy e false).modHead c key fun e => { e with started := true, step := e.step + 1, ts := max e.ts ts }
      if n ≤ i0 + 32 then s.complete c key else s
    | (s, _) => s.engFault c key Cause.segRights.num (w64 a)

/-- SCTL_RESUME (R346, R354): retry a faulted head from its first step. -/
def State.sampResume (s : State) (c q : Nat) : State :=
  s.modHead c (32 + q) fun e => if e.state = 3 then
    { e with state := 1, cause := 0, retried := false, started := false, step := 0, sent := false, bounced := false } else e
/-- SCTL_ABORT (R354): a slice other than 0 still sends its parent a winner message with NONE and LATE, and waits for room at
a full stage door (R288). -/
def State.sampAbort (s : State) (c q : Nat) : State :=
  match s.headCmd c (32 + q) with
  | some e =>
    if e.state ≠ 3 then s
    else if e.op = 0 ∧ e.slice ≠ 0 then
      s.modHead c (32 + q) fun e => { e with
        state := 1, cause := 0, started := true
        aux := .samp { e.sampStart with phase := e.scans + 2, late := true, none_ := true, aborted := true } }
    else s.complete c (32 + q)
  | none => s

end Sys2Proof.Machine
end

