-- ==== Sys2Proof/Machine/Save.lean ====
section
/-! DEFINITION. Engine 7, the context-save engine of a D-tile (spec/19 R415-R419). -/
namespace Sys2Proof.Machine

/-- csave (R415). -/
def execCsave (f : FmtCop) (s : State) : Out := cop 7 f.q.toNat 0 f.sa f.sb f.hold noChk s
/-- crestore (R415). -/
def execCrestore (f : FmtCop) (s : State) : Out := cop 7 f.q.toNat 1 f.sa f.sb f.hold noChk s

/-- A row of the body of a save area (R417). -/
inductive SaveRow where
  | bank (b r : Nat)
  | acc (i : Nat)
  | vreg (v : Nat)
  | kregs
  | cbank (r : Nat)
deriving DecidableEq, Repr

/-- The rows that a content mask names, in order. -/
def saveRows (m : Nat) : List SaveRow :=
  (((List.range 24).filter (bit m ·)).flatMap fun b => (List.range 128).map (SaveRow.bank b)) ++
  (if bit m 24 then (List.range 128).map SaveRow.acc else []) ++
  (if bit m 25 then (List.range 32).map SaveRow.vreg ++ [.kregs] else []) ++
  (if bit m 26 then (List.range 8).map SaveRow.cbank else [])

/-- Key of a bank's row in tile c. -/
def saveKeys (c b r : Nat) : List Nat := keysFrom (Config.tileKey c (b * 0x8000 + 256 * r)) 256

/-- The 256 bytes of a row that is no bank's. -/
def State.saveBytes (s : State) (c : Nat) (row : SaveRow) : List Byte :=
  let k := s.core c
  match row with
  | .bank b r => memReads s.mem (saveKeys c b r)
  | .acc i => (List.range 64).flatMap fun j => leBytes 4 (mget k.acc (64 * i + j) 0).toNat
  | .vreg v => leBytes 256 (mget k.vregs v 0).toNat
  | .kregs => ((List.range 7).flatMap fun i => leBytes 8 (mget k.kregs (i + 1) 0).toNat) ++ leBytes 200 0
  | .cbank r => (List.range 32).flatMap fun i => leBytes 8 (s.cbGet c (32 * r + i)).toNat

/-- Write the bytes of a row that is no bank's into the core. -/
def State.restoreBytes (s : State) (c : Nat) (row : SaveRow) (bs : List Byte) : State :=
  let at_ := fun n i => leNat ((bs.drop (n * i)).take n)
  match row with
  | .bank .. => s
  | .acc i => s.modCore c fun k => { k with
      acc := (List.range 64).foldl (fun a j => mset a (64 * i + j) (BitVec.ofNat 32 (at_ 4 j))) k.acc }
  | .vreg v => s.modCore c fun k => { k with vregs := mset k.vregs v (BitVec.ofNat 2048 (leNat bs)) }
  | .kregs => s.modCore c fun k => { k with
      kregs := (List.range 7).foldl (fun a i => mset a (i + 1) (w64 (at_ 8 i))) k.kregs }
  | .cbank r => s.modCore c fun k => { k with
      cbNew := k.cbNew ++ (List.range 32).map fun i => (s.clk, 32 * r + i, w64 (at_ 8 i)) }

/-! Accesses by virtual address in the slot of CSCFG (R416, R418). -/

/-- CSCFG.SLOT. -/
def State.csSlot (s : State) (c : Nat) : Nat := (s.eregCore c 7 0x101).toNat % 64
/-- Locate bytes at a virtual address: none when the command parked, faulted or waits. -/
def State.saveFind (s : State) (c va n : Nat) (w : Bool) : State × Option (List Nat) :=
  match s.engMap c (((s.headCmd c saveKey).map (·.id)).getD 0) (s.csSlot c) w (kPieces va n) with
  | (s, .ok ks) =>
    match (if w then none else s.badSec ks) with
    | some sec => (s.engBad c saveKey sec (w64 va), none)
    | none => (s, some ks)
  | (s, .park a sub) => (s.parkCmd c saveKey (s.csSlot c) a sub (w64 a), none)
  | (s, .prot a) => (s.engFault c saveKey Cause.protPage.num (w64 a), none)
  | (s, .bad sec) => (s.engBad c saveKey sec (w64 va), none)
  | (s, _) => (s, none)

/-- Read bytes at a virtual address. -/
def State.saveRead (s : State) (c va n : Nat) (e : ECmd) : State × Option (List Byte) :=
  match s.saveFind c va n false with
  | (s, some ks) =>
    let (s, bs, t) := s.engRead c (max e.pts e.ts) ks
    (s.modHead c saveKey fun e => { e with ts := max e.ts t }, some bs)
  | (s, none) => (s, none)
/-- Write bytes at a virtual address: true when written. -/
def State.saveWrite (s : State) (c va : Nat) (bs : List Byte) (e : ECmd) : State × Bool :=
  match s.saveFind c va bs.length true with
  | (s, some ks) =>
    let (s, t) := s.engWrite c (max e.pts e.ts) (ks.zip bs)
    (s.modHead c saveKey fun e => { e with ts := max e.ts t }, true)
  | (s, none) => (s, false)

/-! Steps. -/

/-- A step has been performed: the next one, and its energy (R416). -/
def State.saveNext (s : State) (c : Nat) (e : ECmd) : State :=
  (s.modHead c saveKey fun e => { e with step := e.step + 1, started := true, retried := false }).chargeStep e
    ((s.eregCore c 7 0x107).toNat % 2 ^ 16)
/-- One more row moved. -/
def State.saveRow (s : State) (c : Nat) : State := s.engCount c 7 0x105 1

/-- The descriptor's address. -/
def State.saveDesc (s : State) (c : Nat) (e : ECmd) : Nat :=
  (s.eregCore c 7 0x100).toNat / 16 * 16 + 16 * (e.sa.toNat % 2 ^ 32)

/-- Step 0 (R416, R418): the descriptor. -/
def State.saveStart (s : State) (c : Nat) (e : ECmd) : State :=
  if bits (s.eregCore c 7 0x101).toNat 31 8 ≤ e.sa.toNat % 2 ^ 32 then
    s.engFault c saveKey Cause.engineDesc.num (w64 (s.saveDesc c e))
  else
    match s.saveRead c (s.saveDesc c e) 16 e with
    | (s, some bs) =>
      let base := leNat (bs.take 8)
      if base % 256 ≠ 0 then s.engFault c saveKey Cause.engineDesc.num (w64 base)
      else (s.modHead c saveKey fun e => { e with aux := .save base (leNat (bs.drop 8)) }).saveNext c e
    | (s, none) => s

/-- The area is full (R418): the command completes and reports. -/
def State.saveFull (s : State) (c base : Nat) (e : ECmd) : State :=
  (s.complete c saveKey).faultMsg c e.num .saveAreaFull e.vcore.toNat (w64 base) (w64 (e.sa.toNat % 2 ^ 32))

/-- The bytes of the header with VALID = 0 and DTIME = 0 (R417). -/
def State.saveHeader (s : State) (c : Nat) (e : ECmd) : List Byte :=
  let m := e.sb.toNat % 2 ^ 27
  leBytes 8 0 ++ leBytes 4 e.sa.toNat ++ leBytes 4 m ++ leBytes 8 (256 * (1 + (saveRows m).length)) ++ leBytes 8 0 ++
  leBytes 16 (s.lutNow c).toNat ++ leBytes 16 0 ++
  (List.range 24).flatMap fun b => leBytes 8 (s.bfmt c b)

/-- The source of a row: the tile's bytes are read by the engine, everything else as it stands. -/
def State.saveSource (s : State) (c : Nat) (e : ECmd) (row : SaveRow) : State × Option (List Byte) :=
  match row with
  | .bank b r =>
    let ks := saveKeys c b r
    match s.badSec ks with
    | some sec => (s.engBad c saveKey sec (w64 (b * 0x8000 + 256 * r)), none)
    | none => let (s, bs, t) := s.engRead c (max e.pts e.ts) ks
              (s.modHead c saveKey fun e => { e with ts := max e.ts t }, some bs)
  | row => (s, some (s.saveBytes c row))

/-- CSAVE_STEP (R418). -/
def State.csaveStep (s : State) (c : Nat) : State :=
  match s.headCmd c saveKey with
  | none => s
  | some e =>
    if e.op ≠ 0 ∨ s.runnable c saveKey e = false then s else
    match e.aux with
    | .save base size =>
      let rows := saveRows (e.sb.toNat % 2 ^ 27)
      let put := fun (s : State) (off : Nat) (bs : List Byte) => s.saveWrite c (base + off) bs e
      if e.step = 1 then
        if size < 256 then s.saveFull c base e else
        match put s 0 (s.saveHeader c e) with
        | (s, true) => s.saveNext c e
        | (s, false) => s
      else
        match rows[e.step - 2]? with
        | some row =>
          let off := 256 * (e.step - 1)
          if size < off + 256 then s.saveFull c base e else
          match s.saveSource c e row with
          | (s, some bs) =>
            match put s off bs with
            | (s, true) => (s.saveRow c).saveNext c e
            | (s, false) => s
          | (s, none) => s
        | none =>
          match put s 24 (leBytes 8 s.dtime) with
          | (s, true) =>
            match put s 0 (leBytes 8 1) with
            | (s, true) => (s.saveNext c e).complete c saveKey
            | (s, false) => s
          | (s, false) => s
    | _ => s.saveStart c e

/-- The last step of a restore waits for the operations that name a bank, and for started commands of the engines that use
LUT4 (R233, R283). -/
def State.restoreWait (s : State) (c : Nat) (e : ECmd) : Bool :=
  s.restoreNames c e || (s.core c).queues.any fun q => keyEng q.1 ≤ 2 && q.2.any (·.started)

/-- The bits of a BFMT (R233). -/
def bfmtMask : Nat := 0x7f * 2 ^ 40 + 2 ^ 32 + (2 ^ 32 - 1)
/-- The formats and the table of a header (R419). -/
def State.restoreHeader (s : State) (c : Nat) (bs : List Byte) : State :=
  let s := (List.range 24).foldl (fun (s : State) b => s.setCrCore c (0x1c0 + b)
    (w64 (dwordOf bs (8 + b)) &&& w64 bfmtMask)) s
  s.modCore c fun k => { k with lutNew := k.lutNew ++ [(s.clk, BitVec.ofNat 128 (leNat ((bs.drop 32).take 16)))] }
where
  /-- Dword i of the header. -/
  dwordOf (bs : List Byte) (i : Nat) : Nat := leNat ((bs.drop (8 * i)).take 8)

/-- CRESTORE_STEP (R419). -/
def State.crestoreStep (s : State) (c : Nat) : State :=
  match s.headCmd c saveKey with
  | none => s
  | some e =>
    if e.op ≠ 1 ∨ s.runnable c saveKey e = false then s else
    match e.aux with
    | .save base _ =>
      let m := e.sb.toNat % 2 ^ 27
      let rows := saveRows m
      if e.step = 1 then
        match s.saveRead c base 256 e with
        | (s, some bs) =>
          let d := fun o n => leNat ((bs.drop o).take n)
          if d 0 8 ≠ 1 ∨ d 8 4 ≠ e.sa.toNat % 2 ^ 32 ∨ d 12 4 ≠ m then s.engFault c saveKey Cause.saveInvalid.num (w64 base)
          else s.saveNext c e
        | (s, none) => s
      else
        match rows[e.step - 2]? with
        | some row =>
          match s.saveRead c (base + 256 * (e.step - 1)) 256 e with
          | (s, some bs) =>
            let s := match row with
              | .bank b r =>
                let (s, t) := s.engWrite c (max e.pts e.ts) ((saveKeys c b r).zip bs)
                s.modHead c saveKey fun e => { e with ts := max e.ts t }
              | row => s.restoreBytes c row bs
            (s.saveRow c).saveNext c e
          | (s, none) => s
        | none =>
          if s.restoreWait c e then s else
          match s.saveRead c base 256 e with
          | (s, some bs) => ((s.restoreHeader c bs).saveNext c e).complete c saveKey
          | (s, none) => s
    | _ => s.saveStart c e

/-- CSAVE_STEP (R418). -/
def execCsaveStep (core : Nat) (s : State) : Out := .next (s.csaveStep core)
/-- CRESTORE_STEP (R419). -/
def execCrestoreStep (core : Nat) (s : State) : Out := .next (s.crestoreStep core)
/-- CSCTL_RESUME (R416). -/
def execCsctlResume (core : Nat) (s : State) : Out := .next (s.engResume core saveKey)
/-- CSCTL_ABORT (R416). -/
def execCsctlAbort (core : Nat) (s : State) : Out := .next (s.engAbort core saveKey)

end Sys2Proof.Machine
end

