-- ==== Sys2Proof/Machine/Stream.lean ====
section
/-! DEFINITION. Engine 4, the duplex stream engine of a die (spec/15 R366-R372). -/
namespace Sys2Proof.Machine

/-- sin (R366). -/
def execSin (f : FmtCop) (s : State) : Out := cop 4 f.q.toNat 0 f.sa f.sb f.hold noChk s
/-- sadv (R366). -/
def execSadv (f : FmtCop) (s : State) : Out := cop 4 f.q.toNat 1 f.sa f.sb f.hold noChk s
/-- stok (R366). -/
def execStok (f : FmtCop) (s : State) : Out := cop 4 f.q.toNat 2 f.sa f.sb f.hold noChk s
/-- sopen (R366). -/
def execSopen (f : FmtCop) (s : State) : Out := cop 4 f.q.toNat 3 f.sa f.sb f.hold noChk s

/-! Records (R367). -/

/-- Key of byte o of stream record `st` of a die. -/
def State.sxKey (s : State) (die st o : Nat) : Nat :=
  (s.eregUnit (unitDie die) 4 0x100).toNat % 2 ^ 48 / 128 * 128 + 128 * st + o
/-- A dword of a stream record. -/
def State.sxDword (s : State) (die st o : Nat) : Nat := leNat (s.dramBytes (keysFrom (s.sxKey die st o) 8))
/-- Cells of a dword of a stream record. -/
def State.sxPut (s : State) (die st o v : Nat) : List Host.Cell := cellsAt (s.sxKey die st o) (leBytes 8 v)
/-- The held events of a die. -/
def State.held (s : State) (die : Nat) : List SEvent := mget s.sevents die []
/-- A counter of a die's stream engine. -/
def State.sxCount (s : State) (die n : Nat) : State := s.unitCount (unitDie die) 4 n 1

/-- The state region: its address and length in bytes. -/
def sxRegion (saddr : Nat) : Nat × Nat := (bits saddr 47 6 * 64, bits saddr 63 48 * 64)
/-- Cells that copy the state region into snapshot slot i with a tag (R369). -/
def State.sxSnap (s : State) (die st i tag : Nat) : List Host.Cell :=
  let (sa, n) := sxRegion (s.sxDword die st 96)
  let slot := bits (s.sxDword die st 104) 47 6 * 64 + i * (64 + n)
  cellsAt slot (leBytes 8 tag) ++ cellsAt (slot + 64) (s.dramBytes (keysFrom sa n))
/-- The bytes of a stream's state region. -/
def State.sxRegionKeys (s : State) (die st : Nat) : List Nat :=
  let (sa, n) := sxRegion (s.sxDword die st 96)
  keysFrom sa n
/-- The byte at which a page move holds a unit of the command `id` of core c that writes some bytes (R248). -/
def State.sxBlocked (s : State) (c id : Nat) (cells : List Host.Cell) : Option Nat :=
  (cells.find? fun x => s.homeHeld (some (.eng c id)) x.1).map (·.1)
/-- The effect of a command or event on bytes of DRAM: one unit on the coherent path, past a page move (R367). -/
def State.sxWrite (s : State) (c lo : Nat) (cells : List Host.Cell) : State × Nat := s.engWrite c lo (s.redirected cells)

/-- A command of the stream engine ends: its event is applied or dropped (R368). -/
def State.sxDone (s : State) (e : SEvent) : State :=
  match s.headCmd e.core e.queue with
  | some h => if h.id = e.cmd then s.complete e.core e.queue else s
  | none => s
/-- Energy of an applied event (R372). -/
def State.sxEnergy (s : State) (die : Nat) (e : ECmd) : State :=
  s.chargeStep e (bits (s.eregUnit (unitDie die) 4 0x107).toNat 15 0)

/-- Bad data in a read of a command: it is read again once, then the command ends without effect and reports (R366); `drop`
takes its event away. -/
def State.sxBad (s : State) (c key sec : Nat) (drop : State → State) : State :=
  match s.headCmd c key with
  | some e =>
    if e.retried then ((drop (s.raiseUE c)).engReportUE e sec).complete c key
    else (s.raiseUE c).modHead c key fun e => { e with retried := true }
  | none => s

/-- sopen applied on arrival (R369): held events of the stream are dropped. -/
def State.sxOpen (s : State) (die : Nat) (e : ECmd) (key : Nat) : State :=
  let st := bits e.sa.toNat 7 0
  let stamp := bits e.sa.toNat 63 32
  let cells := s.sxPut die st 0 0 ++ s.sxPut die st 8 0 ++ s.sxPut die st 16 (stamp + stamp * 2 ^ 32) ++
    s.sxPut die st 24 (s.sxDword die st 24 / 8 * 8 + 4) ++ s.sxSnap die st 0 0 ++
    cellsAt (s.sxKey die st 112) [1]
  match s.sxBlocked e.core e.id cells with
  | some pa => s.engJoin e.core e.id pa
  | none =>
  match s.dramRead e.core e.id e.pts (keysFrom (s.sxKey die st 0) 128 ++ s.sxRegionKeys die st) with
  | (_, .wait pa) => s.engJoin e.core e.id pa
  | (_, .bad sec) => s.sxBad e.core key sec id
  | (s, .ok _ t0) =>
    let drop := (s.held die).filter fun h => h.stream == st
    let s := { s with sevents := mset s.sevents die ((s.held die).filter fun h => h.stream != st) }
    let s := drop.foldl (fun s h => s.sxDone h) s
    let (s, ts) := s.sxWrite e.core t0 cells
    ((s.sxEnergy die e).modHead e.core key fun e => { e with ts := max e.ts ts }).complete e.core key

/-- STREAM_EVENT_ARRIVAL (R368): the head command's event is held, or its sopen is applied; `q` is die × 4 + queue. A command
whose notice has gone out completes once that is delivered (R288). -/
def State.streamArrive (s : State) (c q : Nat) : State :=
  let key := 64 + q
  let die := q / 4
  match s.headCmd c key with
  | none => s
  | some e =>
    if e.woke then (if s.wakeOut c key then s else s.complete c key)
    else if s.runnable c key e = false ∨ e.aux = .held ∨ (s.linkUp = false ∧ die ≠ Config.dieOf c) then s
    else if e.op = 3 then s.sxOpen die e key
    else if 64 ≤ (s.held die).length then s
    else
      let ev : SEvent := ⟨bits e.sa.toNat 7 0, bits e.sa.toNat 63 32, e.op, bit e.sa.toNat 9, e.sb, s.clk, c, key, e.id⟩
      { s with sevents := mset s.sevents die (s.held die ++ [ev]) }.modHead c key fun e =>
        { e with started := true, aux := .held }

/-- What applying an event does: cells to write, in order, bytes read beyond the stream's record, counters to raise, and a
notice's index for the owner. -/
structure SEffect where
  cells : List Host.Cell
  reads : List Nat
  counts : List Nat
  notice : Option Nat

/-- A notice record and NTAIL (R371). -/
def State.sxNotice (s : State) (die st kind cause stamp : Nat) (val : Word) (p dropped S : Nat) : List Host.Cell × Nat :=
  let nb := s.sxDword die st 40
  let tail := s.sxDword die st 48
  let a := bits nb 47 6 * 64 + 32 * (tail % 2 ^ bits nb 4 0)
  (cellsAt a (leBytes 8 (kind + cause * 16 + stamp * 2 ^ 32) ++ leBytes 8 val.toNat ++ leBytes 8 p ++
    leBytes 8 (dropped + S * 2 ^ 32)) ++ s.sxPut die st 48 (tail + 1), tail)

/-- Tokens per sub-page: 1024 / KVB; a KVB that is no power of two from 1 to 1024 has no stated effect (log 3). -/
def sxTps (kvb free : Nat) : Nat := if (List.range 11).any fun i => 2 ^ i == kvb then 1024 / kvb else 1 + free % 1024

/-- Truncation (R370). -/
def State.sxTrunc (s : State) (die st stamp : Nat) (val : Word) : SEffect :=
  let g := s.sxDword die st 0
  let p := s.sxDword die st 8
  let tps := sxTps (bits (s.sxDword die st 72) 10 0) (Config.freeValue s.fctr).toNat
  let kvl := bits (s.sxDword die st 64) 47 3 * 8
  let fb := s.sxDword die st 80
  let k0 := (p + tps - 1) / tps
  let k1 := (g + tps - 1) / tps
  let pages := ((List.range (k1 - k0)).map fun i => (k0 + i, leNat (s.dramBytes (keysFrom (kvl + 8 * (k0 + i)) 8)))).filter
    fun x => x.2 != 0
  let ftail := s.sxDword die st 88
  let free := (List.range pages.length).flatMap fun i =>
    let x := pages.getD i (0, 0)
    cellsAt (bits fb 47 6 * 64 + 8 * ((ftail + i) % 2 ^ bits fb 4 0)) (leBytes 8 x.2) ++
      cellsAt (kvl + 8 * x.1) (leBytes 8 0)
  let (sa, n) := sxRegion (s.sxDword die st 96)
  let slot := fun i => bits (s.sxDword die st 104) 47 6 * 64 + i * (64 + n)
  let valid := s.sxDword die st 112 % 256
  let tags := ((List.range 8).filter (bit valid ·)).map fun i => (i, leNat (s.dramBytes (keysFrom (slot i) 8)))
  let best := tags.foldl (fun (a : Option (Nat × Nat)) x => if p < x.2 then a else
    match a with | none => some x | some y => if y.2 < x.2 then some x else a) none
  let gone := (tags.filter fun x => p < x.2).map fun x => 2 ^ x.1
  let restore := match best with
    | some x => cellsAt sa (s.dramBytes (keysFrom (slot x.1 + 64) n))
    | none => []
  let (nc, idx) := s.sxNotice die st 2 0 stamp val p ((g - p) % 2 ^ 32) (match best with | some x => x.2 % 2 ^ 32 | none => 0xffff_ffff)
  ⟨free ++ s.sxPut die st 88 (ftail + pages.length) ++ cellsAt (s.sxKey die st 112) (leBytes 1 (valid - gone.sum)) ++
    restore ++ s.sxPut die st 0 p ++ nc,
    (List.range (k1 - k0)).flatMap (fun i => keysFrom (kvl + 8 * (k0 + i)) 8) ++
      ((List.range 8).filter (bit valid ·)).flatMap (fun i => keysFrom (slot i) 8) ++
      (match best with | some x => keysFrom (slot x.1 + 64) n | none => []), [0x105], some idx⟩

/-- The effect of an event on an open stream (R369, R370); none when it changes nothing but SXDROP. -/
def State.sxEffect (s : State) (die : Nat) (ev : SEvent) : Option SEffect :=
  let st := ev.stream
  let g := s.sxDword die st 0
  let p := s.sxDword die st 8
  let ps := s.sxDword die st 16 % 2 ^ 32
  match ev.cls with
  | 0 =>
    if ev.stamp < ps then
      let (nc, i) := s.sxNotice die st 3 Cause.lateFrame.num ev.stamp ev.val p 0 0
      some ⟨nc, [], [0x104], some i⟩
    else if !ev.trunc then
      let (nc, i) := s.sxNotice die st 1 0 ev.stamp ev.val p 0 0
      some ⟨nc, [], [], some i⟩
    else some (s.sxTrunc die st ev.stamp ev.val)
  | 1 => some ⟨s.sxPut die st 8 (min (max p ev.val.toNat) g) ++ cellsAt (s.sxKey die st 16) (leBytes 4 ev.stamp), [], [], none⟩
  | _ =>
    let tb := s.sxDword die st 56
    if g - p = 2 ^ bits tb 4 0 then none else
    let tok := cellsAt (bits tb 47 6 * 64 + 4 * (g % 2 ^ bits tb 4 0)) (leBytes 4 ev.val.toNat)
    let g' := g + 1
    let i := g' / 32 % 8
    some ⟨tok ++ s.sxPut die st 0 g' ++ (if g' % 32 = 0 then s.sxSnap die st i g' ++
      cellsAt (s.sxKey die st 112) (leBytes 1 (s.sxDword die st 112 % 256 ||| 2 ^ i)) else []),
      if g' % 32 = 0 then s.sxRegionKeys die st else [], [], none⟩

/-- An event's key is below another's: stamp first, then class (R368). -/
def SEvent.before (a b : SEvent) : Bool := a.stamp < b.stamp || (a.stamp == b.stamp && a.cls < b.cls)

/-- The k-th held event may be applied now (R368). -/
def State.sxReady (s : State) (die k : Nat) (ev : SEvent) : Bool :=
  decide (ev.clk + (s.eregUnit (unitDie die) 4 0x101).toNat % 2 ^ 16 ≤ s.clk) &&
  !((List.range (s.held die).length).any fun i => match (s.held die)[i]? with
    | some o => o.stream == ev.stream && (o.before ev || (!ev.before o && i < k))
    | none => false)

/-- STREAM_EVENT_APPLY (R368-R371). -/
def State.streamApply (s : State) (die k : Nat) : State :=
  match (s.held die)[k]? with
  | none => s
  | some ev =>
    match s.headCmd ev.core ev.queue with
    | none => s
    | some e =>
      if !s.sxReady die k ev || s.engStopped ev.core ev.queue then s else
      let st := ev.stream
      let drop := fun (s : State) => { s with sevents := mset s.sevents die (dropAt (s.held die) k) }
      let rk := keysFrom (s.sxKey die st 0) 128
      match s.dramRead ev.core e.id e.pts rk with
      | (_, .wait pa) => s.engJoin ev.core e.id pa
      | (_, .bad sec) => s.sxBad ev.core ev.queue sec drop
      | (s1, .ok _ t0) =>
        let info := s.sxDword die st 24
        if !bit info 2 then ((drop s1).sxCount die 0x106).sxDone ev else
        match s.sxEffect die ev with
        | none => ((drop s1).sxCount die 0x106).sxDone ev
        | some f =>
          let last := s.sxDword die st 16 / 2 ^ 32
          let late := ev.stamp < last || (ev.stamp == last && ev.cls < info % 4)
          let cells := f.cells ++ cellsAt (s.sxKey die st 20) (leBytes 4 ev.stamp) ++
            cellsAt (s.sxKey die st 24) (leBytes 1 (info % 256 / 4 * 4 + ev.cls))
          match s.sxBlocked ev.core e.id cells with
          | some pa => s.engJoin ev.core e.id pa
          | none =>
          match s1.dramRead ev.core e.id t0 f.reads with
          | (_, .wait pa) => s.engJoin ev.core e.id pa
          | (_, .bad sec) => s.sxBad ev.core ev.queue sec drop
          | (s1, .ok _ t0) =>
            let (s1, ts) := (drop s1).sxWrite ev.core t0 cells
            let s1 := f.counts.foldl (fun s n => s.sxCount die n) (if late then s1.sxCount die 0x103 else s1)
            let s1 := (s1.sxEnergy die e).modHead ev.core ev.queue fun e => { e with ts := max e.ts ts, woke := f.notice.isSome }
            let s1 := { s1 with fctr := s1.fctr + 1 }
            match f.notice with
            | none => s1.sxDone ev
            | some i =>
              match s1.engWake { e with ts := max e.ts ts } ev.queue (w64 (s.sxDword die st 32)) (w64 i) with
              | some s1 => if s1.wakeOut ev.core ev.queue then s1 else s1.sxDone ev
              | none => s

end Sys2Proof.Machine
end

