-- ==== Sys2Proof/Machine/EngineRegs.lean ====
section
/-! DEFINITION. Engine registers (R289-R291): their scopes, writable bits and privilege (R294, R296, R317, R326, R335,
R340, R345, R346, R364, R372, R416); copw and coprd. -/
namespace Sys2Proof.Machine

/-- All 64 bits. -/
def ones64 : Nat := 2 ^ 64 - 1
/-- The low 32 bits. -/
def ones32 : Nat := 2 ^ 32 - 1
/-- `v` with the bits outside `mask` taken from `old`. -/
def maskedW (mask : Nat) (old v : Word) : Word := (old &&& ~~~(w64 mask)) ||| (v &&& w64 mask)

/-- Writable bits of a staging register (R294, R317, R345, R364). -/
def stagingMask (eng n : Nat) : Nat :=
  match eng with
  | 0 => if n = 0 then 2 ^ 21 - 1 else if n = 3 ∨ n = 4 ∨ n = 8 then ones32
         else if n = 7 then ones32 * 2 ^ 32 + 0x7fff else ones64
  | 1 => if n = 0 then 2 ^ 20 - 1 else if n ≤ 5 then 0xffff else if n = 6 then ones32 * 2 ^ 32 + 7 else ones64
  | 2 => if n = 1 then 2 ^ 34 - 1 else if n = 2 then 2 ^ 63 + ones32 else if n = 3 then 2 ^ 33 - 1
         else if n = 0xa then 2 ^ 48 - 1 else ones64
  | _ => if n = 0 then 0x01ff_01ff else ones64

/-- Writable bits of a shared register that holds what is written to it; 0 for one that is read only or has its own
rule. -/
def sharedMask (eng n : Nat) : Nat :=
  match eng with
  | 0 => if n = 0x10d then ones32 else if 0x110 ≤ n ∧ n ≤ 0x113 then ones64 else if n = 0x118 then ones64
         else if n = 0x119 then 2 ^ 48 - 1 else if n = 0x180 then 0x3f_ffc0 else if n = 0x181 then 0xffff_001f else 0
  | 1 => if n = 0x119 then ones32 else if n = 0x11a ∨ n = 0x11c ∨ n = 0x11d then ones64
         else if n = 0x11e then ones32 else 0
  | 2 => if 0x108 ≤ n ∧ n ≤ 0x10b then ones64 else if n = 0x10c then ones32 else 0
  | 3 => if n ≤ 0x10f then 2 ^ 48 - 64 + 1 else if 0x119 ≤ n ∧ n ≤ 0x11b then ones64
         else if n = 0x11c then ones32 else 0
  | 4 => if n = 0x100 then 2 ^ 48 - 128 else if n = 0x101 then 0xffff else if 0x103 ≤ n ∧ n ≤ 0x106 then ones64
         else if n = 0x107 then 0xffff else 0
  | 5 => if n = 0x100 then 0xfff else if 0x108 ≤ n ∧ n ≤ 0x10b then ones64 else if n = 0x10c then ones32 else 0
  | 6 => if n ≤ 0x103 then 0xffff_03ff_ff1f else if n ≤ 0x10b then 2 ^ 48 - 256 else if n = 0x110 then 0x3f else ones64
  | _ => if n = 0x100 then 2 ^ 64 - 16 else if n = 0x101 then 0xffff_ff3f else if n = 0x105 ∨ n = 0x106 then ones64
         else if n = 0x107 then 0xffff else 0

/-- A shared register whose writes are privileged (R291). -/
def sharedPriv (eng n : Nat) : Bool :=
  match eng with
  | 0 => n == 0x118 || n == 0x119
  | 1 => n == 0x11e
  | 2 => n == 0x10c
  | 3 => n ≤ 0x10f || n == 0x11c
  | 4 => n == 0x100 || n == 0x101 || n == 0x107
  | 5 => n == 0x100 || n == 0x101 || n == 0x10c
  | 6 => true
  | _ => n == 0x100 || n == 0x101 || n == 0x107

/-- The cluster or die unit that holds a shared register; none for core scope. -/
def sharedUnit (c eng n : Nat) : Option Nat :=
  match eng with
  | 0 => if 0x180 ≤ n then some (Config.clusterOf c) else none
  | 3 => some (Config.clusterOf c)
  | 4 => some (unitDie (Config.dieOf c))
  | 5 => some (unitDie (Config.dieOf c))
  | 6 => some (unitDie (Config.dieOf c))
  | _ => none

/-- A shared register as stored. -/
def State.sharedGet (s : State) (c eng n : Nat) : Word :=
  match sharedUnit c eng n with | some u => s.eregUnit u eng n | none => s.eregCore c eng n
/-- Store a shared register. -/
def State.sharedSet (s : State) (c eng n : Nat) (v : Word) : State :=
  match sharedUnit c eng n with | some u => s.setEregUnit u eng n v | none => s.setEregCore c eng n v

/-! Reads. -/

/-- N, STATE, SEAT and CAUSE of a queue, as MQSTq holds them (R296). -/
def State.queueStatus (s : State) (c key : Nat) : Word :=
  let l := s.queue c key
  match l with
  | e :: _ =>
    w64 (l.length % 16 + e.state % 4 * 2 ^ 4 + (if e.task.isSome then 0 else e.num % 8) * 2 ^ 8 +
      (if e.state = 3 then e.cause % 128 else 0) * 2 ^ 11)
  | [] => 0
/-- The fault address of the head of a queue; 0 when it is neither faulted nor parked. -/
def State.queueFaddr (s : State) (c key : Nat) : Word :=
  match s.headCmd c key with | some e => if 2 ≤ e.state then e.faddr else 0 | none => 0
/-- CFSTATc (R326). -/
def State.cfstat (s : State) (c ch : Nat) : Word :=
  let l := s.queue c (16 + ch)
  match l with
  | e :: _ => w64 (l.length % 16 + e.state % 4 * 2 ^ 4 + (if e.state = 3 then e.cause % 128 else 0) * 2 ^ 6 + e.num % 8 * 2 ^ 13)
  | [] => 0

/-- The value of a register of an engine as software reads it (R289). -/
def State.engRegRead (s : State) (p : Place) (eng n : Nat) : Word :=
  let c := p.core
  if n < 0x100 then mget (s.bank p).staging (eng * 512 + n) 0 else
  match eng with
  | 0 =>
    if n < 0x104 then s.queueStatus c (n - 0x100)
    else if n < 0x108 then (match s.headCmd c (n - 0x104) with | some e => w64 (e.step % 2 ^ 20) | none => 0)
    else if n < 0x10c then s.queueFaddr c (n - 0x108)
    else if n = 0x183 then w64 (s.sched (Config.clusterOf c)).ready.length
    else s.sharedGet c eng n
  | 1 =>
    if n < 0x108 then s.cfstat c (n - 0x100)
    else if n < 0x110 then s.cwp c (n - 0x108)
    else if n < 0x118 then s.queueFaddr c (16 + (n - 0x110))
    else s.sharedGet c eng n
  | 2 => if n < 0x104 then s.queueStatus c (32 + (n - 0x100)) else s.sharedGet c eng n
  | 3 =>
    if 0x110 ≤ n ∧ n < 0x114 then s.queueStatus c (48 + (n - 0x110))
    else if 0x114 ≤ n ∧ n < 0x118 then s.queueFaddr c (48 + (n - 0x114))
    else s.sharedGet c eng n
  | 4 => if n = 0x102 then w64 (s.held (Config.dieOf c)).length else s.sharedGet c eng n
  | 5 =>
    let box := s.box (Config.dieOf c) (s.sharedGet c 5 0x100).toNat
    if n = 0x101 then box.desc
    else if n = 0x102 then w64 (box.stage % 4 * 2 ^ 32 + box.version % 2 ^ 32)
    else s.sharedGet c eng n
  | 6 =>
    if n = 0x111 then mget s.evRoutes (Config.dieOf c * 64 + (s.sharedGet c 6 0x110).toNat % 64) 0 else s.sharedGet c eng n
  | _ =>
    if n = 0x102 then s.queueStatus c saveKey else if n = 0x103 then s.queueFaddr c saveKey else s.sharedGet c eng n

/-! Writes. -/

/-- A control register of an engine: ABORT in bit 9, else RESUME in bit 8. -/
def ctlWrite (v : Word) (s : State) (resume abort : State → State) : State :=
  if v.getLsbD 9 then abort s else if v.getLsbD 8 then resume s else s

/-- Write a shared register (R291). -/
def State.sharedWrite (s : State) (c eng n : Nat) (v : Word) : State :=
  let plain := s.sharedSet c eng n (maskedW (sharedMask eng n) (s.sharedGet c eng n) v)
  let k := v.toNat
  match eng with
  | 0 => if n = 0x10c then ctlWrite v s (·.engResume c (k % 4)) (·.engAbort c (k % 4)) else plain
  | 1 => if n = 0x118 then ctlWrite v s (·.engResume c (16 + k % 8)) (·.copyAbort c (k % 8)) else plain
  | 2 => if n = 0x104 then ctlWrite v s (·.sampResume c (k % 4)) (·.sampAbort c (k % 4)) else plain
  | 3 => if n = 0x118 then ctlWrite v s (·.engResume c (48 + k % 4)) (·.engAbort c (48 + k % 4)) else plain
  | 5 =>
    if n = 0x101 then s.cxdescWrite (Config.dieOf c) (s.sharedGet c 5 0x100).toNat v
    else if n = 0x103 then s.sharedSet c 5 n (s.sharedGet c 5 n &&& ~~~(v &&& 3)) else plain
  | 6 =>
    if n = 0x111 then { s with evRoutes := mset s.evRoutes (Config.dieOf c * 64 + (s.sharedGet c 6 0x110).toNat % 64) v }
    else plain
  | 7 => if n = 0x104 then ctlWrite v s (·.engResume c saveKey) (·.engAbort c saveKey) else plain
  | _ => plain

/-- Write a register of an engine (R289, R291). -/
def State.engRegWrite (s : State) (p : Place) (eng n : Nat) (v : Word) : State :=
  if n < 0x100 then s.modBank p fun b => { b with staging := mset b.staging (eng * 512 + n) (v &&& w64 (stagingMask eng n)) }
  else s.sharedWrite p.core eng n v

/-! The instructions. -/

/-- An engine register that the tile does not list (R296). -/
def engUnlisted (c eng n : Nat) : Bool := eng == 0 && Config.isX c && 0x180 ≤ n

/-- The core may write registers that only its own supervisor core may write (R250, R291). -/
def State.isSuper (s : State) (c : Nat) : Bool := s.sup c == c
/-- A seat may write privileged registers of core scope (R398). -/
def State.mayPriv (s : State) (p : Place) : Bool := (s.bank p).handler || s.isSuper p.core

/-- The seat may not write a privileged shared register (R291); those of engine 7 follow R398 (R416). -/
def State.engDenied (s : State) (p : Place) (eng n : Nat) : Bool :=
  decide (0x100 ≤ n) && sharedPriv eng n && !(if eng = 7 then s.mayPriv p else s.isSuper p.core)
/-- Such a write traps PRIV_REG. -/
def engPrivChk (eng n : Nat) (x : Ctx) (s : State) : Option Act :=
  if s.engDenied x.p eng n then some (.trap .privReg 0 none) else none

/-- An encoding that the tile of the current seat finds illegal halts the seat (R51). -/
def illegalHere (s : State) : Out :=
  let w := s.wordOf s.cur
  .next { s.haltBank s.cur .illegalEncoding w with ended := .trap }

/-- copw (R290, R291). -/
def execCopw (f : FmtCpw) (s : State) : Out :=
  let eng := f.eng.toNat
  let n := f.n.toNat
  if engUnlisted s.cur.core eng n then illegalHere s else
  issueChk { srcs := [isrc f.sa] } f.hold (chks [engChk eng, engPrivChk eng n])
    (fun x s => .done (s.engRegWrite x.p eng n (x.v 0)) none none) s

/-- The bytes of a copy's destination word below address `hi` lie in the core-private banks of its core (R252). -/
def copyPrivate (c w hi : Nat) : Bool :=
  copyOwn c w && (hi ≤ 0x8_0000 || (bits w 63 62 == 0 && 0x10_0000 ≤ copyBase w && hi ≤ 0x10_8000))
/-- The completions that a read of CWPc consumes: those of the channel, and the bytes of its command when they lie outside
the reader's core-private banks (R322). -/
def State.cwpJoin (s : State) (c ch : Nat) : State :=
  let s := s.joinTs c fun key _ => key == 16 + ch
  match s.headCmd c (16 + ch) with
  | some e => if copyPrivate c e.sb.toNat (e.posAfter e.copyDone) then s else s.modCore c fun k => { k with csts := max k.csts e.ts }
  | none => s

/-- coprd (R290, R291). -/
def execCoprd (f : FmtCpw) (s : State) : Out :=
  let eng := f.eng.toNat
  let n := f.n.toNat
  if engUnlisted s.cur.core eng n then illegalHere s else
  issueChk { srcs := [], dst := some f.sa.toNat
             lat := if n < 0x100 ∨ sharedUnit s.cur.core eng n = none then .fixed 2 else .var } f.hold (engChk eng)
    (fun x s =>
      let v := s.engRegRead x.p eng n
      .done (if eng = 1 ∧ 0x108 ≤ n ∧ n < 0x110 then s.cwpJoin x.p.core (n - 0x108) else s) (some v) none) s

end Sys2Proof.Machine
end

