-- ==== Sys2Proof/Machine/Seizure.lean ====
section
/-! DEFINITION. Reflex seizure (spec/19 R421-R425): groups, seize and release, and what they do at a member. -/
namespace Sys2Proof.Machine

/-- SZCTL.MAY of an X-tile. -/
def State.maySeize (s : State) (c g : Nat) : Bool := (s.crCore c 0x298).getLsbD g

/-- What a seize of group g reserves while its commit goes on: no other seat can hold the group meanwhile (R422). -/
def seizeKey (g : Nat) : Nat := 8192 + g
/-- Another seat's seize of the group is in its commit. -/
def State.seizing (s : State) (p : Place) (g : Nat) : Bool :=
  s.banks.any fun b => keyPlace b.1 != p && b.2.copRoom == some (seizeKey g)

/-- The checks of seize (R395, R422). -/
def seizeChk (g : Nat) (x : Ctx) (s : State) : Option Act :=
  let off := bits (x.v 0).toNat 20 6 * 64
  let ks := keysFrom (Config.tileKey x.p.core off) 64
  if (s.bank x.p).handler then some (.trap .privInsn 0 none)
  else if !Config.isX x.p.core || !s.maySeize x.p.core g || (s.members g).isEmpty || (mfind s.holds g).isSome || s.seizing x.p g then
    some (.trap .seizeRefused 0 none)
  else if s.bad ks then some (.bad (w64 off) ((ks.find? fun k => s.ue.contains (k / 32)).getD 0 / 32 * 32))
  else none

/-- The work of seize (R422): the hold, and the record to every member, which learns its place in the group. -/
def seizeAct (cs : List Nat) (g : Nat) (x : Ctx) (s : State) : Act :=
  let off := bits (x.v 0).toNat 20 6 * 64
  let ks := keysFrom (Config.tileKey x.p.core off) 64
  if s.bad ks then amoBad cs (w64 off) ((ks.find? fun k => s.ue.contains (k / 32)).getD 0 / 32 * 32) x s else
  let r := s.lockedRec x.p.core (bits (x.v 0).toNat 20 6 * 64)
  let ms := s.members g
  let s : State := { s with holds := mset s.holds g x.p }
  .done ((List.range ms.length).foldl (fun (s : State) i =>
    s.post x.p.core (ms.getD i 0) none 3 false x.p.num (.seize g i r)) s) none none

/-- seize (R422). -/
def execSeize (f : FmtS) (s : State) : Out :=
  let g := f.imm.toNat % 32
  issueChk { srcs := [isrc f.ra], closes := true
             keep := fun x s => s.modBank x.p fun b => { b with copRoom := some (seizeKey g) } } f.hold
    (seizeChk g) (seizeAct [f.ra.toNat] g) s

/-- The check of release (R425). -/
def releaseChk (g : Nat) (x : Ctx) (s : State) : Option Act :=
  if mfind s.holds g = some x.p then none else some (.trap .seizeRefused 0 none)

/-- release (R425). -/
def execRelease (f : FmtS) (s : State) : Out :=
  let g := f.imm.toNat % 32
  issueChk { srcs := [], entries := 1 } f.hold (releaseChk g) (fun x s =>
    if (s.bank x.p).openScene.isSome then .done (s.modBank x.p fun b => b.buffer 1 (.unseize g)) none none
    else .done (s.releaseGroup x.p g) none none) s

/-- SZGRP_WRITE (R421): ignored when it would share a tile, when the group is held, or when it names a fenced core. DESIGN
CHOICE (log 74): ignored too when it names a green-room host, which is never a member (R244, R426). -/
def State.szgrpWrite (s : State) (g : Nat) (v : Word) : State :=
  let ts := grpTiles v.toNat
  let shares := ts.any fun c => match s.groupOf c with | some h => h != g | none => false
  if 32 ≤ g ∨ shares = true ∨ (mfind s.holds g).isSome = true ∨ (ts.any fun c => (s.core c).fenced || s.host c) = true then s
  else
    let s := s.setCrGlob 0 (0x2a0 + g) v
    (ts.filter fun c => (s.core c).left.contains g).foldl (fun s c => s.modCore c fun k => { k with
      left := k.left.filter (· != g) }) s

/-- Step 1 of R423 on the D bank of seat 7: an open scene is discarded without waiting, a commit that has not
written is abandoned with what it reserved, what must end goes on there. -/
def State.setAside (s : State) (c : Nat) : State :=
  let p : Place := ⟨c, 7, 0⟩
  let b := s.bank p
  if b.run = .idle then s else
  let s :=
    if b.run ≠ .running ∨ b.handler = true ∨ b.mustEnd = true then s else
    let s := s.retireAll p
    let s := if b.scene.isSome then s.discard p false false false else s
    { s.modBank p (fun b => match b.wip with
        | .lut4 _ => { b with wip := .none }
        | .bfmt .. => { b with wip := .none }
        | .committing => { b with wip := .none }
        | .home => { b with wip := .none }
        | .mesh _ => { b with wip := .none }
        | _ => b) with ended := .done }
  let r := s.recOf p (s.bank p).pc
  s.modCore c fun k => { k with ready := ⟨r, s.dtime, true⟩ :: k.ready }

/-- The discard that a seizure makes of seat 7's scene waits for the vector commands that the scene issued (R209). -/
def State.asideWaits (s : State) (c : Nat) : Bool :=
  let b := s.bank ⟨c, 7, 0⟩
  b.run == .running && !b.handler && !b.mustEnd && b.scene.isSome && s.sceneVectors ⟨c, 7, 0⟩

/-- A seizure reaches a member (R423): none while an earlier one has not been released. -/
def State.seizeArrive (s : State) (c g pos : Nat) (r : Rec) : Option State :=
  if Config.isX c || (s.core c).fenced then some s
  else if (s.core c).seized.isSome then none
  else
    let late := s.asideWaits c
    some ((if late then s else s.setAside c).modCore c fun k => { k with
      seized := some g, szPend := some (pos, r), szWait := late })

/-- Step 1 of R423 is done where it has waited: none while it still waits. -/
def State.asideDone (s : State) (c : Nat) : Option State :=
  if !(s.core c).szWait then some s
  else if s.sceneVectors ⟨c, 7, 0⟩ then none
  else some ((s.setAside c).modCore c fun k => { k with szWait := false })

/-- The segments of a reflex continuation on seat 7 (R423). -/
def reflexSegs : List Seg :=
  [⟨0xb_0000, 0x1_0000, 3⟩, ⟨0, 0, 0⟩, ⟨0, 0, 0⟩, ⟨0, 0, 0⟩, ⟨0, 0, 0⟩, ⟨0, 0, 0⟩, ⟨0, 0, 0⟩, ⟨0xb_0000, 0x1_0000, 5⟩]

/-- SEIZE_TAKE_UP (R423): what the D bank must end has ended, and engines stand at their boundaries. -/
def State.seizeTakeUp (s : State) (c : Nat) : State :=
  match (s.core c).szPend, s.asideDone c with
  | some (pos, r), some s' =>
    if (s.bank ⟨c, 7, 0⟩).run = .running ∧ (s.bank ⟨c, 7, 0⟩).mustEnd = true then s else
    let s := s'
    let s := (s.modCore c fun k => { k with szPend := none }).modSeat c 8 fun t => { t with mail := [], mpres := 0, mailClk := [] }
    s.takeUp ⟨c, 8, 0⟩ { r with wid := w64 pos } reflexSegs
  | _, _ => s

/-- A release reaches a member (R425): none while step 1 of the seizure is still to be done. -/
def State.releaseArrive (s : State) (c g : Nat) : Option State :=
  if (s.core c).seized ≠ some g then some s else (s.asideDone c).map fun s =>
  let s := if (s.bank ⟨c, 8, 0⟩).run = .idle then s else s.killSeat ⟨c, 8, 0⟩
  (s.modQueue c 4 fun _ => []).modCore c fun k => { k with
    seized := none, szPend := none, ready := k.ready.filter fun x => !x.held7 }

/-- SZGRP_WRITE (R421). -/
def execSzgrpWrite (g : Nat) (v : Word) (s : State) : Out := .next (s.szgrpWrite g v)
/-- SEIZE_TAKE_UP (R423). -/
def execSeizeTakeUp (core : Nat) (s : State) : Out := .next (s.seizeTakeUp core)

end Sys2Proof.Machine
end

