-- ==== Sys2Proof/Machine/VecLane.lean ====
section
/-! DEFINITION. Vector lanes as pure functions (spec/09 R204, R211-R220; spec/03 R85): integer and float lanes, compares,
conversions, narrow containers, the reduction tree. -/
namespace Sys2Proof.Machine

/-- Lane i of a vector register (R203). -/
def vlane (v : BitVec 2048) (i : Nat) : W32 := (v >>> (32 * i)).setWidth 32
/-- The register with the given 64 lanes. -/
def vofLanes (l : List W32) : BitVec 2048 := BitVec.ofNat 2048 (l.foldr (fun x a => x.toNat + a * 2 ^ 32) 0)
/-- The lane numbers. -/
def laneNos : List Nat := List.range 64
/-- Merge: active lanes get `f`, inactive ones keep their old value (R204). -/
def vmerge (k : Word) (old : BitVec 2048) (f : Nat → W32) : BitVec 2048 :=
  vofLanes (laneNos.map fun i => if k.getLsbD i then f i else vlane old i)
/-- A mask with bit i for each lane that satisfies `f` (R204). -/
def vmask (k : Word) (f : Nat → Bool) : Word :=
  w64 (laneNos.foldl (fun a i => if k.getLsbD i && f i then a + 2 ^ i else a) 0)

/-! Integer lanes (R211). -/

/-- Saturate to a signed 32-bit lane. -/
def sats32 (i : Int) : W32 := BitVec.ofInt 32 (max (-2 ^ 31) (min (2 ^ 31 - 1) i))
/-- Saturate to an unsigned 32-bit lane. -/
def satu32 (i : Int) : W32 := BitVec.ofInt 32 (max 0 (min (2 ^ 32 - 1) i))
/-- Smaller and larger, signed. -/
def smin32 (a b : W32) : W32 := if b.toInt < a.toInt then b else a
/-- Larger, signed. -/
def smax32 (a b : W32) : W32 := if a.toInt < b.toInt then b else a
/-- Smaller, unsigned. -/
def umin32 (a b : W32) : W32 := if b.toNat < a.toNat then b else a
/-- Larger, unsigned. -/
def umax32 (a b : W32) : W32 := if a.toNat < b.toNat then b else a
/-- Shift amount of a lane. -/
def sh5 (b : W32) : Nat := b.toNat % 32

/-! Float lanes (R212, R213). -/

/-- The value of an FP32 lane. -/
def fv32 (a : W32) : FV := fp32.decode a.toNat
/-- An FP32 lane of a value, rounded once. -/
def fr32 (rm : RM) (x : FV) : W32 := BitVec.ofNat 32 (fround x fp32 rm)
/-- fmin of lanes (R116). -/
def fmin32 (a b : W32) : W32 := BitVec.ofNat 32 (fminCode fp32 a.toNat b.toNat)
/-- fmax of lanes (R116). -/
def fmax32 (a b : W32) : W32 := BitVec.ofNat 32 (fmaxCode fp32 a.toNat b.toNat)
/-- A lane with a given sign; NaN is canonical (R213). -/
def fsign32 (a : W32) (s : Bool) : W32 := BitVec.ofNat 32 (signCode fp32 a.toNat s)

/-- A lane of a VI or VX operation that takes lanes a and b; `old` is the lane of vd, `m` the mask bit (R211-R217). -/
def laneV (op : OpV) (rm : RM) (a b : W32) (m : Bool) : W32 :=
  match op with
  | .vadd => a + b
  | .vsub => a - b
  | .vmul => a * b
  | .vmulh => BitVec.ofInt 32 (a.toInt * b.toInt / 2 ^ 32)
  | .vmulhu => BitVec.ofNat 32 (a.toNat * b.toNat / 2 ^ 32)
  | .vand => a &&& b
  | .vor => a ||| b
  | .vxor => a ^^^ b
  | .vsll => a <<< sh5 b
  | .vsrl => a >>> sh5 b
  | .vsra => a.sshiftRight (sh5 b)
  | .vmin => smin32 a b
  | .vmax => smax32 a b
  | .vminu => umin32 a b
  | .vmaxu => umax32 a b
  | .vadds => sats32 (a.toInt + b.toInt)
  | .vsubs => sats32 (a.toInt - b.toInt)
  | .vaddus => satu32 (a.toNat + b.toNat)
  | .vsubus => satu32 ((a.toNat : Int) - b.toNat)
  | .vabs => if a.msb then -a else a
  | .vsel => if m then a else b
  | .vfmin => fmin32 a b
  | .vfmax => fmax32 a b
  | .vfabs => fsign32 a false
  | .vfneg => fsign32 a (!a.msb)
  | .vfsgnj => fsign32 a b.msb
  | .vrcp => BitVec.ofNat 32 (sRcp (fv32 a))
  | .vrsqrt => BitVec.ofNat 32 (sRsqrt (fv32 a))
  | .vexp2 => BitVec.ofNat 32 (sExp2 (fv32 a))
  | .vlog2 => BitVec.ofNat 32 (sLog2 (fv32 a))
  | .vtanh => BitVec.ofNat 32 (sTanh (fv32 a))
  | .vsigm => BitVec.ofNat 32 (sSigm (fv32 a))
  | .vsinpi => BitVec.ofNat 32 (sSinpi (fv32 a))
  | .vcospi => BitVec.ofNat 32 (sCospi (fv32 a))
  | .vmov => a
  | .vcvtSI => fr32 rm (.ofInt a.toInt)
  | .vcvtSU => fr32 rm (.ofInt a.toNat)
  | .vcvtIS => BitVec.ofInt 32 (toInt (fv32 a) 32 true rm)
  | .vcvtUS => BitVec.ofInt 32 (toInt (fv32 a) 32 false rm)
  | .vcvtSH => fr32 rm (fp16.decode (a.toNat % 2 ^ 16))
  | .vcvtSBf => fr32 rm (bf16.decode (a.toNat % 2 ^ 16))
  | .vcvtHS => BitVec.ofNat 32 (fround (fv32 a) fp16 rm)
  | .vcvtBfS => BitVec.ofNat 32 (fround (fv32 a) bf16 rm)
  | .vgmov => b
  | .vgadd => a + b
  | .vgfadd => fr32 .rne ((fv32 a).add .rne (fv32 b))
  | .vgfmax => fmax32 a b
  | .vcmpeq | .vcmpne | .vcmplt | .vcmpge | .vcmpltu | .vcmpgeu | .vfeq | .vflt | .vfle | .vfun | .vperm
  | .kand | .kor | .kxor | .kandn | .knot | .vfence => 0

/-- The relation of a compare on lanes (R211, R213); none for another operation. -/
def relV (op : OpV) : Option (W32 → W32 → Bool) :=
  match op with
  | .vcmpeq => some fun a b => a == b
  | .vcmpne => some fun a b => a != b
  | .vcmplt => some fun a b => a.toInt < b.toInt
  | .vcmpge => some fun a b => b.toInt ≤ a.toInt
  | .vcmpltu => some fun a b => a.toNat < b.toNat
  | .vcmpgeu => some fun a b => b.toNat ≤ a.toNat
  | .vfeq => some fun a b => (fv32 a).eq (fv32 b)
  | .vflt => some fun a b => (fv32 a).lt (fv32 b)
  | .vfle => some fun a b => (fv32 a).lt (fv32 b) || (fv32 a).eq (fv32 b)
  | .vfun => some fun a b => (fv32 a).isNan || (fv32 b).isNan
  | _ => none

/-- A mask operation on whole masks (R220). -/
def maskOp (op : OpV) : Option (Word → Word → Word) :=
  match op with
  | .kand => some fun a b => a &&& b
  | .kor => some fun a b => a ||| b
  | .kxor => some fun a b => a ^^^ b
  | .kandn => some fun a b => a &&& ~~~b
  | .knot => some fun a _ => ~~~a
  | _ => none

/-- The amax note of a VX conversion's lane (R217, R80). -/
def noteV (op : OpV) (a : W32) : Option (BitVec 32) :=
  match op with
  | .vcvtSI => some (amaxNote (.ofInt a.toInt))
  | .vcvtSU => some (amaxNote (.ofInt a.toNat))
  | .vcvtIS | .vcvtUS | .vcvtHS | .vcvtBfS => some (amaxNote (fv32 a))
  | _ => none

/-- A lane of a rounding operation; c is the old lane of vd (R212). -/
def laneVF (op : OpVF) (rm : RM) (a b c : W32) : W32 :=
  let x := fv32 a
  let y := fv32 b
  let z := fv32 c
  fr32 rm (match op with
    | .vfadd => x.add rm y
    | .vfsub => x.add rm y.negate
    | .vfmul => x.mul y
    | .vfdiv => x.div y
    | .vfsqrt => x.sqrt
    | .vfmadd => x.fma rm y z
    | .vfmsub => x.fma rm y z.negate
    | .vfnmsub => x.negate.fma rm y z)

/-- A lane of a VS operation with scalar b and old lane c (R214). -/
def laneVS (op : OpVS) (rm : RM) (a b c : W32) : W32 :=
  match op with
  | .vaddVs => a + b
  | .vsubVs => a - b
  | .vrsubVs => b - a
  | .vmulVs => a * b
  | .vandVs => a &&& b
  | .vorVs => a ||| b
  | .vxorVs => a ^^^ b
  | .vsllVs => a <<< sh5 b
  | .vsrlVs => a >>> sh5 b
  | .vsraVs => a.sshiftRight (sh5 b)
  | .vminVs => smin32 a b
  | .vmaxVs => smax32 a b
  | .vfaddVs => fr32 rm ((fv32 a).add rm (fv32 b))
  | .vfsubVs => fr32 rm ((fv32 a).add rm (fv32 b).negate)
  | .vfrsubVs => fr32 rm ((fv32 b).add rm (fv32 a).negate)
  | .vfmulVs => fr32 rm ((fv32 a).mul (fv32 b))
  | .vfmaddVs => fr32 rm ((fv32 a).fma rm (fv32 b) (fv32 c))
  | .vfminVs => fmin32 a b
  | .vfmaxVs => fmax32 a b
  | .vmovVs => b
  | .vcvtn | .vcvtw | .vcmpeqVs | .vcmpltVs | .vcmpltuVs | .vfeqVs | .vfltVs | .vfleVs | .vlds | .vsts | .vext | .kmovs
  | .kset | .vstat | .vrot => c

/-- The relation of a VS compare (R214). -/
def relVS (op : OpVS) : Option (W32 → W32 → Bool) :=
  match op with
  | .vcmpeqVs => relV .vcmpeq
  | .vcmpltVs => relV .vcmplt
  | .vcmpltuVs => relV .vcmpltu
  | .vfeqVs => relV .vfeq
  | .vfltVs => relV .vflt
  | .vfleVs => relV .vfle
  | _ => none

/-! Narrow containers of a register (R218). -/

/-- Container i of the 256-byte stream of a register. -/
def vcont (F : Narrow) (v : BitVec 2048) (i : Nat) : Nat := v.toNat / 2 ^ (F.cont * i) % 2 ^ F.cont
/-- Put a code into container i. -/
def vputCont (F : Narrow) (v : BitVec 2048) (i code : Nat) : BitVec 2048 :=
  let sh := F.cont * i
  BitVec.ofNat 2048 (v.toNat - vcont F v i * 2 ^ sh + code % 2 ^ F.cont * 2 ^ sh)
/-- The format holds a finite value that FP32 does not hold exactly (R218). -/
def Narrow.beyond32 (F : Narrow) : Bool :=
  !F.kind && (List.range (2 ^ F.width)).any fun c =>
    match F.value c with
    | .num s n d e => !(fp32.decode (fround (.num s n d e) fp32 .rne)).eq (.num s n d e)
    | _ => false

/-- vcvtn of the active lanes (R218). -/
def vcvtnVal (F : Narrow) (t : BitVec 128) (rm : Nat → RM) (k : Word) (old a : BitVec 2048) : BitVec 2048 :=
  laneNos.foldl (fun v i => if k.getLsbD i then vputCont F v i (F.encode t (fv32 (vlane a i)) (rm i)) else v) old
/-- vcvtw of the active lanes (R218). -/
def vcvtwVal (F : Narrow) (t : BitVec 128) (rm : Nat → RM) (k : Word) (old a : BitVec 2048) : BitVec 2048 :=
  vmerge k old fun i => fr32 (rm i) (F.decode t (vcont F a i))

/-! Reductions (R85, R219). -/

/-- One level of the tree: neighbours combine, an absent one yields to the other. -/
def treeLevel (op : W32 → W32 → W32) : List (Option W32) → List (Option W32)
  | x :: y :: t =>
    (match x, y with
      | a, none => a
      | none, b => b
      | some a, some b => some (op a b)) :: treeLevel op t
  | l => l
/-- tree(op, x, act) of R85. -/
def treeOf (op : W32 → W32 → W32) (x : List (Option W32)) : Option W32 :=
  ((List.range 6).foldl (fun l _ => treeLevel op l) x).headD none

/-- The pairwise operation of a reduction (R219). -/
def redOp (op : OpVr) : W32 → W32 → W32 :=
  match op with
  | .vredadd => fun a b => a + b
  | .vredmin => smin32
  | .vredmax => smax32
  | .vredminu => umin32
  | .vredmaxu => umax32
  | .vredand => fun a b => a &&& b
  | .vredor => fun a b => a ||| b
  | .vredxor => fun a b => a ^^^ b
  | .vredfadd => fun a b => fr32 .rne ((fv32 a).add .rne (fv32 b))
  | .vredfmin => fmin32
  | .vredfmax => fmax32
  | .vredfamax => fmax32
/-- The empty result of a reduction (R219). -/
def redEmpty (op : OpVr) : W32 :=
  match op with
  | .vredadd => 0 | .vredmin => 0x7fff_ffff | .vredmax => 0x8000_0000 | .vredminu => 0xffff_ffff | .vredmaxu => 0
  | .vredand => 0xffff_ffff | .vredor => 0 | .vredxor => 0 | .vredfadd => 0 | .vredfmin => 0x7f80_0000
  | .vredfmax => 0xff80_0000 | .vredfamax => 0
/-- The result extends by sign (R219). -/
def redSigned (op : OpVr) : Bool :=
  match op with | .vredadd | .vredmin | .vredmax => true | _ => false
/-- A float reduction (R219). -/
def redFloat (op : OpVr) : Bool :=
  match op with | .vredfadd | .vredfmin | .vredfmax | .vredfamax => true | _ => false
/-- A reduction of the active lanes (R219). A NaN that a float reduction yields is canonical, from one lane too (R66,
R204). -/
def redVal (op : OpVr) (k : Word) (a : BitVec 2048) : Word :=
  let x := laneNos.map fun i =>
    if k.getLsbD i then some (if op = .vredfamax then vlane a i &&& 0x7fff_ffff else vlane a i) else none
  let y := (treeOf (redOp op) x).getD (redEmpty op)
  let y := if redFloat op && (fv32 y).isNan then 0x7fc0_0000 else y
  if redSigned op then y.signExtend 64 else y.setWidth 64

end Sys2Proof.Machine
end

