-- ==== Sys2Proof/Machine/Vector.lean ====
section
/-! DEFINITION. The vector unit (spec/09 R203-R230; rstv of R281): issue into the command queue, and the performance of
the command at its head (event VECTOR_COMMAND_PERFORM). -/
namespace Sys2Proof.Machine

/-! State of the unit. -/

/-- A vector register of a core (R203). -/
def State.vreg (s : State) (c r : Nat) : BitVec 2048 := mget (s.core c).vregs r 0
/-- Write a vector register. -/
def State.setVreg (s : State) (c r : Nat) (v : BitVec 2048) : State :=
  s.modCore c fun k => { k with vregs := mset k.vregs r v }
/-- A mask: k0 reads as all ones (R203). -/
def State.kreg (s : State) (c k : Nat) : Word := if k = 0 then -1 else mget (s.core c).kregs k 0
/-- Write a mask: writes to k0 are discarded (R203). -/
def State.setKreg (s : State) (c k : Nat) (v : Word) : State :=
  if k = 0 then s else s.modCore c fun x => { x with kregs := mset x.kregs k v }

/-! Issue (R205-R210). -/

/-- The command queue holds 16 commands: the seat waits under the queue cause (R207). -/
def vroom : Waits := fun x s => if (s.core x.p.core).vq.length < 16 then none else some .queue
/-- vgather and vscatter wait until the core's command queue is empty (R223). -/
def vempty : Waits := fun x s => if (s.core x.p.core).vq.isEmpty then none else some .engine

/-- A command enters the queue; its id. It belongs to the scene that is open in its seat (R209). -/
def State.venq (s : State) (x : Ctx) (form : Form) (sb : Word) (lanes : List (Nat × Nat)) (res : Bool) (ganged resv : Bool) :
    State × Nat :=
  let b := s.bank x.p
  let id := (s.core x.p.core).ids
  (s.modCore x.p.core fun k => { k with
    ids := k.ids + 1
    vq := k.vq ++ [{ id := id, seat := x.p.seat, bank := x.p.bank, form := form, sb := sb, rm := b.frm.toNat, pc := x.pc,
                     lanes := lanes, sc := b2n b.openScene.isSome, res := if res then some id else none,
                     ganged := ganged, slot := b.cslot.toNat, resv := resv, snap := [] }] }, id)

/-- The scalar result of a command is pending until it is performed (R206); a push in a scene keeps its entry. -/
def State.vresult (s : State) (x : Ctx) (d id : Nat) : State :=
  if d = 0 then s
  else if d = 61 ∧ (s.bank x.p).openScene.isSome = true then s.modBank x.p fun b => b.buffer 1 (.pushDue id)
  else
    let s := if d = 61 then s.modSeat x.p.core x.p.num fun t => { t with outRes := t.outRes + 1 } else s
    s.modBank x.p fun b => { b with pending := b.pending ++ [⟨id, d, .memory, none, 1, 0⟩] }

/-- The number of a mask among the registers of R210; k0 never counts. -/
def kno (k : Nat) : Nat := 32 + k % 8
/-- Mask km as a register that is read. -/
def kread (km : BitVec 3) : List Nat := [kno km.toNat]

/-- Issue a command without a scalar result or memory: reads `vr`, writes `vd`. -/
def vcmd (srcs : List (Nat × Lit)) (vr : List Nat) (vd : Option Nat) (hold : BitVec 2) (form : Form) (s : State) : Out :=
  issueWait { srcs := srcs, vr := vr, vd := vd } hold vroom (fun _ _ => none)
    (fun x s => .done (s.venq x form (x.v 0) [] false false false).1 none none) s

/-- vd := op(va, vb) under km. -/
def vv2 (op : OpV) (f : FmtV) (s : State) : Out :=
  vcmd [] ([f.va.toNat, f.vb.toNat] ++ kread f.km) (some f.vd.toNat) f.hold (.v op f) s
/-- vd := op(va) under km. -/
def vv1 (op : OpV) (f : FmtV) (s : State) : Out :=
  vcmd [] (f.va.toNat :: kread f.km) (some f.vd.toNat) f.hold (.v op f) s
/-- kd := relation(va, vb) under km (R211). -/
def vvk (op : OpV) (f : FmtV) (s : State) : Out :=
  vcmd [] ([f.va.toNat, f.vb.toNat] ++ kread f.km) (some (kno f.vd.toNat)) f.hold (.v op f) s
/-- kd := op(ka, kb) (R220). -/
def vkk (op : OpV) (f : FmtV) (s : State) : Out :=
  vcmd [] ([kno f.va.toNat] ++ (if op = .knot then [] else [kno f.vb.toNat])) (some (kno f.vd.toNat)) f.hold (.v op f) s
/-- A rounding operation (R212); the addend of a fused one is a read of vd (R210). -/
def vvf (op : OpVF) (f : FmtVF) (s : State) : Out :=
  vcmd [] ([f.va.toNat] ++ (if op = .vfsqrt then [] else [f.vb.toNat]) ++ kread f.km ++
    (match op with | .vfmadd | .vfmsub | .vfnmsub => [f.vd.toNat] | _ => [])) (some f.vd.toNat) f.hold (.vF op f) s
/-- vd := op(va, scalar), with the literal type of the operation (R214). -/
def vvs (op : OpVS) (l : Lit) (f : FmtVS) (s : State) : Out :=
  vcmd [(f.sb.toNat, l)] ((if op = .vmovVs then [] else [f.va.toNat]) ++ kread f.km ++
    (if op = .vfmaddVs then [f.vd.toNat] else [])) (some f.vd.toNat) f.hold (.vS op f) s
/-- kd := relation(va, scalar) (R214). -/
def vvsk (op : OpVS) (l : Lit) (f : FmtVS) (s : State) : Out :=
  vcmd [(f.sb.toNat, l)] (f.va.toNat :: kread f.km) (some (kno f.vd.toNat)) f.hold (.vS op f) s

/-! Major 0x26 (R211). -/

/-- vadd (R211). -/
def execVadd (f : FmtV) (s : State) : Out := vv2 .vadd f s
/-- vsub (R211). -/
def execVsub (f : FmtV) (s : State) : Out := vv2 .vsub f s
/-- vmul (R211). -/
def execVmul (f : FmtV) (s : State) : Out := vv2 .vmul f s
/-- vmulh (R211). -/
def execVmulh (f : FmtV) (s : State) : Out := vv2 .vmulh f s
/-- vmulhu (R211). -/
def execVmulhu (f : FmtV) (s : State) : Out := vv2 .vmulhu f s
/-- vand (R211). -/
def execVand (f : FmtV) (s : State) : Out := vv2 .vand f s
/-- vor (R211). -/
def execVor (f : FmtV) (s : State) : Out := vv2 .vor f s
/-- vxor (R211). -/
def execVxor (f : FmtV) (s : State) : Out := vv2 .vxor f s
/-- vsll (R211). -/
def execVsll (f : FmtV) (s : State) : Out := vv2 .vsll f s
/-- vsrl (R211). -/
def execVsrl (f : FmtV) (s : State) : Out := vv2 .vsrl f s
/-- vsra (R211). -/
def execVsra (f : FmtV) (s : State) : Out := vv2 .vsra f s
/-- vmin (R211). -/
def execVmin (f : FmtV) (s : State) : Out := vv2 .vmin f s
/-- vmax (R211). -/
def execVmax (f : FmtV) (s : State) : Out := vv2 .vmax f s
/-- vminu (R211). -/
def execVminu (f : FmtV) (s : State) : Out := vv2 .vminu f s
/-- vmaxu (R211). -/
def execVmaxu (f : FmtV) (s : State) : Out := vv2 .vmaxu f s
/-- vadds (R211). -/
def execVadds (f : FmtV) (s : State) : Out := vv2 .vadds f s
/-- vsubs (R211). -/
def execVsubs (f : FmtV) (s : State) : Out := vv2 .vsubs f s
/-- vaddus (R211). -/
def execVaddus (f : FmtV) (s : State) : Out := vv2 .vaddus f s
/-- vsubus (R211). -/
def execVsubus (f : FmtV) (s : State) : Out := vv2 .vsubus f s
/-- vsel (R211). -/
def execVsel (f : FmtV) (s : State) : Out := vv2 .vsel f s
/-- vabs (R211). -/
def execVabs (f : FmtV) (s : State) : Out := vv1 .vabs f s
/-- vcmpeq (R211). -/
def execVcmpeq (f : FmtV) (s : State) : Out := vvk .vcmpeq f s
/-- vcmpne (R211). -/
def execVcmpne (f : FmtV) (s : State) : Out := vvk .vcmpne f s
/-- vcmplt (R211). -/
def execVcmplt (f : FmtV) (s : State) : Out := vvk .vcmplt f s
/-- vcmpge (R211). -/
def execVcmpge (f : FmtV) (s : State) : Out := vvk .vcmpge f s
/-- vcmpltu (R211). -/
def execVcmpltu (f : FmtV) (s : State) : Out := vvk .vcmpltu f s
/-- vcmpgeu (R211). -/
def execVcmpgeu (f : FmtV) (s : State) : Out := vvk .vcmpgeu f s

/-! Major 0x27 (R212, R213). -/

/-- vfadd (R212). -/
def execVfadd (f : FmtVF) (s : State) : Out := vvf .vfadd f s
/-- vfsub (R212). -/
def execVfsub (f : FmtVF) (s : State) : Out := vvf .vfsub f s
/-- vfmul (R212). -/
def execVfmul (f : FmtVF) (s : State) : Out := vvf .vfmul f s
/-- vfdiv (R212). -/
def execVfdiv (f : FmtVF) (s : State) : Out := vvf .vfdiv f s
/-- vfsqrt (R212). -/
def execVfsqrt (f : FmtVF) (s : State) : Out := vvf .vfsqrt f s
/-- vfmadd (R212). -/
def execVfmadd (f : FmtVF) (s : State) : Out := vvf .vfmadd f s
/-- vfmsub (R212). -/
def execVfmsub (f : FmtVF) (s : State) : Out := vvf .vfmsub f s
/-- vfnmsub (R212). -/
def execVfnmsub (f : FmtVF) (s : State) : Out := vvf .vfnmsub f s
/-- vfmin (R212, R213). -/
def execVfmin (f : FmtV) (s : State) : Out := vv2 .vfmin f s
/-- vfmax (R212, R213). -/
def execVfmax (f : FmtV) (s : State) : Out := vv2 .vfmax f s
/-- vfsgnj (R212, R213). -/
def execVfsgnj (f : FmtV) (s : State) : Out := vv2 .vfsgnj f s
/-- vfabs (R212, R213). -/
def execVfabs (f : FmtV) (s : State) : Out := vv1 .vfabs f s
/-- vfneg (R212, R213). -/
def execVfneg (f : FmtV) (s : State) : Out := vv1 .vfneg f s
/-- vfeq (R212, R213). -/
def execVfeq (f : FmtV) (s : State) : Out := vvk .vfeq f s
/-- vflt (R212, R213). -/
def execVflt (f : FmtV) (s : State) : Out := vvk .vflt f s
/-- vfle (R212, R213). -/
def execVfle (f : FmtV) (s : State) : Out := vvk .vfle f s
/-- vfun (R212, R213). -/
def execVfun (f : FmtV) (s : State) : Out := vvk .vfun f s

/-! Major 0x28 (R214, R218). -/

/-- vadd with a scalar (R214). -/
def execVaddVs (f : FmtVS) (s : State) : Out := vvs .vaddVs .int f s
/-- vsub with a scalar (R214). -/
def execVsubVs (f : FmtVS) (s : State) : Out := vvs .vsubVs .int f s
/-- vrsub with a scalar (R214). -/
def execVrsubVs (f : FmtVS) (s : State) : Out := vvs .vrsubVs .int f s
/-- vmul with a scalar (R214). -/
def execVmulVs (f : FmtVS) (s : State) : Out := vvs .vmulVs .int f s
/-- vand with a scalar (R214). -/
def execVandVs (f : FmtVS) (s : State) : Out := vvs .vandVs .int f s
/-- vor with a scalar (R214). -/
def execVorVs (f : FmtVS) (s : State) : Out := vvs .vorVs .int f s
/-- vxor with a scalar (R214). -/
def execVxorVs (f : FmtVS) (s : State) : Out := vvs .vxorVs .int f s
/-- vsll with a scalar (R214). -/
def execVsllVs (f : FmtVS) (s : State) : Out := vvs .vsllVs .int f s
/-- vsrl with a scalar (R214). -/
def execVsrlVs (f : FmtVS) (s : State) : Out := vvs .vsrlVs .int f s
/-- vsra with a scalar (R214). -/
def execVsraVs (f : FmtVS) (s : State) : Out := vvs .vsraVs .int f s
/-- vmin with a scalar (R214). -/
def execVminVs (f : FmtVS) (s : State) : Out := vvs .vminVs .int f s
/-- vmax with a scalar (R214). -/
def execVmaxVs (f : FmtVS) (s : State) : Out := vvs .vmaxVs .int f s
/-- vmov with a scalar (R214). -/
def execVmovVs (f : FmtVS) (s : State) : Out := vvs .vmovVs .int f s
/-- vfadd with a scalar (R214). -/
def execVfaddVs (f : FmtVS) (s : State) : Out := vvs .vfaddVs .f32 f s
/-- vfsub with a scalar (R214). -/
def execVfsubVs (f : FmtVS) (s : State) : Out := vvs .vfsubVs .f32 f s
/-- vfrsub with a scalar (R214). -/
def execVfrsubVs (f : FmtVS) (s : State) : Out := vvs .vfrsubVs .f32 f s
/-- vfmul with a scalar (R214). -/
def execVfmulVs (f : FmtVS) (s : State) : Out := vvs .vfmulVs .f32 f s
/-- vfmadd with a scalar (R214). -/
def execVfmaddVs (f : FmtVS) (s : State) : Out := vvs .vfmaddVs .f32 f s
/-- vfmin with a scalar (R214). -/
def execVfminVs (f : FmtVS) (s : State) : Out := vvs .vfminVs .f32 f s
/-- vfmax with a scalar (R214). -/
def execVfmaxVs (f : FmtVS) (s : State) : Out := vvs .vfmaxVs .f32 f s
/-- vcvtn (R218). -/
def execVcvtn (f : FmtVS) (s : State) : Out := vvs .vcvtn .int f s
/-- vcvtw (R218). -/
def execVcvtw (f : FmtVS) (s : State) : Out := vvs .vcvtw .int f s
/-- vcmpeq with a scalar (R214). -/
def execVcmpeqVs (f : FmtVS) (s : State) : Out := vvsk .vcmpeqVs .int f s
/-- vcmplt with a scalar (R214). -/
def execVcmpltVs (f : FmtVS) (s : State) : Out := vvsk .vcmpltVs .int f s
/-- vcmpltu with a scalar (R214). -/
def execVcmpltuVs (f : FmtVS) (s : State) : Out := vvsk .vcmpltuVs .int f s
/-- vfeq with a scalar (R214). -/
def execVfeqVs (f : FmtVS) (s : State) : Out := vvsk .vfeqVs .f32 f s
/-- vflt with a scalar (R214). -/
def execVfltVs (f : FmtVS) (s : State) : Out := vvsk .vfltVs .f32 f s
/-- vfle with a scalar (R214). -/
def execVfleVs (f : FmtVS) (s : State) : Out := vvsk .vfleVs .f32 f s

/-! Major 0x2A (R215-R217, R220). -/

/-- vrcp (R216). -/
def execVrcp (f : FmtV) (s : State) : Out := vv1 .vrcp f s
/-- vrsqrt (R216). -/
def execVrsqrt (f : FmtV) (s : State) : Out := vv1 .vrsqrt f s
/-- vexp2 (R216). -/
def execVexp2 (f : FmtV) (s : State) : Out := vv1 .vexp2 f s
/-- vlog2 (R216). -/
def execVlog2 (f : FmtV) (s : State) : Out := vv1 .vlog2 f s
/-- vtanh (R216). -/
def execVtanh (f : FmtV) (s : State) : Out := vv1 .vtanh f s
/-- vsigm (R216). -/
def execVsigm (f : FmtV) (s : State) : Out := vv1 .vsigm f s
/-- vsinpi (R216). -/
def execVsinpi (f : FmtV) (s : State) : Out := vv1 .vsinpi f s
/-- vcospi (R216). -/
def execVcospi (f : FmtV) (s : State) : Out := vv1 .vcospi f s
/-- vperm (R220). -/
def execVperm (f : FmtV) (s : State) : Out := vv2 .vperm f s
/-- vmov (R220). -/
def execVmov (f : FmtV) (s : State) : Out := vv1 .vmov f s
/-- vcvtSI (R217). -/
def execVcvtSI (f : FmtV) (s : State) : Out := vv1 .vcvtSI f s
/-- vcvtIS (R217). -/
def execVcvtIS (f : FmtV) (s : State) : Out := vv1 .vcvtIS f s
/-- vcvtSH (R217). -/
def execVcvtSH (f : FmtV) (s : State) : Out := vv1 .vcvtSH f s
/-- vcvtHS (R217). -/
def execVcvtHS (f : FmtV) (s : State) : Out := vv1 .vcvtHS f s
/-- vcvtSBf (R217). -/
def execVcvtSBf (f : FmtV) (s : State) : Out := vv1 .vcvtSBf f s
/-- vcvtBfS (R217). -/
def execVcvtBfS (f : FmtV) (s : State) : Out := vv1 .vcvtBfS f s
/-- vcvtSU (R217). -/
def execVcvtSU (f : FmtV) (s : State) : Out := vv1 .vcvtSU f s
/-- vcvtUS (R217). -/
def execVcvtUS (f : FmtV) (s : State) : Out := vv1 .vcvtUS f s
/-- kand (R220). -/
def execKand (f : FmtV) (s : State) : Out := vkk .kand f s
/-- kor (R220). -/
def execKor (f : FmtV) (s : State) : Out := vkk .kor f s
/-- kxor (R220). -/
def execKxor (f : FmtV) (s : State) : Out := vkk .kxor f s
/-- kandn (R220). -/
def execKandn (f : FmtV) (s : State) : Out := vkk .kandn f s
/-- knot (R220). -/
def execKnot (f : FmtV) (s : State) : Out := vkk .knot f s

/-- Commands of a seat that are not performed yet, from any bank of it (R226, R227). -/
def State.vbusy (s : State) (p : Place) : Bool := !(s.vqOf p).isEmpty

/-- vfence (R227): waits under the engine cause until the seat's earlier commands are performed. -/
def execVfence (f : FmtV) (s : State) : Out :=
  issueWait { srcs := [] } f.hold (fun x s => if s.vbusy x.p then some .engine else none) (fun _ _ => none)
    (fun _ s => .done s none none) s

/-! Gang-relative forms (R228, R229). -/

/-- A gang-relative form needs seat 0 of a ganged core (R229). -/
def vgChk (x : Ctx) (s : State) : Option Act :=
  if x.p.seat ≠ 0 ∨ (s.core x.p.core).gangSize = 1 then some (.trap .gangBroken 0 none) else none
/-- The members of a core's gang, by position: they are neighbours from the leader on (R169, R171). -/
def State.gangCores (s : State) (c : Nat) : List (Nat × Nat) :=
  let k := s.core c
  (List.range k.gangSize).map fun i => (i, k.gangLeader + i)
/-- Issue a gang-relative command. Every lane is active; the neighbour's register counts in the neighbour's sets (R210). -/
def vgang (op : OpV) (reads : List Nat) (f : FmtV) (s : State) : Out :=
  issueWait { srcs := [], vr := f.vb.toNat :: reads, vd := some f.vd.toNat } f.hold vroom vgChk
    (fun x s => .done (s.venq x (.v op f) 0 (s.gangCores x.p.core) false true false).1 none none) s

/-- vgmov (R228). -/
def execVgmov (f : FmtV) (s : State) : Out := vgang .vgmov [] f s
/-- vgadd (R228). -/
def execVgadd (f : FmtV) (s : State) : Out := vgang .vgadd [f.va.toNat] f s
/-- vgfadd (R228). -/
def execVgfadd (f : FmtV) (s : State) : Out := vgang .vgfadd [f.va.toNat] f s
/-- vgfmax (R228). -/
def execVgfmax (f : FmtV) (s : State) : Out := vgang .vgfmax [f.va.toNat] f s

/-! Vector memory (R221-R225). -/

/-- The span check of vld and vst (R222, R231): 256 bytes of on-chip space. -/
def State.vspan (s : State) (p : Place) (seg : Nat) (off : Word) (w : Bool) : Except Act (List (Nat × Nat)) :=
  let g := (s.bank p).seg seg
  if g.g then .error (.trap .segRights 0 (some off)) else
  match segCheck g off.toNat 256 4 (!w) w false with
  | some c => .error (.trap c 0 (some off))
  | none =>
    match s.onchip p ((g.base.toNat + off.toNat) % 2 ^ 64) 256 with
    | .error c => .error (.trap c 0 (some off))
    | .ok ks => .ok (laneNos.map fun i => (i, ks.getD (4 * i) 0))

/-- The offset of a lane of vgather and vscatter (R223). -/
def laneOff (base : Word) (a : BitVec 2048) (i : Nat) : Word := base + (vlane a i).signExtend 64 * 4

/-- The checks of vgather and vscatter on the active lanes in ascending order (R223). -/
def State.vlanesAt (s : State) (p : Place) (g : Seg) (base : Word) (a : BitVec 2048) (w : Bool) :
    List Nat → Except Act (List (Nat × Nat))
  | [] => .ok []
  | i :: t =>
    let off := laneOff base a i
    match segCheck g off.toNat 4 4 (!w) w false with
    | some c => .error (.trap c 0 (some off))
    | none =>
      match s.onchip p ((g.base.toNat + off.toNat) % 2 ^ 64) 4 with
      | .error c => .error (.trap c 0 (some off))
      | .ok ks =>
        match s.vlanesAt p g base a w t with
        | .error e => .error e
        | .ok r => .ok ((i, ks.headD 0) :: r)

/-- The active lanes of a gather or scatter with their keys, or how it ends (R223). -/
def State.vindexed (s : State) (p : Place) (seg : Nat) (base : Word) (va km : Nat) (w : Bool) :
    Except Act (List (Nat × Nat)) :=
  let g := (s.bank p).seg seg
  if g.g then .error (.trap .segRights 0 (some base)) else
  let k := s.kreg p.core km
  s.vlanesAt p g base (s.vreg p.core va) w (laneNos.filter fun i => k.getLsbD i)

/-- Lanes of vlds and vsts (R224). -/
def State.vslices (_ : State) (p : Place) (off : Word) : Except Act (List (Nat × Nat)) :=
  if Config.isX p.core then .error (.trap .segRights 0 (some off))
  else if off.toNat % 4 ≠ 0 then .error (.trap .misaligned 0 (some off))
  else if 512 < off.toNat + 4 then .error (.trap .segLimit 0 (some off))
  else .ok (laneNos.map fun i => (i, Config.tileKey p.core (0x10_0000 + 512 * i + off.toNat)))

/-- An uncorrectable sector among the lanes of a load ends the issue as R249 says. -/
def State.vbad (s : State) (off : Word) (l : List (Nat × Nat)) : Option Act :=
  (l.find? fun x => s.bad [x.2]).map fun x => .bad off (x.2 / 32 * 32)

/-- Check of a vector memory instruction, whose lanes `at_` gives. -/
def vmemChk (at_ : Ctx → State → Except Act (List (Nat × Nat))) (load : Bool) (x : Ctx) (s : State) : Option Act :=
  match at_ x s with
  | .error a => some a
  | .ok l =>
    if s.halfway x.p (l.map (·.2)) then some (.wait .memory) else if load then s.vbad (x.v 0) l else none

/-- Issue of a vector memory instruction. Inside a scene a store takes `n` entries, filled when it is performed (R209). -/
def vmemAct (at_ : Ctx → State → Except Act (List (Nat × Nat))) (form : Form) (store : Bool) (n : List (Nat × Nat) → Nat)
    (x : Ctx) (s : State) : Act :=
  match at_ x s with
  | .error a => a
  | .ok l =>
    let r := s.venq x form (x.v 0) l false false false
    .done (if store && (s.bank x.p).openScene.isSome then r.1.modBank x.p fun b => b.buffer (n l) (.store [] [] (some r.2)) else r.1)
      none none

/-- vld (R222). -/
def execVld (f : FmtVM) (s : State) : Out :=
  let at_ := fun (x : Ctx) (s : State) => s.vspan x.p f.seg.toNat (x.v 0) false
  issueWait { srcs := [isrc f.sb], vr := kread f.km, vd := some f.vd.toNat } f.hold vroom (vmemChk at_ true)
    (vmemAct at_ (.vM .vld f) false fun _ => 0) s
/-- vst (R222). -/
def execVst (f : FmtVM) (s : State) : Out :=
  let at_ := fun (x : Ctx) (s : State) => s.vspan x.p f.seg.toNat (x.v 0) true
  issueWait { srcs := [isrc f.sb], vr := f.vd.toNat :: kread f.km, entries := 8 } f.hold vroom (vmemChk at_ false)
    (vmemAct at_ (.vM .vst f) true fun _ => 8) s

/-- vgather (R223). -/
def execVgather (f : FmtVG) (s : State) : Out :=
  let at_ := fun (x : Ctx) (s : State) => s.vindexed x.p f.seg.toNat (x.v 0) f.va.toNat f.km.toNat false
  issueWait { srcs := [isrc f.sb], vr := f.va.toNat :: kread f.km, vd := some f.vd.toNat } f.hold vempty (vmemChk at_ true)
    (vmemAct at_ (.vG .vgather f) false fun _ => 0) s
/-- vscatter (R223): one entry for each active lane; the count is checked when the mask is known. -/
def execVscatter (f : FmtVG) (s : State) : Out :=
  let at_ := fun (x : Ctx) (s : State) => s.vindexed x.p f.seg.toNat (x.v 0) f.va.toNat f.km.toNat true
  issueWait { srcs := [isrc f.sb], vr := [f.va.toNat, f.vd.toNat] ++ kread f.km } f.hold vempty
    (fun x s => match vmemChk at_ false x s, at_ x s with
      | some a, _ => some a
      | none, .ok l => if (s.bank x.p).fits l.length then none else some (.trap .sceneOverflow 0 none)
      | none, .error a => some a)
    (vmemAct at_ (.vG .vscatter f) true fun l => l.length) s

/-- vlds (R224). -/
def execVlds (f : FmtVS) (s : State) : Out :=
  let at_ := fun (x : Ctx) (s : State) => s.vslices x.p (x.v 0)
  issueWait { srcs := [isrc f.sb], vr := kread f.km, vd := some f.vd.toNat } f.hold vroom (vmemChk at_ true)
    (vmemAct at_ (.vS .vlds f) false fun _ => 0) s
/-- vsts (R224). -/
def execVsts (f : FmtVS) (s : State) : Out :=
  let at_ := fun (x : Ctx) (s : State) => s.vslices x.p (x.v 0)
  issueWait { srcs := [isrc f.sb], vr := f.vd.toNat :: kread f.km, entries := 8 } f.hold vroom (vmemChk at_ false)
    (vmemAct at_ (.vS .vsts f) true fun _ => 8) s

/-! Scalar transfers and reductions (R219, R226). -/

/-- Issue a command with a scalar result in `sb`. -/
def vscalar (sb : BitVec 6) (vr : List Nat) (hold : BitVec 2) (form : Form) (s : State) : Out :=
  issueWait { srcs := [], dst := some sb.toNat, lat := .var, vr := vr } hold vroom (fun _ _ => none)
    (fun x s =>
      let r := s.venq x form 0 [] true false false
      .done (r.1.vresult x sb.toNat r.2) none none) s

/-- vext (R226). -/
def execVext (f : FmtVS) (s : State) : Out := vscalar f.sb (f.va.toNat :: kread f.km) f.hold (.vS .vext f) s
/-- kmovs (R226). -/
def execKmovs (f : FmtVS) (s : State) : Out := vscalar f.sb (kread f.km) f.hold (.vS .kmovs f) s
/-- kset (R226): value(sb) is read at issue. -/
def execKset (f : FmtVS) (s : State) : Out := vcmd [isrc f.sb] [] (some (kno f.vd.toNat)) f.hold (.vS .kset f) s
/-- vrot (R220). -/
def execVrot (f : FmtVS) (s : State) : Out := vvs .vrot .int f s
/-- vstat (R226): acts at issue. -/
def execVstat (f : FmtVS) (s : State) : Out :=
  issue { srcs := [], dst := some f.sb.toNat, lat := .fixed 1 } f.hold
    (fun x s => .done s (some (w64 (b2n (s.vbusy x.p) * 32 + (s.core x.p.core).vq.length))) none) s

/-- vredadd (R219). -/
def execVredadd (f : FmtVr) (s : State) : Out :=
  vscalar f.sb (f.va.toNat :: kread f.km) f.hold (.vr .vredadd f) s
/-- vredmin (R219). -/
def execVredmin (f : FmtVr) (s : State) : Out :=
  vscalar f.sb (f.va.toNat :: kread f.km) f.hold (.vr .vredmin f) s
/-- vredmax (R219). -/
def execVredmax (f : FmtVr) (s : State) : Out :=
  vscalar f.sb (f.va.toNat :: kread f.km) f.hold (.vr .vredmax f) s
/-- vredminu (R219). -/
def execVredminu (f : FmtVr) (s : State) : Out :=
  vscalar f.sb (f.va.toNat :: kread f.km) f.hold (.vr .vredminu f) s
/-- vredmaxu (R219). -/
def execVredmaxu (f : FmtVr) (s : State) : Out :=
  vscalar f.sb (f.va.toNat :: kread f.km) f.hold (.vr .vredmaxu f) s
/-- vredand (R219). -/
def execVredand (f : FmtVr) (s : State) : Out :=
  vscalar f.sb (f.va.toNat :: kread f.km) f.hold (.vr .vredand f) s
/-- vredor (R219). -/
def execVredor (f : FmtVr) (s : State) : Out :=
  vscalar f.sb (f.va.toNat :: kread f.km) f.hold (.vr .vredor f) s
/-- vredxor (R219). -/
def execVredxor (f : FmtVr) (s : State) : Out :=
  vscalar f.sb (f.va.toNat :: kread f.km) f.hold (.vr .vredxor f) s
/-- vredfadd (R219). -/
def execVredfadd (f : FmtVr) (s : State) : Out :=
  vscalar f.sb (f.va.toNat :: kread f.km) f.hold (.vr .vredfadd f) s
/-- vredfmin (R219). -/
def execVredfmin (f : FmtVr) (s : State) : Out :=
  vscalar f.sb (f.va.toNat :: kread f.km) f.hold (.vr .vredfmin f) s
/-- vredfmax (R219). -/
def execVredfmax (f : FmtVr) (s : State) : Out :=
  vscalar f.sb (f.va.toNat :: kread f.km) f.hold (.vr .vredfmax f) s
/-- vredfamax (R219). -/
def execVredfamax (f : FmtVr) (s : State) : Out :=
  vscalar f.sb (f.va.toNat :: kread f.km) f.hold (.vr .vredfamax f) s

/-! Remote stores of a vector register (R281). -/

/-- A remote store of 256 bytes of the seat waits in the network interface to enter the mesh (R281). -/
def State.outboxOf (s : State) (p : Place) : Bool :=
  (s.core p.core).outbox.any fun m => m.seat == p.num && match m.body with | .store _ bs _ _ => bs.length == 256 | _ => false

/-- The work of rstv (R281): outside a scene the seat waits until the command is performed; inside, 8 entries. -/
def rstvAct (adaptive : Bool) (form : Form) (x : Ctx) (s : State) : Act :=
  match (s.bank x.p).wip with
  | .rstv id => if (s.core x.p.core).vq.any (·.id == id) || s.outboxOf x.p then .wait .queue else .done s none none
  | _ =>
    if (s.bank x.p).openScene.isSome && s.rstOff x.p.core (x.v 0) 256 then
      .done (s.mailLand x.p.core x.p.num 31 (rstBounce (x.v 0) .msgBounce)) none none else
    let held := s.rstHeld x.p.core (x.v 0)
    let s := if held then s.doorReserve (Config.dieOf x.p.core) else s
    if (s.bank x.p).openScene.isSome then
      let r := s.venq x form (x.v 0) [] false false false
      .done (r.1.modBank x.p fun b => b.buffer 8 (.rst (x.v 0) [] adaptive held (some r.2))) none none
    else
      let r := s.venq x form (x.v 0) [] false false held
      .begun (r.1.modBank x.p fun b => { b with wip := .rstv r.2 })

/-- The checks of rstv (R179, R281). -/
def rstvChk (x : Ctx) (s : State) : Option Act := (rstChk 4 (x.v 0) x s).or (rstMesh x s)

/-- rstv (R279). -/
def execRstv (f : FmtRsv) (s : State) : Out :=
  issueWait { srcs := [isrc f.ra], vr := [f.vs.toNat], entries := 8 } f.hold vroom rstvChk
    (rstvAct false (.rsv .rstv f)) s
/-- rstv.a (R279). -/
def execRstvA (f : FmtRsv) (s : State) : Out :=
  issueWait { srcs := [isrc f.ra], vr := [f.vs.toNat], entries := 8 } f.hold vroom rstvChk
    (rstvAct true (.rsv .rstvA f)) s

/-! Performance (R204, R205). -/

/-- The bank a command came from. -/
def VCmd.place (v : VCmd) (c : Nat) : Place := ⟨c, v.seat, v.bank⟩
/-- AMAX notes of a command (R209): with its scene, at once outside one, dropped after a discard. -/
def State.vnote (s : State) (p : Place) (sc : Nat) (n : BitVec 32) : State :=
  match sc with
  | 0 => s.modBank p fun b => { b with amax := amaxMerge b.amax n }
  | 1 => s.modBank p fun b => { b with scene := b.scene.map fun sc => { sc with notes := amaxMerge sc.notes n } }
  | _ => s

/-- The scene of a command that is still open or frozen. -/
def State.vscene (s : State) (p : Place) (v : VCmd) : Option Scene := if v.sc = 1 then (s.bank p).scene else none

/-- The bytes that a command's scene has buffered: those it had when it was discarded, once that has happened (R225). -/
def State.vcells (s : State) (p : Place) (v : VCmd) : List Host.Cell :=
  match s.vscene p v with | some sc => sc.cells | none => v.snap
/-- Read the four bytes of a lane: the scene's buffered stores, then the L1 or the home under R258 and R259. -/
def State.vread4 (s : State) (p : Place) (v : VCmd) (k : Nat) : State × W32 :=
  let ks := keysFrom k 4
  let own := latest (s.vcells p v)
  let raw := ks.map fun k => (own k).getD (memRead s.mem k)
  if isCoh k && !(ks.all fun k => (own k).isSome) then
    let (s, r) := s.readLine p.core (lineOf k) (sectorsOf ks (lineOf k))
    let bs := ks.map fun k => (own k).getD (r.data.getD (k % 128) 0)
    let s := match s.vscene p v with
      | some sc => s.modBank p fun b => { b with
          scene := some { sc with reads := sc.reads ++ [⟨lineOf k, r.wts, r.rts⟩] } }
      | none => s.raisePts p.core r.t
    (s, BitVec.ofNat 32 (leNat bs))
  else (s, BitVec.ofNat 32 (leNat raw))

/-- A lane that has become uncorrectable since the issue is not delivered (R249): in the open scene the seat meets it before
its next instruction; outside a scene the load has retired, and the report alone is made (DEDUCED, log 22). -/
def State.vecBad (s : State) (p : Place) (v : VCmd) (k : Nat) : State :=
  match s.vscene p v with
  | some _ => (s.raiseUE p.core).modBank p fun b => { b with
      scene := b.scene.map fun sc => { sc with ueVec := sc.ueVec.orElse fun _ => some (v.pc, v.sb, k / 32 * 32) } }
  | none => s.reportUE p.core k

/-- Read the active lanes of a vector load: no uncorrectable data is delivered (R249). -/
def State.vreadLanes (s : State) (p : Place) (v : VCmd) : List (Nat × Nat) → State × SMap W32
  | [] => (s, [])
  | (i, k) :: t =>
    if s.bad (keysFrom k 4) then (s.vecBad p v k).vreadLanes p v t else
    let (s, w) := s.vread4 p v k
    let (s, m) := s.vreadLanes p v t
    (s, mset m i w)

/-- Fill the buffered entry of a command with its cells (R209). -/
def fillStore (id : Nat) (cells : List Host.Cell) (e : Entry) : Entry :=
  match e.op with
  | .store _ pg (some j) => if j = id then { e with op := .store cells pg none } else e
  | _ => e

/-- Perform the stores of a command, lane after lane: buffered in its scene, or as units (R209, R256). Those of a discarded
scene are dropped, and the scene's later commands still see them (R225). -/
def State.vstore (s : State) (p : Place) (v : VCmd) (lanes : List (Nat × Nat × W32)) : State :=
  let cells := lanes.flatMap fun x => (keysFrom x.2.1 4).zip (leBytes 4 x.2.2.toNat)
  match v.sc with
  | 0 => lanes.foldl (fun s x =>
      let cs := (keysFrom x.2.1 4).zip (leBytes 4 x.2.2.toNat)
      if isCoh x.2.1 then (s.unitWrite p.core 0 cs).1 else s.poke p.core cs) s
  | 1 => s.modBank p fun b => { b with scene := b.scene.map fun sc => { sc with
      entries := sc.entries.map (fillStore v.id cells) } }
  | n => s.modCore p.core fun k => { k with vq := k.vq.map fun w => if w.sc = n then { w with snap := w.snap ++ cells } else w }

/-- The scalar result of a command exists: the pending mark will clear, or the scene's push is filled (R206). -/
def State.vdeliver (s : State) (p : Place) (v : VCmd) (r : Word) : State :=
  s.modBank p fun b => { b with
    pending := b.pending.map fun q => if q.id = v.id && q.src == 1 then { q with val := some r, src := 0 } else q
    scene := b.scene.map fun sc => { sc with entries := sortPushes (sc.entries.map fun e =>
      match e.op with | .pushDue j => if j = v.id then { e with op := .push r b.si } else e | _ => e) } }

/-- The command's remote store (R281): sent at once outside a scene; inside, its bytes fill the entry. -/
def State.vremote (s : State) (p : Place) (v : VCmd) (adaptive : Bool) (bytes : List Byte) : State :=
  match v.sc with
  | 0 => (if v.resv then s.doorRelease (Config.dieOf p.core) else s).sendRst p v.sb bytes adaptive
  | 1 => s.modBank p fun b => { b with scene := b.scene.map fun sc => { sc with entries := sc.entries.map fun e =>
      match e.op with
      | .rst d _ ad rv (some j) => if j = v.id then { e with op := .rst d bytes ad rv none } else e
      | _ => e } }
  | _ => s

/-- The conversion control word's parts for a command (R121, R218): format, and the mode of lane i. -/
def VCmd.conv (v : VCmd) : Narrow × (Nat → RM) :=
  let cc := v.sb.toNat
  (Narrow.of (bits cc 27 8), fun i => cvtRm cc (BitVec.ofNat 2 v.rm) (srU (w64 (cc / 2 ^ 32)) 0 v.pc i))

/-- Perform a V command that is not gang-relative. -/
def State.performV (s : State) (p : Place) (v : VCmd) (op : OpV) (f : FmtV) : State :=
  let c := p.core
  let k := s.kreg c f.km.toNat
  let a := s.vreg c f.va.toNat
  let b := s.vreg c f.vb.toNat
  let rm := rmOfFrm (BitVec.ofNat 2 v.rm)
  match maskOp op with
  | some g => s.setKreg c (f.vd.toNat % 8) (g (s.kreg c (f.va.toNat % 8)) (s.kreg c (f.vb.toNat % 8)))
  | none =>
    match relV op with
    | some r => s.setKreg c (f.vd.toNat % 8) (vmask k fun i => r (vlane a i) (vlane b i))
    | none =>
      let old := s.vreg c f.vd.toNat
      match op with
      | .vperm => s.setVreg c f.vd.toNat (vmerge k old fun i => vlane a ((vlane b i).toNat % 64))
      | .vsel => s.setVreg c f.vd.toNat (vofLanes (laneNos.map fun i => laneV .vsel rm (vlane a i) (vlane b i) (k.getLsbD i)))
      | op =>
        let s := s.setVreg c f.vd.toNat (vmerge k old fun i => laneV op rm (vlane a i) (vlane b i) true)
        laneNos.foldl (fun s i => if k.getLsbD i then
          (match noteV op (vlane a i) with | some n => s.vnote p v.sc n | none => s) else s) s

/-- Perform a VS command. -/
def State.performVS (s : State) (p : Place) (v : VCmd) (op : OpVS) (f : FmtVS) : State :=
  let c := p.core
  let k := s.kreg c f.km.toNat
  let a := s.vreg c f.va.toNat
  let old := s.vreg c f.vd.toNat
  let b : W32 := v.sb.setWidth 32
  let rm := rmOfFrm (BitVec.ofNat 2 v.rm)
  match relVS op with
  | some r => s.setKreg c (f.vd.toNat % 8) (vmask k fun i => r (vlane a i) b)
  | none =>
    match op with
    | .vcvtn =>
      let s' := s.setVreg c f.vd.toNat (vcvtnVal v.conv.1 (s.lutGet c) v.conv.2 k old a)
      laneNos.foldl (fun s i => if k.getLsbD i then s.vnote p v.sc (amaxNote (fv32 (vlane a i))) else s) s'
    | .vcvtw =>
      let F := v.conv.1
      let t := s.lutGet c
      let s' := s.setVreg c f.vd.toNat (vcvtwVal F t v.conv.2 k old a)
      if F.beyond32 then
        laneNos.foldl (fun s i => if k.getLsbD i then s.vnote p v.sc (amaxNote (F.decode t (vcont F a i))) else s) s'
      else s'
    | .vlds =>
      let (s, m) := s.vreadLanes p v (v.lanes.filter fun x => k.getLsbD x.1)
      s.setVreg c f.vd.toNat (vmerge k old fun i => mget m i (vlane old i))
    | .vsts => s.vstore p v ((v.lanes.filter fun x => k.getLsbD x.1).map fun x => (x.1, x.2, vlane old x.1))
    | .vext => s.vdeliver p v (match laneNos.find? fun i => k.getLsbD i with
        | some i => (vlane a i).setWidth 64
        | none => 0)
    | .kmovs => s.vdeliver p v k
    | .kset => s.setKreg c (f.vd.toNat % 8) v.sb
    | .vrot => s.setVreg c f.vd.toNat (vmerge k old fun i => vlane a ((i + v.sb.toNat % 64) % 64))
    | .vstat => s
    | op => s.setVreg c f.vd.toNat (vmerge k old fun i => laneVS op rm (vlane a i) b (vlane old i))

/-- Perform a command on its core. -/
def State.performCmd (s : State) (c : Nat) (v : VCmd) : State :=
  let p := v.place c
  match v.form with
  | .v op f => s.performV p v op f
  | .vF op f =>
    let k := s.kreg c f.km.toNat
    let old := s.vreg c f.vd.toNat
    s.setVreg c f.vd.toNat (vmerge k old fun i => laneVF op (rmOf f.rnd (BitVec.ofNat 2 v.rm))
      (vlane (s.vreg c f.va.toNat) i) (vlane (s.vreg c f.vb.toNat) i) (vlane old i))
  | .vS op f => s.performVS p v op f
  | .vM op f =>
    let k := s.kreg c f.km.toNat
    let old := s.vreg c f.vd.toNat
    let act := v.lanes.filter fun x => k.getLsbD x.1
    match op with
    | .vld =>
      let (s, m) := s.vreadLanes p v act
      s.setVreg c f.vd.toNat (vmerge k old fun i => mget m i (vlane old i))
    | .vst => s.vstore p v (act.map fun x => (x.1, x.2, vlane old x.1))
  | .vG op f =>
    let old := s.vreg c f.vd.toNat
    match op with
    | .vgather =>
      let (s, m) := s.vreadLanes p v v.lanes
      s.setVreg c f.vd.toNat (vmerge (-1) old fun i => mget m i (vlane old i))
    | .vscatter => s.vstore p v (v.lanes.map fun x => (x.1, x.2, vlane old x.1))
  | .vr op f => s.vdeliver p v (redVal op (s.kreg c f.km.toNat) (s.vreg c f.va.toNat))
  | .rsv op f =>
    s.vremote p v (op == .rstvA) (leBytes 256 (s.vreg c f.vs.toNat).toNat)
  | _ => s

/-- The register index of the neighbour: (POS + sext(km, 3)) mod SIZE (R228). -/
def gangPeer (pos size : Nat) (km : BitVec 3) : Nat := (((pos : Int) + km.toInt) % size).toNat

/-- Perform a gang-relative command on every member at once: all reads come before all writes (R229). -/
def State.performGang (s : State) (members : List (Nat × Nat)) : State :=
  let vals := members.filterMap fun m =>
    match (s.core m.2).vq.head? with
    | some v =>
      match v.form with
      | .v op f =>
        let peer := (members.find? fun q => q.1 == gangPeer m.1 members.length f.km).map (·.2) |>.getD m.2
        let n := s.vreg peer f.vb.toNat
        let a := s.vreg m.2 f.va.toNat
        some (m.2, f.vd.toNat, vofLanes (laneNos.map fun i => laneV op .rne (vlane a i) (vlane n i) true))
      | _ => none
    | none => none
  let s := vals.foldl (fun s x => s.setVreg x.1 x.2.1 x.2.2) s
  members.foldl (fun s m => s.modCore m.2 fun k => { k with vq := k.vq.tail }) s

/-- A remote store outside a scene whose message the network interface has no room for (R281, R409). -/
def VCmd.shut (v : VCmd) (s : State) (c : Nat) : Bool :=
  match v.form with
  | .rsv .. => v.sc == 0 && !s.rstRoom c v.sb 256
  | _ => false
/-- VECTOR_COMMAND_PERFORM (R205): the vector unit of a core performs the next command; a gang-relative one waits until it
heads the queue of every member (R229). No command sees half of another bank's commit (R253). -/
def State.vectorStep (s : State) (c : Nat) : State :=
  match (s.core c).vq with
  | [] => s
  | v :: t =>
    if v.ganged then
      if v.lanes.all fun m => match (s.core m.2).vq.head? with | some w => w.ganged | none => false
      then s.performGang v.lanes else s
    else if s.halfway (v.place c) (v.lanes.map (·.2)) || v.shut s c || v.lanes.any (fun x => s.farKey c x.2) then s
    else (s.modCore c fun k => { k with vq := t }).performCmd c v

end Sys2Proof.Machine
end

