-- ==== Sys2Proof/Machine/Net.lean ====
section
/-! DEFINITION. Arrivals (spec/07 R174-R177, R195; spec/11 R262, R263; spec/12 R281; spec/19 R410): what a message does at
its destination, the order of channels, the stage door, results of variable latency (R25), tick timers (R451). -/
namespace Sys2Proof.Machine

/-! Fault rings (R410). -/

/-- Records of a core's fault ring. -/
def State.fringLen (s : State) (c : Nat) : Nat := 2 ^ min 11 (bits (s.crCore c 0x290).toNat 23 20)
/-- The fault ring of a core is full. -/
def State.fringFull (s : State) (c : Nat) : Bool :=
  ((s.crCore c 0x292).toNat + 2 ^ 32 - (s.crCore c 0x291).toNat) % 2 ^ 32 == s.fringLen c
/-- A fault message is placed in the supervisor core's ring. -/
def State.fringPut (s : State) (c : Nat) (ws : List Word) : State :=
  let ring := (s.crCore c 0x290).toNat
  let tail := (s.crCore c 0x292).toNat
  let a := bits ring 19 5 * 32 + 32 * (tail % s.fringLen c)
  let cells := (ws.flatMap fun w => leBytes 8 w.toNat).zipIdx.filterMap fun x => (onchipByte c (a + x.2)).map fun k => (k, x.1)
  let t := w64 ((tail + 1) % 2 ^ 32)
  let s := ((s.engWrite c 0 cells).1).setCrCore c 0x292 t
  if bit ring 27 then s.mailLand c (bits ring 26 24) 30 t else s

/-! What a message does (R150, R176, R185, R263, R351). -/

/-- A refusal returns to the seat, or the engine, that sent a message (R176, R281, R307). -/
def State.refuse (s : State) (c : Nat) (m : Msg) (word : Word) : State :=
  s.post c m.src none 1 false 0 (.bounce m.seat m.body.off word)

/-- A remote store at its destination: all its pieces as one unit (R232, R263, R281, R321). The command of an engine store learns
the unit's timestamp with the acknowledgement (R264). -/
def State.storeArrive (s : State) (c : Nat) (parts : List (Nat × List Byte)) (m : Msg) : State :=
  let hits := fun lo hi => parts.any fun x => decide (x.1 < hi) && decide (lo < x.1 + x.2.length)
  if parts.any fun x => !rstFits c x.1 x.2.length then s.refuse c m (m.bounceOf c .msgBounce)
  else if !Config.isX c && (hits 0x7_e000 0x8_0000 || (hits 0xb_0000 0xc_0000 && (s.groupOf c).isSome)) then
    s.refuse c m (m.bounceOf c .segRights)
  else
    let (s, ts) := s.engWrite c m.pts (parts.flatMap fun x => cellsAt (Config.tileKey c x.1) x.2)
    if m.sender = 0 then s.raisePts m.src ts else s.modHead m.src (m.seat - engTag 0) fun e => { e with ts := max e.ts ts }

/-- A bounce word reaches the sender (R176): the m31 of the seat that sent, or whose command woke; or the head command of the
engine queue that sent, which faults at its next boundary (R307, R325, R351, R361). -/
def State.bounceArrive (s : State) (c seat off : Nat) (word : Word) : State :=
  if seat < 100 then s.mailLand c seat 31 word
  else if seat < wakeTag 0 0 then s.modHead c (seat - engTag 0) fun e =>
    if e.bounced then e else { e with bounced := true, faddr := w64 off }
  else s.mailLand c ((seat - wakeTag 0 0) % 16) 31 word

/-- Stolen records enter the ready queue, as far as there is room: what is left. -/
def State.stealEnter (s : State) (c : Nat) : List Rec → State × List Rec
  | [] => (s, [])
  | r :: t => match s.enterReady c r with
    | some s => s.stealEnter c t
    | none => (s, r :: t)

/-- A value of mail arrives: arrivals at one core are taken one per clk (R195). -/
def State.mailArrive (s : State) (c i x : Nat) (v : Word) : Option State :=
  if (s.core c).arrClk = s.clk + 1 then none
  else some ((s.mailLand c i x v).modCore c fun k => { k with arrClk := s.clk + 1 })

/-- An event that gives a core work enters it (R244, R245): none while it finds no room. -/
def State.workEnter (s : State) (c : Nat) (b : Body) : Option State :=
  match b with
  | .wakeRec r => s.enterReady c r
  | .cue q addr => s.cueArrive q addr c
  | .steal rs => match s.stealEnter c rs with | (s, []) => some s | _ => none
  | .claim q => some (s.ensembleClaim q)
  | _ => some s
/-- An event that gives a core work arrives: a green-room host holds it back. -/
def State.workArrive (s : State) (c : Nat) (b : Body) : Option State :=
  if s.holding c then some (s.holdEvent c b) else s.workEnter c b

/-- What a message does at core c; none while it must wait, for room or behind a full ring. -/
def State.deliver (s : State) (c : Nat) (m : Msg) : Option State :=
  if (s.core c).fenced && m.body.stoppable then
    some (s.refuse c m (m.bounceOf c .msgBounce))
  else
  match m.body with
  | .mail i x v => if i < Config.seats c then s.mailArrive c i x v else some (s.refuse c m (m.bounceOf c .msgBounce))
  | .start off => some (s.reflexStart c off)
  | .bounce seat off w => some (s.bounceArrive c seat off w)
  | .store off bytes _ _ => some (s.storeArrive c [(off, bytes)] m)
  | .stores parts => some (s.storeArrive c parts m)
  | .wakeRec r => s.workArrive c (.wakeRec r)
  | .cue q addr => s.workArrive c (.cue q addr)
  | .steal rs => s.workArrive c (.steal rs)
  | .claim q => s.workArrive c (.claim q)
  | .fault a b d e => if s.fringFull c then none else some (s.fringPut c [a, b, d, e])
  | .winner w =>
    if (s.core c).winners.length < 16 then some (s.modCore c fun k => { k with winners := k.winners ++ [w] }) else none
  | .seize g pos r => s.seizeArrive c g pos r
  | .release g => s.releaseArrive c g

/-- The core takes a message from the mesh (R262, R414). -/
def State.taken (s : State) (c : Nat) (m : Msg) : State :=
  s.modCore c fun k => { k with recv := k.recv + 1, csts := max k.csts m.pts }

/-! Order (R175, R195, R262, R410). -/

/-- A fault message. -/
def Msg.isFault (m : Msg) : Bool := match m.body with | .fault .. => true | _ => false
/-- A message sent earlier keeps a later one of its channel waiting (R262); a fault message that a full ring holds back
keeps only later fault messages of its source waiting (R410). -/
def State.holdsBack (s : State) (o m : Msg) : Bool :=
  decide (o.no < m.no) &&
  (if o.isFault && s.fringFull o.dst then m.isFault && o.src == m.src
   else o.src == m.src && o.engine == m.engine && o.dst == m.dst && o.cls == m.cls && !o.adaptive && !m.adaptive)
/-- A message held at a stage door for a virtual core that is placed on core c goes before one sent later (R175). -/
def State.doorFirst (s : State) (c no : Nat) : Bool :=
  s.stage.any fun d => d.2.any fun m => decide (m.no < no) && match m.vdst with
    | some v => mfind s.routes v == some (.placed c)
    | none => false

/-- The k-th message in flight arrives, if it is one that `want` takes and nothing holds it back. -/
def State.arriveOpt (s : State) (k : Nat) (want : Body → Bool) : Option State :=
  match s.net[k]? with
  | none => none
  | some m =>
    if !want m.body || s.net.any (s.holdsBack · m) || (m.cls == 2 && s.doorFirst m.dst m.no) then none else
    let s' : State := { s with net := dropAt s.net k }
    (s'.taken m.dst m).deliver m.dst m
/-- The k-th message arrives if it can, else nothing happens. -/
def State.arrive (s : State) (k : Nat) (want : Body → Bool) : State := (s.arriveOpt k want).getD s

/-- STAGE_DOOR_DELIVERY (R175): the k-th held message of a die, when its virtual core is placed, none held earlier is for the
same one, and none of its channel that was sent earlier is still in the mesh (R262). One whose virtual core has exited
bounces. -/
def State.doorDeliver (s : State) (die k : Nat) : State :=
  let l := mget s.stage die []
  match l[k]? with
  | none => s
  | some m =>
    let at_ := fun (o : Msg) => s.dest o.src (o.vdst.getD 0)
    if (l.take k).any fun o => o.vdst == m.vdst ||
        (o.src == m.src && o.engine == m.engine && o.cls == m.cls && at_ o == at_ m) then s else
    let s' : State := { s with stage := mset s.stage die (dropAt l k) }
    match s.dest m.src (m.vdst.getD 0) with
    | .held => s
    | .to_ c =>
      if s.crosses m.src c then s'.bounceArrive m.src m.seat m.body.off (m.bounceOf c .msgBounce) else
      if s.net.any fun o => s.holdsBack o { m with dst := c } then s else
      match (s'.taken c m).deliver c m with
      | some s => s
      | none => s
    | .bounce => s'.bounceArrive m.src m.seat m.body.off (m.bounceOf 0 .msgBounce)

/-! Results of variable latency (R25, R103). -/

/-- LOAD_DATA_ARRIVAL: the k-th result in flight of a bank, whose value exists, reaches its register. -/
def State.loadArrive (s : State) (p : Place) (k : Nat) : State :=
  match (s.bank p).pending[k]? with
  | some r => match r.val with
    | some v => (s.modBank p fun b => { b with pending := dropAt b.pending k }).landRes p r v
    | none => s
  | none => s

/-- PTS_TICK (R257): every 16 clk a core's logical clock advances, once. -/
def State.ptsTick (s : State) (c : Nat) : State :=
  if (s.core c).ticks < s.clk / 16 then s.modCore c fun k => { k with pts := k.pts + 1, ticks := k.ticks + 1 } else s

/-- An error of a memory, which an input of the model makes happen (R249, R336, R354, R363; log 10). -/
def State.upset (s : State) : Upset → State
  | .sector q => if s.ue.contains q then s else { s with ue := q :: s.ue }
  | .corrected c => s.raiseCE c
  | .grammar cl k => { s with gcache := mmod s.gcache cl [] fun l => (l.zipIdx).map fun x =>
      if x.2 = k then { x.1 with bad := true } else x.1 }
  | .event c i => s.modSeat c i fun t => { t with evUe := t.evUe + 1 }
  | .message c => s.modCore c fun k => { k with winUe := k.winUe + 1 }

/-- The mesh stops the messages of a core, or lets them go: those that its network interface holds enter in order (log 17). -/
def State.meshTurn (s : State) (c : Nat) (stop : Bool) : State :=
  if stop then { s with meshStop := c :: s.meshStop.filter (· ≠ c) }
  else
    let held := (s.core c).outbox
    let s := { s.modCore c (fun k => { k with outbox := [] }) with meshStop := s.meshStop.filter (· ≠ c) }
    held.foldl (fun s m => s.toMesh m) s

/-! Tick timers (R177, R451). -/

/-- XTIMER_FIRE: the timer is on and its time has come; at an understudy the time passes and nothing starts (R446, R451). -/
def State.timerFire (s : State) (c t : Nat) : State :=
  let v := (s.crCore c (0x320 + t)).toNat
  let per := bits v 47 24
  let next := mget (s.core c).xfire t 0
  if !Config.isX c || !bit v 63 || per = 0 || decide (s.dtime < next) then s else
  let s := s.modCore c fun k => { k with xfire := mset k.xfire t (next + per) }
  if bit (s.crGlob 0 0x309).toNat 62 then s else s.reflexStart c (bits v 62 48 * 64)

/-! The events. -/

/-- LOAD_DATA_ARRIVAL (R25, R103). -/
def execLoadDataArrival (core seat bank k : Nat) (s : State) : Out := .next (s.loadArrive ⟨core, seat, bank⟩ k)
/-- PTS_TICK (R257). -/
def execPtsTick (core : Nat) (s : State) : Out := .next (s.ptsTick core)
/-- MAIL_ARRIVAL (R150, R195): a value, or a woken record (R185). -/
def execMailArrival (k : Nat) (s : State) : Out :=
  .next (s.arrive k fun b => match b with | .mail .. => true | .wakeRec _ => true | _ => false)
/-- BOUNCE_WORD_ARRIVAL (R176). -/
def execBounceWordArrival (k : Nat) (s : State) : Out :=
  .next (s.arrive k fun b => match b with | .bounce .. => true | _ => false)
/-- REMOTE_STORE_ARRIVAL (R263, R281). -/
def execRemoteStoreArrival (k : Nat) (s : State) : Out :=
  .next (s.arrive k fun b => match b with | .store .. => true | .stores _ => true | _ => false)
/-- STAGE_DOOR_DELIVERY (R175). -/
def execStageDoorDelivery (die k : Nat) (s : State) : Out := .next (s.doorDeliver die k)
/-- REFLEX_START_MESSAGE (R177). -/
def execReflexStartMessage (k : Nat) (s : State) : Out :=
  .next (s.arrive k fun b => match b with | .start _ => true | _ => false)
/-- XTIMER_FIRE (R177, R451). -/
def execXtimerFire (core t : Nat) (s : State) : Out := .next (s.timerFire core t)
/-- LAUNCH_CUE_ARRIVAL (R159). -/
def execLaunchCueArrival (k : Nat) (s : State) : Out :=
  .next (s.arrive k fun b => match b with | .cue .. => true | _ => false)
/-- STEAL_REPLY_ARRIVAL (R166). -/
def execStealReplyArrival (k : Nat) (s : State) : Out :=
  .next (s.arrive k fun b => match b with | .steal _ => true | _ => false)
/-- WINNER_MESSAGE_ARRIVAL (R351). -/
def execWinnerMessageArrival (k : Nat) (s : State) : Out :=
  .next (s.arrive k fun b => match b with | .winner _ => true | _ => false)
/-- FAULT_MESSAGE_ARRIVAL (R410). -/
def execFaultMessageArrival (k : Nat) (s : State) : Out :=
  .next (s.arrive k fun b => match b with | .fault .. => true | _ => false)
/-- SEIZE_ARRIVAL (R423). -/
def execSeizeArrival (k : Nat) (s : State) : Out :=
  .next (s.arrive k fun b => match b with | .seize .. => true | _ => false)
/-- RELEASE_ARRIVAL (R425). -/
def execReleaseArrival (k : Nat) (s : State) : Out :=
  .next (s.arrive k fun b => match b with | .release _ => true | _ => false)
/-- TAKE_UP (R144, R146). -/
def execTakeUp (core seat : Nat) (s : State) : Out := .next (s.takeWork core seat)
/-- VECTOR_COMMAND_PERFORM (R205): the head of the core's vector queue. -/
def execVectorCommandPerform (core : Nat) (s : State) : Out := .next (s.vectorStep core)

end Sys2Proof.Machine
end

