-- ==== Sys2Proof/Machine/Module.lean ====
section
/-! DEFINITION. The module as a whole (spec/21 R437, R446-R449, R451, R452; spec/01 R34, R39): mirroring and take-over, link
loss, load averaging, thermal and power control, time correction, boot, module reset. -/
namespace Sys2Proof.Machine

/-! The primary and its understudy (R446, R447). -/

/-- HBMISS × HBPER in ns. -/
def State.hbLimit (s : State) : Nat :=
  let v := (s.crGlob 0 0x309).toNat
  max 1 (bits v 15 8) * bits v 31 16 * 1000
/-- MIRSTAT.PEERUP: the last peer heartbeat is fresh. -/
def State.peerUp (s : State) : Bool := s.peerHb != 0 && decide (s.dtime ≤ s.peerHb + s.hbLimit)

/-- MIRROR_ACK_ARRIVAL (R446): entries up to this one are acknowledged. -/
def State.mirrorAck (s : State) (n : Word) : State := { s with acked := max s.acked (n.toNat + 1) }

/-- MIRROR_ENTRY_ARRIVAL (R446): the understudy writes the entry into its book, then acknowledges it. -/
def State.mirrorEntry (s : State) (n : Word) (e : List Byte) : State :=
  if !s.understudy then s else
  let seq := dword e 0
  let s := s.bookPut n.toNat seq (bits (dword e 1) 5 0) (bits (dword e 1) 15 8) (e.take 128)
  let s := s.setCrGlob 0 0x308 (w64 (max (s.crGlob 0 0x308).toNat (seq + 1)))
  { s with out := s.out ++ [.ack n] }

/-- HEARTBEAT_SEND (R446): to the peer, and DTIME to HBADDR at the host. -/
def State.heartbeat (s : State) : State :=
  if !s.mirrors then s else
  let s : State := { s with out := s.out ++ [.heartbeat] }
  let a := (s.crGlob 0 0x30a).toNat / 8 * 8
  if s.stopped || !isHost a then s else s.postExt 1024 64 a (leBytes 8 s.dtime)

/-- The rows of the mirrored banks, in order: core, offset, bytes. -/
def State.xRows (s : State) : List (Nat × Nat × List Byte) :=
  let mask := bits (s.crGlob 0 0x309).toNat 55 48
  (List.range 64).flatMap fun c => ((List.range 8).filter (bit mask ·)).flatMap fun i =>
    (List.range 128).map fun r =>
      let off := (56 + i) * 0x8000 + 256 * r
      (768 + c, off, memReads s.mem (keysFrom (Config.tileKey (768 + c) off) 256))

/-- X_BANK_MIRROR (R446): the primary sends its rows; the understudy takes the rows of a complete copy. -/
def State.xMirror (s : State) (rows : List (Nat × Nat × List Byte)) : State :=
  if s.mirrors then { s with out := s.out ++ s.xRows.map fun r => .xrow r.1 r.2.1 r.2.2 }
  else if s.understudy then
    let cells := rows.flatMap fun r => if Config.isX r.1 then cellsAt (Config.tileKey r.1 r.2.1) r.2.2 else []
    let s : State := { s with xcopy := cells }
    let v := (s.crGlob 0 0x30b).toNat
    s.setCrGlob 0 0x30b (w64 (v + 2 ^ 32))
  else s

/-- The first tick of a timer at or after a time (R451). -/
def nextTick (v now : Nat) : Nat :=
  let per := bits v 47 24
  if per = 0 then 0 else
  let ph := bits v 23 0 % per
  if now ≤ ph then ph else ph + (now - ph + per - 1) / per * per

/-- The commands of the book to run again, ascending SEQ: SEQ, slot, replay count, record (R447). -/
def State.replays (s : State) : List (Nat × Nat × Nat × List Byte) :=
  let seqs := ((s.book.map (·.1)).insertionSort (· ≤ ·)).dedup
  seqs.filterMap fun q =>
    match s.bookState q, s.book.find? fun e => e.1 == q && e.2.2.1 == 1 with
    | some st, some e =>
      if st = 1 ∨ st = 2 ∨ st = 3 ∨ st = 7 then
        let last := ((s.book.filter fun e => e.1 == q).getLast?).getD e
        let rep := (memRead s.mem (s.bookAt last.2.2.2 + 10)).toNat
        some (q, e.2.1, rep, memReads s.mem (keysFrom (s.bookAt e.2.2.2 + 64) 64))
      else none
    | _, _ => none

/-- A queue's record can be mapped (R440). -/
def State.queueOk (s : State) (i : Nat) : Bool :=
  let a := s.qrec i
  let log := s.dwordAt (a + 8) % 32
  log != 0 && decide (log ≤ 16) && isDram (bits (s.dwordAt a) 47 6 * 64) && bits (s.dwordAt a) 63 48 == 0
/-- A command is taken over (R447): REPLAYED is appended, and its slot runs it again. The book does not name the queue that
the slot served, so the queue a free slot maps is a free value among those that can be mapped; with none of them the slot
runs its replays unmapped (log 56). -/
def State.replay1 (s : State) (x : Nat × Nat × Nat × List Byte) : State :=
  let (seq, q, rep, raw) := x
  let s := s.bookAppend seq q 7 (rep + 1) 0 raw []
  let s := s.modSlot q fun t => { t with again := t.again ++ [(seq, rep + 1, raw)] }
  if (s.slot q).mapped then s else
  match (List.range ((s.crGlob 0 0x300).toNat % 4096 + 1)).filter s.queueOk with
  | [] => s
  | l => State.mapQueue { s with fctr := s.fctr + 1 } q (l.getD ((Config.freeValue s.fctr).toNat % l.length) 0)

/-- Take-over (R447). -/
def State.takeover (s : State) : State :=
  let s : State := { s with out := s.out ++ [.fence] }
  let s := s.setCrGlob 0 0x309 ((s.crGlob 0 0x309) &&& 0xbfff_ffff_ffff_ffff)
  let todo := s.replays
  let s := s.bookAppend 0 0 8 0 0 [] []
  let s := s.poke 0 s.xcopy
  let s := (List.range 64).foldl (fun (s : State) i => (List.range 4).foldl (fun (s : State) t =>
    let c := 768 + i
    let v := (s.crCore c (0x320 + t)).toNat
    if bit v 63 then s.modCore c fun k => { k with xfire := mset k.xfire t (nextTick v (s.dtime + 50000)) } else s) s) s
  let s := todo.foldl (fun s x => s.replay1 x) s
  let s := s.ringWaiting
  { s with out := s.out ++ [.msi 64] }

/-- The DTIME word at HBADDR, read through the host port, is not older than the limit (R447). -/
def State.hostFresh (s : State) : Bool :=
  let a := (s.crGlob 0 0x30a).toNat / 8 * 8
  isHost a && decide (s.dtime ≤ s.dwordAt a + s.hbLimit)
/-- The check of R447, made at each multiple of HBPER. -/
def State.understudyCheck (s : State) : State :=
  if !s.understudy || s.peerUp then s
  else if s.hostFresh then s.devReport .peerDown 0 0
  else s.takeover
/-- UNDERSTUDY_CHECK (R447): `word` is what the primary has written at HBADDR in host memory by then (log 10). -/
def State.understudyEvent (s : State) (word : Word) : State :=
  let a := (s.crGlob 0 0x30a).toNat / 8 * 8
  (if isHost a then s.poke 0 (cellsAt a (leBytes 8 word.toNat)) else s).understudyCheck

/-- PEER_FENCE_ARRIVAL (R447): the primary raises the curtain over every partition and stops. -/
def State.peerFence (s : State) : State :=
  if s.understudy then s else
  { allCores.foldl (fun (s : State) c => s.modCore c fun k => { k with curtReq := k.curtReq ++ [true] }) s with stopped := true }

/-- PEER_HEARTBEAT_ARRIVAL (R447). -/
def State.peerBeat (s : State) : State := { s with peerHb := max 1 s.dtime }

/-- LINK_LOSS (R437): messages across are dropped, partitions with cores on both dies stop, both dies report. -/
def State.linkLoss (s : State) : State :=
  let lost := s.net.filter fun m => agentDie m.src != agentDie m.dst
  let s : State := { s with linkUp := false, net := s.net.filter fun m => agentDie m.src == agentDie m.dst }
  -- an engine's store that is lost, or whose refusal is, counts as refused (DEDUCED, log 75): it was not written (R307)
  let s := lost.foldl (fun (s : State) m =>
    if m.sender ≠ 0 then s.bounceArrive m.src m.seat m.body.off 0
    else match m.body with
      | .bounce i off w => if engTag 0 ≤ i ∧ i < wakeTag 0 0 then s.bounceArrive m.dst i off w else s
      | _ => s) s
  let across := (List.range 64).filter fun p =>
    (allCores.any fun c => s.part c == p && Config.dieOf c == 0) && (allCores.any fun c => s.part c == p && Config.dieOf c == 1)
  let s := across.foldl (fun s p => s.curtSend p true) s
  (s.faultMsg 0 0 .linkDown 0 0 0).faultMsg 384 0 .linkDown 0 0 0

/-! Load averaging (R448). -/

/-- A record may leave its core: NOSTEAL = 0 and AFF ≠ 3. -/
def Rec.mayMove (r : Rec) : Bool := !r.noSteal && r.aff != 3
/-- The load of a tile. -/
def State.loadOf (s : State) (c : Nat) : Nat :=
  let k := s.core c
  k.deque.length + (k.ready.filter fun x => !x.held7 && x.r.mayMove).length
/-- A core is admitted to run a record: it lies in the launch's core set, and AFF admits it (R166, R448). -/
def State.admits (s : State) (src dst : Nat) (r : Rec) : Bool :=
  (s.indexOf r.slot dst).isSome && r.affAdmits src dst && !s.crosses src dst
/-- The opposite direction. -/
def opposite (dir : Nat) : Nat := match dir with | 0 => 1 | 1 => 0 | 2 => 3 | _ => 2

/-- A tile forms its load and gives it to its neighbours; own load under key 4. -/
def State.loadExchange (s : State) (c : Nat) : State :=
  let l := s.loadOf c
  let s := s.modCore c fun k => { k with loads := mset k.loads 4 l }
  (List.range 4).foldl (fun (s : State) d => match neighbour c d with
    | some n => s.modCore n fun k => { k with loads := mset k.loads (opposite d) l }
    | none => s) s

/-- A tile sends surplus records to the neighbour in a direction: from the oldest end of its deque, then of its ready
queue, of which those go that its load counts (log 53). -/
def State.loadSend (s : State) (c dir : Nat) : State :=
  let k := s.core c
  match mfind k.loads dir, neighbour c dir with
  | some f, some n =>
    let s := s.modCore c fun k => { k with loads := mdel k.loads dir }
    let l := mget k.loads 4 0
    if l ≤ f + bits (s.crGlob 0 0x305).toNat 23 16 then s else
    let m := (l - f) / 2
    let p := s.admits c n
    let (dq, a) := takeOldest p m k.deque
    let (rq, b) := k.ready.foldl (fun (x : List Ready × List Rec) r =>
      if x.2.length < m - a.length ∧ r.held7 = false ∧ r.r.mayMove = true ∧ p r.r = true then (x.1, x.2 ++ [r.r]) else (x.1 ++ [r], x.2)) ([], [])
    let rs := a ++ b
    if rs.isEmpty then s else
    (s.modCore c fun k => { k with
      deque := dq, ready := rq, loads := mset k.loads 4 (l - rs.length) }).post c n none 2 false 0 (.steal rs)
  | _, _ => s

/-- LOAD_AVERAGING (R448): directions 0 to 3 send, any other forms and exchanges the load. -/
def State.loadAverage (s : State) (c dir : Nat) : State :=
  let k := s.core c
  if Config.isX c || !(s.crGlob 0 0x305).getLsbD 24 || k.curtain || k.fenced then s
  else if dir < 4 then s.loadSend c dir else s.loadExchange c

/-! Thermal displacement and power (R449). -/

/-- Send a displaced record to the first core of the die's ranking table that admits it, or to the own ready queue. -/
def State.displaceTo (s : State) (c : Nat) (r : Rec) : State :=
  let v := (s.crGlob (Config.dieOf c) 0x30d).toNat
  let tab := (List.range (v % 64)).map fun i => leNat (memReads s.mem (keysFrom (v / 64 * 64 + 2 * i) 2))
  match tab.find? fun n => decide (n < 768) && s.admits c n r with
  | some n => s.post c n none 2 false 0 (.steal [r])
  | none => match s.pushReady c r with
    | some s => s
    | none => s.post c c none 2 false 0 (.wakeRec r)

/-- A disabled seat gives up its continuation once step 2 of R407 can be done for it; nothing of it is discarded under the
curtain (R413). -/
def State.thermalOut (s : State) (c i : Nat) : State :=
  let p : Place := ⟨c, i, 0⟩
  if !s.hotSeat c i || (s.core c).curtain || !(s.preTargets c).contains p || !s.preReady p then s else
  let b := s.bank p
  let s := s.preemptSeat p
  let r := s.recOf p (s.bank p).pc
  { ((s.vacate p).displaceTo c r).faultMsg c i .thermalDisplace b.vcore.toNat 0 0 with ended := .done }

/-- The seat to disable next, from 7 down to 1; seat 7 not while the tile is seized. -/
def State.nextHot (s : State) (c : Nat) : Option Nat :=
  [7, 6, 5, 4, 3, 2, 1].find? fun i => !s.hotSeat c i && !(i == 7 && (s.core c).seized.isSome)
/-- The seat to enable next, the lowest first. -/
def State.nextCool (s : State) (c : Nat) : Option Nat := [1, 2, 3, 4, 5, 6, 7].find? fun i => s.hotSeat c i

/-- THERMAL_STEP (R449): the tile's temperature is measured; every STEP µs one seat is disabled or enabled. -/
def State.thermalStep (s : State) (c temp : Nat) : State :=
  let th := (s.crGlob (Config.dieOf c) 0x30c).toNat
  let dis := (s.crCore c 0x30e).toNat % 256
  let put := fun (s : State) d => s.setCrCore c 0x30e (w64 (d + temp % 256 * 2 ^ 8))
  let s' := put s dis
  if Config.isX c || decide (s.dtime < (s.core c).thermClk) then s' else
  let mark := fun (s : State) => s.modCore c fun k => { k with thermClk := s.dtime + bits th 31 16 * 1000 }
  if bits th 15 8 < temp then
    match s.nextHot c with
    | some i => (mark (put s (dis + 2 ^ i))).thermalOut c i
    | none => s'
  else if temp < bits th 7 0 then
    match s.nextCool c with
    | some i => mark (put s (dis - 2 ^ i))
    | none => s'
  else s'

/-- POWER_LIMIT_THROTTLE (R449, R451): the power over the last millisecond in 1/16 W; above the limit, seats of D-tiles are
denied their turns. -/
def State.powerStep (s : State) (w : Nat) : State :=
  let lim := max 150 (min 450 ((s.crGlob 0 0x30f).toNat % 512))
  let high := decide (lim * 16 < w)
  let s := s.setCrGlob 0 0x310 (w64 (w % 2 ^ 16))
  (List.range Config.dTiles).foldl (fun (s : State) c =>
    if (s.core c).denied = high then s else s.modCore c fun k => { k with denied := high }) s

/-! Time, boot, reset. -/

/-- PTM_CORRECTION (R34): the rate of DTIME, by at most 500 parts per million. -/
def State.ptmCorrect (s : State) (ppm : Int) : State := { s with ppm := max (-500) (min 500 ppm) }

/-- Set BOOTST (R451): ERR and STAGE. -/
def State.setBoot (s : State) (err stage : Nat) : State := s.setCrGlob 0 0x311 (w64 (err * 16 + stage))
/-- SIG_INVALID is reported once a supervisor core runs (R452). -/
def State.sigReport (s : State) : State :=
  if s.firmware then s.faultMsg 0 0 .sigInvalid 0 0 0 else { s with sigDue := true }
/-- The digest of the body is that of the header (R452). DESIGN CHOICE (log 59): the digest is the header's first 48 bytes. -/
def bodyOk (img : List Byte) : Bool := img.take 48 == sha384 (img.drop 256)
/-- BOOT_IMAGE_LOAD (R452). `wellFormed`: the image is none that the ROM calls malformed; `key`: what the ROM
finds of the signature. An image shorter than its header is malformed. -/
def State.bootImage (s : State) (img : List Byte) (wellFormed : Bool) (key : KeyCheck) : State :=
  let st := (s.crGlob 0 0x311).toNat % 16
  if !wellFormed || decide (img.length < 256) then s.setBoot 2 st
  else if !(key.keyOk && key.sigOk && bodyOk img) then (s.setBoot 1 st).sigReport
  else
    let m := sha384 (s.meas ++ sha384 (img.drop 256))
    let s := (List.range 6).foldl (fun (s : State) n => s.setCrGlob 0 (0x318 + n) (leWord ((m.drop (8 * n)).take 8))) s
    s.setBoot 0 (max 1 st)

/-- The firmware starts on core c's seat 0 (R452). The spec gives neither its place nor its registers: PC and the segments are
free values (log 59). -/
def State.firmwareOn (s : State) (c : Nat) : State :=
  let v := fun i => Config.freeValue (s.fctr + i)
  State.modBank { s with fctr := s.fctr + 25 } ⟨c, 0, 0⟩ fun b => { b with
    run := .running, pc := v 0 &&& ~~~3
    segs := (List.range 8).map fun n =>
      (n, ⟨v (3 * n + 1) &&& ~~~(0x3f : Word), v (3 * n + 2), (v (3 * n + 3)).setWidth 4⟩) }
/-- Verified firmware comes to run on core 0 of each die (R452): STAGE becomes 2, a SIG_INVALID that waited is reported, and
doorbells are answered. -/
def State.firmwareStart (s : State) : State :=
  let b := (s.crGlob 0 0x311).toNat
  if b % 16 ≠ 1 then s else
  let s := (([0, 384].foldl State.firmwareOn s).setBoot (b / 16 % 16) 2)
  let s := if s.sigDue then (State.faultMsg { s with sigDue := false } 0 0 .sigInvalid 0 0 0) else s
  s.ringWaiting

/-- MODULE_RESET (R39): every seat is idle and every register at its reset value; memory and the model's own inputs
stay. -/
def State.moduleReset (s : State) : State :=
  { State.reset with agenda := s.agenda, fctr := s.fctr, mem := s.mem, ue := s.ue, out := s.out }

/-! The events. -/

/-- MODULE_RESET (R39). -/
def execModuleReset (s : State) : Out := .next s.moduleReset
/-- BOOT_IMAGE_LOAD (R452). -/
def execBootImageLoad (img : List Byte) (wellFormed : Bool) (key : KeyCheck) (s : State) : Out :=
  .next (s.bootImage img wellFormed key)
/-- MIRROR_ACK_ARRIVAL (R446). -/
def execMirrorAckArrival (seq : Word) (s : State) : Out := .next (s.mirrorAck seq)
/-- MIRROR_ENTRY_ARRIVAL (R446). -/
def execMirrorEntryArrival (index : Word) (entry : List Byte) (s : State) : Out := .next (s.mirrorEntry index entry)
/-- HEARTBEAT_SEND (R446). -/
def execHeartbeatSend (s : State) : Out := .next s.heartbeat
/-- X_BANK_MIRROR (R446). -/
def execXBankMirror (rows : List (Nat × Nat × List Byte)) (s : State) : Out := .next (s.xMirror rows)
/-- UNDERSTUDY_CHECK (R447). -/
def execUnderstudyCheck (word : Word) (s : State) : Out := .next (s.understudyEvent word)
/-- PEER_FENCE_ARRIVAL (R447). -/
def execPeerFenceArrival (s : State) : Out := .next s.peerFence
/-- LINK_LOSS (R437). -/
def execLinkLoss (s : State) : Out := .next s.linkLoss
/-- LOAD_AVERAGING (R448). -/
def execLoadAveraging (core dir : Nat) (s : State) : Out := .next (s.loadAverage core dir)
/-- THERMAL_STEP (R449). -/
def execThermalStep (core temp : Nat) (s : State) : Out := .next (s.thermalStep core temp)
/-- PTM_CORRECTION (R34). -/
def execPtmCorrection (ppm : Int) (s : State) : Out := .next (s.ptmCorrect ppm)
/-- PEER_HEARTBEAT_ARRIVAL (R447). -/
def execPeerHeartbeatArrival (s : State) : Out := .next s.peerBeat
/-- POWER_LIMIT_THROTTLE (R449). -/
def execPowerLimitThrottle (watts16 : Nat) (s : State) : Out := .next (s.powerStep watts16)

end Sys2Proof.Machine
end

