-- ==== Sys2Proof/Machine/Paging.lean ====
section
/-! DEFINITION. The memory system's own events (spec/10 R239-R251): line migration, the L1's invalidation, green rooms,
the notification queue, page moves, invalidation of translations. -/
namespace Sys2Proof.Machine

/-! Lines (R239, R240). -/

/-- L2_LINE_MIGRATION (R240): a move that sixteen decisions for one cluster have made due takes place. -/
def State.lineMigrate (s : State) (l : Nat) : State :=
  match (mfind s.l2 l).bind (·.due) with
  | some d =>
    let s := s.moveLine l (some d)
    { s with l2 := mmod s.l2 l ⟨none, [], none, 0, 0, none⟩ fun e => { e with due := none } }
  | none => s

/-- L2MIG.FWDN: forwarding entries in use on a die (R251). -/
def State.fwdCount (s : State) (d : Nat) : Nat := (s.l2.filter fun e => e.2.slice.isSome && homeSlice e.1 / 24 == d).length

/-- Writing INV drops every line of the L1 (R251). -/
def State.l1Inv (s : State) (c : Nat) : State := s.modCore c fun k => { k with l1 := [] }

/-! Green rooms (R244, R245). -/

/-- GRHOST_WRITE (R244, R250): EN stays 0 on a tile of a seizure group, and the register is absent on an X-tile. -/
def State.grhostWrite (s : State) (c : Nat) (v : Word) : State :=
  if Config.isX c then s else s.setCrCore c 0x189 (if (s.groupOf c).isSome then 0 else v &&& 1)

/-- Held events are taken in arrival order, as far as they find room; the others wait. -/
def State.takeHeld (s : State) (c : Nat) : List Msg → State
  | [] => s
  | m :: t =>
    match s.workEnter c m.body with
    | some s => s.takeHeld c t
    | none => s.modCore c fun k => { k with heldEv := m :: t }
/-- The events that a core has held back are taken (R245). -/
def State.releaseHeldEv (s : State) (c : Nat) : State :=
  if s.host c then s else
  let evs := (s.core c).heldEv
  if evs.isEmpty then s else (s.modCore c fun k => { k with heldEv := [] }).takeHeld c evs

/-- GREEN_ROOM_RECALL (R245): the next action of a recall. Step 2i writes piece i back and clears its VALID, step 2i + 1
posts its record. -/
def State.recallStep (s : State) (c : Nat) : State :=
  match (s.core c).recallTag with
  | none => s.releaseHeldEv c
  | some t =>
    let i := t / 2
    if 448 ≤ i then ((s.setCrCore c 0x189 0).modCore c fun k => { k with recallTag := none }).releaseHeldEv c else
    let tag := Config.tileKey c (0x7_0000 + 16 * i)
    let d0 := leNat (memReads s.mem (keysFrom tag 8))
    let d1 := leNat (memReads s.mem (keysFrom (tag + 8) 8))
    let pa := bits d0 47 10 * 2 ^ 10
    let goto := fun (s : State) t => s.modCore c fun k => { k with recallTag := some t }
    if t % 2 = 0 then
      if s.bad [tag] then goto (s.reportUE c tag) (t + 2)
      else if !bit d0 0 then goto s (t + 2)
      else if s.blocked pa then s else
      let at_ := Config.tileKey c (i * 1024)
      let s := if isDram pa then (s.engWrite c (s.core c).pts ((List.range 32).flatMap fun q =>
        if s.bad [at_ + 32 * q] then [] else
          cellsAt (s.redirect pa + 32 * q) (memReads s.mem (keysFrom (at_ + 32 * q) 32)))).1 else s
      let s := ((List.range 32).filter fun q => s.bad [at_ + 32 * q]).foldl (fun s q => s.reportUE c (at_ + 32 * q)) s
      goto (s.poke c (cellsAt tag (leBytes 8 (d0 - 1)))) (t + 1)
    else if s.mnqRoom (Config.dieOf c) then
      goto (s.mnqPost (Config.dieOf c) (w64 (2 + d1 / 2 ^ 10 * 2 ^ 10)) (w64 (c + pa))) (t + 1)
    else s

/-! The notification queue (R246, R247). -/

/-- Post the records of entries that wait for room, ascending cluster and index, while room remains. -/
def State.mnqRescan (s : State) (d : Nat) : State :=
  (List.range 24).foldl (fun (s : State) k =>
    let cl := d * 24 + k
    (List.range (s.mmu cl).counters.length).foldl (fun (s : State) i =>
      match (s.mmu cl).counters[i]? with
      | some e =>
        if e.pend && !e.posted && s.mnqRoom d then
          (s.postThresh cl e).modMmu cl fun m => { m with counters := modAt m.counters i fun e => { e with posted := true } }
        else s
      | none => s) s) s

/-- MNQHEAD_WRITE (R247). -/
def State.mnqHeadWrite (s : State) (d : Nat) (v : Word) : State :=
  (s.setCrGlob d 0x18c (v &&& 0xffff_ffff)).mnqRescan d

/-- MIGACK_WRITE (R247): the page's entries start again in every cluster MMU of the die. -/
def State.migAck (s : State) (d : Nat) (v : Word) : State :=
  let slot := bits v.toNat 5 0
  let sub := bit v.toNat 9
  let page := pageNo (bits v.toNat 63 10 * 2 ^ 10) sub
  { s with mmus := s.mmus.map fun (m : Nat × Mmu) => if m.1 / 24 = d then
      (m.1, { m.2 with counters := m.2.counters.map fun e =>
        if e.slot = slot ∧ e.sub = sub ∧ e.page = page then { e with count := 0, pend := false, posted := false } else e })
    else m }

/-! Page moves (R248). -/

/-- The move of a die. -/
def State.move (s : State) (d : Nat) : PageMove := mget s.moves d ⟨0, 0, 0, 0, [], false⟩
/-- PMCTL_GO (R248): ignored while a move is under way. -/
def State.moveGo (s : State) (d : Nat) : State :=
  if (s.move d).state ≠ 0 then s else
  let size := (s.crGlob d 0x192).toNat % 2
  let sz := if size = 0 then 2 ^ 10 else 2 ^ 21
  let src := (s.crGlob d 0x190).toNat / sz * sz
  let dst := (s.crGlob d 0x191).toNat / sz * sz
  { s with moves := mset s.moves d ⟨src, dst, size, if isDram src && isDram dst then 1 else 3, [], false⟩ }

/-- PAGE_MOVE_COPY_DONE (R248): the page has been copied, sectors that are uncorrectable and timestamps with it. -/
def State.moveCopied (s : State) (d : Nat) : State :=
  let m := s.move d
  if m.state ≠ 1 then s else
  let n := m.bytes
  let inn := fun a k => a ≤ k && k < a + n
  let src := s.mem.filter fun c => inn m.src c.1
  let rest := s.mem.filter fun c => !inn m.dst c.1
  let ue := (s.ue.filter fun q => !inn m.dst (q * 32)) ++
    ((s.ue.filter fun q => inn m.src (q * 32)).map fun q => (q * 32 - m.src + m.dst) / 32)
  let ls := s.lines.filter fun x => inn m.src (x.1 * 128)
  let lines := ls.foldl (fun (a : SMap (Nat × Nat)) x =>
    let l := (x.1 * 128 - m.src + m.dst) / 128
    let o := mget a l (0, 0)
    mset a l (max o.1 x.2.1, max o.2 x.2.2)) s.lines
  { s with
    mem := memWrites rest (src.map fun c => (c.1 - m.src + m.dst, c.2))
    ue := ue, lines := lines
    moves := mset s.moves d { m with state := 2 } }

/-- PMCTL_END (R248): accesses that are queued yet are replayed at the destination first (log 60). -/
def State.moveEnd (s : State) (d : Nat) : State :=
  let m := s.move d
  if m.state = 3 ∨ (m.state = 2 ∧ m.queue.any (fun e => s.atHome e.1) = false) then { s with moves := mdel s.moves d }
  else if m.state = 2 then { s with moves := mset s.moves d { m with ending := true } }
  else s

/-! Translations (R251). -/

/-- Drop the translations that a TLBINV value names. -/
def State.tlbDrop (s : State) (v : Nat) : State :=
  { s with mmus := s.mmus.map fun (m : Nat × Mmu) => (m.1, { m.2 with tlb := m.2.tlb.filter fun t =>
      !(t.slot == bits v 5 0 && (bit v 8 || t.page == v / 2 ^ 21)) }) }

/-- TLBINV_WRITE (R251). One under way is finished first. -/
def State.tlbInvWrite (s : State) (v : Word) : State :=
  let s := if s.tlbBusy then s.tlbDrop (s.crGlob 0 0x193).toNat else s
  { s.setCrGlob 0 0x193 (v &&& 0xffff_ffff_ffe0_013f) with tlbBusy := true }

/-- TLBINV_DONE (R251). -/
def State.tlbInvDone (s : State) : State :=
  if s.tlbBusy then { s.tlbDrop (s.crGlob 0 0x193).toNat with tlbBusy := false } else s

/-! The events. -/

/-- L2_LINE_MIGRATION (R240). -/
def execL2LineMigration (line : Nat) (s : State) : Out := .next (s.lineMigrate line)
/-- L1CTL_INV (R251). -/
def execL1ctlInv (core : Nat) (s : State) : Out := .next (s.l1Inv core)
/-- GRHOST_WRITE (R244). -/
def execGrhostWrite (core : Nat) (v : Word) (s : State) : Out := .next (s.grhostWrite core v)
/-- GREEN_ROOM_RECALL (R245). -/
def execGreenRoomRecall (core : Nat) (s : State) : Out := .next (s.recallStep core)
/-- MNQHEAD_WRITE (R247). -/
def execMnqheadWrite (die : Nat) (v : Word) (s : State) : Out := .next (s.mnqHeadWrite die v)
/-- MIGACK_WRITE (R247). -/
def execMigackWrite (die : Nat) (v : Word) (s : State) : Out := .next (s.migAck die v)
/-- PMCTL_GO (R248). -/
def execPmctlGo (die : Nat) (s : State) : Out := .next (s.moveGo die)
/-- PAGE_MOVE_COPY_DONE (R248). -/
def execPageMoveCopyDone (die : Nat) (s : State) : Out := .next (s.moveCopied die)
/-- PMCTL_END (R248). -/
def execPmctlEnd (die : Nat) (s : State) : Out := .next (s.moveEnd die)
/-- TLBINV_WRITE (R251). -/
def execTlbinvWrite (v : Word) (s : State) : Out := .next (s.tlbInvWrite v)
/-- TLBINV_DONE (R251). -/
def execTlbinvDone (s : State) : Out := .next s.tlbInvDone

end Sys2Proof.Machine
end

