-- ==== Sys2Proof/Machine/Watchdog.lean ====
section
/-! DEFINITION. Watchdogs and replays (spec/19 R427, R428; spec/21 R444), the reset of one core (R451). -/
namespace Sys2Proof.Machine

/-- Drop the engine commands that satisfy p; a staging buffer that one was filling is empty again, and a stream event that
one had handed over is gone. -/
def State.dropCmds (s : State) (p : ECmd → Bool) : State :=
  let gone := fun c key id => (s.queue c key).any fun e => e.id == id && p e
  { s with
    boxes := s.boxes.map fun (b : Nat × Mailbox) => match b.2.owner with
      | some (c, key) => if ((s.queue c key).head?).any p then (b.1, { b.2 with stage := 0, owner := none }) else b
      | none => b
    sevents := s.sevents.map fun (d : Nat × List SEvent) => (d.1, d.2.filter fun e => !gone e.core e.queue e.cmd)
    cores := s.cores.map fun (k : Nat × Core) => (k.1, { k.2 with queues := k.2.queues.map fun (q : Nat × List ECmd) =>
      (q.1, q.2.filter fun e => !p e) }) }

/-! Watchdogs. -/

/-- Fields of WDOGq: the limit of a step (1 to 3) in ns, and STEP. -/
def State.wdogLim (s : State) (q step : Nat) : Nat :=
  let v := (s.crGlob 0 (0x2c0 + q)).toNat
  bits v (16 * step - 1) (16 * step - 16) * 2 ^ bits v 51 48 * 1000
/-- STEP. -/
def State.wdogAt (s : State) (q : Nat) : Nat := bits (s.crGlob 0 (0x2c0 + q)).toNat 53 52
/-- The limit of the next step has run out: `step` is the one that comes. -/
def State.wdogDue (s : State) (q step : Nat) : Bool :=
  let t := s.slot q
  t.wdogOn && s.wdogAt q + 1 == step && s.wdogLim q step != 0 && decide (t.wdogClk + s.wdogLim q step ≤ s.dtime)

/-- A core holds a continuation or a record of a slot. -/
def State.slotHolds (s : State) (q c : Nat) : Bool :=
  let k := s.core c
  let r := fun (x : Rec) => x.slot == q
  ((placesOf c).any fun p => (s.bank p).held && (s.bank p).cslot.toNat == q) ||
  (k.ready.any fun x => r x.r) || k.deque.any r || (s.spillAt c q).2 != 0
/-- A core holds a continuation, a record, a generator or an engine command of a slot. -/
def State.slotOn (s : State) (q c : Nat) : Bool :=
  let k := s.core c
  s.slotHolds q c || (k.gens.any fun g => g.slot == q) || (k.queues.any fun x => x.2.any fun e => e.slot == q)

/-- The step is taken: STEP, and the count of the next begins. -/
def State.wdogTake (s : State) (q step : Nat) : State :=
  (s.wdogStep q step).modSlot q fun t => { t with wdogClk := s.dtime }

/-- WDOG_KICK (R427). -/
def State.wdogKick (s : State) (q : Nat) : State :=
  (s.wdogStep q 0).modSlot q fun t => { t with wdogClk := s.dtime, wdogOn := true }

/-- WATCHDOG_PREEMPT (R428, step 1). -/
def State.wdogPreempt (s : State) (q : Nat) : State :=
  if !s.wdogDue q 1 then s else
  (((s.cores.map (·.1)).filter (s.slotHolds q)).foldl (fun s c => s.preRequest c 2) s).wdogTake q 1

/-- A message without the records of a slot; none when nothing is left of it. -/
def Msg.without (m : Msg) (q : Nat) : Option Msg :=
  match m.body with
  | .steal rs => let r := rs.filter fun x => x.slot != q
                 if r.isEmpty then none else some { m with body := .steal r }
  | .wakeRec r => if r.slot == q then none else some m
  | .cue o _ => if o == q then none else some m
  | .claim o => if o == q then none else some m
  | _ => some m
/-- Records of a slot's launch that a message carries. -/
def Msg.carries (m : Msg) (q : Nat) : Nat :=
  match m.body with
  | .steal rs => (rs.filter fun x => x.ofSlot q).length
  | .wakeRec r => if r.ofSlot q then 1 else 0
  | _ => 0
/-- Some records count as exited on a core. -/
def State.exitRecs (s : State) (q c n : Nat) : State :=
  if n = 0 then s else s.modCore c fun k => { k with exited := mmod k.exited q 0 (· + n) }

/-- Records of a slot leave a core, and count as exited; the record of a seizure's D bank counts with its seat. -/
def State.dropRecs (s : State) (q c : Nat) : State :=
  let k := s.core c
  let keep := fun (x : Rec) => x.slot != q
  let gone := (k.ready.filter fun x => x.r.ofSlot q && !x.held7).length + (k.deque.filter fun x => x.ofSlot q).length +
    (s.spillAt c q).2 + (k.heldEv.map fun m => m.carries q).sum
  ((s.setSpill c q (0, 0)).modCore c fun k => { k with
    ready := k.ready.filter fun x => keep x.r
    deque := k.deque.filter keep
    gens := k.gens.filter fun g => g.slot != q
    heldEv := k.heldEv.filterMap fun m => m.without q }).exitRecs q c gone

/-- Records in flight and at the stage doors are dropped, and count as exited: at their destination, those at a stage door at
their sender. -/
def State.dropNet (s : State) (q : Nat) : State :=
  let s := s.net.foldl (fun s m => s.exitRecs q m.dst (m.carries q)) s
  let s := s.stage.foldl (fun s d => d.2.foldl (fun s m => s.exitRecs q m.src (m.carries q)) s) s
  { s with
    net := s.net.filterMap fun (m : Msg) => m.without q
    stage := s.stage.map fun (d : Nat × List Msg) => (d.1, d.2.filterMap fun m => m.without q) }

/-- Every continuation of a slot is killed (R402). DESIGN CHOICE (log 30): a gang of which they are the members is over. -/
def State.killAll (s : State) (q : Nat) : State :=
  ((s.banks.map fun b => keyPlace b.1).filter fun p => (s.bank p).held && (s.bank p).cslot.toNat == q).foldl
    (fun s p =>
      let s := (s.unpark p).killSeat p
      if p.seat = 0 ∧ (s.core p.core).gangSize ≠ 1 then s.modCore p.core fun k => { k with gangSize := 1 } else s) s

/-- What the slot does after a kill (R444): it runs the command again, or reports it killed. -/
def State.afterKill (s : State) (q : Nat) : State :=
  let t := s.slot q
  let busy := match t.phase with | .fetched => true | .running => true | .wait => true | .page .. => true | _ => false
  match t.cmd with
  | some c =>
    if !busy then s else
    let s := s.modSlot q fun t => { t with placing := false, claimed := [], placed := false, wave := none }
    if c.replay && decide (t.reps < bits (s.crGlob 0 0x306).toNat 11 8) then
      let s := s.modSlot q fun t => { t with reps := t.reps + 1, phase := .fetched }
      s.logCmd q 7 0
    else
      (s.logCmd q 6 0).modSlot q fun t => { t with
        sigval := t.sigval ^^^ 0x8000_0000_0000_0000, phase := .signal }
  | none => s

/-- The virtual cores of a slot's launch have exited. -/
def State.exitV (s : State) (q : Nat) : State :=
  match (s.slot q).hdr with
  | some h => (List.range (h.vcount (s.slot q).members.length)).foldl (fun (s : State) i =>
      { s with routes := mset s.routes ((h.vbase + i) % 2 ^ 32) .exited }) s
  | none => s

/-- WATCHDOG_KILL (R428, step 2; R444). -/
def State.wdogKill (s : State) (q : Nat) : State :=
  if !s.wdogDue q 2 then s else
  let s := s.killAll q
  let s := (s.cores.map (·.1)).foldl (fun s c => s.dropRecs q c) s
  let s := ((s.dropNet q).dropCmds fun e => e.slot == q).exitV q
  ((s.wdogTake q 2).devReport .watchdogKill s.dtime (q + 2 * 2 ^ 8)).afterKill q

/-- A core is fenced (R428): it stops, messages to it bounce, and it leaves its seizure group. -/
def State.fence (s : State) (c : Nat) : State :=
  { s.modCore c (fun k => { k with fenced := true, left := List.range 32 }) with
    routes := s.routes.map fun (r : Nat × Route) => if r.2 = .placed c then (r.1, .exited) else r }

/-- WATCHDOG_FENCE (R428, step 3): cores that still hold something of the slot. -/
def State.wdogFence (s : State) (q : Nat) : State :=
  if !s.wdogDue q 3 then s else
  (((s.cores.map (·.1)).filter (s.slotOn q)).foldl (fun s c =>
    (s.fence c).devReport .watchdogKill s.dtime (q + 3 * 2 ^ 8)) s).wdogTake q 3

/-! The reset of a core (R451). -/

/-- The gang-relative commands in a core's vector queue are performed, with those that stand before them in the queues of
their members (R229): they cannot be performed once the core's queue is gone. What a commit in progress holds back even so is
dropped in every member. -/
def State.gangDrain (s : State) (c : Nat) : State :=
  let first := fun (s : State) => (s.core c).vq.find? (·.ganged)
  let s := (List.range 128).foldl (fun (s : State) _ => match first s with
    | some v => v.lanes.foldl (fun (s : State) m => s.vectorStep m.2) s
    | none => s) s
  match first s with
  | some v => v.lanes.foldl (fun (s : State) m => s.modCore m.2 fun k => { k with vq := k.vq.filter fun w => !w.ganged }) s
  | none => s

/-- CORERST_WRITE: the core is as after reset (R39), unfenced, and has left its seizure group; its gang is disbanded after the
gang-relative commands (R229). pts never decreases, and its ticks go on (R257). -/
def State.coreReset (s : State) (c : Nat) : State :=
  if Config.cores ≤ c then s else
  let s := s.gangDrain c
  let pts := (s.core c).pts
  let ticks := (s.core c).ticks
  let s := s.disband c
  let s := (placesOf c).foldl (fun s p => ((s.dropScene p).releaseHeld p).unpark p) s
  let s := (List.range (Config.seats c)).foldl (fun (s : State) i =>
    let t := s.seat c i
    let s := match t.up with | some (a, j) => s.modSeat a j fun t => { t with down := none, dnHup := true } | none => s
    match t.down with | some (b, j) => s.modSeat b j fun t => { t with up := none, upHup := true } | none => s) s
  let s := s.dropCmds fun e => e.core == c
  { s with
    banks := s.banks.filter fun b => b.1 / 64 != c
    seats := s.seats.filter fun b => b.1 / 16 != c
    cores := mset s.cores c { Core.reset with left := List.range 32, pts := pts, ticks := ticks }
    ended := .done }

/-- WDOG_KICK (R427). -/
def execWdogKick (slot : Nat) (s : State) : Out := .next (s.wdogKick slot)
/-- WATCHDOG_PREEMPT (R428). -/
def execWatchdogPreempt (slot : Nat) (s : State) : Out := .next (s.wdogPreempt slot)
/-- WATCHDOG_KILL (R428). -/
def execWatchdogKill (slot : Nat) (s : State) : Out := .next (s.wdogKill slot)
/-- WATCHDOG_FENCE (R428). -/
def execWatchdogFence (slot : Nat) (s : State) : Out := .next (s.wdogFence slot)
/-- CORERST_WRITE (R451). -/
def execCorerstWrite (core : Nat) (s : State) : Out := .next (s.coreReset core)

end Sys2Proof.Machine
end

