-- ==== Sys2Proof/Machine/ControlRegs.lean ====
section
/-! DEFINITION. Control registers (R29-R38, R151-R156, R250-R251, R312-R313, R343, R396-R398, R406, R410, R411, R414,
R421, R427, R450-R451): reads, writes and privilege; crd and cwr (R135), bfset and bfrd (R284), swin and swin.w (R411). -/
namespace Sys2Proof.Machine

/-! Numbers. -/

/-- A number that the tile does not list: beyond the 24 banks of a D-tile, and XTIMERt (R250, R450). -/
def crUnlisted (c n : Nat) : Bool := !Config.isX c && ((0x1d8 ≤ n && n ≤ 0x1ff) || (0x320 ≤ n && n ≤ 0x323))
/-- A listed number of the tile. -/
def crListed (c n : Nat) : Bool := okCr (BitVec.ofNat 10 n) && decide (n < 1024) && !crUnlisted c n
/-- Registers that an X-tile reads as zero and ignores (R250). -/
def crXZero (c n : Nat) : Bool := Config.isX c && 0x180 ≤ n && n ≤ 0x189
/-- Registers of module scope. -/
def crModule (n : Nat) : Bool :=
  n == 6 || n == 0x193 || (0x240 ≤ n && n ≤ 0x27f) || n == 0x297 || (0x2a0 ≤ n && n ≤ 0x2ff) ||
  (0x300 ≤ n && n ≤ 0x31d && n != 0x302 && n != 0x30c && n != 0x30d && n != 0x30e)
/-- Registers of die scope. -/
def crDie (n : Nat) : Bool := (0x18a ≤ n && n ≤ 0x192) || n == 0x194 || n == 0x30c || n == 0x30d
/-- The die under which a register of die or module scope is kept. -/
def crHome (c n : Nat) : Nat := if crDie n then Config.dieOf c else 0
/-- Registers of core or seat scope marked privileged (R398). -/
def crMarked (c n : Nat) : Bool :=
  n == 0x282 || (0x284 ≤ n && n ≤ 0x28b) || (0x28d ≤ n && n ≤ 0x290) || n == 0x293 || (n == 0x298 && Config.isX c) ||
  (0x320 ≤ n && n ≤ 0x323)

/-- A CWR traps PRIV_REG (R250, R398). PREEMPT is privileged in REQ alone (R406), WDOGq except KICK by a seat of its slot
(R427). -/
def State.crDenied (s : State) (p : Place) (n : Nat) (v : Word) : Bool :=
  if crModule n || crDie n then
    !s.isSuper p.core &&
    !(0x2c0 ≤ n && n ≤ 0x2ff && v.getLsbD 56 && (s.bank p).cslot.toNat == n - 0x2c0)
  else (crMarked p.core n || (n == 0x28c && v.getLsbD 0)) && !s.mayPriv p

/-- The privilege check of cwr. -/
def crPrivChk (n : Nat) (x : Ctx) (s : State) : Option Act :=
  if s.crDenied x.p n (x.v 0) then some (.trap .privReg 0 none) else none

/-! Reads. -/

/-- QSLOT of a slot (R451). -/
def State.qslot (s : State) (q : Nat) : Word :=
  let t := s.slot q
  let st := fun (f : Phase) => match f with
    | .idle => 0 | .accepted => 1 | .fetched => 1 | .running => 2 | .ended => 2 | .wait => 3 | .signal => 4 | .page .. => 1
  let v := match t.phase with | .page _ _ back => st back | f => st f
  w64 (b2n t.mapped * 2 ^ 63 + v * 2 ^ 60 + t.qidx % 4096 * 2 ^ 48 + t.seq % 2 ^ 48)

/-- SZCTL of a D-tile (R421). -/
def State.szctl (s : State) (c : Nat) : Word :=
  match s.groupOf c with
  | some g =>
    let pos := ((s.members g).findIdx? (· == c)).getD 0
    w64 (b2n (s.core c).seized.isSome * 2 ^ 18 + pos * 2 ^ 8 + g * 2 + 1)
  | none => w64 (b2n (s.core c).seized.isSome * 2 ^ 18)

/-- A seat register of the ranges 0x000 to 0x107 and 0x200 to 0x210 (R30-R38, R152-R156, R313, R343). DESIGN CHOICE (log 79):
SPILLED of DEQST reads 0xffff when more records are spilled than its 16 bits show; R156 says so of OVERRUN only. -/
def State.crSeat (s : State) (p : Place) (n : Nat) : Word :=
  let b := s.bank p
  let t := s.seat p.core p.num
  let x := Config.isX p.core
  let k := s.core p.core
  if 0x080 ≤ n ∧ n ≤ 0x097 then
    let g := b.seg ((n - 0x080) / 3)
    match (n - 0x080) % 3 with | 0 => g.base | 1 => g.limit | _ => g.acc.setWidth 64
  else if 0x200 ≤ n ∧ n ≤ 0x206 then mget t.stalls (n - 0x200) 0
  else match n with
  | 0x000 => w64 (b.prio * 2 ^ 8 + (if x then p.bank else 0) * 2 ^ 3 + b2n x * 2 ^ 2 + b2n b.scene.isSome * 2 + b2n b.schk)
  | 0x001 => b.frm.setWidth 64
  | 0x002 => b.amax.setWidth 64
  | 0x003 => b.reprise.setWidth 64
  | 0x004 => b.repriseLimit.setWidth 64
  | 0x005 => w64 (t.energy / 256)
  | 0x008 => b.vcore.setWidth 64
  | 0x009 => w64 p.num
  | 0x00b => b.scpc
  | 0x00c => b.scws.setWidth 64
  | 0x00d => match b.scene with | some sc => w64 sc.count | none => 0
  | 0x00e => t.icnt
  | 0x100 => b.wid
  | 0x101 => b.widw.setWidth 64
  | 0x102 => (s.seat p.core p.seat).mpres.setWidth 64
  | 0x103 => b.joinc.setWidth 64
  | 0x105 =>
    let outn := match t.down with | some (c, i) => (s.seat c i).qin.length | none => 0
    w64 (b2n t.down.isSome * 2 ^ 13 + b2n t.qinOn * 2 ^ 12 + b2n t.dnHup * 2 ^ 11 + b2n t.upHup * 2 ^ 10 +
      outn * 2 ^ 5 + t.qin.length)
  | 0x106 => b.cslot.setWidth 64
  | 0x104 => w64 (k.gangPos * 2 ^ 14 + k.gangLeader * 2 ^ 4 + k.gangSize)
  | 0x107 =>
    if x then w64 (k.overrun * 2 ^ 24 + k.starts.length * 2 ^ 8)
    else w64 (min 0xffff (s.spillCount p.core) * 2 ^ 24 + (k.ready.filter fun r => !r.held7).length * 2 ^ 8 + k.deque.length)
  | 0x210 => w64 (t.evDrop.toNat * 2 ^ 6 + t.evq.length)
  | _ => 0

/-- The value of a control register as software of the bank `p` reads it (R135). -/
def State.crRead (s : State) (p : Place) (n : Nat) : Word :=
  let c := p.core
  let b := s.bank p
  let t := s.seat c p.num
  let k := s.core c
  let d := Config.dieOf c
  if crXZero c n then 0
  else if 0x240 ≤ n ∧ n ≤ 0x27f then w64 ((s.slot (n - 0x240)).energy / 256)
  else match n with
  | 0x006 => w64 s.dtime
  | 0x007 => w64 c
  | 0x00a => s.crCore c n
  | 0x18f => 0
  | 0x192 => w64 ((s.crGlob d n).toNat % 2 + (s.move d).state % 4 * 2 ^ 8)
  | 0x193 => w64 ((s.crGlob 0 n).toNat + b2n s.tlbBusy * 2 ^ 7)
  | 0x194 => w64 ((s.crGlob d n).toNat % 2 + s.fwdCount d * 2)
  | 0x280 => b.cause.setWidth 64
  | 0x281 => b.faddr
  | 0x282 => b.epc
  | 0x283 => b.tstat.setWidth 64
  | 0x28c => w64 (min 255 k.spillN * 2 ^ 24 + s.preStatus c * 2 ^ 8 + b2n k.frozen * 2 ^ 4)
  | 0x28e => t.swsel
  | 0x28f => 0
  | 0x293 => w64 ((s.crCore c n).toNat % 64 + b2n k.curtain * 2 ^ 18)
  | 0x297 => 0
  | 0x298 => if Config.isX c then s.crCore c n else s.szctl c
  | 0x301 => 0
  | 0x302 => t.qsel.setWidth 64
  | 0x303 => s.qslot t.qsel.toNat
  | 0x30b => w64 ((s.crGlob 0 n).toNat / 2 ^ 32 * 2 ^ 32 + b2n s.peerUp * 2 ^ 31 + s.acked % 2 ^ 31)
  | 0x30e => match mfind k.crs n with | some v => v | none => w64 ((Config.resetTemp c).toNat * 2 ^ 8)
  | 0x312 => 0
  | 0x313 => 0
  | _ =>
    if crModule n || crDie n then s.crGlob (crHome c n) n
    else if 0x180 ≤ n ∧ n ≠ 0x210 ∧ ¬ (0x200 ≤ n ∧ n ≤ 0x206) then s.crCore c n
    else s.crSeat p n

/-! Writes. -/

/-- Writable bits of a register that holds what is written to it, its other bits unchanged (R36, R251, R397, R406, R410,
R414, R421, R451); 0 for one that is read only or has its own rule. -/
def crMask (c n : Nat) : Nat :=
  if n ≤ 0x187 ∧ 0x180 ≤ n then ones64 - 0x1f_f000
  else if 0x1c0 ≤ n ∧ n ≤ 0x1ff then bfmtMask
  else match n with
  | 0x00a => 1
  | 0x188 => 0x1_ffff
  | 0x18a => ones64 - 0xfff
  | 0x18b => 0x1f
  | 0x18e => 0xffff
  | 0x190 => 2 ^ 48 - 2 ^ 10
  | 0x191 => 2 ^ 48 - 2 ^ 10
  | 0x192 => 1
  | 0x194 => 1
  | 0x195 => 2 ^ 48 - 1
  | 0x284 => ones64 - 2
  | 0x285 => ones64 - 63
  | 0x286 => ones64
  | 0x287 => if Config.isX c then 7 else 15
  | 0x288 => ones64 - 63
  | 0x289 => ones64
  | 0x28a => if Config.isX c then 7 else 15
  | 0x28b => 0x3ff
  | 0x28d => ones64
  | 0x290 => 0x0fff_ffe0
  | 0x291 => ones32
  | 0x293 => 63
  | 0x298 => if Config.isX c then ones32 else 0
  | 0x300 => ones64
  | 0x304 => 0xffff_ffff_001f
  | 0x305 => 0x01ff_ffff
  | 0x306 => ones64 - 0xfff + 0xf1f
  | 0x309 => 0xe0ff_ffff_ffff_ff00
  | 0x30a => ones64 - 7
  | 0x30c => ones32
  | 0x30d => ones64
  | 0x30f => 0x1ff
  | 0x314 => ones32 * 2 ^ 32
  | 0x320 => ones64
  | 0x321 => ones64
  | 0x322 => ones64
  | 0x323 => ones64
  | _ => 0

/-- Write a register that holds what is written to it. -/
def State.crPlain (s : State) (c n : Nat) (v : Word) : State :=
  if crModule n || crDie n then s.setCrGlob (crHome c n) n (maskedW (crMask c n) (s.crGlob (crHome c n) n) v)
  else s.setCrCore c n (maskedW (crMask c n) (s.crCore c n) v)

/-- A segment register (R38): G reads 0 on an X-tile. -/
def Bank.setSeg (b : Bank) (c n : Nat) (v : Word) : Bank :=
  let i := (n - 0x080) / 3
  let g := b.seg i
  let g := match (n - 0x080) % 3 with
    | 0 => { g with base := v &&& ~~~(0x3f : Word) }
    | 1 => { g with limit := v }
    | _ => { g with acc := v.setWidth 4 &&& (if Config.isX c then 7 else 15) }
  { b with segs := mset b.segs i g }

/-- The bank that SWSEL names (R411): on a D-tile BANK is not looked at, and seat 7 of a seized tile is its reflex bank. -/
def State.swPlace (s : State) (p : Place) : Place :=
  let v := (s.seat p.core p.num).swsel.toNat
  let c := bits v 9 0
  let i := bits v 12 10
  if Config.isX c then ⟨c, i, bits v 14 13⟩ else s.placeOf c i
/-- The target exists and its supervisor core is the issuing core. -/
def State.swOwn (s : State) (p q : Place) : Bool :=
  decide (q.core < Config.cores) && decide (q.num < Config.seats q.core) && s.sup q.core == p.core
/-- A halted seat (R51, R134, R393). -/
def Bank.stops (b : Bank) : Bool := b.run == .halted || b.run == .stopped
/-- The target of swin counts as halted: halted, or stopped by the curtain (R413). -/
def State.swHalted (s : State) (q : Place) : Bool :=
  (s.bank q).stops || ((s.core q.core).curtain && q.seat != 8)
/-- A refused swin, swin.w or SWCMD sets SWSEL.ERR. -/
def State.swErr (s : State) (p : Place) : State :=
  s.modSeat p.core p.num fun t => { t with swsel := t.swsel ||| 0x8000_0000 }
/-- A write of SWCMD (R411, R412). -/
def State.swCmd (s : State) (p : Place) (v : Word) : State :=
  let q := s.swPlace p
  let cmd := v.toNat % 4
  if cmd = 0 ∨ cmd = 3 then s
  else if !(s.swOwn p q && (s.bank q).stops && !(s.core q.core).curtain) then s.swErr p
  else if cmd = 1 then s.swResume q else s.swKill q

/-- Write a timer (R451): its next fire is the first tick from now on. -/
def State.timerWrite (s : State) (c n : Nat) (v : Word) : State :=
  (s.crPlain c n v).modCore c fun k => { k with xfire := mset k.xfire (n - 0x320) (nextTick v.toNat s.dtime) }

/-- A write of CURTCTL (R414). The curtain over a partition is lowered from outside it (R413). -/
def State.curtWrite (s : State) (c : Nat) (v : Word) : State :=
  let part := bits v.toNat 13 8
  let outside := s.part c != part
  let s := s.crPlain c 0x293 v
  let s := if v.getLsbD 16 then s.curtSend part true else s
  if v.getLsbD 17 && outside then s.curtSend part false else s
/-- A write of CURTDEV (R451). -/
def State.curtDevWrite (s : State) (v : Word) : State :=
  let part := v.toNat % 64
  let s := if v.getLsbD 9 then s.curtSend part true else s
  if v.getLsbD 8 then s.curtSend part false else s
/-- A write of WDOGq (R427): the limits by a writer with privilege, KICK by any that may write. -/
def State.wdogWrite (s : State) (q : Nat) (v : Word) (priv : Bool) : State :=
  let s := if priv then s.setCrGlob 0 (0x2c0 + q) (maskedW (2 ^ 52 - 1) (s.crGlob 0 (0x2c0 + q)) v) else s
  if v.getLsbD 56 then s.wdogKick q else s
/-- A write of PMCTL (R248, R251): SIZE, then END, then GO. -/
def State.pmWrite (s : State) (d c : Nat) (v : Word) : State :=
  let s := s.crPlain c 0x192 v
  let s := if v.getLsbD 12 then s.moveEnd d else s
  if v.getLsbD 4 then s.moveGo d else s

/-- Write a control register (R10, R135), the privilege checks passed. `priv` says that the writer has the privilege of
R250. A register that is read only is left as it is. -/
def State.crWrite (s : State) (p : Place) (n : Nat) (v : Word) (priv : Bool) : State :=
  let c := p.core
  let d := Config.dieOf c
  if crXZero c n then s
  else if 0x080 ≤ n ∧ n ≤ 0x097 then s.modBank p fun b => b.setSeg c n v
  else if 0x200 ≤ n ∧ n ≤ 0x206 then s.modSeat c p.num fun t => { t with stalls := mset t.stalls (n - 0x200) v }
  else if 0x2a0 ≤ n ∧ n ≤ 0x2bf then s.szgrpWrite (n - 0x2a0) v
  else if 0x2c0 ≤ n ∧ n ≤ 0x2ff then s.wdogWrite (n - 0x2c0) v priv
  else if 0x320 ≤ n ∧ n ≤ 0x323 then s.timerWrite c n v
  else match n with
  | 0x000 => s.modBank p fun b => { b with schk := v.getLsbD 0 }
  | 0x001 => s.modBank p fun b => { b with frm := v.setWidth 2 }
  | 0x002 => s.modBank p fun b => { b with amax := v.setWidth 32 }
  | 0x004 => s.modBank p fun b => { b with repriseLimit := if v.setWidth 8 = (0 : BitVec 8) then 1 else v.setWidth 8 }
  | 0x103 => s.modBank p fun b => { b with joinc := v.setWidth 19 }
  | 0x188 => let s := s.crPlain c n v; if v.getLsbD 17 then s.l1Inv c else s
  | 0x189 => s.grhostWrite c v
  | 0x18c => s.mnqHeadWrite d v
  | 0x18f => s.migAck d v
  | 0x192 => s.pmWrite d c v
  | 0x193 => s.tlbInvWrite v
  | 0x282 => s.modBank p fun b => { b with epc := v >>> 2 <<< 2 }
  | 0x28c =>
    let s := if v.getLsbD 16 then s.preResend c else s
    if v.getLsbD 0 then s.preRequest c 1 else s
  | 0x28e => s.modSeat c p.num fun t => { t with
      swsel := (maskedW 0x03ff_7fff t.swsel v) &&& ~~~(v &&& 0x8000_0000) }
  | 0x28f => s.swCmd p v
  | 0x293 => s.curtWrite c v
  | 0x297 => s.pageWake v
  | 0x301 => s.doorbell v
  | 0x302 => s.modSeat c p.num fun t => { t with qsel := v.setWidth 6 }
  | 0x312 => if v.toNat % 1024 < Config.cores then s.coreReset (v.toNat % 1024) else s
  | 0x309 =>
    let t := s.crPlain c n v
    -- an understudy that becomes primary answers the doorbells that wait (R446)
    if s.understudy && !t.understudy then t.ringWaiting else t
  | 0x313 => s.curtDevWrite v
  | _ => if crMask c n = 0 then s else s.crPlain c n v

/-! crd and cwr (R135). -/

/-- crd. -/
def execCrd (f : FmtS) (s : State) : Out :=
  let n := f.imm.toNat
  if crUnlisted s.cur.core n then illegalHere s else
  issue { srcs := [], dst := some f.ra.toNat, lat := .fixed 2 } f.hold
    (fun x s => .done s (some (s.crRead x.p n)) none) s

/-- An operation issued before the write names the bank (R233). -/
def State.bfBusy (s : State) (c b below : Nat) : Bool :=
  (s.core c).queues.any fun q => q.2.any fun e => e.id < below && e.names b
/-- A bank's format register is written. -/
def State.bfPut (s : State) (c b : Nat) (v : Word) : State := s.crPlain c (0x1c0 + b) v

/-- A BFMT write from a seat (R233): it has begun, and it retires after 128 clk once no earlier operation names the
bank. -/
def bfAct (b : Ctx → Nat) (v : Ctx → Word) (x : Ctx) (s : State) : Act :=
  let c := x.p.core
  match (s.bank x.p).wip with
  | .bfmt b v ready below =>
    if s.clk < ready || s.bfBusy c b below then .wait .memory else .done (s.bfPut c b v) none none
  | _ => .begun (s.modBank x.p fun k => { k with wip := .bfmt (b x) (v x) (s.clk + 128) (s.core c).ids })

/-- cwr. -/
def execCwr (f : FmtS) (s : State) : Out :=
  let n := f.imm.toNat
  if crUnlisted s.cur.core n then illegalHere s else
  issueChk { srcs := [isrc f.ra] } f.hold (crPrivChk n)
    (fun x s =>
      if 0x1c0 ≤ n ∧ n ≤ 0x1ff then bfAct (fun _ => n - 0x1c0) (fun x => x.v 0) x s
      else .done (s.crWrite x.p n (x.v 0) (s.isSuper x.p.core)) none none) s

/-! bfset and bfrd (R284). -/

/-- The bank number of value(ra). -/
def bfNum (x : Ctx) : Nat := (x.v 0).toNat % 64
/-- A bank that the tile does not have. -/
def bfChk (x : Ctx) (_ : State) : Option Act :=
  if !Config.isX x.p.core && decide (24 ≤ bfNum x) then some (.trap .addrUnmapped 0 (some (w64 (bfNum x)))) else none

/-- bfset. -/
def execBfset (f : FmtS) (s : State) : Out :=
  issueChk { srcs := [isrc f.ra, (f.imm.toNat % 64, .int)] } f.hold bfChk (bfAct bfNum fun x => x.v 1) s
/-- bfrd. -/
def execBfrd (f : FmtS) (s : State) : Out :=
  issueChk { srcs := [isrc f.ra], dst := some (f.imm.toNat % 64), lat := .fixed 2 } f.hold bfChk
    (fun x s => .done s (some (s.crCore x.p.core (0x1c0 + bfNum x))) none) s

/-! swin and swin.w (R411). -/

/-- Read selector `n` of a halted bank. -/
def State.swRead (s : State) (q : Place) (crn n : Nat) : Word :=
  if n < 60 then s.reg q n
  else if n = 60 then (s.bank q).pc
  else if n = 61 ∧ crListed q.core crn = true then s.crRead q crn else 0
/-- Write selector `n` of a halted bank. -/
def State.swWrite (s : State) (q : Place) (crn n : Nat) (v : Word) : State :=
  if n < 60 then s.setReg q n v
  else if n = 60 then s.modBank q fun b => { b with pc := v >>> 2 <<< 2 }
  else if n = 61 ∧ crListed q.core crn = true then
    (if 0x1c0 ≤ crn ∧ crn ≤ 0x1ff then s.bfPut q.core (crn - 0x1c0) v else s.crWrite q crn v true)
  else s
/-- SWSEL.CRN of a seat. -/
def State.swCrn (s : State) (p : Place) : Nat := bits (s.seat p.core p.num).swsel.toNat 25 16

/-- swin. -/
def execSwin (f : FmtS) (s : State) : Out :=
  issueChk { srcs := [], dst := some f.ra.toNat, lat := .var } f.hold needHandler
    (fun x s =>
      let q := s.swPlace x.p
      if s.swOwn x.p q && s.swHalted q then .done s (some (s.swRead q (s.swCrn x.p) f.imm.toNat)) none
      else .done (s.swErr x.p) (some 0) none) s
/-- swin.w. -/
def execSwinW (f : FmtS) (s : State) : Out :=
  issueChk { srcs := [isrc f.ra] } f.hold needHandler
    (fun x s =>
      let q := s.swPlace x.p
      if s.swOwn x.p q && s.swHalted q then .done (s.swWrite q (s.swCrn x.p) f.imm.toNat (x.v 0)) none none
      else .done (s.swErr x.p) none none) s

/-! The events. -/

/-- A seat and bank that the core has. -/
def placeOk (p : Place) : Bool :=
  decide (p.core < Config.cores) && decide (p.seat < Config.seats p.core) && decide (p.bank < if Config.isX p.core then 4 else 1)

/-- The core number by which REGISTER_WRITE stands for the host (log 64). -/
def hostCore : Nat := 1024
/-- A register of the host's window: those of module scope from 0x300 on (R450). -/
def hostWindow (n : Nat) : Bool := decide (0x300 ≤ n) && decide (n < 0x320) && crModule n && crListed 0 n
/-- REGISTER_WRITE (R10): a write of the seat at `p`, with the privilege that the seat has, or, with `hostCore`, of the host
through its window, with privilege (R450); numbers from 0x400 on are engine registers, 0x400 + eng * 0x200 + n. A write
that the writer may not make changes nothing. -/
def State.regWrite (s : State) (p : Place) (n : Nat) (v : Word) : State :=
  if p.core = hostCore then (if hostWindow n then s.crWrite ⟨0, 0, 0⟩ n v true else s)
  else if !placeOk p then s
  else if n < 0x400 then
    if !crListed p.core n || s.crDenied p n v then s
    else if 0x1c0 ≤ n ∧ n ≤ 0x1ff then s.bfPut p.core (n - 0x1c0) v
    else s.crWrite p n v (s.isSuper p.core)
  else
    let eng := (n - 0x400) / 0x200
    let k := (n - 0x400) % 0x200
    if eng < 8 ∧ okEngReg (BitVec.ofNat 3 eng) (BitVec.ofNat 9 k) = true ∧ engUnlisted p.core eng k = false ∧
        s.engDenied p eng k = false then
      s.engRegWrite p eng k v
    else s

/-- BFMT_WRITE (R233): nothing while an operation that names the bank has not completed. -/
def State.bfmtWrite (s : State) (c b : Nat) (v : Word) : State :=
  if s.bfBusy c b (s.core c).ids || !crListed c (0x1c0 + b % 64) then s else s.bfPut c (b % 64) v

/-- REGISTER_WRITE (R10). -/
def execRegisterWrite (core seat bank num : Nat) (v : Word) (s : State) : Out := .next (s.regWrite ⟨core, seat, bank⟩ num v)
/-- BFMT_WRITE (R233). -/
def execBfmtWrite (core b : Nat) (v : Word) (s : State) : Out := .next (s.bfmtWrite core b v)
/-- FHEAD_WRITE (R410): the records below HEAD are free, and a fault message that waits can arrive. -/
def execFheadWrite (core : Nat) (v : Word) (s : State) : Out := .next (s.crPlain core 0x291 v)

end Sys2Proof.Machine
end

