-- ==== Sys2Proof/Machine/Ingress.lean ====
section
/-! DEFINITION. Engine 6 and the event ingress units (spec/14 R336-R343). -/
namespace Sys2Proof.Machine

/-- evput (R341). -/
def execEvput (f : FmtCop) (s : State) : Out :=
  cop 6 f.q.toNat 0 f.sa f.sb f.hold noChk s

/-- A record on its way through the routes: its source, virtual channel, cell of x and y when it is an event, the time
that its marker names, its bits (R338, R339). -/
structure EvRec where
  src : Nat
  vc : Option Nat
  xy : Option (Nat × Nat)
  time : Nat
  val : Nat
  /-- the timestamp that its message carries (R262): of an end record, that of the release of its frame (R336) -/
  ts : Nat

/-- A route takes a record (R339). -/
def routeTakes (r : Nat) (e : EvRec) : Bool :=
  bit r 63 && (bits r 16 13 == 15 || bits r 16 13 == e.src) &&
  (match e.vc with | some v => bit r 21 || bits r 20 17 == v | none => true) &&
  (match e.xy with
   | some (x, y) => bits r 27 22 ≤ x / 32 && x / 32 ≤ bits r 33 28 && bits r 39 34 ≤ y / 32 && y / 32 ≤ bits r 45 40
   | none => true)

/-- A record reaches the event queue of a seat (R339): marker, overflow record, record, if all fit. DESIGN CHOICE (log 40): one
whose CORE is 832 or more, or whose SEAT the tile does not have, is dropped and counted nowhere. -/
def State.evDeliver (s : State) (c i : Nat) (start : Option Nat) (e : EvRec) : State :=
  if Config.cores ≤ c ∨ Config.seats c ≤ i then s else
  let s := s.modCore c fun k => { k with csts := max k.csts e.ts }
  let t := s.seat c i
  let mark := BitVec.ofNat 30 (e.time / 2 ^ 34)
  let pre := (if t.evMark = some mark then [] else [w64 (2 + mark.toNat * 16)]) ++
    (if t.evDrop = 0 then [] else [w64 (3 + t.evDrop.toNat * 16)])
  if t.evq.length + pre.length + 1 ≤ 32 then
    let s' := s.modSeat c i fun t => { t with evq := t.evq ++ pre ++ [w64 e.val], evMark := some mark, evDrop := 0 }
    match start with
    | some off => if t.evq.isEmpty && Config.isX c then s'.reflexStart c off else s'
    | none => s'
  else s.modSeat c i fun t => { t with evDrop := if t.evDrop = -1 then t.evDrop else t.evDrop + 1 }

/-- Route a record of a die: the first enabled route that takes it, else the virtual one, else it is dropped (R339). -/
def State.evRoute (s : State) (die : Nat) (virt : Option (Nat × Nat)) (e : EvRec) : State :=
  match ((List.range 64).map fun i => (mget s.evRoutes (die * 64 + i) 0).toNat).find? (routeTakes · e) with
  | some r => s.evDeliver (bits r 9 0) (bits r 12 10) (if bit r 46 then some (bits r 62 47 * 64) else none) e
  | none =>
    match virt with
    | some (c, i) => s.evDeliver c i none e
    | none => s.unitCount (unitDie die) 6 0x128 1

/-- EVPUT_STEP (R341). -/
def State.evputStep (s : State) (c q : Nat) : State :=
  let key := 96 + q
  match s.headCmd c key with
  | none => s
  | some e =>
    if s.runnable c key e = false then s else
    let a := e.sa.toNat
    (s.evRoute (Config.dieOf c) (some (bits a 9 0, bits a 12 10))
      ⟨9, none, none, s.dtime, e.sb.toNat / 16 * 16 + 6, e.pts⟩).complete c key

/-- EIRXn of a receiver. -/
def State.eirx (s : State) (die rx : Nat) : Nat := (s.eregUnit (unitDie die) 6 (0x100 + rx % 4)).toNat
/-- A packet is dropped and counted (R336). -/
def State.evErr (s : State) (die rx : Nat) : State := s.unitCount (unitDie die) 6 (0x120 + rx % 4) 1

/-- The words of a payload; a fragment of fewer than 4 bytes is ignored (R337). -/
def evWords (bs : List Byte) : List Nat :=
  (List.range (bs.length / 4)).map fun i => leNat ((bs.drop (4 * i)).take 4)

/-- CSI_EVENT_PACKET (R336, R337, R339): `good` is false for an uncorrectable header, a bad CRC, or bytes that read
uncorrectable. -/
def State.csiEvents (s : State) (die rx vc dt : Nat) (good : Bool) (bytes : List Byte) : State :=
  let r := s.eirx die rx
  if !bit r 0 then s
  else if !good || dt != bits r 15 8 then s.evErr die rx
  else
    let tick := max 1 (bits r 25 16)
    ((evWords bytes).foldl (fun (a : State × Nat) w =>
      let t := a.2 + bits w 31 24 * tick
      let x := bits w 10 0
      let y := bits w 21 11
      (a.1.evRoute die none ⟨die * 4 + rx % 4, some vc, some (x, y), t,
        1 + rx % 4 * 16 + bits w 22 22 * 2 ^ 7 + x * 2 ^ 8 + y * 2 ^ 19 + t % 2 ^ 34 * 2 ^ 30, 0⟩, t)) (s, s.dtime)).1

/-- The image data types of R336: YUV422 8-bit, RAW8, RAW10, RAW12 and embedded data, by their CSI-2 numbers. -/
def imageType (dt : Nat) : Bool := dt == 0x1e || dt == 0x2a || dt == 0x2b || dt == 0x2c || dt == 0x12

/-- Key of a receiver's frames: 0-15 a virtual channel, 16 the receiver itself. -/
def frameKey (die rx vc : Nat) : Nat := (die * 4 + rx % 4) * 17 + vc
/-- Frames begun at a receiver, in the order in which they began. -/
def State.frames0 (s : State) (die rx : Nat) : Nat := (mget s.frames (frameKey die rx 16) (0, 0)).1

/-- The open frame of a virtual channel: its number and the bytes written. Where none is open, the next number is taken: each
frame has its own slot, whatever other channels send meanwhile (R336). -/
def State.openFrame (s : State) (die rx vc : Nat) : State × Nat × Nat :=
  match s.frames.find? (·.1 == frameKey die rx (vc % 16)) with
  | some f => (s, f.2)
  | none =>
    let n := s.frames0 die rx
    ({ s with frames := mset (mset s.frames (frameKey die rx 16) (n + 1, 0)) (frameKey die rx (vc % 16)) (n, 0) }, n, 0)

/-- CSI_IMAGE_PACKET (R336): bytes go into the frame's slot; those beyond it are dropped. -/
def State.csiImage (s : State) (die rx vc dt : Nat) (good : Bool) (bytes : List Byte) : State :=
  let r := s.eirx die rx
  if !bit r 0 then s
  else if !good || !imageType dt then s.evErr die rx
  else
    let (s, n, len) := s.openFrame die rx vc
    let size := bits r 47 32 * 4096
    let ring := (s.eregUnit (unitDie die) 6 (0x108 + rx % 4)).toNat
    let slot := n % 2 ^ bits ring 11 8
    let bs := bytes.take (size - len)
    let s := s.devWrite 0 (cellsAt (bits ring 47 12 * 4096 + slot * size + len) bs)
    { s with frames := mset s.frames (frameKey die rx (vc % 16)) (n, len + bs.length) }

/-- CSI_FRAME_MARK (R338): a frame start or end. A start opens a new frame of its virtual channel. -/
def State.csiMark (s : State) (die rx vc : Nat) (isEnd : Bool) : State :=
  if !bit (s.eirx die rx) 0 then s else
  let close := fun (s : State) => { s with frames := s.frames.filter fun f => f.1 != frameKey die rx (vc % 16) }
  let (s, n, _) := (if isEnd then s else close s).openFrame die rx vc
  let s := s.evRoute die none ⟨die * 4 + rx % 4, some vc, none, s.dtime,
    5 + rx % 4 * 16 + b2n isEnd * 2 ^ 7 + vc % 16 * 2 ^ 8 + n % 2 ^ 18 * 2 ^ 12 + s.dtime % 2 ^ 34 * 2 ^ 30, if isEnd then s.lastTs else 0⟩
  if isEnd then close s else s

/-- PPS_EDGE (R336, R338): the pulse input is on die 0. -/
def State.ppsEdge (s : State) (die : Nat) : State :=
  if die ≠ 0 then s else
  let n := (s.pulses + 1) % 2 ^ 26
  ({ s with pulses := n }).evRoute 0 none ⟨8, none, none, s.dtime, 4 + n * 16 + s.dtime % 2 ^ 34 * 2 ^ 30, 0⟩

end Sys2Proof.Machine
end

