-- ==== Sys2Proof/Machine/EngineEvents.lean ====
section
/-! DEFINITION. The steps of the engines as events (spec/13 to spec/15): each is one call of the engine's own step. -/
namespace Sys2Proof.Machine

/-- MMA_STEP (R300, R301). -/
def execMmaStep (core q : Nat) (s : State) : Out := .next (s.mmaStep core q)
/-- MZERO_STEP (R304). -/
def execMzeroStep (core q : Nat) (s : State) : Out := .next (s.mzeroStep core q)
/-- MDRAIN_STEP (R306). -/
def execMdrainStep (core q : Nat) (s : State) : Out := .next (s.mdrainStep core q)
/-- MCTL_RESUME (R296, R305). -/
def execMctlResume (core q : Nat) (s : State) : Out := .next (s.engResume core q)
/-- MCTL_ABORT (R296, R305). -/
def execMctlAbort (core q : Nat) (s : State) : Out := .next (s.engAbort core q)
/-- TILE_TASK_POST (R310). -/
def execTileTaskPost (cluster : Nat) (s : State) : Out := .next (s.taskPost cluster)
/-- TILE_TASK_ISSUE (R311). -/
def execTileTaskIssue (cluster : Nat) (s : State) : Out := .next (s.taskIssue cluster)
/-- COPY_STEP (R320, R321). -/
def execCopyStep (core c : Nat) (s : State) : Out := .next (s.copyStep core c)
/-- CCMD_RESUME (R325). -/
def execCcmdResume (core c : Nat) (s : State) : Out := .next (s.engResume core (16 + c))
/-- CCMD_ABORT (R325). -/
def execCcmdAbort (core c : Nat) (s : State) : Out := .next (s.copyAbort core c)
/-- SAMPLER_BARRIER_CHECK (R349). -/
def execSamplerBarrierCheck (core q : Nat) (s : State) : Out := .next (s.sampBarrier core q)
/-- SAMPLER_SCAN_STEP (R350). -/
def execSamplerScanStep (core q : Nat) (s : State) : Out := .next (s.sampScan core q)
/-- SAMPLER_GATHER (R351). -/
def execSamplerGather (core q : Nat) (s : State) : Out := .next (s.sampGather core q)
/-- SAMPLER_DELIVER (R351, R352). -/
def execSamplerDeliver (core q : Nat) (s : State) : Out := .next (s.sampDeliver core q)
/-- SDRAW_STEP (R348). -/
def execSdrawStep (core q : Nat) (s : State) : Out := .next (s.sdrawStep core q)
/-- SCTL_RESUME (R346). -/
def execSctlResume (core q : Nat) (s : State) : Out := .next (s.sampResume core q)
/-- SCTL_ABORT (R346). -/
def execSctlAbort (core q : Nat) (s : State) : Out := .next (s.sampAbort core q)
/-- GSTEP_APPLY (R360). -/
def execGstepApply (core q : Nat) (s : State) : Out := .next (s.gstepApply core q)
/-- GMASK_STEP (R361). -/
def execGmaskStep (core q : Nat) (s : State) : Out := .next (s.gmaskStep core q)
/-- GFLUSH_APPLY (R361). -/
def execGflushApply (core q : Nat) (s : State) : Out := .next (s.gflushApply core q)
/-- GCTL_RESUME (R364). -/
def execGctlResume (core q : Nat) (s : State) : Out := .next (s.engResume core (48 + q))
/-- GCTL_ABORT (R364). -/
def execGctlAbort (core q : Nat) (s : State) : Out := .next (s.engAbort core (48 + q))
/-- STREAM_EVENT_ARRIVAL (R368). -/
def execStreamEventArrival (core q : Nat) (s : State) : Out := .next (s.streamArrive core q)
/-- STREAM_EVENT_APPLY (R368). -/
def execStreamEventApply (die k : Nat) (s : State) : Out := .next (s.streamApply die k)
/-- CPOST_STEP (R329). -/
def execCpostStep (core q : Nat) (s : State) : Out := .next (s.cpostStep core q)
/-- CPUBL_APPLY (R329). -/
def execCpublApply (core q : Nat) (s : State) : Out := .next (s.cpublApply core q)
/-- CADDY_FLIP (R330). -/
def execCaddyFlip (die mb : Nat) (s : State) : Out := .next (s.caddyFlip die mb)
/-- CREAD_STEP (R331). -/
def execCreadStep (core q : Nat) (s : State) : Out := .next (s.creadStep core q)
/-- CXDESC_WRITE (R335). -/
def execCxdescWrite (die mb : Nat) (v : Word) (s : State) : Out := .next (s.cxdescWrite die mb v)
/-- EVPUT_STEP (R341). -/
def execEvputStep (core q : Nat) (s : State) : Out := .next (s.evputStep core q)
/-- CSI_EVENT_PACKET (R336, R337). -/
def execCsiEventPacket (die rx vc dt : Nat) (good : Bool) (bytes : List Byte) (s : State) : Out :=
  .next (s.csiEvents die rx vc dt good bytes)
/-- CSI_IMAGE_PACKET (R336). -/
def execCsiImagePacket (die rx vc dt : Nat) (good : Bool) (bytes : List Byte) (s : State) : Out :=
  .next (s.csiImage die rx vc dt good bytes)
/-- CSI_FRAME_MARK (R338). -/
def execCsiFrameMark (die rx vc : Nat) (isEnd : Bool) (s : State) : Out := .next (s.csiMark die rx vc isEnd)
/-- PPS_EDGE (R336, R338). -/
def execPpsEdge (die : Nat) (s : State) : Out := .next (s.ppsEdge die)

end Sys2Proof.Machine
end

