-- ==== Sys2Proof/Machine/Forms.lean ====
section
/-! DEFINITION. The meaning of a decoded form: the same calls as Dispatch makes for the instruction it stands for. The step
runs a form, since the compiler builds no constructor of so large an inductive (Laws/Forms.lean: both agree). -/
namespace Sys2Proof.Machine

/-- The meanings of the R format. -/
def runR (op : OpR) (f : FmtR) (s : State) : Out :=
  match op with
  | .add => Sys2Proof.Machine.execAdd f s
  | .sub => Sys2Proof.Machine.execSub f s
  | .and => Sys2Proof.Machine.execAnd f s
  | .or => Sys2Proof.Machine.execOr f s
  | .xor => Sys2Proof.Machine.execXor f s
  | .andn => Sys2Proof.Machine.execAndn f s
  | .orn => Sys2Proof.Machine.execOrn f s
  | .sll => Sys2Proof.Machine.execSll f s
  | .srl => Sys2Proof.Machine.execSrl f s
  | .sra => Sys2Proof.Machine.execSra f s
  | .rol => Sys2Proof.Machine.execRol f s
  | .ror => Sys2Proof.Machine.execRor f s
  | .min => Sys2Proof.Machine.execMin f s
  | .max => Sys2Proof.Machine.execMax f s
  | .minu => Sys2Proof.Machine.execMinu f s
  | .maxu => Sys2Proof.Machine.execMaxu f s
  | .adds => Sys2Proof.Machine.execAdds f s
  | .subs => Sys2Proof.Machine.execSubs f s
  | .addus => Sys2Proof.Machine.execAddus f s
  | .subus => Sys2Proof.Machine.execSubus f s
  | .clz => Sys2Proof.Machine.execClz f s
  | .ctz => Sys2Proof.Machine.execCtz f s
  | .popc => Sys2Proof.Machine.execPopc f s
  | .bswap => Sys2Proof.Machine.execBswap f s
  | .abs => Sys2Proof.Machine.execAbs f s
  | .mul => Sys2Proof.Machine.execMul f s
  | .mulh => Sys2Proof.Machine.execMulh f s
  | .mulhu => Sys2Proof.Machine.execMulhu f s
  | .mulhsu => Sys2Proof.Machine.execMulhsu f s
  | .div => Sys2Proof.Machine.execDiv f s
  | .divu => Sys2Proof.Machine.execDivu f s
  | .rem => Sys2Proof.Machine.execRem f s
  | .remu => Sys2Proof.Machine.execRemu f s
  | .cmpeq => Sys2Proof.Machine.execCmpeq f s
  | .cmpne => Sys2Proof.Machine.execCmpne f s
  | .cmplt => Sys2Proof.Machine.execCmplt f s
  | .cmpge => Sys2Proof.Machine.execCmpge f s
  | .cmpltu => Sys2Proof.Machine.execCmpltu f s
  | .cmpgeu => Sys2Proof.Machine.execCmpgeu f s
  | .csel => Sys2Proof.Machine.execCsel f s
  | .cmovz => Sys2Proof.Machine.execCmovz f s
  | .cmovnz => Sys2Proof.Machine.execCmovnz f s
  | .bfxur => Sys2Proof.Machine.execBfxur f s
  | .bfxsr => Sys2Proof.Machine.execBfxsr f s
  | .bfir => Sys2Proof.Machine.execBfir f s
  | .jr => Sys2Proof.Machine.execJr f s
  | .jlr => Sys2Proof.Machine.execJlr f s
  | .ret => Sys2Proof.Machine.execRet f s
  | .spawn => Sys2Proof.Machine.execSpawn f s
  | .join => Sys2Proof.Machine.execJoin f s
  | .suspend => Sys2Proof.Machine.execSuspend f s
  | .yield => Sys2Proof.Machine.execYield f s
  | .exit => Sys2Proof.Machine.execExit f s
  | .exitJ => Sys2Proof.Machine.execExitJ f s
  | .wake => Sys2Proof.Machine.execWake f s
  | .bar => Sys2Proof.Machine.execBar f s
  | .chain => Sys2Proof.Machine.execChain f s
  | .send => Sys2Proof.Machine.execSend f s
  | .mclr => Sys2Proof.Machine.execMclr f s
  | .mwait => Sys2Proof.Machine.execMwait f s
  | .mwaitAny => Sys2Proof.Machine.execMwaitAny f s

/-- The meanings of the I format. -/
def runI (op : OpI) (f : FmtI) (s : State) : Out :=
  match op with
  | .addi => Sys2Proof.Machine.execAddi f s
  | .andi => Sys2Proof.Machine.execAndi f s
  | .ori => Sys2Proof.Machine.execOri f s
  | .xori => Sys2Proof.Machine.execXori f s

/-- The meanings of the Sh format. -/
def runSh (op : OpSh) (f : FmtSh) (s : State) : Out :=
  match op with
  | .slli => Sys2Proof.Machine.execSlli f s
  | .srli => Sys2Proof.Machine.execSrli f s
  | .srai => Sys2Proof.Machine.execSrai f s
  | .rori => Sys2Proof.Machine.execRori f s

/-- The meanings of the Slt format. -/
def runSlt (op : OpSlt) (f : FmtSlt) (s : State) : Out :=
  match op with
  | .slti => Sys2Proof.Machine.execSlti f s
  | .sltiu => Sys2Proof.Machine.execSltiu f s
  | .seqi => Sys2Proof.Machine.execSeqi f s
  | .snei => Sys2Proof.Machine.execSnei f s

/-- The meanings of the BF format. -/
def runBF (op : OpBF) (f : FmtBF) (s : State) : Out :=
  match op with
  | .bfxu => Sys2Proof.Machine.execBfxu f s
  | .bfxs => Sys2Proof.Machine.execBfxs f s
  | .bfi => Sys2Proof.Machine.execBfi f s

/-- The meanings of the FR format. -/
def runFR (op : OpFR) (f : FmtFR) (s : State) : Out :=
  match op with
  | .fadd => Sys2Proof.Machine.execFadd f s
  | .fsub => Sys2Proof.Machine.execFsub f s
  | .fmul => Sys2Proof.Machine.execFmul f s
  | .fdiv => Sys2Proof.Machine.execFdiv f s
  | .fsqrt => Sys2Proof.Machine.execFsqrt f s
  | .fmadd => Sys2Proof.Machine.execFmadd f s
  | .fmsub => Sys2Proof.Machine.execFmsub f s
  | .fnmsub => Sys2Proof.Machine.execFnmsub f s
  | .fnmadd => Sys2Proof.Machine.execFnmadd f s

/-- The meanings of the FT format. -/
def runFT (op : OpFT) (f : FmtFT) (s : State) : Out :=
  match op with
  | .fmin => Sys2Proof.Machine.execFmin f s
  | .fmax => Sys2Proof.Machine.execFmax f s
  | .fsgnj => Sys2Proof.Machine.execFsgnj f s
  | .fsgnjn => Sys2Proof.Machine.execFsgnjn f s
  | .fsgnjx => Sys2Proof.Machine.execFsgnjx f s
  | .fclass => Sys2Proof.Machine.execFclass f s
  | .feq => Sys2Proof.Machine.execFeq f s
  | .fne => Sys2Proof.Machine.execFne f s
  | .flt => Sys2Proof.Machine.execFlt f s
  | .fle => Sys2Proof.Machine.execFle f s
  | .funord => Sys2Proof.Machine.execFunord f s

/-- The meanings of the C format. -/
def runC (op : OpC) (f : FmtC) (s : State) : Out :=
  match op with
  | .faddc => Sys2Proof.Machine.execFaddc f s
  | .fsubc => Sys2Proof.Machine.execFsubc f s
  | .frsubc => Sys2Proof.Machine.execFrsubc f s
  | .fmulc => Sys2Proof.Machine.execFmulc f s
  | .fmulac => Sys2Proof.Machine.execFmulac f s
  | .fmacc => Sys2Proof.Machine.execFmacc f s
  | .fldc => Sys2Proof.Machine.execFldc f s

/-- The meanings of the M format. -/
def runM (op : OpM) (f : FmtM) (s : State) : Out :=
  match op with
  | .ld => Sys2Proof.Machine.execLd f s
  | .st => Sys2Proof.Machine.execSt f s

/-- The meanings of the X format. -/
def runX (op : OpX) (f : FmtX) (s : State) : Out :=
  match op with
  | .ldx => Sys2Proof.Machine.execLdx f s
  | .stx => Sys2Proof.Machine.execStx f s
  | .ldxSx => Sys2Proof.Machine.execLdxSx f s

/-- The meanings of the Amo format. -/
def runAmo (op : OpAmo) (f : FmtAmo) (s : State) : Out :=
  match op with
  | .amoswap => Sys2Proof.Machine.execAmoswap f s
  | .amoadd => Sys2Proof.Machine.execAmoadd f s
  | .amoand => Sys2Proof.Machine.execAmoand f s
  | .amoor => Sys2Proof.Machine.execAmoor f s
  | .amomax => Sys2Proof.Machine.execAmomax f s
  | .amomin => Sys2Proof.Machine.execAmomin f s
  | .amomaxu => Sys2Proof.Machine.execAmomaxu f s
  | .cas => Sys2Proof.Machine.execCas f s

/-- The meanings of the B format. -/
def runB (op : OpB) (f : FmtB) (s : State) : Out :=
  match op with
  | .beqz => Sys2Proof.Machine.execBeqz f s
  | .bnez => Sys2Proof.Machine.execBnez f s
  | .bltz => Sys2Proof.Machine.execBltz f s
  | .bgez => Sys2Proof.Machine.execBgez f s
  | .bgtz => Sys2Proof.Machine.execBgtz f s
  | .blez => Sys2Proof.Machine.execBlez f s
  | .beven => Sys2Proof.Machine.execBeven f s
  | .bodd => Sys2Proof.Machine.execBodd f s

/-- The meanings of the J format. -/
def runJ (op : OpJ) (f : FmtJ) (s : State) : Out :=
  match op with
  | .j => Sys2Proof.Machine.execJ f s
  | .jl => Sys2Proof.Machine.execJl f s

/-- The meanings of the SC format. -/
def runSC (op : OpSC) (f : FmtSC) (s : State) : Out :=
  match op with
  | .scene => Sys2Proof.Machine.execScene f s
  | .sceneChk => Sys2Proof.Machine.execSceneChk f s
  | .redo => Sys2Proof.Machine.execRedo f s
  | .commit => Sys2Proof.Machine.execCommit f s

/-- The meanings of the S format. -/
def runS (op : OpS) (f : FmtS) (s : State) : Out :=
  match op with
  | .nop => Sys2Proof.Machine.execNop f s
  | .halt => Sys2Proof.Machine.execHalt f s
  | .crd => Sys2Proof.Machine.execCrd f s
  | .cwr => Sys2Proof.Machine.execCwr f s
  | .cbw => Sys2Proof.Machine.execCbw f s
  | .cbrd => Sys2Proof.Machine.execCbrd f s
  | .cbld => Sys2Proof.Machine.execCbld f s
  | .lut4ld => Sys2Proof.Machine.execLut4ld f s
  | .bfset => Sys2Proof.Machine.execBfset f s
  | .bfrd => Sys2Proof.Machine.execBfrd f s
  | .prefL1 => Sys2Proof.Machine.execPrefL1 f s
  | .prefL2 => Sys2Proof.Machine.execPrefL2 f s
  | .mhintNear => Sys2Proof.Machine.execMhintNear f s
  | .mhintHome => Sys2Proof.Machine.execMhintHome f s
  | .mhintPage => Sys2Proof.Machine.execMhintPage f s
  | .gang => Sys2Proof.Machine.execGang f s
  | .ungang => Sys2Proof.Machine.execUngang f s
  | .qfenceAll => Sys2Proof.Machine.execQfenceAll f s
  | .trap => Sys2Proof.Machine.execTrap f s
  | .rett => Sys2Proof.Machine.execRett f s
  | .rettRedo => Sys2Proof.Machine.execRettRedo f s
  | .rettKill => Sys2Proof.Machine.execRettKill f s
  | .swin => Sys2Proof.Machine.execSwin f s
  | .swinW => Sys2Proof.Machine.execSwinW f s
  | .csfreeze => Sys2Proof.Machine.execCsfreeze f s
  | .csthaw => Sys2Proof.Machine.execCsthaw f s
  | .seize => Sys2Proof.Machine.execSeize f s
  | .release => Sys2Proof.Machine.execRelease f s

/-- The meanings of the Ord format. -/
def runOrd (op : OpOrd) (f : FmtOrd) (s : State) : Out :=
  match op with
  | .ldAcq => Sys2Proof.Machine.execLdAcq f s
  | .stRel => Sys2Proof.Machine.execStRel f s

/-- The meanings of the Fence format. -/
def runFence (op : OpFence) (f : FmtFence) (s : State) : Out :=
  match op with
  | .fenceAcq => Sys2Proof.Machine.execFenceAcq f s
  | .fenceRel => Sys2Proof.Machine.execFenceRel f s
  | .fenceFull => Sys2Proof.Machine.execFenceFull f s

/-- The meanings of the Wid format. -/
def runWid (op : OpWid) (f : FmtWid) (s : State) : Out :=
  match op with
  | .widf => Sys2Proof.Machine.execWidf f s
  | .widfr => Sys2Proof.Machine.execWidfr f s

/-- The meanings of the Rst format. -/
def runRst (op : OpRst) (f : FmtRst) (s : State) : Out :=
  match op with
  | .rst => Sys2Proof.Machine.execRst f s
  | .rstA => Sys2Proof.Machine.execRstA f s

/-- The meanings of the Rsv format. -/
def runRsv (op : OpRsv) (f : FmtRsv) (s : State) : Out :=
  match op with
  | .rstv => Sys2Proof.Machine.execRstv f s
  | .rstvA => Sys2Proof.Machine.execRstvA f s

/-- The meanings of the V format. -/
def runV (op : OpV) (f : FmtV) (s : State) : Out :=
  match op with
  | .vadd => Sys2Proof.Machine.execVadd f s
  | .vsub => Sys2Proof.Machine.execVsub f s
  | .vmul => Sys2Proof.Machine.execVmul f s
  | .vmulh => Sys2Proof.Machine.execVmulh f s
  | .vmulhu => Sys2Proof.Machine.execVmulhu f s
  | .vand => Sys2Proof.Machine.execVand f s
  | .vor => Sys2Proof.Machine.execVor f s
  | .vxor => Sys2Proof.Machine.execVxor f s
  | .vsll => Sys2Proof.Machine.execVsll f s
  | .vsrl => Sys2Proof.Machine.execVsrl f s
  | .vsra => Sys2Proof.Machine.execVsra f s
  | .vmin => Sys2Proof.Machine.execVmin f s
  | .vmax => Sys2Proof.Machine.execVmax f s
  | .vminu => Sys2Proof.Machine.execVminu f s
  | .vmaxu => Sys2Proof.Machine.execVmaxu f s
  | .vadds => Sys2Proof.Machine.execVadds f s
  | .vsubs => Sys2Proof.Machine.execVsubs f s
  | .vaddus => Sys2Proof.Machine.execVaddus f s
  | .vsubus => Sys2Proof.Machine.execVsubus f s
  | .vabs => Sys2Proof.Machine.execVabs f s
  | .vsel => Sys2Proof.Machine.execVsel f s
  | .vcmpeq => Sys2Proof.Machine.execVcmpeq f s
  | .vcmpne => Sys2Proof.Machine.execVcmpne f s
  | .vcmplt => Sys2Proof.Machine.execVcmplt f s
  | .vcmpge => Sys2Proof.Machine.execVcmpge f s
  | .vcmpltu => Sys2Proof.Machine.execVcmpltu f s
  | .vcmpgeu => Sys2Proof.Machine.execVcmpgeu f s
  | .vfmin => Sys2Proof.Machine.execVfmin f s
  | .vfmax => Sys2Proof.Machine.execVfmax f s
  | .vfabs => Sys2Proof.Machine.execVfabs f s
  | .vfneg => Sys2Proof.Machine.execVfneg f s
  | .vfsgnj => Sys2Proof.Machine.execVfsgnj f s
  | .vfeq => Sys2Proof.Machine.execVfeq f s
  | .vflt => Sys2Proof.Machine.execVflt f s
  | .vfle => Sys2Proof.Machine.execVfle f s
  | .vfun => Sys2Proof.Machine.execVfun f s
  | .vrcp => Sys2Proof.Machine.execVrcp f s
  | .vrsqrt => Sys2Proof.Machine.execVrsqrt f s
  | .vexp2 => Sys2Proof.Machine.execVexp2 f s
  | .vlog2 => Sys2Proof.Machine.execVlog2 f s
  | .vtanh => Sys2Proof.Machine.execVtanh f s
  | .vsigm => Sys2Proof.Machine.execVsigm f s
  | .vsinpi => Sys2Proof.Machine.execVsinpi f s
  | .vcospi => Sys2Proof.Machine.execVcospi f s
  | .vperm => Sys2Proof.Machine.execVperm f s
  | .vmov => Sys2Proof.Machine.execVmov f s
  | .vcvtSI => Sys2Proof.Machine.execVcvtSI f s
  | .vcvtIS => Sys2Proof.Machine.execVcvtIS f s
  | .vcvtSH => Sys2Proof.Machine.execVcvtSH f s
  | .vcvtHS => Sys2Proof.Machine.execVcvtHS f s
  | .vcvtSBf => Sys2Proof.Machine.execVcvtSBf f s
  | .vcvtBfS => Sys2Proof.Machine.execVcvtBfS f s
  | .vcvtSU => Sys2Proof.Machine.execVcvtSU f s
  | .vcvtUS => Sys2Proof.Machine.execVcvtUS f s
  | .kand => Sys2Proof.Machine.execKand f s
  | .kor => Sys2Proof.Machine.execKor f s
  | .kxor => Sys2Proof.Machine.execKxor f s
  | .kandn => Sys2Proof.Machine.execKandn f s
  | .knot => Sys2Proof.Machine.execKnot f s
  | .vfence => Sys2Proof.Machine.execVfence f s
  | .vgmov => Sys2Proof.Machine.execVgmov f s
  | .vgadd => Sys2Proof.Machine.execVgadd f s
  | .vgfadd => Sys2Proof.Machine.execVgfadd f s
  | .vgfmax => Sys2Proof.Machine.execVgfmax f s

/-- The meanings of the VF format. -/
def runVF (op : OpVF) (f : FmtVF) (s : State) : Out :=
  match op with
  | .vfadd => Sys2Proof.Machine.execVfadd f s
  | .vfsub => Sys2Proof.Machine.execVfsub f s
  | .vfmul => Sys2Proof.Machine.execVfmul f s
  | .vfdiv => Sys2Proof.Machine.execVfdiv f s
  | .vfsqrt => Sys2Proof.Machine.execVfsqrt f s
  | .vfmadd => Sys2Proof.Machine.execVfmadd f s
  | .vfmsub => Sys2Proof.Machine.execVfmsub f s
  | .vfnmsub => Sys2Proof.Machine.execVfnmsub f s

/-- The meanings of the VS format. -/
def runVS (op : OpVS) (f : FmtVS) (s : State) : Out :=
  match op with
  | .vaddVs => Sys2Proof.Machine.execVaddVs f s
  | .vsubVs => Sys2Proof.Machine.execVsubVs f s
  | .vrsubVs => Sys2Proof.Machine.execVrsubVs f s
  | .vmulVs => Sys2Proof.Machine.execVmulVs f s
  | .vandVs => Sys2Proof.Machine.execVandVs f s
  | .vorVs => Sys2Proof.Machine.execVorVs f s
  | .vxorVs => Sys2Proof.Machine.execVxorVs f s
  | .vsllVs => Sys2Proof.Machine.execVsllVs f s
  | .vsrlVs => Sys2Proof.Machine.execVsrlVs f s
  | .vsraVs => Sys2Proof.Machine.execVsraVs f s
  | .vminVs => Sys2Proof.Machine.execVminVs f s
  | .vmaxVs => Sys2Proof.Machine.execVmaxVs f s
  | .vcvtn => Sys2Proof.Machine.execVcvtn f s
  | .vcvtw => Sys2Proof.Machine.execVcvtw f s
  | .vfaddVs => Sys2Proof.Machine.execVfaddVs f s
  | .vfsubVs => Sys2Proof.Machine.execVfsubVs f s
  | .vfrsubVs => Sys2Proof.Machine.execVfrsubVs f s
  | .vfmulVs => Sys2Proof.Machine.execVfmulVs f s
  | .vfmaddVs => Sys2Proof.Machine.execVfmaddVs f s
  | .vfminVs => Sys2Proof.Machine.execVfminVs f s
  | .vfmaxVs => Sys2Proof.Machine.execVfmaxVs f s
  | .vmovVs => Sys2Proof.Machine.execVmovVs f s
  | .vcmpeqVs => Sys2Proof.Machine.execVcmpeqVs f s
  | .vcmpltVs => Sys2Proof.Machine.execVcmpltVs f s
  | .vcmpltuVs => Sys2Proof.Machine.execVcmpltuVs f s
  | .vfeqVs => Sys2Proof.Machine.execVfeqVs f s
  | .vfltVs => Sys2Proof.Machine.execVfltVs f s
  | .vfleVs => Sys2Proof.Machine.execVfleVs f s
  | .vlds => Sys2Proof.Machine.execVlds f s
  | .vsts => Sys2Proof.Machine.execVsts f s
  | .vext => Sys2Proof.Machine.execVext f s
  | .kmovs => Sys2Proof.Machine.execKmovs f s
  | .kset => Sys2Proof.Machine.execKset f s
  | .vstat => Sys2Proof.Machine.execVstat f s
  | .vrot => Sys2Proof.Machine.execVrot f s

/-- The meanings of the VM format. -/
def runVM (op : OpVM) (f : FmtVM) (s : State) : Out :=
  match op with
  | .vld => Sys2Proof.Machine.execVld f s
  | .vst => Sys2Proof.Machine.execVst f s

/-- The meanings of the VG format. -/
def runVG (op : OpVG) (f : FmtVG) (s : State) : Out :=
  match op with
  | .vgather => Sys2Proof.Machine.execVgather f s
  | .vscatter => Sys2Proof.Machine.execVscatter f s

/-- The meanings of the Vr format. -/
def runVr (op : OpVr) (f : FmtVr) (s : State) : Out :=
  match op with
  | .vredadd => Sys2Proof.Machine.execVredadd f s
  | .vredmin => Sys2Proof.Machine.execVredmin f s
  | .vredmax => Sys2Proof.Machine.execVredmax f s
  | .vredminu => Sys2Proof.Machine.execVredminu f s
  | .vredmaxu => Sys2Proof.Machine.execVredmaxu f s
  | .vredand => Sys2Proof.Machine.execVredand f s
  | .vredor => Sys2Proof.Machine.execVredor f s
  | .vredxor => Sys2Proof.Machine.execVredxor f s
  | .vredfadd => Sys2Proof.Machine.execVredfadd f s
  | .vredfmin => Sys2Proof.Machine.execVredfmin f s
  | .vredfmax => Sys2Proof.Machine.execVredfmax f s
  | .vredfamax => Sys2Proof.Machine.execVredfamax f s

/-- The meanings of the Cop format. -/
def runCop (op : OpCop) (f : FmtCop) (s : State) : Out :=
  match op with
  | .mzero => Sys2Proof.Machine.execMzero f s
  | .mmaN => Sys2Proof.Machine.execMmaN f s
  | .mmaH => Sys2Proof.Machine.execMmaH f s
  | .mmaBf => Sys2Proof.Machine.execMmaBf f s
  | .mmaS => Sys2Proof.Machine.execMmaS f s
  | .mdrain => Sys2Proof.Machine.execMdrain f s
  | .mtask => Sys2Proof.Machine.execMtask f s
  | .ssamp => Sys2Proof.Machine.execSsamp f s
  | .sdraw => Sys2Proof.Machine.execSdraw f s
  | .gstep => Sys2Proof.Machine.execGstep f s
  | .gmask => Sys2Proof.Machine.execGmask f s
  | .gflush => Sys2Proof.Machine.execGflush f s
  | .sin => Sys2Proof.Machine.execSin f s
  | .sadv => Sys2Proof.Machine.execSadv f s
  | .stok => Sys2Proof.Machine.execStok f s
  | .sopen => Sys2Proof.Machine.execSopen f s
  | .cpost => Sys2Proof.Machine.execCpost f s
  | .cpubl => Sys2Proof.Machine.execCpubl f s
  | .cread => Sys2Proof.Machine.execCread f s
  | .evput => Sys2Proof.Machine.execEvput f s
  | .csave => Sys2Proof.Machine.execCsave f s
  | .crestore => Sys2Proof.Machine.execCrestore f s

/-- The meanings of the Cpy format. -/
def runCpy (op : OpCpy) (f : FmtCpy) (s : State) : Out :=
  match op with
  | .cpy => Sys2Proof.Machine.execCpy f s
  | .cfill => Sys2Proof.Machine.execCfill f s

/-- The meanings of the Cpw format. -/
def runCpw (op : OpCpw) (f : FmtCpw) (s : State) : Out :=
  match op with
  | .copw => Sys2Proof.Machine.execCopw f s
  | .coprd => Sys2Proof.Machine.execCoprd f s

/-- The meaning of a form. -/
def execForm (i : Form) (s : State) : Out :=
  match i with
  | .r op f => runR op f s
  | .i op f => runI op f s
  | .sh op f => runSh op f s
  | .slt op f => runSlt op f s
  | .k f => Sys2Proof.Machine.execLik f s
  | .bF op f => runBF op f s
  | .fR op f => runFR op f s
  | .fT op f => runFT op f s
  | .c op f => runC op f s
  | .f20 f => Sys2Proof.Machine.execFli f s
  | .cvt f => Sys2Proof.Machine.execCvt f s
  | .m op f => runM op f s
  | .x op f => runX op f s
  | .amo op f => runAmo op f s
  | .b op f => runB op f s
  | .j op f => runJ op f s
  | .sC op f => runSC op f s
  | .s op f => runS op f s
  | .ord op f => runOrd op f s
  | .fence op f => runFence op f s
  | .qf f => Sys2Proof.Machine.execQfence f s
  | .wid op f => runWid op f s
  | .rst op f => runRst op f s
  | .rsv op f => runRsv op f s
  | .v op f => runV op f s
  | .vF op f => runVF op f s
  | .vS op f => runVS op f s
  | .vM op f => runVM op f s
  | .vG op f => runVG op f s
  | .vr op f => runVr op f s
  | .cop op f => runCop op f s
  | .cpy op f => runCpy op f s
  | .cpw op f => runCpw op f s
  | .esy f => Sys2Proof.Machine.execEsync f s
  | .illegal w => Sys2Proof.Machine.execIllegal w s

end Sys2Proof.Machine
end

