-- ==== Sys2Proof/Machine/Barrel.lean ====
section
/-! DEFINITION. The barrel (R21, R147-R149): which seat of a core takes the turn, the empty si of a HOLD, the issue of the
instruction at a seat's PC, gangs in step (R200, R201), and the stall counters. -/
namespace Sys2Proof.Machine

/-! One seat. -/

/-- The state an outcome leaves; `d` when it leaves none. -/
def stateOr (d : State) (o : Out) : State := match o with | .next s => s | _ => d

/-- Run a word as the instruction of the current seat. One that has begun keeps its word. -/
def State.runWord (s : State) (w : W32) : State :=
  let s' := stateOr s (match decodeWord w with | .ok f => execForm f s | .error _ => execIllegal w s)
  if s'.ended = .began then s'.modBank s.cur fun b => { b with word := w } else s'

/-- What a failed fetch of the word at a bank's PC does (R19, R111, R249, R403). -/
def State.fetchFail (s : State) (p : Place) (f : Fetch) : State :=
  let pc := (s.bank p).pc
  match f with
  | .ok _ => s
  | .trap c => s.trapAt p c 0 (some pc) pc 0 0
  | .park slot va sub => match s.park p pc slot va sub with | some s => s | none => s.stall .memory
  | .wait => s.stall .memory
  | .bad sec => s.uncorrectable p pc sec 0 0
  | .home pa => s.joinHome p pa .fetching

/-- The fetches of the words of an instruction count on their pages (R247) and enter the windows of their lines (R240); a gang
follower fetches nothing (R200). -/
def State.countFetch (s : State) (p : Place) (n : Nat) : State :=
  if s.follower p then s else
  (List.range n).foldl (fun (s : State) i =>
    match s.locate p 7 ((s.bank p).pc + w64 (4 * i)).toNat 4 1 false false true with
    | (s', .ok ks page) => (s'.countOn p.core page).l2Access p.core (lineOf (ks.headD 0))
    | _ => s) s

/-- A word is an illegal encoding on core `c`: everywhere, or because its tile does not list the register that it names
(R49, R296, R450). -/
def illegalOn (c : Nat) (w : W32) : Bool :=
  match decodeWord w with
  | .ok (.s .crd f) => crUnlisted c f.imm.toNat
  | .ok (.s .cwr f) => crUnlisted c f.imm.toNat
  | .ok (.cpw _ f) => engUnlisted c f.eng.toNat f.n.toNat
  | .ok _ => false
  | .error _ => true
/-- The words that core `c` fetches for an instruction: of an illegal encoding its own word alone (R19, R51). -/
def wordsAt (c : Nat) (w : W32) : Nat := if illegalOn c w then 1 else wordsOf w

/-- The bank attempts its next instruction: one that has begun goes on. `ended` says how the attempt ends. -/
def State.attempt (s : State) (p : Place) : State :=
  let s : State := { s with cur := p, ended := .done }
  let b := s.bank p
  match b.vecLost with
  | some (sc, pc, off, sec) =>
    if s.unsettled p then s.stall .memory else s.sceneBad p sc off sec pc 1 0
  | none =>
  if b.wip.afresh = false then s.runWord b.word
  else
    match s.fetch (s.stream p) b.pc with
    | (s, .ok w) => (s.countFetch p (wordsAt p.core w)).runWord w
    | (s, f) => s.fetchFail p f

/-- A seat spends an empty si (R21, R22, R149). -/
def State.spend (s : State) (p : Place) : State :=
  ((s.modBank p fun b => { b with owed := b.owed - 1, si := b.si + 1 }).retireDue p).modSeat p.core p.num fun t =>
    { t with stalls := mmod t.stalls 4 0 (· + 1) }

/-- What keeps a bank from its turn before its instruction is looked at: `none` takes no part (no continuation, halted,
stopped by the curtain, a fence, a pre-emption or a seizure); else a cause, if there is one (R148). An instruction that must
end goes on (R407), for a seizure that waits for it under the curtain too (R423, R426). -/
def State.gate (s : State) (p : Place) : Option (Option Stall) :=
  let b := s.bank p
  let k := s.core p.core
  let ends := b.mustEnd && p.seat == 7 && k.szPend.isSome
  if k.fenced || (k.curtain && p.seat != 8 && !ends) then none else
  match b.run with
  | .parked => some (some .parked)
  | .running =>
    if b.mustEnd then some none
    else if k.preState = 1 && b.inCommit then some none
    else if k.preState = 1 && (s.preTargets p.core).contains p then none
    else if p.seat != 8 && !Config.isX p.core && (s.hotSeat p.core p.seat || k.denied) then some (some .thermal)
    else some none
  | _ => none

/-- How a seat stands in a turn: it takes no part, it is not eligible, or this is the state after its turn. -/
inductive Tried where
  | none
  | stall (c : Stall)
  | go (s : State)

/-- A bank that stands by itself. DESIGN CHOICE (log 76): a seat that owes empty si spends them whatever its next instruction
waits on, since R148 asks of a seat that it owes an empty si or can issue; parked and thermal seats, and halted ones, do
not. -/
def State.tryOwn (s : State) (p : Place) : Tried :=
  match s.gate p with
  | none => .none
  | some (some c) => .stall c
  | some none =>
    if 0 < (s.bank p).owed then .go (s.spend p) else
    let s' := s.attempt p
    match s'.ended with | .stall c => .stall c | _ => .go s'

/-! A gang (R200, R201). -/

/-- Seat 0 of a member. -/
def seat0 (c : Nat) : Place := ⟨c, 0, 0⟩

/-- The gang is over: every member outside `own` traps GANG_BROKEN at the instruction (R201). -/
def State.gangEnd (s : State) (ms own : List Nat) (pc : Word) (w : W32) : State :=
  let s := ms.foldl (fun (s : State) m => s.modCore m fun k => { k with gangSize := 1 }) s
  (ms.filter fun m => !own.contains m).foldl (fun s m => s.trapAt (seat0 m) .gangBroken 0 none pc (wordsOf w) w) s

/-- The instruction has issued on a member that still waits for its end; the others have issued it too. -/
def Wip.issued : Wip → Bool
  | .lut4 _ => true
  | .bfmt .. => true
  | .qf .. => true
  | .bar _ => true
  | .rstv _ => true
  | .push .. => true
  | .posted _ => true
  | .commit => true
  | _ => false

/-- An attempt in which the instruction issues: it has retired, or goes on by itself. -/
def State.tookTurn (s : State) (p : Place) : Bool :=
  match s.ended with | .done => true | .began => (s.bank p).wip.issued | _ => false

/-- Every member issues the instruction, one after the other on the same state; else the member that cannot, and how its
attempt ends. -/
def State.gangIssue (s : State) : List Nat → Except (Nat × Ended) State
  | [] => .ok s
  | c :: t =>
    let s' := s.attempt (seat0 c)
    if s'.tookTurn (seat0 c) then s'.gangIssue t else .error (c, s'.ended)

/-- The scenes of the members that `at_` excludes are discarded with the scene of one that has been, and count its cause
(R200, R405); a member that reaches SCENE_LIVELOCK ends the gang. None while one still waits for pending results. -/
def State.gangDiscard (s : State) (ms at_ : List Nat) (livelock : Bool) (go : State → State) : Tried :=
  let rest := ms.filter fun c => !at_.contains c && (s.bank (seat0 c)).openScene.isSome
  if rest.any fun c => s.unsettled (seat0 c) then .stall .memory
  else
    let dis := fun (s : State) c => s.discard (seat0 c) true livelock false
    let bad := rest.filter fun c => (dis { s with ended := .done } c).ended == .trap
    let s' := rest.foldl dis (go s)
    if !bad.isEmpty && s.gangBusy (seat0 (ms.headD 0)) then .stall .engine
    else .go (if bad.isEmpty then s' else s'.gangEnd ms bad (s'.bank (seat0 (ms.headD 0))).pc 0)

/-- The members that go on after a trap, a discard, a park or a wait of some of them (R200, R201): `rs` tells how the attempt
of each member that issues ends by itself. None when every one of them can issue. DESIGN CHOICE (log 30): a word that is illegal
(R51) is decoded by every member, so each halts and sends its message. -/
def State.gangUneven (s : State) (ms : List Nat) (rs : List (Nat × State)) : Option Tried :=
  let those := fun (e : Ended) => (rs.filter fun r => r.2.ended == e).map (·.1)
  let go := fun (l : List Nat) (s : State) => l.foldl (fun (s : State) c => s.attempt (seat0 c)) s
  let held := (rs.filter fun r => r.2.ended == .began && !r.2.tookTurn (seat0 r.1)).map (·.1)
  match firstStall (rs.filterMap fun r => match r.2.ended with | .stall c => some c | _ => none) with
  | some c => some (.stall c)
  | none =>
  match those .trap with
  | c :: t =>
    some (if s.gangBusy (seat0 c) then .stall .engine
      else .go ((go (c :: t) s).gangEnd ms (c :: t) (s.bank (seat0 c)).pc (s.wordOf (seat0 c))))
  | [] =>
  if !(those .discard).isEmpty then some (s.gangDiscard ms (those .discard) true (go (those .discard)))
  else if !(those .parked).isEmpty then some (s.gangDiscard ms (those .parked) false (go (those .parked)))
  else if !held.isEmpty then some (.go (go held s))
  else none

/-- Every member goes on where the leader does, unless it or the leader has still to end its instruction. -/
def State.gangAlign (s : State) (ms : List Nat) : State :=
  let b := s.bank (seat0 (ms.headD 0))
  if b.wip.issued then s else
  ms.foldl (fun (s : State) c => s.modBank (seat0 c) fun k => if k.wip.issued then k else { k with pc := b.pc }) s

/-- The gang's turn: all members issue the leader's instruction, or none does. While it has still to end on some members,
they alone go on. -/
def State.tryGang (s : State) (ms : List Nat) : Tried :=
  let lead := seat0 (ms.headD 0)
  let gates := ms.map fun c => s.gate (seat0 c)
  let late := ms.filter fun c => (s.bank (seat0 c)).wip.issued
  match firstStall (gates.filterMap fun g => g.join) with
  | some c => .stall c
  | none =>
  if gates.any (·.isNone) then .none
  else if ms.any fun c => (s.core c).turnClk == s.clk + 1 then .stall .order
  else if ms.any fun c => match (s.bank (seat0 c)).wip with | .gang _ => true | _ => false then .stall .presence
  else if late.isEmpty && 0 < (s.bank lead).owed then .go (ms.foldl (fun s c => s.spend (seat0 c)) s)
  else
    let who := if late.isEmpty then ms else late
    let s := if late.isEmpty then s.gangAlign ms else s
    match s.gangUneven ms (who.map fun c => (c, s.attempt (seat0 c))) with
    | some t => t
    | none =>
      match s.gangIssue who with
      | .ok s => .go (s.gangAlign ms)
      | .error (_, .discard) => s.gangDiscard ms [] true id
      | .error (_, .stall c) => .stall c
      | .error _ => .stall .memory

/-! A core. -/

/-- The bank that takes a seat's turns: the D bank of seat 7 while it must end an instruction of a seized tile (R423). -/
def State.turnPlace (s : State) (c i : Nat) : Place :=
  if i == 7 && !Config.isX c && (s.bank ⟨c, 7, 0⟩).run == .running && (s.bank ⟨c, 7, 0⟩).mustEnd then ⟨c, 7, 0⟩
  else s.placeOf c i

/-- Seat 0 of a gang member issues with its gang, unless it has still to go on after its own gang instruction. -/
def State.inStep (s : State) (c i : Nat) : Bool :=
  i == 0 && (s.core c).gangSize != 1 && (match (s.bank (seat0 c)).wip with | .gang _ => false | _ => true)

/-- How seat `i` of a core stands. -/
def State.seatTry (s : State) (c i : Nat) : Tried :=
  if i == 7 && (s.core c).szWait then .stall .memory
  else if s.inStep c i then (if (s.core c).gangPos = 0 then s.tryGang (s.gangOf c) else .none)
  else s.tryOwn (s.turnPlace c i)

/-- The cores whose seat `i` took the turn. -/
def State.turnCores (s : State) (c i : Nat) : List Nat := if s.inStep c i then s.gangOf c else [c]

/-- The number of a cause's counter (R312). -/
def Stall.counter : Stall → Option Nat
  | .presence => some 0 | .queue => some 1 | .engine => some 2 | .memory => some 3 | .parked => some 5 | .thermal => some 6
  | .order => none

/-- Count a stall for a seat (R149), and for every member of its gang (R200). -/
def State.countStall (s : State) (cs : List Nat) (i : Nat) (c : Stall) : State :=
  match c.counter with
  | some n => cs.foldl (fun (s : State) m => s.modSeat m i fun t => { t with stalls := mmod t.stalls n 0 (· + 1) }) s
  | none => s

/-- The barrel of a core (R147): the first eligible seat after the one granted last takes the turn; the others that hold
a continuation and are not eligible count their causes. -/
def State.barrel (s : State) (c : Nat) : State :=
  let n := Config.seats c
  let rr := (s.core c).rr
  let tried := (List.range n).map fun j => ((rr + j) % n, s.seatTry c ((rr + j) % n))
  let pick := if (s.core c).turnClk = s.clk + 1 then none else
    tried.findSome? fun x => match x.2 with | .go t => some (x.1, t) | _ => none
  let s1 := match pick with
    | some (i, t) => (s.turnCores c i).foldl (fun (t : State) m => t.modCore m fun k => { k with
        rr := i + 1, turnClk := s.clk + 1 }) t
    | none => s
  let s2 := tried.foldl (fun (a : State) x => match x.2 with
    | .stall st => a.countStall (s.turnCores c x.1) x.1 st
    | _ => a) s1
  { s2 with turned := c :: s2.turned }

/-- The next core whose barrel turns in this clk: the lowest that holds a continuation and has not turned. -/
def State.nextCore (s : State) : Option Nat :=
  ((s.banks.filter fun b => b.2.run == .running || b.2.run == .parked).map fun b => b.1 / 64).find? fun c =>
    !s.turned.contains c

end Sys2Proof.Machine
end

