-- ==== Sys2Proof/Machine/Dispatch.lean ====
section
/-! DEFINITION. What each instruction does to a state: one arm per constructor, each a call of its meaning. -/
namespace Sys2Proof.Machine

/-- The meaning of an instruction. The events (rows without bits) stand behind the 324 encodable instructions. -/
def exec (i : Instr) (s : State) : Host.Outcome State Fault Refusal :=
  match i with
  | .illegal w => Sys2Proof.Machine.execIllegal w s
  | .add f => Sys2Proof.Machine.execAdd f s
  | .sub f => Sys2Proof.Machine.execSub f s
  | .and f => Sys2Proof.Machine.execAnd f s
  | .or f => Sys2Proof.Machine.execOr f s
  | .xor f => Sys2Proof.Machine.execXor f s
  | .andn f => Sys2Proof.Machine.execAndn f s
  | .orn f => Sys2Proof.Machine.execOrn f s
  | .sll f => Sys2Proof.Machine.execSll f s
  | .srl f => Sys2Proof.Machine.execSrl f s
  | .sra f => Sys2Proof.Machine.execSra f s
  | .rol f => Sys2Proof.Machine.execRol f s
  | .ror f => Sys2Proof.Machine.execRor f s
  | .min f => Sys2Proof.Machine.execMin f s
  | .max f => Sys2Proof.Machine.execMax f s
  | .minu f => Sys2Proof.Machine.execMinu f s
  | .maxu f => Sys2Proof.Machine.execMaxu f s
  | .adds f => Sys2Proof.Machine.execAdds f s
  | .subs f => Sys2Proof.Machine.execSubs f s
  | .addus f => Sys2Proof.Machine.execAddus f s
  | .subus f => Sys2Proof.Machine.execSubus f s
  | .clz f => Sys2Proof.Machine.execClz f s
  | .ctz f => Sys2Proof.Machine.execCtz f s
  | .popc f => Sys2Proof.Machine.execPopc f s
  | .bswap f => Sys2Proof.Machine.execBswap f s
  | .abs f => Sys2Proof.Machine.execAbs f s
  | .addi f => Sys2Proof.Machine.execAddi f s
  | .andi f => Sys2Proof.Machine.execAndi f s
  | .ori f => Sys2Proof.Machine.execOri f s
  | .xori f => Sys2Proof.Machine.execXori f s
  | .slli f => Sys2Proof.Machine.execSlli f s
  | .srli f => Sys2Proof.Machine.execSrli f s
  | .srai f => Sys2Proof.Machine.execSrai f s
  | .rori f => Sys2Proof.Machine.execRori f s
  | .slti f => Sys2Proof.Machine.execSlti f s
  | .sltiu f => Sys2Proof.Machine.execSltiu f s
  | .seqi f => Sys2Proof.Machine.execSeqi f s
  | .snei f => Sys2Proof.Machine.execSnei f s
  | .lik f => Sys2Proof.Machine.execLik f s
  | .bfxu f => Sys2Proof.Machine.execBfxu f s
  | .bfxs f => Sys2Proof.Machine.execBfxs f s
  | .bfi f => Sys2Proof.Machine.execBfi f s
  | .mul f => Sys2Proof.Machine.execMul f s
  | .mulh f => Sys2Proof.Machine.execMulh f s
  | .mulhu f => Sys2Proof.Machine.execMulhu f s
  | .mulhsu f => Sys2Proof.Machine.execMulhsu f s
  | .div f => Sys2Proof.Machine.execDiv f s
  | .divu f => Sys2Proof.Machine.execDivu f s
  | .rem f => Sys2Proof.Machine.execRem f s
  | .remu f => Sys2Proof.Machine.execRemu f s
  | .cmpeq f => Sys2Proof.Machine.execCmpeq f s
  | .cmpne f => Sys2Proof.Machine.execCmpne f s
  | .cmplt f => Sys2Proof.Machine.execCmplt f s
  | .cmpge f => Sys2Proof.Machine.execCmpge f s
  | .cmpltu f => Sys2Proof.Machine.execCmpltu f s
  | .cmpgeu f => Sys2Proof.Machine.execCmpgeu f s
  | .csel f => Sys2Proof.Machine.execCsel f s
  | .cmovz f => Sys2Proof.Machine.execCmovz f s
  | .cmovnz f => Sys2Proof.Machine.execCmovnz f s
  | .fadd f => Sys2Proof.Machine.execFadd f s
  | .fsub f => Sys2Proof.Machine.execFsub f s
  | .fmul f => Sys2Proof.Machine.execFmul f s
  | .fdiv f => Sys2Proof.Machine.execFdiv f s
  | .fsqrt f => Sys2Proof.Machine.execFsqrt f s
  | .fmin f => Sys2Proof.Machine.execFmin f s
  | .fmax f => Sys2Proof.Machine.execFmax f s
  | .fsgnj f => Sys2Proof.Machine.execFsgnj f s
  | .fsgnjn f => Sys2Proof.Machine.execFsgnjn f s
  | .fsgnjx f => Sys2Proof.Machine.execFsgnjx f s
  | .fclass f => Sys2Proof.Machine.execFclass f s
  | .fmadd f => Sys2Proof.Machine.execFmadd f s
  | .fmsub f => Sys2Proof.Machine.execFmsub f s
  | .fnmsub f => Sys2Proof.Machine.execFnmsub f s
  | .fnmadd f => Sys2Proof.Machine.execFnmadd f s
  | .faddc f => Sys2Proof.Machine.execFaddc f s
  | .fsubc f => Sys2Proof.Machine.execFsubc f s
  | .frsubc f => Sys2Proof.Machine.execFrsubc f s
  | .fmulc f => Sys2Proof.Machine.execFmulc f s
  | .fmulac f => Sys2Proof.Machine.execFmulac f s
  | .fmacc f => Sys2Proof.Machine.execFmacc f s
  | .fldc f => Sys2Proof.Machine.execFldc f s
  | .fli f => Sys2Proof.Machine.execFli f s
  | .cvt f => Sys2Proof.Machine.execCvt f s
  | .feq f => Sys2Proof.Machine.execFeq f s
  | .fne f => Sys2Proof.Machine.execFne f s
  | .flt f => Sys2Proof.Machine.execFlt f s
  | .fle f => Sys2Proof.Machine.execFle f s
  | .funord f => Sys2Proof.Machine.execFunord f s
  | .ld f => Sys2Proof.Machine.execLd f s
  | .st f => Sys2Proof.Machine.execSt f s
  | .ldx f => Sys2Proof.Machine.execLdx f s
  | .stx f => Sys2Proof.Machine.execStx f s
  | .ldxSx f => Sys2Proof.Machine.execLdxSx f s
  | .bfxur f => Sys2Proof.Machine.execBfxur f s
  | .bfxsr f => Sys2Proof.Machine.execBfxsr f s
  | .bfir f => Sys2Proof.Machine.execBfir f s
  | .amoswap f => Sys2Proof.Machine.execAmoswap f s
  | .amoadd f => Sys2Proof.Machine.execAmoadd f s
  | .amoand f => Sys2Proof.Machine.execAmoand f s
  | .amoor f => Sys2Proof.Machine.execAmoor f s
  | .amomax f => Sys2Proof.Machine.execAmomax f s
  | .amomin f => Sys2Proof.Machine.execAmomin f s
  | .amomaxu f => Sys2Proof.Machine.execAmomaxu f s
  | .cas f => Sys2Proof.Machine.execCas f s
  | .beqz f => Sys2Proof.Machine.execBeqz f s
  | .bnez f => Sys2Proof.Machine.execBnez f s
  | .bltz f => Sys2Proof.Machine.execBltz f s
  | .bgez f => Sys2Proof.Machine.execBgez f s
  | .bgtz f => Sys2Proof.Machine.execBgtz f s
  | .blez f => Sys2Proof.Machine.execBlez f s
  | .beven f => Sys2Proof.Machine.execBeven f s
  | .bodd f => Sys2Proof.Machine.execBodd f s
  | .j f => Sys2Proof.Machine.execJ f s
  | .jl f => Sys2Proof.Machine.execJl f s
  | .jr f => Sys2Proof.Machine.execJr f s
  | .jlr f => Sys2Proof.Machine.execJlr f s
  | .ret f => Sys2Proof.Machine.execRet f s
  | .scene f => Sys2Proof.Machine.execScene f s
  | .sceneChk f => Sys2Proof.Machine.execSceneChk f s
  | .redo f => Sys2Proof.Machine.execRedo f s
  | .commit f => Sys2Proof.Machine.execCommit f s
  | .nop f => Sys2Proof.Machine.execNop f s
  | .halt f => Sys2Proof.Machine.execHalt f s
  | .crd f => Sys2Proof.Machine.execCrd f s
  | .cwr f => Sys2Proof.Machine.execCwr f s
  | .cbw f => Sys2Proof.Machine.execCbw f s
  | .cbrd f => Sys2Proof.Machine.execCbrd f s
  | .cbld f => Sys2Proof.Machine.execCbld f s
  | .ldAcq f => Sys2Proof.Machine.execLdAcq f s
  | .stRel f => Sys2Proof.Machine.execStRel f s
  | .lut4ld f => Sys2Proof.Machine.execLut4ld f s
  | .bfset f => Sys2Proof.Machine.execBfset f s
  | .bfrd f => Sys2Proof.Machine.execBfrd f s
  | .prefL1 f => Sys2Proof.Machine.execPrefL1 f s
  | .prefL2 f => Sys2Proof.Machine.execPrefL2 f s
  | .mhintNear f => Sys2Proof.Machine.execMhintNear f s
  | .mhintHome f => Sys2Proof.Machine.execMhintHome f s
  | .mhintPage f => Sys2Proof.Machine.execMhintPage f s
  | .spawn f => Sys2Proof.Machine.execSpawn f s
  | .join f => Sys2Proof.Machine.execJoin f s
  | .suspend f => Sys2Proof.Machine.execSuspend f s
  | .yield f => Sys2Proof.Machine.execYield f s
  | .exit f => Sys2Proof.Machine.execExit f s
  | .exitJ f => Sys2Proof.Machine.execExitJ f s
  | .wake f => Sys2Proof.Machine.execWake f s
  | .bar f => Sys2Proof.Machine.execBar f s
  | .chain f => Sys2Proof.Machine.execChain f s
  | .widf f => Sys2Proof.Machine.execWidf f s
  | .widfr f => Sys2Proof.Machine.execWidfr f s
  | .send f => Sys2Proof.Machine.execSend f s
  | .mclr f => Sys2Proof.Machine.execMclr f s
  | .mwait f => Sys2Proof.Machine.execMwait f s
  | .mwaitAny f => Sys2Proof.Machine.execMwaitAny f s
  | .rst f => Sys2Proof.Machine.execRst f s
  | .rstA f => Sys2Proof.Machine.execRstA f s
  | .rstv f => Sys2Proof.Machine.execRstv f s
  | .rstvA f => Sys2Proof.Machine.execRstvA f s
  | .gang f => Sys2Proof.Machine.execGang f s
  | .ungang f => Sys2Proof.Machine.execUngang f s
  | .fenceAcq f => Sys2Proof.Machine.execFenceAcq f s
  | .fenceRel f => Sys2Proof.Machine.execFenceRel f s
  | .fenceFull f => Sys2Proof.Machine.execFenceFull f s
  | .qfence f => Sys2Proof.Machine.execQfence f s
  | .qfenceAll f => Sys2Proof.Machine.execQfenceAll f s
  | .vadd f => Sys2Proof.Machine.execVadd f s
  | .vsub f => Sys2Proof.Machine.execVsub f s
  | .vmul f => Sys2Proof.Machine.execVmul f s
  | .vmulh f => Sys2Proof.Machine.execVmulh f s
  | .vmulhu f => Sys2Proof.Machine.execVmulhu f s
  | .vand f => Sys2Proof.Machine.execVand f s
  | .vor f => Sys2Proof.Machine.execVor f s
  | .vxor f => Sys2Proof.Machine.execVxor f s
  | .vsll f => Sys2Proof.Machine.execVsll f s
  | .vsrl f => Sys2Proof.Machine.execVsrl f s
  | .vsra f => Sys2Proof.Machine.execVsra f s
  | .vmin f => Sys2Proof.Machine.execVmin f s
  | .vmax f => Sys2Proof.Machine.execVmax f s
  | .vminu f => Sys2Proof.Machine.execVminu f s
  | .vmaxu f => Sys2Proof.Machine.execVmaxu f s
  | .vadds f => Sys2Proof.Machine.execVadds f s
  | .vsubs f => Sys2Proof.Machine.execVsubs f s
  | .vaddus f => Sys2Proof.Machine.execVaddus f s
  | .vsubus f => Sys2Proof.Machine.execVsubus f s
  | .vabs f => Sys2Proof.Machine.execVabs f s
  | .vsel f => Sys2Proof.Machine.execVsel f s
  | .vcmpeq f => Sys2Proof.Machine.execVcmpeq f s
  | .vcmpne f => Sys2Proof.Machine.execVcmpne f s
  | .vcmplt f => Sys2Proof.Machine.execVcmplt f s
  | .vcmpge f => Sys2Proof.Machine.execVcmpge f s
  | .vcmpltu f => Sys2Proof.Machine.execVcmpltu f s
  | .vcmpgeu f => Sys2Proof.Machine.execVcmpgeu f s
  | .vfadd f => Sys2Proof.Machine.execVfadd f s
  | .vfsub f => Sys2Proof.Machine.execVfsub f s
  | .vfmul f => Sys2Proof.Machine.execVfmul f s
  | .vfdiv f => Sys2Proof.Machine.execVfdiv f s
  | .vfsqrt f => Sys2Proof.Machine.execVfsqrt f s
  | .vfmadd f => Sys2Proof.Machine.execVfmadd f s
  | .vfmsub f => Sys2Proof.Machine.execVfmsub f s
  | .vfnmsub f => Sys2Proof.Machine.execVfnmsub f s
  | .vfmin f => Sys2Proof.Machine.execVfmin f s
  | .vfmax f => Sys2Proof.Machine.execVfmax f s
  | .vfabs f => Sys2Proof.Machine.execVfabs f s
  | .vfneg f => Sys2Proof.Machine.execVfneg f s
  | .vfsgnj f => Sys2Proof.Machine.execVfsgnj f s
  | .vfeq f => Sys2Proof.Machine.execVfeq f s
  | .vflt f => Sys2Proof.Machine.execVflt f s
  | .vfle f => Sys2Proof.Machine.execVfle f s
  | .vfun f => Sys2Proof.Machine.execVfun f s
  | .vaddVs f => Sys2Proof.Machine.execVaddVs f s
  | .vsubVs f => Sys2Proof.Machine.execVsubVs f s
  | .vrsubVs f => Sys2Proof.Machine.execVrsubVs f s
  | .vmulVs f => Sys2Proof.Machine.execVmulVs f s
  | .vandVs f => Sys2Proof.Machine.execVandVs f s
  | .vorVs f => Sys2Proof.Machine.execVorVs f s
  | .vxorVs f => Sys2Proof.Machine.execVxorVs f s
  | .vsllVs f => Sys2Proof.Machine.execVsllVs f s
  | .vsrlVs f => Sys2Proof.Machine.execVsrlVs f s
  | .vsraVs f => Sys2Proof.Machine.execVsraVs f s
  | .vminVs f => Sys2Proof.Machine.execVminVs f s
  | .vmaxVs f => Sys2Proof.Machine.execVmaxVs f s
  | .vcvtn f => Sys2Proof.Machine.execVcvtn f s
  | .vcvtw f => Sys2Proof.Machine.execVcvtw f s
  | .vfaddVs f => Sys2Proof.Machine.execVfaddVs f s
  | .vfsubVs f => Sys2Proof.Machine.execVfsubVs f s
  | .vfrsubVs f => Sys2Proof.Machine.execVfrsubVs f s
  | .vfmulVs f => Sys2Proof.Machine.execVfmulVs f s
  | .vfmaddVs f => Sys2Proof.Machine.execVfmaddVs f s
  | .vfminVs f => Sys2Proof.Machine.execVfminVs f s
  | .vfmaxVs f => Sys2Proof.Machine.execVfmaxVs f s
  | .vmovVs f => Sys2Proof.Machine.execVmovVs f s
  | .vcmpeqVs f => Sys2Proof.Machine.execVcmpeqVs f s
  | .vcmpltVs f => Sys2Proof.Machine.execVcmpltVs f s
  | .vcmpltuVs f => Sys2Proof.Machine.execVcmpltuVs f s
  | .vfeqVs f => Sys2Proof.Machine.execVfeqVs f s
  | .vfltVs f => Sys2Proof.Machine.execVfltVs f s
  | .vfleVs f => Sys2Proof.Machine.execVfleVs f s
  | .vld f => Sys2Proof.Machine.execVld f s
  | .vst f => Sys2Proof.Machine.execVst f s
  | .vgather f => Sys2Proof.Machine.execVgather f s
  | .vscatter f => Sys2Proof.Machine.execVscatter f s
  | .vlds f => Sys2Proof.Machine.execVlds f s
  | .vsts f => Sys2Proof.Machine.execVsts f s
  | .vext f => Sys2Proof.Machine.execVext f s
  | .kmovs f => Sys2Proof.Machine.execKmovs f s
  | .kset f => Sys2Proof.Machine.execKset f s
  | .vstat f => Sys2Proof.Machine.execVstat f s
  | .vredadd f => Sys2Proof.Machine.execVredadd f s
  | .vredmin f => Sys2Proof.Machine.execVredmin f s
  | .vredmax f => Sys2Proof.Machine.execVredmax f s
  | .vredminu f => Sys2Proof.Machine.execVredminu f s
  | .vredmaxu f => Sys2Proof.Machine.execVredmaxu f s
  | .vredand f => Sys2Proof.Machine.execVredand f s
  | .vredor f => Sys2Proof.Machine.execVredor f s
  | .vredxor f => Sys2Proof.Machine.execVredxor f s
  | .vredfadd f => Sys2Proof.Machine.execVredfadd f s
  | .vredfmin f => Sys2Proof.Machine.execVredfmin f s
  | .vredfmax f => Sys2Proof.Machine.execVredfmax f s
  | .vredfamax f => Sys2Proof.Machine.execVredfamax f s
  | .vrot f => Sys2Proof.Machine.execVrot f s
  | .vrcp f => Sys2Proof.Machine.execVrcp f s
  | .vrsqrt f => Sys2Proof.Machine.execVrsqrt f s
  | .vexp2 f => Sys2Proof.Machine.execVexp2 f s
  | .vlog2 f => Sys2Proof.Machine.execVlog2 f s
  | .vtanh f => Sys2Proof.Machine.execVtanh f s
  | .vsigm f => Sys2Proof.Machine.execVsigm f s
  | .vsinpi f => Sys2Proof.Machine.execVsinpi f s
  | .vcospi f => Sys2Proof.Machine.execVcospi f s
  | .vperm f => Sys2Proof.Machine.execVperm f s
  | .vmov f => Sys2Proof.Machine.execVmov f s
  | .vcvtSI f => Sys2Proof.Machine.execVcvtSI f s
  | .vcvtIS f => Sys2Proof.Machine.execVcvtIS f s
  | .vcvtSH f => Sys2Proof.Machine.execVcvtSH f s
  | .vcvtHS f => Sys2Proof.Machine.execVcvtHS f s
  | .vcvtSBf f => Sys2Proof.Machine.execVcvtSBf f s
  | .vcvtBfS f => Sys2Proof.Machine.execVcvtBfS f s
  | .vcvtSU f => Sys2Proof.Machine.execVcvtSU f s
  | .vcvtUS f => Sys2Proof.Machine.execVcvtUS f s
  | .kand f => Sys2Proof.Machine.execKand f s
  | .kor f => Sys2Proof.Machine.execKor f s
  | .kxor f => Sys2Proof.Machine.execKxor f s
  | .kandn f => Sys2Proof.Machine.execKandn f s
  | .knot f => Sys2Proof.Machine.execKnot f s
  | .vfence f => Sys2Proof.Machine.execVfence f s
  | .vgmov f => Sys2Proof.Machine.execVgmov f s
  | .vgadd f => Sys2Proof.Machine.execVgadd f s
  | .vgfadd f => Sys2Proof.Machine.execVgfadd f s
  | .vgfmax f => Sys2Proof.Machine.execVgfmax f s
  | .mzero f => Sys2Proof.Machine.execMzero f s
  | .mmaN f => Sys2Proof.Machine.execMmaN f s
  | .mmaH f => Sys2Proof.Machine.execMmaH f s
  | .mmaBf f => Sys2Proof.Machine.execMmaBf f s
  | .mmaS f => Sys2Proof.Machine.execMmaS f s
  | .mdrain f => Sys2Proof.Machine.execMdrain f s
  | .mtask f => Sys2Proof.Machine.execMtask f s
  | .cpy f => Sys2Proof.Machine.execCpy f s
  | .cfill f => Sys2Proof.Machine.execCfill f s
  | .ssamp f => Sys2Proof.Machine.execSsamp f s
  | .sdraw f => Sys2Proof.Machine.execSdraw f s
  | .gstep f => Sys2Proof.Machine.execGstep f s
  | .gmask f => Sys2Proof.Machine.execGmask f s
  | .gflush f => Sys2Proof.Machine.execGflush f s
  | .sin f => Sys2Proof.Machine.execSin f s
  | .sadv f => Sys2Proof.Machine.execSadv f s
  | .stok f => Sys2Proof.Machine.execStok f s
  | .sopen f => Sys2Proof.Machine.execSopen f s
  | .cpost f => Sys2Proof.Machine.execCpost f s
  | .cpubl f => Sys2Proof.Machine.execCpubl f s
  | .cread f => Sys2Proof.Machine.execCread f s
  | .evput f => Sys2Proof.Machine.execEvput f s
  | .csave f => Sys2Proof.Machine.execCsave f s
  | .crestore f => Sys2Proof.Machine.execCrestore f s
  | .copw f => Sys2Proof.Machine.execCopw f s
  | .coprd f => Sys2Proof.Machine.execCoprd f s
  | .esync f => Sys2Proof.Machine.execEsync f s
  | .trap f => Sys2Proof.Machine.execTrap f s
  | .rett f => Sys2Proof.Machine.execRett f s
  | .rettRedo f => Sys2Proof.Machine.execRettRedo f s
  | .rettKill f => Sys2Proof.Machine.execRettKill f s
  | .swin f => Sys2Proof.Machine.execSwin f s
  | .swinW f => Sys2Proof.Machine.execSwinW f s
  | .csfreeze f => Sys2Proof.Machine.execCsfreeze f s
  | .csthaw f => Sys2Proof.Machine.execCsthaw f s
  | .seize f => Sys2Proof.Machine.execSeize f s
  | .release f => Sys2Proof.Machine.execRelease f s
  | .registerWrite core seat bank num v => Sys2Proof.Machine.execRegisterWrite core seat bank num v s
  | .moduleReset => Sys2Proof.Machine.execModuleReset s
  | .bootImageLoad img wellFormed key => Sys2Proof.Machine.execBootImageLoad img wellFormed key s
  | .takeUp core seat => Sys2Proof.Machine.execTakeUp core seat s
  | .loadDataArrival core seat bank k => Sys2Proof.Machine.execLoadDataArrival core seat bank k s
  | .ptsTick core => Sys2Proof.Machine.execPtsTick core s
  | .vectorCommandPerform core => Sys2Proof.Machine.execVectorCommandPerform core s
  | .mailArrival k => Sys2Proof.Machine.execMailArrival k s
  | .bounceWordArrival k => Sys2Proof.Machine.execBounceWordArrival k s
  | .remoteStoreArrival k => Sys2Proof.Machine.execRemoteStoreArrival k s
  | .stageDoorDelivery die k => Sys2Proof.Machine.execStageDoorDelivery die k s
  | .reflexStartMessage k => Sys2Proof.Machine.execReflexStartMessage k s
  | .xtimerFire core t => Sys2Proof.Machine.execXtimerFire core t s
  | .launchCueArrival k => Sys2Proof.Machine.execLaunchCueArrival k s
  | .stealProbe core => Sys2Proof.Machine.execStealProbe core s
  | .stealReplyArrival k => Sys2Proof.Machine.execStealReplyArrival k s
  | .terminationWave slot => Sys2Proof.Machine.execTerminationWave slot s
  | .ensembleClaim slot => Sys2Proof.Machine.execEnsembleClaim slot s
  | .placementWaitExpiry slot => Sys2Proof.Machine.execPlacementWaitExpiry slot s
  | .l2LineMigration line => Sys2Proof.Machine.execL2LineMigration line s
  | .l1ctlInv core => Sys2Proof.Machine.execL1ctlInv core s
  | .bfmtWrite core b v => Sys2Proof.Machine.execBfmtWrite core b v s
  | .grhostWrite core v => Sys2Proof.Machine.execGrhostWrite core v s
  | .greenRoomRecall core => Sys2Proof.Machine.execGreenRoomRecall core s
  | .mnqheadWrite die v => Sys2Proof.Machine.execMnqheadWrite die v s
  | .migackWrite die v => Sys2Proof.Machine.execMigackWrite die v s
  | .pmctlGo die => Sys2Proof.Machine.execPmctlGo die s
  | .pageMoveCopyDone die => Sys2Proof.Machine.execPageMoveCopyDone die s
  | .pmctlEnd die => Sys2Proof.Machine.execPmctlEnd die s
  | .tlbinvWrite v => Sys2Proof.Machine.execTlbinvWrite v s
  | .tlbinvDone => Sys2Proof.Machine.execTlbinvDone s
  | .pgwakeWrite v => Sys2Proof.Machine.execPgwakeWrite v s
  | .mmaStep core q => Sys2Proof.Machine.execMmaStep core q s
  | .mzeroStep core q => Sys2Proof.Machine.execMzeroStep core q s
  | .mdrainStep core q => Sys2Proof.Machine.execMdrainStep core q s
  | .mctlResume core q => Sys2Proof.Machine.execMctlResume core q s
  | .mctlAbort core q => Sys2Proof.Machine.execMctlAbort core q s
  | .tileTaskPost cluster => Sys2Proof.Machine.execTileTaskPost cluster s
  | .tileTaskIssue cluster => Sys2Proof.Machine.execTileTaskIssue cluster s
  | .copyStep core c => Sys2Proof.Machine.execCopyStep core c s
  | .ccmdResume core c => Sys2Proof.Machine.execCcmdResume core c s
  | .ccmdAbort core c => Sys2Proof.Machine.execCcmdAbort core c s
  | .samplerBarrierCheck core q => Sys2Proof.Machine.execSamplerBarrierCheck core q s
  | .samplerScanStep core q => Sys2Proof.Machine.execSamplerScanStep core q s
  | .winnerMessageArrival k => Sys2Proof.Machine.execWinnerMessageArrival k s
  | .samplerGather core q => Sys2Proof.Machine.execSamplerGather core q s
  | .samplerDeliver core q => Sys2Proof.Machine.execSamplerDeliver core q s
  | .sdrawStep core q => Sys2Proof.Machine.execSdrawStep core q s
  | .sctlResume core q => Sys2Proof.Machine.execSctlResume core q s
  | .sctlAbort core q => Sys2Proof.Machine.execSctlAbort core q s
  | .gstepApply core q => Sys2Proof.Machine.execGstepApply core q s
  | .gmaskStep core q => Sys2Proof.Machine.execGmaskStep core q s
  | .gflushApply core q => Sys2Proof.Machine.execGflushApply core q s
  | .gctlResume core q => Sys2Proof.Machine.execGctlResume core q s
  | .gctlAbort core q => Sys2Proof.Machine.execGctlAbort core q s
  | .streamEventArrival core q => Sys2Proof.Machine.execStreamEventArrival core q s
  | .streamEventApply die k => Sys2Proof.Machine.execStreamEventApply die k s
  | .cpostStep core q => Sys2Proof.Machine.execCpostStep core q s
  | .cpublApply core q => Sys2Proof.Machine.execCpublApply core q s
  | .caddyFlip die mb => Sys2Proof.Machine.execCaddyFlip die mb s
  | .creadStep core q => Sys2Proof.Machine.execCreadStep core q s
  | .cxdescWrite die mb v => Sys2Proof.Machine.execCxdescWrite die mb v s
  | .evputStep core q => Sys2Proof.Machine.execEvputStep core q s
  | .csiEventPacket die rx vc dt good bytes => Sys2Proof.Machine.execCsiEventPacket die rx vc dt good bytes s
  | .csiImagePacket die rx vc dt good bytes => Sys2Proof.Machine.execCsiImagePacket die rx vc dt good bytes s
  | .csiFrameMark die rx vc isEnd => Sys2Proof.Machine.execCsiFrameMark die rx vc isEnd s
  | .ppsEdge die => Sys2Proof.Machine.execPpsEdge die s
  | .csaveStep core => Sys2Proof.Machine.execCsaveStep core s
  | .crestoreStep core => Sys2Proof.Machine.execCrestoreStep core s
  | .csctlResume core => Sys2Proof.Machine.execCsctlResume core s
  | .csctlAbort core => Sys2Proof.Machine.execCsctlAbort core s
  | .preemptReq core kind => Sys2Proof.Machine.execPreemptReq core kind s
  | .ptimeExpiry core => Sys2Proof.Machine.execPtimeExpiry core s
  | .preemptHandlerEntry core seat => Sys2Proof.Machine.execPreemptHandlerEntry core seat s
  | .preemptResend core => Sys2Proof.Machine.execPreemptResend core s
  | .faultMessageArrival k => Sys2Proof.Machine.execFaultMessageArrival k s
  | .fheadWrite core v => Sys2Proof.Machine.execFheadWrite core v s
  | .swcmdResume core seat bank => Sys2Proof.Machine.execSwcmdResume core seat bank s
  | .swcmdKill core seat bank => Sys2Proof.Machine.execSwcmdKill core seat bank s
  | .curtainRaise part => Sys2Proof.Machine.execCurtainRaise part s
  | .curtainLower part => Sys2Proof.Machine.execCurtainLower part s
  | .curtainHalt core => Sys2Proof.Machine.execCurtainHalt core s
  | .curtainResume core => Sys2Proof.Machine.execCurtainResume core s
  | .curtdevRaise part => Sys2Proof.Machine.execCurtdevRaise part s
  | .curtdevLower part => Sys2Proof.Machine.execCurtdevLower part s
  | .machineCheck core => Sys2Proof.Machine.execMachineCheck core s
  | .szgrpWrite g v => Sys2Proof.Machine.execSzgrpWrite g v s
  | .seizeArrival k => Sys2Proof.Machine.execSeizeArrival k s
  | .seizeTakeUp core => Sys2Proof.Machine.execSeizeTakeUp core s
  | .releaseArrival k => Sys2Proof.Machine.execReleaseArrival k s
  | .wdogKick slot => Sys2Proof.Machine.execWdogKick slot s
  | .watchdogPreempt slot => Sys2Proof.Machine.execWatchdogPreempt slot s
  | .watchdogKill slot => Sys2Proof.Machine.execWatchdogKill slot s
  | .watchdogFence slot => Sys2Proof.Machine.execWatchdogFence slot s
  | .qdoorWrite v => Sys2Proof.Machine.execQdoorWrite v s
  | .commandAccept slot => Sys2Proof.Machine.execCommandAccept slot s
  | .cmdLaunch slot => Sys2Proof.Machine.execCmdLaunch slot s
  | .cmdWait slot => Sys2Proof.Machine.execCmdWait slot s
  | .waitSatisfied slot => Sys2Proof.Machine.execWaitSatisfied slot s
  | .cmdSignal slot => Sys2Proof.Machine.execCmdSignal slot s
  | .cmdQuote slot => Sys2Proof.Machine.execCmdQuote slot s
  | .slotFree slot => Sys2Proof.Machine.execSlotFree slot s
  | .mirrorAckArrival seq => Sys2Proof.Machine.execMirrorAckArrival seq s
  | .mirrorEntryArrival index entry => Sys2Proof.Machine.execMirrorEntryArrival index entry s
  | .heartbeatSend => Sys2Proof.Machine.execHeartbeatSend s
  | .xBankMirror rows => Sys2Proof.Machine.execXBankMirror rows s
  | .understudyCheck word => Sys2Proof.Machine.execUnderstudyCheck word s
  | .peerFenceArrival => Sys2Proof.Machine.execPeerFenceArrival s
  | .linkLoss => Sys2Proof.Machine.execLinkLoss s
  | .loadAveraging core dir => Sys2Proof.Machine.execLoadAveraging core dir s
  | .thermalStep core temp => Sys2Proof.Machine.execThermalStep core temp s
  | .corerstWrite core => Sys2Proof.Machine.execCorerstWrite core s
  | .ptmCorrection ppm => Sys2Proof.Machine.execPtmCorrection ppm s
  | .peerHeartbeatArrival => Sys2Proof.Machine.execPeerHeartbeatArrival s
  | .powerLimitThrottle watts16 => Sys2Proof.Machine.execPowerLimitThrottle watts16 s

end Sys2Proof.Machine
end

