-- ==== Sys2Proof/Machine/Tick.lean ====
section
/-! DEFINITION. A clk tick (log 4): time passes, and every unit of the module that can go on by itself does so once, in
one fixed order. Each action is one of the events of the table; what comes from outside the module is taken from the
agenda only. -/
namespace Sys2Proof.Machine

/-- One more clk: DTIME at the rate of R34, and no barrel has turned. -/
def State.tickTime (s : State) : State :=
  { s with clk := s.clk + 1, dt := s.dt + 10 * (10 ^ 6 + s.ppm).toNat, turned := [] }

/-- Constant-bank and LUT4 writes that every later read sees are folded into their homes (R28, R283). -/
def State.foldBank (s : State) (c : Nat) : State :=
  let k := s.core c
  if k.cbNew.isEmpty && k.lutNew.isEmpty then s else
  let old := k.cbNew.filter fun e => e.1 + 4 ≤ s.clk
  let oldL := k.lutNew.filter fun e => e.1 + 4 ≤ s.clk
  s.modCore c fun k => { k with
    cbank := old.foldl (fun m e => mset m e.2.1 e.2.2) k.cbank
    cbNew := k.cbNew.filter fun e => s.clk < e.1 + 4
    lut4 := oldL.foldl (fun _ e => e.2) k.lut4
    lutNew := k.lutNew.filter fun e => s.clk < e.1 + 4 }

/-- Every core that has an entry, in ascending order. -/
def State.eachCore (s : State) (f : State → Nat → State) : State := (s.cores.map (·.1)).foldl f s

/-- The messages in flight to a core, by place, in ascending order of source core (R195). -/
def State.bound (s : State) (d : Nat) : List Nat :=
  ((s.net.zipIdx.filter fun x => x.1.dst == d).insertionSort fun a b => a.1.src ≤ b.1.src).map (·.2)
/-- One message arrives at each core that can take one (R262). -/
def State.tickNet (s : State) : State :=
  ((s.net.map (·.dst)).dedup).foldl (fun (s : State) d =>
    ((s.bound d).findSome? fun k => s.arriveOpt k fun _ => true).getD s) s

/-- The messages held at the stage doors go out, in the order in which they arrived there (R175). -/
def State.tickDoors (s : State) : State :=
  s.stage.foldl (fun (s : State) d => d.2.foldl (fun (s : State) m =>
    match (mget s.stage d.1 []).findIdx? fun o => o.no == m.no with
    | some k => s.doorDeliver d.1 k
    | none => s) s) s

/-- Results that exist reach their registers (R25, R103). -/
def State.tickLoads (s : State) : State :=
  (s.banks.filter fun b => !b.2.pending.isEmpty).foldl (fun s b => s.landAll (keyPlace b.1)) s

/-- The next step of the head of an engine queue, if it can take one (R293). -/
def State.engineStep (s : State) (c key : Nat) : State :=
  match s.headCmd c key with
  | none => s
  | some e =>
    let q := key % 16
    match keyEng key with
    | 0 =>
      if e.op = 0 then s.mzeroStep c key
      else if e.op = 8 ∨ (e.task.isSome ∧ e.started ∧ e.mmaSteps ≤ e.step) then s.mdrainStep c key
      else s.mmaStep c key
    | 1 => s.copyStep c q
    | 2 =>
      if e.op = 1 then s.sdrawStep c q else
      let ph := match e.started, e.aux with | true, .samp t => t.phase | _, _ => if e.masked then 0 else 1
      if ph = 0 then s.sampBarrier c q else if ph ≤ e.scans then s.sampScan c q
      else if ph = e.scans + 1 then s.sampGather c q else s.sampDeliver c q
    | 3 => if e.op = 0 then s.gstepApply c q else if e.op = 1 then s.gmaskStep c q else s.gflushApply c q
    | 4 => s.streamArrive c q
    | 5 => if e.op = 0 then s.cpostStep c q else if e.op = 1 then s.cpublApply c q else s.creadStep c q
    | 6 => s.evputStep c q
    | _ => if e.op = 0 then s.csaveStep c else s.crestoreStep c

/-- The engines and the vector unit of a core go on, and clk in which a channel or a save is parked count (R326, R416). -/
def State.tickEngines (s : State) (c : Nat) : State :=
  let s := s.vectorStep c
  let s := ((s.core c).queues.map (·.1)).foldl (fun s key => s.engineStep c key) s
  let parked := fun (lo hi : Nat) => (s.core c).queues.any fun q => lo ≤ q.1 && q.1 < hi &&
    (match q.2 with | e :: _ => e.state == 2 | [] => false)
  let s := if parked 16 24 then s.engCount c 1 0x11c 1 else s
  if parked 112 113 then s.engCount c 7 0x106 1 else s

/-- The cluster and die engines. -/
def State.tickUnits (s : State) : State :=
  let s := (s.scheds.map (·.1)).foldl (fun s cl => (s.taskPost cl).taskIssue cl) s
  let s := s.sevents.foldl (fun (s : State) d => ((List.range d.2.length).reverse).foldl (fun s k => s.streamApply d.1 k) s) s
  (s.boxes.map (·.1)).foldl (fun s b => s.caddyFlip (b / 4096) (b % 4096)) s

/-- What a core does by itself: curtain and pre-emption, seizure, timers, recall, take-ups, thermal displacement. -/
def State.tickCore (s : State) (c : Nat) : State :=
  let s := if (s.core c).curtReq.isEmpty then s else (s.curtHalt c).curtResume c
  let s := if s.crCore c 0x28d = 0 then s else s.ptimeExpiry c
  let s := if (s.core c).preState = 1 then ((List.range 8).foldl (fun s i => s.preEntry c i) s).preDone c else s
  let s := s.seizeTakeUp c
  let s := s.recallStep c
  let s := if Config.isX c then (List.range 4).foldl (fun s t => s.timerFire c t) s else
    (List.range 8).foldl (fun s i => (s.thermalOut c i).takeWork c i) s
  s.stealProbe c

/-- What the device does for a slot: its command, its ensemble, its watchdog. -/
def State.tickSlot (s : State) (q : Nat) : State :=
  let s := match (s.slot q).phase with
    | .idle => (s.accept q).slotFree q
    | .accepted => s.accept q
    | .fetched => (((s.cmdLaunch q).cmdWait q).cmdSignal q).cmdQuote q
    | .running =>
      let s := (s.ensembleClaim q).placementExpiry q
      if s.clk % 256 = 0 then s.wave q else s
    | .ended => s.cmdSignal q
    | .wait => s.waitDone q
    | .signal => s.cmdSignal q
    | .page .. => s
  if (s.slot q).wdogOn then ((s.wdogPreempt q).wdogKill q).wdogFence q else s

/-- DTIME has passed a multiple of a period in µs since `t`. -/
def State.passed (s : State) (t us : Nat) : Bool := us != 0 && s.dtime / (us * 1000) != t / (us * 1000)

/-- What the module does at the periods of its registers: load averaging (R448), heartbeats and X copies
(R446), the understudy's check (R447); and the start of verified firmware (R452). -/
def State.tickPeriods (s : State) (t : Nat) : State :=
  let lb := (s.crGlob 0 0x305).toNat
  let s := if bit lb 24 && s.passed t (max 1 (lb % 2 ^ 16)) then
      let s := (List.range Config.dTiles).foldl (fun s c => s.loadAverage c 4) s
      [3, 1, 0, 2].foldl (fun s d => (List.range Config.dTiles).foldl (fun s c => s.loadAverage c d) s) s
    else s
  let m := (s.crGlob 0 0x309).toNat
  let s := if s.passed t (bits m 31 16) then s.heartbeat.understudyCheck else s
  let s := if s.mirrors && s.passed t (bits m 47 32) then s.xMirror [] else s
  s.firmwareStart

/-- The memory system: line moves (R240), page moves (R248), invalidations (R251), posted writes (R265). -/
def State.tickMemory (s : State) : State :=
  let s := s.flushExt fun _ => true
  let s := (s.l2.filter fun e => e.2.due.isSome).foldl (fun s e => s.lineMigrate e.1) s
  let s := (s.moves.map (·.1)).foldl (fun s d => let s := s.moveCopied d; if (s.move d).ending then s.moveEnd d else s) s
  s.tlbInvDone

/-- One clk. -/
def State.tick (s : State) : State :=
  let t := s.dtime
  let s := s.tickTime
  let s := s.eachCore fun s c => s.foldBank c
  let s := if s.clk % 16 = 0 then s.eachCore fun s c => s.ptsTick c else s
  let s := s.tickMemory
  let s := s.tickLoads
  let s := s.tickDoors.tickNet
  let s := s.eachCore fun s c => s.tickEngines c
  let s := s.tickUnits
  let s := s.eachCore fun s c => s.tickCore c
  let s := (s.slots.map (·.1)).foldl (fun s q => s.tickSlot q) s
  s.tickPeriods t

end Sys2Proof.Machine
end

