-- ==== Sys2Proof/Machine/Step.lean ====
section
/-! DEFINITION. One step of the module: the turn that the agenda names, or else the next barrel turn of this clk, or, when
every barrel has turned, the clk tick (log 4). And how a word is placed to be the next instruction. -/
namespace Sys2Proof.Machine

/-- A turn. An instruction issues in a turn of its barrel only (R147); the agenda names events. -/
def State.take (s : State) (t : Turn) : Host.Outcome State Fault Refusal :=
  match t with
  | .clk => .next s.tick
  | .barrel c => .next (s.barrel c)
  | .ev i => if i.toForm.isSome then .fault .badAgenda else exec i s
  | .upset u => .next (s.upset u)
  | .mesh c stop => .next (s.meshTurn c stop)

/-- The turn that comes next by itself. -/
def State.nextTurn (s : State) : Turn := match s.nextCore with | some c => .barrel c | none => .clk

/-- One step. -/
def step (s : State) : Host.Outcome State Fault Refusal :=
  match s.agenda with
  | t :: r => { s with agenda := r }.take t
  | [] => s.take s.nextTurn

/-- The instruction whose bits are `w`, its operand words zero, stands at offset 0 of SEG7 of core 0 seat 0, which runs
there: 16 bytes of the tile's local store (log 5). -/
def State.withFetchWord (s : State) (nbits w : Nat) : State :=
  let s : State := { s with
    agenda := [], turned := [], mem := memWrites s.mem ((keysFrom (Config.tileKey 0 0) 16).zip (leBytes 16 (w % 2 ^ nbits))) }
  s.modBank ⟨0, 0, 0⟩ fun b => { b with
    run := .running, pc := 0, owed := 0, wip := .none, segs := mset b.segs 7 ⟨0, 0x1000, 4⟩ }

end Sys2Proof.Machine
end

