-- ==== Sys2Proof/Safety.lean ====
section
/-! DEFINITION. The words in which the claims are stated: a good state, a safe step, a seat that is able to issue an
instruction, and the state in which the instruction has retired. -/
namespace Sys2Proof.Safety

open Sys2Proof.Machine

/-! Good states and safe runs. -/

/-- A finite map keeps its form: keys strictly rising. -/
def mapWf {α : Type} : SMap α → Bool
  | [] => true
  | [_] => true
  | (j, _) :: (k, w) :: t => decide (j < k) && mapWf ((k, w) :: t)

/-- Memory is in its canonical form. -/
def GoodMemory (s : State) : Prop := Memory.wf s.mem = true

/-- The agenda names events only, so that no turn is malformed. -/
def GoodAgenda (s : State) : Prop := ∀ i, Turn.ev i ∈ s.agenda → i.toForm = none

/-- A step that is neither a fault nor a refusal. -/
def Goes (s : State) : Prop := ∃ t, step s = .next t

/-- A run of any length never stops. -/
def SafeRun (s : State) : Prop := ∀ n, ∃ t, (Host.Core.run ⟨State, Fault, Refusal, step, State.reset⟩ n s) = .next t

/-! A seat that is able to issue. -/

/-- The source fields of an instruction of the current seat, read in field order (R17, R43): the state after the pops and
the values. None when a literal word cannot be fetched. -/
def operandsOf (s : State) (h : Shape) : Option (State × List Word) :=
  match s.literals (s.stream s.cur) h.srcs ((s.bank s.cur).pc + 4) with
  | (s', .ok lits) => some (s'.operands s.cur h.srcs lits)
  | (_, .error _) => none

/-- The current seat is able to issue an instruction of shape `h`, as far as that depends on no rule of the instruction's
own (R24, R127, R128, R148, R150, R172, R336): `s1` is the state after its pops, `vals` are its operand values. -/
abbrev Issues (s : State) (h : Shape) (s1 : State) (vals : List Word) : Prop :=
  (s.bank s.cur).wip = .none ∧ s.absent s.cur h = false ∧ s.queueWait s.cur h = false ∧ s.commitFull s.cur h = false ∧
  s.pendingOn s.cur h = none ∧ (s.bank s.cur).holdShort h = false ∧ (s.bank s.cur).liveIn h = false ∧
  s.hangupHit s.cur h = false ∧ (h.popsOf 62 = 0 ∨ (s.seat s.cur.core s.cur.num).evUe = 0) ∧
  (h.closes = true ∨ (s.bank s.cur).fits (h.entries + b2n (h.dst == some 61)) = true) ∧
  operandsOf s h = some (s1, vals)

/-- What the work of an instruction sees: its operand values, the offset of its word and of its successor. -/
def ctx (s : State) (h : Shape) (vals : List Word) : Ctx :=
  ⟨s.cur, vals, (s.bank s.cur).pc, (s.bank s.cur).pc + BitVec.ofNat 64 (4 * h.words), s.wordOf s.cur⟩

/-- The commit that a scene-closing instruction makes before its work, of the state that holds what it reserves (R129, R130):
the state after it; none while it must wait, when it conflicts, or when a buffered push has lost its queue. With no open
scene it changes nothing. -/
def committed (s : State) (h : Shape) (vals : List Word) (s1 : State) : Option State :=
  if s.pushLost s.cur then none else match s.closeScene (h.keep (ctx s h vals) s1) s.cur with | .done t => some t | _ => none

/-- What an instruction's own rule looks at before it issues: its operand values and offsets (R148). -/
def asks (s : State) (h : Shape) (vals : List Word) : Ctx := { ctx s h vals with word := 0 }

/-- The offset of the successor of the instruction. -/
def succ (s : State) (h : Shape) : Word := (s.bank s.cur).pc + BitVec.ofNat 64 (4 * h.words)

/-- The scene that is open after a scene-closing instruction: a new one of the old form and write set, or as it says. -/
def reopens (s : State) (h : Shape) : Option (Nat × BitVec 15) :=
  h.opens.getD (if h.closes then ((s.bank s.cur).openScene.map fun sc => (sc.form, sc.mask)) else none)

/-- The instruction of `s` has retired: `s2` holds its own effect, `v` is its register result, and the seat goes on at
`pc`. -/
def retired (s : State) (h : Shape) (vals : List Word) (hold : BitVec 2) (s2 : State) (v : Option Word) (pc : Word) : State :=
  (match reopens s h with
    | some (form, mask) => s2.modBank s.cur fun b => b.openAt form mask pc
    | none => s2).finish (ctx s h vals) h hold v pc

/-- An instruction that neither writes a register nor jumps has retired. -/
abbrev passed (s : State) (h : Shape) (vals : List Word) (hold : BitVec 2) (s2 : State) : State :=
  retired s h vals hold s2 none (succ s h)

/-- The trap that the instruction of `s` takes (R394). -/
def trapped (s : State) (h : Shape) (c : Cause) (info : Nat) (faddr : Option Word) : State :=
  s.trapAt s.cur c info faddr (s.bank s.cur).pc h.words (s.wordOf s.cur)

/-- The instruction of `s` has begun, as `s2` holds it: it holds the seat and goes on in a later turn. -/
def begun (s : State) (h : Shape) (vals : List Word) (s2 : State) : State :=
  { s2.modBank s.cur (fun b => b.keepOpen (reopens s h) (ctx s h vals)) with ended := .began }

/-- The instruction of `s` has handed its message, whose number is `n`, to the network interface, as `s2` holds it: it has
retired, or, while the message waits there to enter the mesh, it holds the seat (R194, R281). -/
def posts (s : State) (h : Shape) (vals : List Word) (hold : BitVec 2) (n : Nat) (s2 : State) : State :=
  if s2.inOutbox s.cur.core n then begun s h vals (s2.modBank s.cur fun b => { b with wip := .posted n })
  else passed s h vals hold s2

/-- The mesh takes no message of the X-seat that issues now (R179). -/
def meshStops (s : State) : Prop := s.cur.reflex = true ∧ s.meshStop.contains s.cur.core = true

/-- The X-seat holds its message back until the mesh takes it again (R179). -/
def meshHeld (s : State) : State := { s.modBank s.cur (fun b => { b with wip := .mesh s.clk }) with ended := .began }

/-- The instruction of `s` has retired and its continuation has left the seat, as `s3` holds it. -/
def departed (s s3 : State) : State := { (s3.countInsn s.cur (s.bank s.cur).cslot.toNat (s.wordOf s.cur)) with ended := .done }

/-! Results: every issue of the instruction on a ready seat completes, and its register result is as given. -/

/-- rd := op(ra) with fixed latency 1. -/
def Gives1 (j : Instr) (rd ra : BitVec 6) (hold : BitVec 2) (op : Word → Word) : Prop :=
  ∀ s s1 a, Issues s (shape1 rd ra 1) s1 [a] →
    exec j s = .next (retired s (shape1 rd ra 1) [a] hold s1 (some (op a)) (succ s (shape1 rd ra 1)))

/-- rd := op(ra, rb) with fixed latency `l`. -/
def Gives2 (mk : FmtR → Instr) (l : Nat) (op : Word → Word → Word) : Prop :=
  ∀ (f : FmtR) s s1 a b, Issues s (shape2 f.rd f.ra f.rb l) s1 [a, b] →
    exec (mk f) s =
      .next (retired s (shape2 f.rd f.ra f.rb l) [a, b] f.hold s1 (some (op a b)) (succ s (shape2 f.rd f.ra f.rb l)))

/-- rd := op(old rd, ra, rb) with fixed latency 1. -/
def Gives3 (mk : FmtR → Instr) (op : Word → Word → Word → Word) : Prop :=
  ∀ (f : FmtR) s s1 d a b, Issues s (shape3 f.rd f.ra f.rb 1) s1 [d, a, b] →
    exec (mk f) s =
      .next (retired s (shape3 f.rd f.ra f.rb 1) [d, a, b] f.hold s1 (some (op d a b)) (succ s (shape3 f.rd f.ra f.rb 1)))

/-- A float instruction rd := op(ra, rb) under its rounding index, with latency by type (R114). -/
def GivesF2 (mk : FmtFR → Instr) (ld ls : Nat) (op : RM → FV → FV → FV) : Prop :=
  ∀ (f : FmtFR) s s1 a b,
    let h : Shape := { srcs := [fsrc f.ty f.ra, fsrc f.ty f.rb], dst := some f.rd.toNat, lat := .fixed (if f.ty = 0 then ld else ls) }
    let rm := s1.rmIdx s.cur f.rnd
    Issues s h s1 [a, b] →
      exec (mk f) s = .next (retired s h [a, b] f.hold s1 (some (fres f.ty rm (op rm (fval f.ty a) (fval f.ty b)))) (succ s h))

/-- A fused float instruction rd := op(old rd, ra, rb), rounded once (R117). -/
def GivesF3 (mk : FmtFR → Instr) (op : RM → FV → FV → FV → FV) : Prop :=
  ∀ (f : FmtFR) s s1 d a b,
    let h : Shape := { srcs := [fsrc f.ty f.rd, fsrc f.ty f.ra, fsrc f.ty f.rb], dst := some f.rd.toNat, lat := .fixed 4 }
    let rm := s1.rmIdx s.cur f.rnd
    Issues s h s1 [d, a, b] →
      exec (mk f) s = .next (retired s h [d, a, b] f.hold s1
        (some (fres f.ty rm (op rm (fval f.ty d) (fval f.ty a) (fval f.ty b)))) (succ s h))

/-- A float instruction on encodings, exact, with latency 1 (R116, R123). -/
def GivesCode (mk : FmtFT → Instr) (op : Ieee → Nat → Nat → Nat) : Prop :=
  ∀ (f : FmtFT) s s1 a b,
    let h : Shape := { srcs := [fsrc f.ty f.ra, fsrc f.ty f.rb], dst := some f.rd.toNat, lat := .fixed 1 }
    Issues s h s1 [a, b] →
      exec (mk f) s = .next (retired s h [a, b] f.hold s1
        (some (BitVec.ofNat 64 (op (ieeeOf f.ty) (fcode f.ty a) (fcode f.ty b)))) (succ s h))

/-- A float instruction rd := op(ra, k) with an entry k of the constant bank (R118). -/
def GivesC2 (mk : FmtC → Instr) (op : RM → FV → FV → FV) : Prop :=
  ∀ (f : FmtC) s s1 a,
    let h : Shape := { srcs := [fsrc f.ty f.ra], dst := some f.rd.toNat, lat := .fixed 3 }
    let rm := rmOfFrm (s1.bank s.cur).frm
    Issues s h s1 [a] →
      exec (mk f) s = .next (retired s h [a] f.hold s1
        (some (fres f.ty rm (op rm (fval f.ty a) (fval f.ty (s1.cbGet s.cur.core f.cb.toNat))))) (succ s h))

/-- A fused float instruction rd := op(old rd, ra, k) with an entry k of the constant bank (R118). -/
def GivesC3 (mk : FmtC → Instr) (op : RM → FV → FV → FV → FV) : Prop :=
  ∀ (f : FmtC) s s1 d a,
    let h : Shape := { srcs := [fsrc f.ty f.rd, fsrc f.ty f.ra], dst := some f.rd.toNat, lat := .fixed 4 }
    let rm := rmOfFrm (s1.bank s.cur).frm
    Issues s h s1 [d, a] →
      exec (mk f) s = .next (retired s h [d, a] f.hold s1
        (some (fres f.ty rm (op rm (fval f.ty d) (fval f.ty a) (fval f.ty (s1.cbGet s.cur.core f.cb.toNat))))) (succ s h))

/-- A branch: the seat goes on at the target when the condition holds of ra, else at the successor (R46, R108). -/
def Branches (mk : FmtB → Instr) (cond : Word → Prop) : Prop :=
  ∀ (f : FmtB) s s1 a,
    let h : Shape := { srcs := [isrc f.ra] }
    Issues s h s1 [a] →
      (cond a → exec (mk f) s =
        .next (retired s h [a] f.hold s1 none ((s.bank s.cur).pc + f.disp.signExtend 64 * 4))) ∧
      (¬ cond a → exec (mk f) s = .next (passed s h [a] f.hold s1))

/-- The instruction completes with the effect and the register result that `eff` gives for the state after its pops and
its operand values, whenever `pre` holds of them. -/
def Completes (j : Instr) (h : Shape) (hold : BitVec 2) (pre : State → List Word → Prop)
    (eff : State → List Word → State × Option Word) : Prop :=
  ∀ s s1 vals, Issues s h s1 vals → pre s1 vals →
    exec j s = .next (retired s h vals hold (eff s1 vals).1 (eff s1 vals).2 (succ s h))

/-! Memory instructions. -/

/-- The access of `n` bytes at an offset of a segment is one that the seat at `p` may make now: `s'` is the state with its
translation kept, `ks` are its bytes, `page` is its page. -/
def Found (s : State) (p : Machine.Place) (seg : Nat) (off : Word) (n : Nat) (r w : Bool) (s' : State) (ks : List Nat)
    (page : Option (Nat × Nat × Bool)) : Prop :=
  s.locate p seg off.toNat n n r w false = (s', .ok ks page) ∧ s'.heldBack p ks = false ∧ (r = true → s'.bad ks = false)

/-- Nothing holds back the access of `n` bytes at an offset of a segment by the current seat: no vector command of the seat
that touches its bytes, no store of it that it must follow, no commit of its core half performed (R225, R253, R256). -/
def Free (s : State) (seg : Nat) (off : Word) (n : Nat) (r w : Bool) : Prop :=
  s.accessWait s.cur seg off n n r w = none

/-- The state in which the seat at `p` reads the bytes `ks` for an atomic: on a port, its own posted writes are performed
first (R265). -/
def settled (s : State) (p : Machine.Place) (ks : List Nat) : State :=
  if ks.any isExt then s.flushExt fun w => w.core == p.core && w.seat == p.num && isHost w.addr == isHost (ks.headD 0) else s

/-- The number that some bytes of memory hold. -/
def held (s : State) (ks : List Nat) : Nat := leNat (memReads s.mem ks)

/-- The end of an atomic on the bytes `ks`: `done`, or, when the completion from a port has an error status, the trap
EXT_ABORT (R275), with nothing popped; whether the target performed the atomic, as in `s6`, is then open. -/
def portEnd (s : State) (h : Shape) (vals : List Word) (ks : List Nat) (off : Word) (s5 s6 done : State) : State :=
  if ks.any isExt = true ∧ Config.portFails s5.fctr = true then
    ((if Config.portDone s5.fctr = true then s6 else { s5 with fctr := s5.fctr + 1 }).unpop (ctx s h vals) (h.srcs.map (·.1))).trapAt
      s.cur .extAbort 0 (some off) (s.bank s.cur).pc h.words (s.wordOf s.cur)
  else done

/-- An atomic completes (R272-R275): after the commit of an open scene, the bytes at its location hold `new n old b` and rd
holds the old value; a push of it waits, with the atomic performed, while its queue has no room. `ports` says that a port
performs it. -/
def GivesAmo (mk : FmtAmo → Instr) (ports : Bool) (new : Nat → Nat → Nat → Nat) : Prop :=
  ∀ (f : FmtAmo) s s1 s2 s3 s4 off b ks page ks' page',
    let n := 4 * (1 + f.d.toNat)
    let h : Shape := { srcs := [isrc f.ra, isrc f.rb], dst := some f.rd.toNat, lat := .var, closes := true }
    let s5 := settled s4 s.cur ks'
    let old := BitVec.ofNat 64 (held s5 ks')
    let s6 := s5.amoUnit s.cur page' ks' (some (new n (held s5 ks') (b.toNat % 2 ^ (8 * n))))
    Issues s h s1 [off, b] → Free s f.seg.toNat off n true true →
    Found s1 s.cur f.seg.toNat off n true true s2 ks page → (ks.any isExt = true → ports = true) →
    amoFull f.rd.toNat (ctx s h [off, b]) s2 = false → committed s h [off, b] s1 = some s3 →
    Found s3 s.cur f.seg.toNat off n true true s4 ks' page' →
      (f.rd.toNat ≠ 61 → exec (mk f) s = .next (portEnd s h [off, b] ks' off s5 s6 (passed s h [off, b] f.hold
        (s6.setReg s.cur f.rd.toNat old)))) ∧
      (f.rd.toNat = 61 → s6.qoutRoom s.cur = true → exec (mk f) s = .next (portEnd s h [off, b] ks' off s5 s6
        (passed s h [off, b] f.hold (s6.enqueue s.cur old)))) ∧
      (f.rd.toNat = 61 → s6.qoutRoom s.cur = false → exec (mk f) s = .next (portEnd s h [off, b] ks' off s5 s6
        (begun s h [off, b] (s6.modBank s.cur fun k => { k with wip := .push old none }))))

/-! Fences. -/

/-- A fence outside a scene waits while `due` holds and then has the effect `eff`; in a scene it is buffered as `op`
(R267-R270). -/
def Fences (mk : FmtFence → Instr) (op : Nat → BufOp) (due : State → Machine.Place → Nat → Bool)
    (eff : State → Machine.Place → State) : Prop :=
  ∀ (f : FmtFence) s s1, let h : Shape := { srcs := [], entries := 1 }
    Issues s h s1 [] →
      (∀ sc, (s1.bank s.cur).openScene = some sc →
        exec (mk f) s = .next (passed s h [] f.hold (s1.modBank s.cur fun b => b.buffer 1 (op f.scope.toNat)))) ∧
      ((s1.bank s.cur).openScene = none →
        (due s1 s.cur f.scope.toNat = false → exec (mk f) s = .next (passed s h [] f.hold (eff s1 s.cur))) ∧
        (due s1 s.cur f.scope.toNat = true → exec (mk f) s = .next (s.stall .memory)))

/-! Continuations. -/

/-- The current seat may leave its continuation at a suspension point (R181, R201, R202, R395), and the registers that its
record takes are there (R145). `s` is the state before the pops. -/
def MaySuspend (s : State) (p : Machine.Place) : Prop :=
  (s.bank p).handler = false ∧ p.reflex = false ∧ s.ganged p = false ∧
  ∀ r ∈ (s.bank p).pending, ¬ (3 ≤ r.code ∧ r.code ≤ 7)

/-- The block at an offset of JOINC.SEG can be read and written, `n` bytes of it are checked, and `ks` are the keys of its
first `m` (R167, R183). -/
def Block (s : State) (p : Machine.Place) (off : Word) (n m : Nat) (s' : State) (ks : List Nat) : Prop :=
  s.blockAt p off n m = (s', .ok ks)

/-- The state after cells of a block are written as one unit. -/
abbrev wrote (s : State) (p : Machine.Place) (ks : List Nat) (off : Nat) (v : Word) : State :=
  s.blockWrite p.core ks [(off, leBytes 8 v.toNat)]

/-! The vector unit: at issue an instruction puts one command into its core's queue, or waits while the queue is full
(R205, R207); the shapes name the vector registers read and written, masks as 32 to 39 (R210). -/

/-- The instruction enters the command `form` with its scalar operand. -/
def Enqueues (j : Instr) (srcs : List (Nat × Lit)) (vr : List Nat) (vd : Option Nat) (hold : BitVec 2) (form : Form) : Prop :=
  ∀ s s1 vals, let h : Shape := { srcs := srcs, vr := vr, vd := vd }
    Issues s h s1 vals →
      ((s.core s.cur.core).vq.length < 16 → exec j s = .next (passed s h vals hold
        (s1.venq (ctx s h vals) form (vals.getD 0 0) [] false false false).1)) ∧
      (16 ≤ (s.core s.cur.core).vq.length → exec j s = .next (s.stall .queue))

/-- vd := op(va, vb) under km. -/
def V2 (mk : FmtV → Instr) (op : OpV) : Prop :=
  ∀ f : FmtV, Enqueues (mk f) [] [f.va.toNat, f.vb.toNat, 32 + f.km.toNat % 8] (some f.vd.toNat) f.hold (.v op f)
/-- vd := op(va) under km. -/
def V1 (mk : FmtV → Instr) (op : OpV) : Prop :=
  ∀ f : FmtV, Enqueues (mk f) [] [f.va.toNat, 32 + f.km.toNat % 8] (some f.vd.toNat) f.hold (.v op f)
/-- kd := op(va, vb) under km. -/
def VK (mk : FmtV → Instr) (op : OpV) : Prop :=
  ∀ f : FmtV, Enqueues (mk f) [] [f.va.toNat, f.vb.toNat, 32 + f.km.toNat % 8] (some (32 + f.vd.toNat % 8)) f.hold (.v op f)
/-- kd := op(ka, kb). -/
def KK2 (mk : FmtV → Instr) (op : OpV) : Prop :=
  ∀ f : FmtV, Enqueues (mk f) [] [32 + f.va.toNat % 8, 32 + f.vb.toNat % 8] (some (32 + f.vd.toNat % 8)) f.hold (.v op f)
/-- kd := op(ka). -/
def KK1 (mk : FmtV → Instr) (op : OpV) : Prop :=
  ∀ f : FmtV, Enqueues (mk f) [] [32 + f.va.toNat % 8] (some (32 + f.vd.toNat % 8)) f.hold (.v op f)
/-- A rounding operation of va, of vb when `two`, and of vd when `acc`, under km. -/
def VF (mk : FmtVF → Instr) (op : OpVF) (two acc : Bool) : Prop :=
  ∀ f : FmtVF, Enqueues (mk f) [] ([f.va.toNat] ++ (if two then [f.vb.toNat] else []) ++ [32 + f.km.toNat % 8] ++
    (if acc then [f.vd.toNat] else [])) (some f.vd.toNat) f.hold (.vF op f)
/-- vd := op(scalar), of va when `two` and of vd when `acc`, under km. -/
def VSc (mk : FmtVS → Instr) (op : OpVS) (l : Lit) (two acc : Bool) : Prop :=
  ∀ f : FmtVS, Enqueues (mk f) [(f.sb.toNat, l)] ((if two then [f.va.toNat] else []) ++ [32 + f.km.toNat % 8] ++
    (if acc then [f.vd.toNat] else [])) (some f.vd.toNat) f.hold (.vS op f)
/-- kd := relation(va, scalar) under km. -/
def VSk (mk : FmtVS → Instr) (op : OpVS) (l : Lit) : Prop :=
  ∀ f : FmtVS, Enqueues (mk f) [(f.sb.toNat, l)] [f.va.toNat, 32 + f.km.toNat % 8] (some (32 + f.vd.toNat % 8)) f.hold
    (.vS op f)

/-- The instruction enters a command whose scalar result goes to the register `sb`, which is pending until it is performed
(R206). -/
def EnqueuesScalar (j : Instr) (sb : BitVec 6) (vr : List Nat) (hold : BitVec 2) (form : Form) : Prop :=
  ∀ s s1, let h : Shape := { srcs := [], dst := some sb.toNat, lat := .var, vr := vr }
    let r := s1.venq (ctx s h []) form 0 [] true false false
    Issues s h s1 [] →
      ((s.core s.cur.core).vq.length < 16 →
        exec j s = .next (passed s h [] hold (r.1.vresult (ctx s h []) sb.toNat r.2))) ∧
      (16 ≤ (s.core s.cur.core).vq.length → exec j s = .next (s.stall .queue))

/-- sb := the reduction of the active lanes of va. -/
def VR (mk : FmtVr → Instr) (op : OpVr) : Prop :=
  ∀ f : FmtVr, EnqueuesScalar (mk f) f.sb [f.va.toNat, 32 + f.km.toNat % 8] f.hold (.vr op f)

/-- A vector memory instruction whose lanes are found enters its command with them once fewer than `room` commands stand in
its core's queue, and waits under the engine cause until then; inside a scene a store also takes `n` entries of the store buffer
(R209, R222-R225). It waits while a commit of its core is half performed (R253). -/
def EnqueuesMemory (j : Instr) (h : Shape) (hold : BitVec 2) (form : Form) (store : Bool)
    (lanes : State → Machine.Place → Word → Except Act (List (Nat × Nat))) (n : List (Nat × Nat) → Nat)
    (room : Nat) : Prop :=
  (∀ s s1 base, Issues s h s1 [base] → room ≤ (s.core s.cur.core).vq.length → exec j s = .next (s.stall .engine)) ∧
  ∀ s s1 base l, let r := s1.venq (ctx s h [base]) form base l false false false
    Issues s h s1 [base] → (s.core s.cur.core).vq.length < room →
    lanes s1 s.cur base = .ok l → s1.halfway s.cur (l.map (·.2)) = false →
    (store = false → s1.vbad base l = none) →
      ((store = false ∨ (s1.bank s.cur).openScene = none) → exec j s = .next (passed s h [base] hold r.1)) ∧
      (∀ sc, store = true → (s1.bank s.cur).openScene = some sc → (s1.bank s.cur).fits (n l) = true →
        exec j s = .next (passed s h [base] hold (r.1.modBank s.cur fun b => b.buffer (n l) (.store [] [] (some r.2)))))

/-- A gang-relative form enters its command on seat 0 of a ganged core, and traps elsewhere (R228, R229). -/
def EnqueuesGang (mk : FmtV → Instr) (op : OpV) (reads : FmtV → List Nat) : Prop :=
  ∀ (f : FmtV) s s1, let h : Shape := { srcs := [], vr := f.vb.toNat :: reads f, vd := some f.vd.toNat }
    Issues s h s1 [] →
      (s.cur.seat = 0 → (s1.core s.cur.core).gangSize ≠ 1 → (s.core s.cur.core).vq.length < 16 →
        exec (mk f) s = .next (passed s h [] f.hold
          (s1.venq (ctx s h []) (.v op f) 0 (s1.gangCores s.cur.core) false true false).1)) ∧
      (s.cur.seat ≠ 0 ∨ (s1.core s.cur.core).gangSize = 1 → (s.core s.cur.core).vq.length < 16 →
        exec (mk f) s = .next (trapped s h .gangBroken 0 none))

/-! Engines. -/

/-- The shape of a COP (R286, R287). -/
def copShape (s : State) (eng q : Nat) (sa sb : BitVec 6) : Shape :=
  { srcs := [isrc sa, isrc sb], closes := true
    keep := fun x s' => s'.modBank x.p fun b => { b with copRoom := some (copKey eng q (s.cur.seat == 8) x.vals) } }

/-- The tile of the current seat has no such engine for it (R287 step 2). -/
def engineAbsent (s : State) (eng : Nat) : Bool := s.cur.reflex && decide (eng ≠ 0 ∧ eng ≠ 5 ∧ eng ≠ 6)

/-- The steps of R287: an absent engine traps ENGINE_ABSENT; a command that fails its engine's checks traps ENGINE_DESC; a
full queue holds the seat, and on an X-seat traps REFLEX_BLOCK; otherwise an open scene is committed and the command
enters the tail of its queue. -/
def EntersCop (j : Instr) (eng q op : Nat) (sa sb : BitVec 6) (hold : BitVec 2)
    (bad : State → Machine.Place → ECmd → Bool) : Prop :=
  ∀ s s1 s2 a b,
    let h := copShape s eng q sa sb
    let key := copKey eng q (s.cur.seat == 8) [a, b]
    let wrong := bad s1 s.cur (s1.formCmd s.cur eng q op a b)
    Issues s h s1 [a, b] →
      (engineAbsent s eng = true → exec j s = .next (trapped s h .engineAbsent 0 none)) ∧
      (engineAbsent s eng = false → wrong = true → exec j s = .next (trapped s h .engineDesc 0 none)) ∧
      (engineAbsent s eng = false → wrong = false → 8 ≤ s1.queueLoad s.cur key →
        exec j s = .next (if s.cur.reflex then trapped s h .reflexBlock 0 none else s.stall .engine)) ∧
      (engineAbsent s eng = false → wrong = false → s1.queueLoad s.cur key < 8 → committed s h [a, b] s1 = some s2 →
        exec j s = .next (passed s h [a, b] hold
          ((s2.modQueue s.cur.core key (· ++ [s2.formCmd s.cur eng q op a b])).modCore s.cur.core
            fun k => { k with ids := k.ids + 1 })))

/-- An operation whose engine makes no check at issue. -/
def unchecked (_ : State) (_ : Machine.Place) (_ : ECmd) : Bool := false

/-- An instruction that only a handler may issue (R399). -/
def HandlerOnly (j : Instr) (h : Shape) : Prop :=
  ∀ s s1 vals, Issues s h s1 vals → (s1.bank s.cur).handler = false → exec j s = .next (trapped s h .privInsn 0 none)

/-- A core holds group `g` for the bank `p`, and the record at its operand goes to every member with the member's place
in the group (R422). -/
def seized (s : State) (p : Machine.Place) (g : Nat) (r : Rec) : State :=
  let ms := s.members g
  let s' : State := { s with holds := mset s.holds g p }
  (List.range ms.length).foldl (fun (t : State) i => t.post p.core (ms.getD i 0) none 3 false p.num (.seize g i r)) s'

/-- A seat halted by R51 for a word that its tile finds illegal. -/
def haltedIllegal (s : State) (w : W32) : State := { s.haltBank s.cur .illegalEncoding w with ended := .trap }

/-! Frames: what an instruction that retires leaves as it was. -/

/-- `t` keeps of `s` what no instruction changes that retires on the seat and bank `p` with result register `rd`: the other
banks; of its own bank all but registers, PC, the issue state, the notes of AMAX and the records of an open scene; every
register that is neither `rd` nor has a fixed-latency write in flight; of seats all but mail, queue entries and counts, and
of the other seats all but entries that enter their qin; of slots all but their energy; translations but for the
translation caches. -/
structure SeatKept (s t : State) (p : Machine.Place) (rd : Option Nat) : Prop where
  banks : ∀ q : Machine.Place, q.key ≠ p.key → t.bank q = s.bank q
  bank : ∃ regs pc si owed inflight pending scene amax, t.bank p = { s.bank p with
    regs := regs, pc := pc, si := si, owed := owed, inflight := inflight, pending := pending, scene := scene, amax := amax
    wip := .none, sendTo := none, copRoom := none }
  regs : ∀ n, n < 60 → rd ≠ some n → (∀ w ∈ (s.bank p).inflight, w.code ≠ n) →
    t.reg p n = s.reg p n ∧ t.present p n = s.present p n
  seats : ∀ c i, ∃ mail mpres icnt energy qin outRes evq, t.seat c i = { s.seat c i with
    mail := mail, mpres := mpres, icnt := icnt, energy := energy, qin := qin, outRes := outRes, evq := evq }
  others : ∀ c i, c * 16 + i ≠ p.core * 16 + p.seat → c * 16 + i ≠ p.core * 16 + p.num →
    ∃ qin, t.seat c i = { s.seat c i with qin := qin }
  slots : ∀ q, ∃ energy, t.slot q = { s.slot q with energy := energy }
  parks : ∀ cl, (t.mmu cl).parks = (s.mmu cl).parks

/-- `t` differs from `s` in nothing but banks, seats, cores, slots, translations and the windows in which home slices count
accesses (a fetch of a literal is one, R240): memory, its uncorrectable sectors and
timestamps, control and engine registers of clusters, dies and the module, messages and every other part stay. -/
def RestKept (s t : State) : Prop :=
  ∃ banks seats cores slots mmus l2, t = { s with
    banks := banks, seats := seats, cores := cores, slots := slots, mmus := mmus, l2 := l2, ended := .done }

/-- Frame of an instruction that works on registers: besides what `SeatKept` leaves open only the counts of its core
change; AMAX changes only when `notes`, or by a note that an earlier conversion has in flight. -/
def RegisterFrame (j : Instr) (rd : Option Nat) (notes : Bool) : Prop :=
  ∀ s t, exec j s = .next t → t.ended = .done →
    RestKept s t ∧ SeatKept s t s.cur rd ∧ (notes = false → (∀ w ∈ (s.bank s.cur).inflight, w.code ≠ 64) → (t.bank s.cur).amax = (s.bank s.cur).amax) ∧
    (∀ cl, (t.mmu cl).counters = (s.mmu cl).counters) ∧
    ∀ c, ∃ retired ids, t.core c = { s.core c with retired := retired, ids := ids }

/-- The byte at key `a` lies in a die's migration notification ring (R246). -/
def InRing (s : State) (a : Nat) : Prop :=
  ∃ d, let base := (s.crGlob d 0x18a).toNat / 4096 * 4096
    base ≤ a ∧ a < base + 16 * s.mnqLen d

/-- The byte at key `a` is one that a posted write of the current seat still has to write (R265). -/
def InPosted (s : State) (a : Nat) : Prop :=
  ∃ w ∈ s.extq, w.core = s.cur.core ∧ w.seat = s.cur.num ∧ w.addr ≤ a ∧ a < w.addr + w.bytes.length

/-- A core keeps all but its counts, its logical clock and its L1. -/
def CoreKept (s t : State) : Prop :=
  ∀ c, ∃ retired ids pts l1 sent, t.core c = { s.core c with
    retired := retired, ids := ids, pts := pts, l1 := l1, sent := sent }

/-- Frame of an instruction that stores nothing: memory keeps every byte, but for notifications that the access itself may
post (R247) and the seat's own posted writes to a port, which a read there performs first (R265). -/
def QuietFrame (j : Instr) (rd : Option Nat) : Prop :=
  ∀ s t, Memory.wf s.mem = true → exec j s = .next t → t.ended = .done →
    SeatKept s t s.cur rd ∧ CoreKept s t ∧
    (∀ a, ¬ InRing s a → ¬ InPosted s a → memRead t.mem a = memRead s.mem a) ∧
    t.eregs = s.eregs ∧ ∀ d n, n ≠ 0x18d → n < 0x400 → t.crGlob d n = s.crGlob d n

/-- Frame of an instruction of shape `h` that stores `n` bytes at the offset `off` of its operand values in segment `seg`,
aligned to `n`: every byte of memory stays that is not one of those located there, nor as in `QuietFrame`; with a scene open
those located there stay too, since the store is buffered. `r` says that it reads too. -/
def StoreFrame (j : Instr) (h : Shape) (rd : Option Nat) (seg n : Nat) (r : Bool) (off : List Word → Word) : Prop :=
  ∀ s t s1 vals, Memory.wf s.mem = true → (s.bank s.cur).wip.resuming = false → operandsOf s h = some (s1, vals) →
    (h.closes = true → (s.bank s.cur).openScene = none) →
    exec j s = .next t → t.ended = .done →
    SeatKept s t s.cur rd ∧ CoreKept s t ∧
    (∀ a, (∀ ks page, (s1.locate s.cur seg (off vals).toNat n n r true false).2 = .ok ks page → a ∉ ks) →
      ¬ InRing s a → ¬ InPosted s a → memRead t.mem a = memRead s.mem a) ∧
    (∀ a, (s.bank s.cur).openScene.isSome = true → ¬ InRing s a → ¬ InPosted s a → memRead t.mem a = memRead s.mem a) ∧
    t.eregs = s.eregs ∧ ∀ d n, n ≠ 0x18d → n < 0x400 → t.crGlob d n = s.crGlob d n

/-- Frame of an instruction that only hands a command to the vector unit or to an engine, outside a scene: memory and
every register keep their value, and of the cores only queues, counts and the number of the next command change. -/
def CommandFrame (j : Instr) (rd : Option Nat) : Prop :=
  ∀ s t, (s.bank s.cur).openScene = none → exec j s = .next t → t.ended = .done →
    SeatKept s t s.cur rd ∧ t.mem = s.mem ∧ t.ue = s.ue ∧ t.eregs = s.eregs ∧
    (∀ d n, n ≠ 0x18d → n < 0x400 → t.crGlob d n = s.crGlob d n) ∧
    ∀ c, ∃ retired ids vq queues, t.core c = { s.core c with retired := retired, ids := ids, vq := vq, queues := queues }

/-! Messages. -/

/-- The k-th message in flight is `m`, and nothing keeps it from arriving: no message sent earlier on its channel is still
in flight, and none that a stage door holds goes first (R175, R195, R262). -/
def Arrives (s : State) (k : Nat) (m : Msg) : Prop :=
  s.net[k]? = some m ∧ s.net.any (s.holdsBack · m) = false ∧ (m.cls = 2 → s.doorFirst m.dst m.no = false)

/-- The state in which the destination has taken the k-th message `m` out of the mesh, before its effect. -/
def tookIn (s : State) (k : Nat) (m : Msg) : State :=
  let t : State := { s with net := dropAt s.net k }
  t.taken m.dst m

/-- The state in which a core has taken the k-th message of its die's stage door. -/
def tookHeld (s : State) (die k c : Nat) (m : Msg) : State :=
  let t : State := { s with stage := mset s.stage die (dropAt (mget s.stage die []) k) }
  t.taken c m

/-! Engine steps. -/

/-- The head of an engine queue is `e`, and it may take a step now. -/
def Runs (s : State) (c key : Nat) (e : ECmd) : Prop := s.headCmd c key = some e ∧ s.runnable c key e = true

/-- The state without the k-th held stream event of a die. -/
def sevDrop (s : State) (die k : Nat) : State := { s with sevents := mset s.sevents die (dropAt (s.held die) k) }

end Sys2Proof.Safety
end

