-- ==== Sys2Proof/Certificates/Slice0/Obligations.lean ====
section
/-! DEFINITION. The statements about the machine. Each docstring names the rule of the spec that it formalises, or the log
entry of the model's own choice that it rests on. -/
open Sys2Proof Sys2Proof.Machine Sys2Proof.Safety

/-! The machine after reset, words and their decoding, one step. -/

/-- After module reset every seat is idle with its registers, PC and scene registers zero and its control registers at the
reset values of R30-R38; constant banks, vector registers, masks k1-k7 and accumulators are zero (R39, R203, R294); LUT4
holds the sign-extended codes (R75); the registers of R251, R313, R397 and R451 read at every seat as their reset values.
Memory is in its canonical form; an unlisted byte reads zero (log 1: the model's choice). -/
def Obligations.ResetState : Prop :=
  GoodMemory State.reset ∧ State.reset.mem = [] ∧ State.reset.agenda = [] ∧ State.reset.clk = 0 ∧ State.reset.net = [] ∧
  (∀ p : Machine.Place,
    let b := State.reset.bank p
    b.run = .idle ∧ b.pc = 0 ∧ b.scene = none ∧ b.scpc = 0 ∧ b.scws = 0 ∧ b.reprise = 0 ∧ b.repriseLimit = 8 ∧ b.frm = 0 ∧
    b.schk = false ∧ b.prio = 0 ∧ b.amax = 0 ∧ b.cause = 0 ∧ b.faddr = 0 ∧ b.epc = 0 ∧ b.tstat = 0 ∧ b.joinc = 0 ∧
    b.vcore = BitVec.ofNat 32 p.core ∧ (∀ n, b.seg n = ⟨0, 0, 0⟩) ∧ (∀ n, State.reset.reg p n = 0) ∧
    (State.reset.seat p.core p.seat).mpres = 0 ∧ (State.reset.seat p.core p.seat).icnt = 0) ∧
  (∀ c n, State.reset.cbGet c n = 0 ∧ State.reset.vreg c n = 0 ∧
    State.reset.kreg c n = (if n = 0 then BitVec.allOnes 64 else 0)) ∧
  (∀ c t r k, State.reset.accGet c t r k = 0) ∧ (∀ c q, State.reset.queue c q = []) ∧
  (∀ c, (State.reset.core c).lut4.toNat = (List.range 16).foldr (fun i a =>
    ((BitVec.ofNat 4 i).signExtend 8).toNat + 256 * a) 0) ∧
  (∀ c, State.reset.crCore c 0x00a = 0 ∧ State.reset.crCore c 0x284 = 0 ∧ State.reset.crCore c 0x28d = 0 ∧
    (Config.isX c = false → State.reset.crCore c 0x188 = 64) ∧
    (State.reset.crCore c 0x28b).toNat = Config.dieOf c * 384 % 2 ^ 64) ∧
  (∀ p : Machine.Place,
    (∀ n ∈ [0x180, 0x181, 0x182, 0x183, 0x184, 0x185, 0x186, 0x187, 0x189, 0x18a, 0x18b, 0x18c, 0x18d, 0x18e, 0x190, 0x191,
      0x192, 0x193, 0x195, 0x200, 0x201, 0x202, 0x203, 0x204, 0x205, 0x206, 0x280, 0x281, 0x282, 0x283, 0x284, 0x285, 0x286,
      0x287, 0x288, 0x289, 0x28a, 0x300, 0x302, 0x303, 0x304, 0x307, 0x308, 0x30a, 0x30b, 0x30d, 0x310, 0x311, 0x314, 0x318,
      0x319, 0x31a, 0x31b, 0x31c, 0x31d, 0x320, 0x321, 0x322, 0x323], State.reset.crRead p n = 0) ∧
    (∀ q, q < 64 → State.reset.crRead p (0x240 + q) = 0) ∧ State.reset.crRead p 0x194 = 1 ∧
    State.reset.crRead p 0x305 = 2 ^ 24 + 4 * 2 ^ 16 + 10 ∧ State.reset.crRead p 0x306 = 8 ∧
    State.reset.crRead p 0x309 = 2 ^ 61 + 1000 * 2 ^ 32 + 100 * 2 ^ 16 + 3 * 2 ^ 8 ∧
    State.reset.crRead p 0x30c = 100 * 2 ^ 16 + 105 * 2 ^ 8 + 95 ∧ State.reset.crRead p 0x30f = 380) ∧ State.reset.dtime = 0

/-- Words that the spec writes out, with the instructions that it names for them. -/
def Obligations.DecodeWords : Prop :=
  decode 0x0880_0190#32 = .addi ⟨8, 0, 100, 0⟩ ∧ decode 0x0482_0b00#32 = .add ⟨8, 8, 11, 0⟩ ∧
  decode 0x77ff_ffec#32 = .j ⟨0xff_fffb, 0⟩ ∧ decode 0x704a_fff0#32 = .bnez ⟨10, 0x3ffc, 0⟩ ∧
  decode 0x4882_4a0c#32 = .fadd ⟨8, 9, 10, .rne, 1, 0⟩ ∧ decode 0x4ca2_080c#32 = .fmadd ⟨10, 8, 8, .rne, 1, 0⟩ ∧
  decode 0x8802_0900#32 = .spawn ⟨0, 8, 9, 0⟩ ∧ decode 0x9861_1000#32 = .vadd ⟨3, 1, 2, 0, 0⟩ ∧
  decode 0x9c21_1004#32 = .vfadd ⟨1, 1, 2, 0, .rne, 0⟩ ∧ decode 0xa042_fc4c#32 = .vfmulVs ⟨2, 2, 63, 0, 0⟩ ∧
  decode 0xa8c6_3f88#32 = .vgfadd ⟨6, 6, 7, 7, 0⟩ ∧ decode 0x6ca2_48f4#32 = .cas ⟨10, 9, 8, 1, 1, 0⟩ ∧
  decode 0x8534_9b20#32 = .stRel ⟨1, 1, 9, 11, 8, 0⟩ ∧ decode 0x8c83_005c#32 = .rstA ⟨8, 12, 3, 0⟩ ∧
  decode 0x8540_a004#32 = .lut4ld ⟨10, 1, 0⟩ ∧ decode 0x8418_a004#32 = .cbld ⟨10, 1, 0⟩ ∧
  decode 0xac10_4804#32 = .mmaN ⟨8, 9, 0, 0⟩ ∧ decode 0x0001_86a0#32 = .illegal 0x0001_86a0#32

/-- Decoding and encoding agree: the word of a well-formed instruction decodes to that instruction, with every operand at
every value its encoding admits (R40-R49), and the instruction that a word decodes to has that word. -/
def Obligations.DecodeEncode : Prop :=
  (∀ (i : Instr) (w : W32), i.WellFormed → encode i = some w → decode w = i) ∧
  (∀ (w : W32), encode (decode w) = some w) ∧
  (∀ (w : W32), (decode w).WellFormed ∨ decode w = .illegal w)

/-- A step runs the decoded instruction (R47, R147): without an agenda, the first core that holds work turns its barrel,
and when no core has a turn left the clk advances. The seat that the barrel picks runs, from its own PC, exactly the
instruction that the word there decodes to, once its fetch has counted on its page (R247), and goes on with the word of
one that has begun; a seat with empty si left spends one instead (R22), and one whose scene has lost a lane of a vector
load traps first (R249). The turn adds the barrel's own registers, and the other seats count stalls. Three points are the
model's own choice: the order of the turns (log 4), an owed si being spent whatever waits next (log 76), and a begun
instruction going on with the word that it began with (log 35). -/
def Obligations.StepRunsDecoded : Prop :=
  (∀ (s : State), s.agenda = [] →
    (∀ c, s.nextCore = some c → step s = .next (s.barrel c)) ∧ (s.nextCore = none → step s = .next s.tick)) ∧
  (∀ (s : State) (c : Nat) (r : List Turn), s.agenda = .barrel c :: r →
    step s = .next (({ s with agenda := r } : State).barrel c)) ∧
  (∀ (s : State) (c j : Nat) (t : State),
    let n := Config.seats c
    let i := ((s.core c).rr + j) % n
    j < n → (s.core c).turnClk ≠ s.clk + 1 → s.inStep c i = false → s.seatTry c i = .go t →
    (∀ k u, k < j → s.seatTry c (((s.core c).rr + k) % n) ≠ .go u) →
      let t' := t.modCore c fun k => { k with rr := i + 1, turnClk := s.clk + 1 }
      (∃ ss, s.barrel c = { t' with seats := ss, turned := c :: t'.turned }) ∧
      ∀ d k, ∃ st, (s.barrel c).seat d k = { t'.seat d k with stalls := st }) ∧
  (∀ (s : State) (c i : Nat), let p := s.turnPlace c i
    s.inStep c i = false → s.gate p = some none →
      (0 < (s.bank p).owed → s.seatTry c i = .go (s.spend p)) ∧
      ((s.bank p).owed = 0 → ∀ st, (s.attempt p).ended = .stall st → s.seatTry c i = .stall st) ∧
      ((s.bank p).owed = 0 → (∀ st, (s.attempt p).ended ≠ .stall st) → s.seatTry c i = .go (s.attempt p))) ∧
  (∀ (s s1 : State) (p : Machine.Place) (w : W32), (s.bank p).vecLost = none → (s.bank p).wip.afresh = true →
    let s0 : State := { s with cur := p, ended := .done }
    s0.fetch (s0.stream p) (s.bank p).pc = (s1, .ok w) →
      ∃ t, exec (decode w) (s1.countFetch p (wordsAt p.core w)) = .next t ∧
        s.attempt p = if t.ended = .began then t.modBank p fun b => { b with word := w } else t) ∧
  (∀ (s : State) (p : Machine.Place), (s.bank p).vecLost = none → (s.bank p).wip.afresh = false →
    let s0 : State := { s with cur := p, ended := .done }
    ∃ t, exec (decode (s.bank p).word) s0 = .next t ∧
      s.attempt p = if t.ended = .began then t.modBank p fun b => { b with word := (s.bank p).word } else t) ∧
  (∀ (s : State) (p : Machine.Place) sc pc off sec, (s.bank p).vecLost = some (sc, pc, off, sec) →
    let s0 : State := { s with cur := p, ended := .done }
    s.attempt p = if s0.unsettled p then s0.stall .memory else s0.sceneBad p sc off sec pc 1 0) ∧
  (∀ (s : State) (p : Machine.Place) (n : Nat), ∃ mmus l2 lines mem crs ue cores net msgNo, s.countFetch p n = { s with
    mmus := mmus, l2 := l2, lines := lines, mem := mem, crs := crs, ue := ue, cores := cores, net := net, msgNo := msgNo })

/-- Memory keeps its one canonical form in every step, whatever instruction or event the step is. -/
def Obligations.MemoryForm : Prop :=
  ∀ s t, GoodMemory s → step s = .next t → GoodMemory t

/-! Issue, retirement and frames. -/

/-- What the retirement of an instruction does to its seat (R21-R25): the seat goes on at the given PC, one issue slot has
passed, HOLD owes 0, 1, 3 or 7 empty ones; a fixed-latency result of latency n joins the writes in flight for slot si + n,
after those of the same slot; writes whose slot has come take effect in order, the last one standing, and no other register
changes; a variable-latency result becomes pending and cancels the earlier writes of its register. The result of an
instruction that pops a queue has variable latency (R191), and its reader waits under the queue cause. -/
def Obligations.Retirement : Prop :=
  (∀ h : Shape, h.latency = (match h.lat with
      | .fixed n => if 60 ∈ h.srcs.map (·.1) ∨ 62 ∈ h.srcs.map (·.1) then Lat.var else .fixed n
      | l => l) ∧
    h.cause = (if 60 ∈ h.srcs.map (·.1) ∨ 62 ∈ h.srcs.map (·.1) then Stall.queue else .memory)) ∧
  (∀ (s s2 : State) (h : Shape) vals hold v pc,
    let t := retired s h vals hold s2 v pc
    let b := t.bank s.cur
    let b0 := s2.bank s.cur
    let last := fun (l : List PendWrite) (n : Nat) =>
      (((l.filter fun w => decide (w.at_ ≤ b0.si + 1) && w.code == n).getLast?).map (·.val)).getD (s2.reg s.cur n)
    b.pc = pc ∧ b.si = b0.si + 1 ∧ b.wip = .none ∧ t.ended = .done ∧ t.mem = s2.mem ∧
    b.owed = (if hold = 0 then 0 else if hold = 1 then 1 else if hold = 2 then 3 else 7) ∧
    (∀ n d x, h.latency = .fixed n → h.dst = some d → v = some x → 0 < d → d < 60 →
      b.inflight = (insertWrite b0.inflight ⟨d, x, b0.si + n⟩).filter (fun w => decide (b0.si + 1 < w.at_)) ∧
      ∀ k, 0 < k → k < 28 → t.reg s.cur k = last (insertWrite b0.inflight ⟨d, x, b0.si + n⟩) k) ∧
    (∀ d x, h.latency = .var → h.dst = some d → v = some x → 0 < d → d < 60 →
      (∃ id, b.pending = b0.pending ++ [⟨id, d, h.cause, some x, 0, 0⟩]) ∧
      b.inflight = b0.inflight.filter (fun w => decide (b0.si + 1 < w.at_) && w.code != d) ∧
      ∀ k, 0 < k → k < 28 → t.reg s.cur k = last (b0.inflight.filter (·.code != d)) k) ∧
    (h.dst = none → b.inflight = b0.inflight.filter (fun w => decide (b0.si + 1 < w.at_)) ∧
      ∀ k, 0 < k → k < 28 → t.reg s.cur k = last b0.inflight k)) ∧
  (∀ (l : List PendWrite) (w : PendWrite),
    insertWrite l w = l.takeWhile (fun x => decide (x.at_ ≤ w.at_)) ++ w :: l.dropWhile (fun x => decide (x.at_ ≤ w.at_))) ∧
  (∀ (s : State) (p : Machine.Place), let t := s.spend p
    (t.bank p).si = (s.bank p).si + 1 ∧ (t.bank p).owed = (s.bank p).owed - 1 ∧ (t.bank p).pc = (s.bank p).pc ∧
    t.mem = s.mem)

/-- The checks at issue, in this order (R24, R25, R26, R128, R148, R150): an instruction that reads an absent mail register,
lacks a queue entry or names a pending register waits, under the first of these causes; then HOLD_SHORT; then SCENE_LIVEIN.
They are stated for the ALU and the multiply and divide instructions and for ld; and the conditions of HOLD_SHORT and
SCENE_LIVEIN for every shape. -/
def Obligations.IssueChecks : Prop :=
  (∀ (j : Instr) (h : Shape),
    (∃ f : FmtR, (h = shape2 f.rd f.ra f.rb 1 ∧ j ∈ [Instr.add f, .sub f, .and f, .or f, .xor f, .andn f, .orn f, .sll f, .srl f,
        .sra f, .rol f, .ror f, .min f, .max f, .minu f, .maxu f, .adds f, .subs f, .addus f, .subus f]) ∨
      (h = shape2 f.rd f.ra f.rb 4 ∧ j ∈ [Instr.mul f, .mulh f, .mulhu f, .mulhsu f]) ∨
      (h = shape2 f.rd f.ra f.rb 24 ∧ j ∈ [Instr.div f, .divu f, .rem f, .remu f])) ∨
    (∃ f : FmtM, h = { srcs := [isrc f.ra], dst := some f.rd.toNat, lat := .var } ∧ j = .ld f) →
    ∀ s : State, (s.bank s.cur).wip.resuming = false →
      (∀ r ∈ (s.bank s.cur).pending, r.cause = .queue ∨ r.cause = .engine ∨ r.cause = .memory) →
      (s.cur.reflex = false → s.absent s.cur h = true → exec j s = .next (s.stall .presence)) ∧
      (s.cur.reflex = false → s.absent s.cur h = false → s.queueWait s.cur h = true → exec j s = .next (s.stall .queue)) ∧
      (s.absent s.cur h = false ∨ s.cur.reflex = true → s.queueWait s.cur h = false ∨ s.cur.reflex = true →
        (∀ c, s.pendingOn s.cur h = some c → exec j s = .next (s.stall c)) ∧
        (s.pendingOn s.cur h = none →
          (∀ (f : FmtM) s1 vals, j = .ld f → operandsOf s h = some (s1, vals) →
            Free s f.seg.toNat (vals.headD 0 + f.imm.signExtend 64 * BitVec.ofNat 64 (2 ^ f.sz.toNat)) (2 ^ f.sz.toNat) true
              false) →
          ((s.bank s.cur).holdShort h = true → exec j s = .next (trapped s h .holdShort 0 none)) ∧
          ((s.bank s.cur).holdShort h = false → (s.bank s.cur).liveIn h = true →
            exec j s = .next (trapped s h .sceneLivein 0 none))))) ∧
  (∀ (b : Bank) (h : Shape), b.holdShort h = true ↔ b.schk = true ∧
    ((∃ w ∈ b.inflight, w.code ∈ h.reads) ∨
     (∃ d n, h.dst = some d ∧ h.latency = .fixed n ∧ 0 < d ∧ d < 60 ∧ ∃ w ∈ b.inflight, w.code = d ∧ b.si + n ≤ w.at_) ∨
     (∃ d, h.dst = some d ∧ h.latency = .var ∧ 0 < d ∧ d < 60 ∧ ∃ w ∈ b.inflight, w.code = d))) ∧
  (∀ (b : Bank) (h : Shape), h.vd = none → (b.liveIn h = true ↔ ∃ sc, b.openScene = some sc ∧
    (b.schk = true ∨ sc.form = 1) ∧ ∃ r ∈ h.reads, sc.mask.getLsbD (r / 4) = true ∧ r ∉ sc.written))

/-- Frame of the instructions that work on registers: they change their destination, and nothing else of the machine but
the seat's issue state, the queue entries that they pop, and counts; outside a scene a converting cvt has its note of AMAX
retire with its result (R81). -/
def Obligations.RegisterFrames : Prop :=
  (∀ f : FmtR, ∀ j ∈ [Instr.add f, .sub f, .and f, .or f, .xor f, .andn f, .orn f, .sll f, .srl f, .sra f, .rol f, .ror f,
    .min f, .max f, .minu f, .maxu f, .adds f, .subs f, .addus f, .subus f, .clz f, .ctz f, .popc f, .bswap f, .abs f, .mul f,
    .mulh f, .mulhu f, .mulhsu f, .div f, .divu f, .rem f, .remu f, .cmpeq f, .cmpne f, .cmplt f, .cmpge f, .cmpltu f,
    .cmpgeu f, .csel f, .cmovz f, .cmovnz f, .bfxur f, .bfxsr f, .bfir f, .mwait f, .mwaitAny f],
    RegisterFrame j (some f.rd.toNat) false) ∧
  (∀ f : FmtR, RegisterFrame (.jr f) none false ∧ RegisterFrame (.jlr f) (some 1) false ∧ RegisterFrame (.ret f) none false) ∧
  (∀ f : FmtI, ∀ j ∈ [Instr.addi f, .andi f, .ori f, .xori f], RegisterFrame j (some f.rd.toNat) false) ∧
  (∀ f : FmtSh, ∀ j ∈ [Instr.slli f, .srli f, .srai f, .rori f], RegisterFrame j (some f.rd.toNat) false) ∧
  (∀ f : FmtSlt, ∀ j ∈ [Instr.slti f, .sltiu f, .seqi f, .snei f], RegisterFrame j (some f.rd.toNat) false) ∧
  (∀ f : FmtK, RegisterFrame (.lik f) (some f.rd.toNat) false) ∧
  (∀ f : FmtBF, ∀ j ∈ [Instr.bfxu f, .bfxs f, .bfi f], RegisterFrame j (some f.rd.toNat) false) ∧
  (∀ f : FmtFR, ∀ j ∈ [Instr.fadd f, .fsub f, .fmul f, .fdiv f, .fsqrt f, .fmadd f, .fmsub f, .fnmsub f, .fnmadd f],
    RegisterFrame j (some f.rd.toNat) false) ∧
  (∀ f : FmtFT, ∀ j ∈ [Instr.fmin f, .fmax f, .fsgnj f, .fsgnjn f, .fsgnjx f, .fclass f, .feq f, .fne f, .flt f, .fle f,
    .funord f], RegisterFrame j (some f.rd.toNat) false) ∧
  (∀ f : FmtC, ∀ j ∈ [Instr.faddc f, .fsubc f, .frsubc f, .fmulc f, .fmulac f, .fmacc f, .fldc f],
    RegisterFrame j (some f.rd.toNat) false) ∧
  (∀ f : FmtF20, RegisterFrame (.fli f) (some f.rd.toNat) false) ∧
  (∀ f : FmtCvt, RegisterFrame (.cvt f) (some f.rd.toNat) (converting f.dst.toNat f.src.toNat)) ∧
  (∀ f : FmtB, ∀ j ∈ [Instr.beqz f, .bnez f, .bltz f, .bgez f, .bgtz f, .blez f, .beven f, .bodd f],
    RegisterFrame j none false) ∧
  (∀ f : FmtJ, RegisterFrame (.j f) none false ∧ RegisterFrame (.jl f) (some 1) false) ∧
  (∀ f : FmtWid, ∀ j ∈ [Instr.widf f, .widfr f], RegisterFrame j (some f.rd.toNat) false) ∧
  (∀ f : FmtS, RegisterFrame (.nop f) none false ∧ RegisterFrame (.crd f) (some f.ra.toNat) false ∧
    RegisterFrame (.cbrd f) (some f.ra.toNat) false ∧ RegisterFrame (.bfrd f) (some (f.imm.toNat % 64)) false) ∧
  (∀ f : FmtVS, RegisterFrame (.vstat f) (some f.sb.toNat) false) ∧ (∀ f : FmtV, RegisterFrame (.vfence f) none false)

/-- Frame of the instructions that access memory (R103, R104, R256, R265, R268-R275, R278, R285): loads, fences and hints
store nothing; a store or an atomic outside a scene stores only to the bytes that its own offset locates, and a store in a
scene to none. -/
def Obligations.MemoryFrames : Prop :=
  (∀ f : FmtM, QuietFrame (.ld f) (some f.rd.toNat)) ∧
  (∀ f : FmtX, QuietFrame (.ldx f) (some f.rd.toNat) ∧ QuietFrame (.ldxSx f) (some f.rd.toNat)) ∧
  (∀ f : FmtOrd, QuietFrame (.ldAcq f) (some f.rx.toNat)) ∧
  (∀ f : FmtFence, ∀ j ∈ [Instr.fenceAcq f, .fenceRel f, .fenceFull f], QuietFrame j none) ∧
  (∀ f : FmtS, ∀ j ∈ [Instr.prefL1 f, .prefL2 f, .mhintNear f, .mhintHome f, .mhintPage f], QuietFrame j none) ∧
  (∀ f : FmtM, StoreFrame (.st f) { srcs := [isrc f.rd, isrc f.ra], entries := 1 } none f.seg.toNat (2 ^ f.sz.toNat) false
    fun vals => vals.getD 1 0 + f.imm.signExtend 64 * BitVec.ofNat 64 (2 ^ f.sz.toNat)) ∧
  (∀ f : FmtX, StoreFrame (.stx f) { srcs := [isrc f.rd, isrc f.ra, isrc f.rb], entries := 1 } none f.seg.toNat
    (2 ^ f.sz.toNat) false fun vals => vals.getD 1 0 + vals.getD 2 0 * BitVec.ofNat 64 (2 ^ f.sz.toNat)) ∧
  (∀ f : FmtOrd, StoreFrame (.stRel f) { srcs := [isrc f.ra, isrc f.rx], entries := 2 } none f.seg.toNat
    (2 ^ (2 + f.d.toNat)) false fun vals => vals.getD 0 0) ∧
  (∀ f : FmtAmo, ∀ j ∈ [Instr.amoswap f, .amoadd f, .amoand f, .amoor f, .amomax f, .amomin f, .amomaxu f],
    StoreFrame j { srcs := [isrc f.ra, isrc f.rb], dst := some f.rd.toNat, lat := .var, closes := true } (some f.rd.toNat)
      f.seg.toNat (4 * (1 + f.d.toNat)) true fun vals => vals.getD 0 0) ∧
  (∀ f : FmtAmo, StoreFrame (.cas f)
    { srcs := [isrc f.rd, isrc f.ra, isrc f.rb], dst := some f.rd.toNat, lat := .var, closes := true } (some f.rd.toNat)
      f.seg.toNat (4 * (1 + f.d.toNat)) true fun vals => vals.getD 1 0)

/-- Frame of the instructions that hand a command to the vector unit or to an engine, outside a scene (R205, R287): at
issue they change no memory and no register but the pending mark of a scalar result. -/
def Obligations.CommandFrames : Prop :=
  (∀ f : FmtV, ∀ j ∈ [Instr.vadd f, .vsub f, .vmul f, .vmulh f, .vmulhu f, .vand f, .vor f, .vxor f, .vsll f, .vsrl f, .vsra f,
    .vmin f, .vmax f, .vminu f, .vmaxu f, .vadds f, .vsubs f, .vaddus f, .vsubus f, .vabs f, .vsel f, .vcmpeq f, .vcmpne f,
    .vcmplt f, .vcmpge f, .vcmpltu f, .vcmpgeu f, .vfmin f, .vfmax f, .vfabs f, .vfneg f, .vfsgnj f, .vfeq f, .vflt f, .vfle f,
    .vfun f, .vrcp f, .vrsqrt f, .vexp2 f, .vlog2 f, .vtanh f, .vsigm f, .vsinpi f, .vcospi f, .vperm f, .vmov f, .kand f,
    .kor f, .kxor f, .kandn f, .knot f, .vgmov f, .vgadd f, .vgfadd f, .vgfmax f], CommandFrame j none) ∧
  (∀ f : FmtVF, ∀ j ∈ [Instr.vfadd f, .vfsub f, .vfmul f, .vfdiv f, .vfsqrt f, .vfmadd f, .vfmsub f, .vfnmsub f],
    CommandFrame j none) ∧
  (∀ f : FmtVS, ∀ j ∈ [Instr.vaddVs f, .vsubVs f, .vmulVs f, .vfaddVs f, .vfmulVs f, .vfmaddVs f, .vcmpeqVs f, .vfltVs f,
    .vrot f, .vmovVs f, .vcvtn f, .vcvtw f, .kset f, .vlds f, .vsts f], CommandFrame j none) ∧
  (∀ f : FmtVS, ∀ j ∈ [Instr.vext f, .kmovs f], CommandFrame j (some f.sb.toNat)) ∧
  (∀ f : FmtVr, ∀ j ∈ [Instr.vredadd f, .vredmin f, .vredmax f, .vredand f, .vredor f, .vredxor f, .vredfadd f, .vredfmax f],
    CommandFrame j (some f.sb.toNat)) ∧
  (∀ f : FmtVM, ∀ j ∈ [Instr.vld f, .vst f], CommandFrame j none) ∧
  (∀ f : FmtCop, ∀ j ∈ [Instr.mzero f, .mmaN f, .mmaH f, .mmaBf f, .mmaS f, .mdrain f, .ssamp f, .sdraw f, .gstep f, .gmask f,
    .gflush f, .sin f, .sadv f, .stok f, .sopen f, .cpost f, .cpubl f, .cread f, .evput f, .csave f, .crestore f],
    CommandFrame j none) ∧
  (∀ f : FmtCpy, CommandFrame (.cpy f) none ∧ CommandFrame (.cfill f) none)

/-! Scalar integer instructions. -/

/-- Effects of the ALU instructions (R93, latency by R91), and what clz, ctz, popc and bswap count and move, bit by bit. -/
def Obligations.IntegerResults : Prop :=
  (Gives2 .add 1 (fun a b => a + b) ∧ Gives2 .sub 1 (fun a b => a - b) ∧
   Gives2 .and 1 (fun a b => a &&& b) ∧ Gives2 .or 1 (fun a b => a ||| b) ∧ Gives2 .xor 1 (fun a b => a ^^^ b) ∧
   Gives2 .andn 1 (fun a b => a &&& ~~~b) ∧ Gives2 .orn 1 (fun a b => a ||| ~~~b) ∧
   Gives2 .sll 1 (fun a b => a <<< (b.toNat % 64)) ∧ Gives2 .srl 1 (fun a b => a >>> (b.toNat % 64)) ∧
   Gives2 .sra 1 (fun a b => a.sshiftRight (b.toNat % 64)) ∧
   Gives2 .rol 1 (fun a b => a.rotateLeft (b.toNat % 64)) ∧ Gives2 .ror 1 (fun a b => a.rotateRight (b.toNat % 64)) ∧
   Gives2 .min 1 (fun a b => if a.toInt < b.toInt then a else b) ∧
   Gives2 .max 1 (fun a b => if a.toInt < b.toInt then b else a) ∧
   Gives2 .minu 1 (fun a b => if a.toNat < b.toNat then a else b) ∧
   Gives2 .maxu 1 (fun a b => if a.toNat < b.toNat then b else a) ∧
   Gives2 .adds 1 (fun a b => BitVec.ofInt 64 (max (-2 ^ 63) (min (2 ^ 63 - 1) (a.toInt + b.toInt)))) ∧
   Gives2 .subs 1 (fun a b => BitVec.ofInt 64 (max (-2 ^ 63) (min (2 ^ 63 - 1) (a.toInt - b.toInt)))) ∧
   Gives2 .addus 1 (fun a b => BitVec.ofInt 64 (max 0 (min (2 ^ 64 - 1) ((a.toNat : Int) + b.toNat)))) ∧
   Gives2 .subus 1 (fun a b => BitVec.ofInt 64 (max 0 (min (2 ^ 64 - 1) ((a.toNat : Int) - b.toNat)))) ∧
   (∀ f : FmtR, Gives1 (.clz f) f.rd f.ra f.hold clz64) ∧ (∀ f : FmtR, Gives1 (.ctz f) f.rd f.ra f.hold ctz64) ∧
   (∀ f : FmtR, Gives1 (.popc f) f.rd f.ra f.hold popc64) ∧ (∀ f : FmtR, Gives1 (.bswap f) f.rd f.ra f.hold bswap64) ∧
   (∀ f : FmtR, Gives1 (.abs f) f.rd f.ra f.hold fun a => if a.toInt < 0 then -a else a)) ∧
  ((∀ (a : Word) (n : Nat), clz64 a = BitVec.ofNat 64 n ∧ n ≤ 64 ↔
     n ≤ 64 ∧ (∀ i, i < n → a.getMsbD i = false) ∧ (n < 64 → a.getMsbD n = true)) ∧
   (∀ (a : Word) (n : Nat), ctz64 a = BitVec.ofNat 64 n ∧ n ≤ 64 ↔
     n ≤ 64 ∧ (∀ i, i < n → a.getLsbD i = false) ∧ (n < 64 → a.getLsbD n = true)) ∧
   (∀ a : Word, (popc64 a).toNat = ((Finset.range 64).filter fun i => a.getLsbD i = true).card) ∧
   (∀ (a : Word) (i j : Nat), i < 8 → j < 8 → (bswap64 a).getLsbD (8 * i + j) = a.getLsbD (8 * (7 - i) + j)))

/-- Effects of the immediate instructions and of lik (R94, R95, R96, R97), and of the bit-field instructions, whose register
forms take offset and width from b (R101, R104): e := min(w, 64 - min(off, 64)) bits of a from bit off on, extended by zeros
(BFXU) or by their top bit (BFXS), or put in the place of those bits of rd (BFI). -/
def Obligations.ImmediateResults : Prop :=
  ((∀ f : FmtI, Gives1 (.addi f) f.rd f.ra f.hold fun a => a + f.imm.signExtend 64) ∧
   (∀ f : FmtI, Gives1 (.andi f) f.rd f.ra f.hold fun a => a &&& f.imm.zeroExtend 64) ∧
   (∀ f : FmtI, Gives1 (.ori f) f.rd f.ra f.hold fun a => a ||| f.imm.zeroExtend 64) ∧
   (∀ f : FmtI, Gives1 (.xori f) f.rd f.ra f.hold fun a => a ^^^ f.imm.zeroExtend 64) ∧
   (∀ f : FmtSh, Gives1 (.slli f) f.rd f.ra f.hold fun a => a <<< f.amt.toNat) ∧
   (∀ f : FmtSh, Gives1 (.srli f) f.rd f.ra f.hold fun a => a >>> f.amt.toNat) ∧
   (∀ f : FmtSh, Gives1 (.srai f) f.rd f.ra f.hold fun a => a.sshiftRight f.amt.toNat) ∧
   (∀ f : FmtSh, Gives1 (.rori f) f.rd f.ra f.hold fun a => a.rotateRight f.amt.toNat) ∧
   (∀ f : FmtSlt, Gives1 (.slti f) f.rd f.ra f.hold fun a => if a.toInt < f.imm.toInt then 1 else 0) ∧
   (∀ f : FmtSlt, Gives1 (.sltiu f) f.rd f.ra f.hold fun a => if a.toNat < (f.imm.signExtend 64).toNat then 1 else 0) ∧
   (∀ f : FmtSlt, Gives1 (.seqi f) f.rd f.ra f.hold fun a => if a = f.imm.signExtend 64 then 1 else 0) ∧
   (∀ f : FmtSlt, Gives1 (.snei f) f.rd f.ra f.hold fun a => if a ≠ f.imm.signExtend 64 then 1 else 0) ∧
   (∀ (f : FmtK) s s1 vals,
     let h : Shape := { srcs := if f.pos = 0 then [] else [isrc f.rd], dst := some f.rd.toNat, lat := .fixed 1 }
     Issues s h s1 vals → ∃ v : Word, exec (.lik f) s = .next (retired s h vals f.hold s1 (some v) (succ s h)) ∧
       ∀ i, i < 64 → v.getLsbD i =
         if i / 16 = f.pos.toNat then f.imm.getLsbD (i % 16)
         else if f.pos = 0 then false else (vals.headD 0).getLsbD i)) ∧
  ((∀ f : FmtBF, Gives1 (.bfxu f) f.rd f.ra f.hold (bfxuVal f.off.toNat (f.wid.toNat + 1))) ∧
   (∀ f : FmtBF, Gives1 (.bfxs f) f.rd f.ra f.hold (bfxsVal f.off.toNat (f.wid.toNat + 1))) ∧
   (∀ (f : FmtBF) s s1 d a, Issues s (shapeRd f.rd f.ra 1) s1 [d, a] → exec (.bfi f) s =
     .next (retired s (shapeRd f.rd f.ra 1) [d, a] f.hold s1 (some (bfiVal f.off.toNat (f.wid.toNat + 1) d a))
       (succ s (shapeRd f.rd f.ra 1)))) ∧
   Gives2 .bfxur 1 (fun a b => bfxuVal (b.toNat % 128) (b.toNat / 256 % 128) a) ∧
   Gives2 .bfxsr 1 (fun a b => bfxsVal (b.toNat % 128) (b.toNat / 256 % 128) a) ∧
   Gives3 .bfir (fun d a b => bfiVal (b.toNat % 128) (b.toNat / 256 % 128) d a)) ∧
  (∀ (off w i : Nat) (d a : Word), i < 64 →
     let e := min w (64 - min off 64)
     (bfxuVal off w a).getLsbD i = (decide (i < e) && a.getLsbD (off + i)) ∧
     (bfxsVal off w a).getLsbD i = (decide (0 < e) && a.getLsbD (off + min i (e - 1))) ∧
     (bfiVal off w d a).getLsbD i = if off ≤ i ∧ i < off + e then a.getLsbD (i - off) else d.getLsbD i)

/-- Effects of the multiply and divide instructions, with their latencies (R91, R98), and of the compare and select
instructions (R99). -/
def Obligations.MultiplyCompareResults : Prop :=
  (Gives2 .mul 4 (fun a b => a * b) ∧
   Gives2 .mulh 4 (fun a b => BitVec.ofInt 64 (a.toInt * b.toInt / 2 ^ 64)) ∧
   Gives2 .mulhu 4 (fun a b => BitVec.ofNat 64 (a.toNat * b.toNat / 2 ^ 64)) ∧
   Gives2 .mulhsu 4 (fun a b => BitVec.ofInt 64 (a.toInt * b.toNat / 2 ^ 64)) ∧
   Gives2 .div 24 (fun a b => if b = 0 then BitVec.allOnes 64 else BitVec.ofInt 64 (a.toInt.tdiv b.toInt)) ∧
   Gives2 .divu 24 (fun a b => if b = 0 then BitVec.allOnes 64 else a / b) ∧
   Gives2 .rem 24 (fun a b => if b = 0 then a else BitVec.ofInt 64 (a.toInt.tmod b.toInt)) ∧
   Gives2 .remu 24 (fun a b => if b = 0 then a else a % b)) ∧
  (Gives2 .cmpeq 1 (fun a b => if a = b then 1 else 0) ∧ Gives2 .cmpne 1 (fun a b => if a ≠ b then 1 else 0) ∧
   Gives2 .cmplt 1 (fun a b => if a.toInt < b.toInt then 1 else 0) ∧
   Gives2 .cmpge 1 (fun a b => if a.toInt ≥ b.toInt then 1 else 0) ∧
   Gives2 .cmpltu 1 (fun a b => if a.toNat < b.toNat then 1 else 0) ∧
   Gives2 .cmpgeu 1 (fun a b => if a.toNat ≥ b.toNat then 1 else 0) ∧
   Gives3 .csel (fun d a b => if d ≠ 0 then a else b) ∧ Gives3 .cmovz (fun d a b => if a = 0 then b else d) ∧
   Gives3 .cmovnz (fun d a b => if a ≠ 0 then b else d))

/-! Control flow. -/

/-- The target of a B-format or J-format transfer is the offset of its own word plus 4 × sext(disp), whatever literal
follows the word; from an aligned word it is aligned, and it lies within the reach of the format (R46). A branch goes there
when its condition holds and to the next word otherwise; jl links the offset of its successor. -/
def Obligations.BranchTargets : Prop :=
  (Branches .beqz (fun a => a = 0) ∧ Branches .bnez (fun a => a ≠ 0) ∧
   Branches .bltz (fun a => a.toInt < 0) ∧ Branches .bgez (fun a => a.toInt ≥ 0) ∧
   Branches .bgtz (fun a => a.toInt > 0) ∧ Branches .blez (fun a => a.toInt ≤ 0) ∧
   Branches .beven (fun a => a.getLsbD 0 = false) ∧ Branches .bodd (fun a => a.getLsbD 0 = true) ∧
   (∀ (f : FmtJ) s s1, Issues s { srcs := [] } s1 [] → exec (.j f) s =
     .next (retired s { srcs := [] } [] f.hold s1 none ((s.bank s.cur).pc + f.disp.signExtend 64 * 4))) ∧
   (∀ (f : FmtJ) s s1, let h : Shape := { srcs := [], dst := some 1, lat := .fixed 1 }
     Issues s h s1 [] → exec (.jl f) s =
       .next (retired s h [] f.hold s1 (some ((s.bank s.cur).pc + 4)) ((s.bank s.cur).pc + f.disp.signExtend 64 * 4)))) ∧
  (∀ (f : FmtB) (pc : Word), pc.toNat % 4 = 0 → (pc + f.disp.signExtend 64 * 4).toNat % 4 = 0) ∧
  (∀ (f : FmtJ) (pc : Word), pc.toNat % 4 = 0 → (pc + f.disp.signExtend 64 * 4).toNat % 4 = 0) ∧
  (∀ f : FmtB, (f.disp.signExtend 64 * 4 : Word).toInt = 4 * f.disp.toInt ∧ -32768 ≤ 4 * f.disp.toInt ∧
    4 * f.disp.toInt ≤ 32764) ∧
  (∀ f : FmtJ, (f.disp.signExtend 64 * 4 : Word).toInt = 4 * f.disp.toInt ∧ -33554432 ≤ 4 * f.disp.toInt ∧
    4 * f.disp.toInt ≤ 33554428)

/-- jr, jlr and ret go to the offset in their register, and jlr links the offset of its successor (R110); a target whose
low two bits are not zero traps MISALIGNED with the target as fault address, but for a gang follower, whose transfers its
leader decides (R111, R200). -/
def Obligations.JumpRegisterResults : Prop :=
  (∀ (f : FmtR) s s1 a, let h : Shape := { srcs := [isrc f.ra] }
    Issues s h s1 [a] →
      (a.toNat % 4 = 0 ∨ s1.follower s.cur = true → exec (.jr f) s = .next (retired s h [a] f.hold s1 none a)) ∧
      (a.toNat % 4 ≠ 0 → s1.follower s.cur = false → exec (.jr f) s = .next (trapped s h .misaligned 0 (some a)))) ∧
  (∀ (f : FmtR) s s1 a, let h : Shape := { srcs := [isrc f.ra], dst := some 1, lat := .fixed 1 }
    Issues s h s1 [a] →
      (a.toNat % 4 = 0 ∨ s1.follower s.cur = true →
        exec (.jlr f) s = .next (retired s h [a] f.hold s1 (some (succ s h)) a)) ∧
      (a.toNat % 4 ≠ 0 → s1.follower s.cur = false → exec (.jlr f) s = .next (trapped s h .misaligned 0 (some a)))) ∧
  (∀ (f : FmtR) s s1, let h : Shape := { srcs := [], imp := [1] }
    let a := s.reg s.cur 1
    Issues s h s1 [] →
      (a.toNat % 4 = 0 ∨ s1.follower s.cur = true → exec (.ret f) s = .next (retired s h [] f.hold s1 none a)) ∧
      (a.toNat % 4 ≠ 0 → s1.follower s.cur = false → exec (.ret f) s = .next (trapped s h .misaligned 0 (some a))))

/-! Scalar float instructions. -/

/-- Effects of the two-operand and fused float instructions, each rounded once under its rounding index (R112, R114, R115,
R117), of fsqrt, of the float instructions on the constant bank, of fldc, which gives the entry bit for bit, and of fli
(R118, R119). -/
def Obligations.FloatResults : Prop :=
  (GivesF2 .fadd 3 3 (fun rm a b => a.add rm b) ∧ GivesF2 .fsub 3 3 (fun rm a b => a.add rm b.negate) ∧
   GivesF2 .fmul 3 3 (fun _ a b => a.mul b) ∧ GivesF2 .fdiv 20 12 (fun _ a b => a.div b) ∧
   (∀ (f : FmtFR) s s1 a,
     let h : Shape := { srcs := [fsrc f.ty f.ra], dst := some f.rd.toNat, lat := .fixed (if f.ty = 0 then 20 else 12) }
     Issues s h s1 [a] → exec (.fsqrt f) s = .next (retired s h [a] f.hold s1
       (some (fres f.ty (s1.rmIdx s.cur f.rnd) (fval f.ty a).sqrt)) (succ s h))) ∧
   GivesF3 .fmadd (fun rm d a b => a.fma rm b d) ∧ GivesF3 .fmsub (fun rm d a b => a.fma rm b d.negate) ∧
   GivesF3 .fnmsub (fun rm d a b => a.negate.fma rm b d) ∧ GivesF3 .fnmadd (fun rm d a b => a.negate.fma rm b d.negate)) ∧
  (GivesC2 .faddc (fun rm a k => a.add rm k) ∧ GivesC2 .fsubc (fun rm a k => a.add rm k.negate) ∧
   GivesC2 .frsubc (fun rm a k => k.add rm a.negate) ∧ GivesC2 .fmulc (fun _ a k => a.mul k) ∧
   GivesC3 .fmulac (fun rm d a k => d.fma rm a k) ∧ GivesC3 .fmacc (fun rm d a k => a.fma rm k d) ∧
   (∀ (f : FmtC) s s1, let h : Shape := { srcs := [], dst := some f.rd.toNat, lat := .fixed 1 }
     Issues s h s1 [] → exec (.fldc f) s = .next (retired s h [] f.hold s1
       (some (BitVec.ofNat 64 (fcode f.ty (s1.cbGet s.cur.core f.cb.toNat)))) (succ s h))) ∧
   (∀ (f : FmtF20) s s1, let h : Shape := { srcs := [], dst := some f.rd.toNat, lat := .fixed 1 }
     Issues s h s1 [] →
       exec (.fli f) s = .next (retired s h [] 0 s1 (some (BitVec.ofNat 64 (f.f20.toNat * 2 ^ 12))) (succ s h))))

/-- Effects of the float instructions that act on encodings (R116), of fclass, of the float compares, which write 1 when the
relation holds of the exact values and 0 otherwise (R123), and of cvt, which converts the exact value of its source under
the mode of its control word and, when it is a converting instruction, notes the value in AMAX (R120, R121, R122): the note
lands with the result, at the si of its fixed latency, at the commit of a scene, or, for a conversion that pops a queue, as
its result arrives (R81, R191). -/
def Obligations.FloatCodeResults : Prop :=
  (GivesCode .fmin fminCode ∧ GivesCode .fmax fmaxCode ∧
   GivesCode .fsgnj (fun F a b => signCode F a (F.sign b)) ∧ GivesCode .fsgnjn (fun F a b => signCode F a (!F.sign b)) ∧
   GivesCode .fsgnjx (fun F a b => signCode F a (F.sign a != F.sign b)) ∧
   (∀ (f : FmtFT) s s1 a, let h : Shape := { srcs := [fsrc f.ty f.ra], dst := some f.rd.toNat, lat := .fixed 1 }
     Issues s h s1 [a] → exec (.fclass f) s = .next (retired s h [a] f.hold s1
       (some (BitVec.ofNat 64 (classCode (ieeeOf f.ty) (fcode f.ty a)))) (succ s h))) ∧
   GivesCode .feq (fun F a b => if (F.decode a).eq (F.decode b) then 1 else 0) ∧
   GivesCode .fne (fun F a b => if (F.decode a).eq (F.decode b) then 0 else 1) ∧
   GivesCode .flt (fun F a b => if (F.decode a).lt (F.decode b) then 1 else 0) ∧
   GivesCode .fle (fun F a b => if (F.decode a).lt (F.decode b) ∨ (F.decode a).eq (F.decode b) then 1 else 0) ∧
   GivesCode .funord (fun F a b => if (F.decode a).isNan ∨ (F.decode b).isNan then 1 else 0)) ∧
  (∀ (f : FmtCvt) s s1 a cc,
     let h : Shape := { srcs := [(f.ra.toNat, cvtLit f.src.toNat), isrc f.rb], dst := some f.rd.toNat, lat := .fixed 2 }
     let F := Narrow.of (Machine.bits cc.toNat 27 8)
     let v := cvtVal f.src.toNat F (s1.lutGet s.cur.core) a
     let rm := cvtRm cc.toNat (s1.bank s.cur).frm (srU (w64 (cc.toNat / 2 ^ 32)) 0 (s.bank s.cur).pc 0)
     let r := cvtRes f.dst.toNat F (s1.lutGet s.cur.core) v rm
     let notes := converting f.dst.toNat f.src.toNat
     let late := h.pops = true ∧ (s1.bank s.cur).openScene = none
     Issues s h s1 [a, cc] →
       (notes = false → exec (.cvt f) s = .next (retired s h [a, cc] f.hold s1 (some r) (succ s h))) ∧
       (notes = true → ¬ late → exec (.cvt f) s = .next (retired s h [a, cc] f.hold
         (s1.modBank s.cur fun b => b.note (amaxNote v) 2) (some r) (succ s h))) ∧
       (notes = true → late → exec (.cvt f) s = .next (retired s h [a, cc] f.hold
         (s1.putVar s.cur h (if f.rd = 0 then 64 else f.rd.toNat) r (amaxNote v)) none (succ s h))))

/-! Scenes, nop, halt and the constant bank. -/

/-- scene, scene.chk and commit commit the open scene, and the first two open a new one with their write set (R124, R125,
R129): its form and write set fresh, SCPC at the next word, SCWS and REPRISE set; after commit none is open. In handler mode
they trap (R395). redo outside a scene does nothing; inside, once its pending results and vector commands are done, it
discards the scene and goes back to its start (R131). -/
def Obligations.SceneInstructions : Prop :=
  ((∀ (f : FmtSC) s s1 s2, let h : Shape := { srcs := [], closes := true, opens := some (some (0, f.mask)) }
     Issues s h s1 [] →
       ((s.bank s.cur).handler = false → committed s h [] s1 = some s2 → exec (.scene f) s = .next (passed s h [] f.hold s2)) ∧
       ((s.bank s.cur).handler = true → exec (.scene f) s = .next (trapped s h .privInsn 0 none))) ∧
   (∀ (f : FmtSC) s s1 s2, let h : Shape := { srcs := [], closes := true, opens := some (some (1, f.mask)) }
     Issues s h s1 [] →
       ((s.bank s.cur).handler = false → committed s h [] s1 = some s2 → exec (.sceneChk f) s = .next (passed s h [] f.hold s2)) ∧
       ((s.bank s.cur).handler = true → exec (.sceneChk f) s = .next (trapped s h .privInsn 0 none))) ∧
   (∀ (f : FmtSC) s s1 s2, let h : Shape := { srcs := [], closes := true, opens := some none }
     Issues s h s1 [] →
       ((s.bank s.cur).handler = false → committed s h [] s1 = some s2 → exec (.commit f) s = .next (passed s h [] f.hold s2)) ∧
       ((s.bank s.cur).handler = true → exec (.commit f) s = .next (trapped s h .privInsn 0 none)))) ∧
  (∀ (s s1 s2 : State) (hold : BitVec 2) (o : Option (Nat × BitVec 15)),
     let h : Shape := { srcs := [], closes := true, opens := some o }
     let b := (passed s h [] hold s2).bank s.cur
     Issues s h s1 [] → (s.bank s.cur).handler = false → committed s h [] s1 = some s2 →
       match o with
       | some (form, mask) =>
         b.scene = some (Scene.fresh form mask) ∧ b.scpc = (s.bank s.cur).pc + 4 ∧ b.reprise = 0 ∧
           b.scws = BitVec.ofNat 18 (form * 2 ^ 15 + mask.toNat)
       | none => b.scene = none) ∧
  (∀ (f : FmtSC) s s1, let h : Shape := { srcs := [] }
     Issues s h s1 [] → (s.bank s.cur).handler = false →
       ((s.bank s.cur).scene = none → exec (.redo f) s = .next (passed s h [] f.hold s1)) ∧
       (∀ sc, (s.bank s.cur).scene = some sc → s1.sceneVectors s.cur = false →
         (∀ r ∈ (s.bank s.cur).pending, r.val.isSome = true) → (s1.discard s.cur true true false).ended ≠ .trap →
         exec (.redo f) s = .next (retired s h [] f.hold (s1.discard s.cur true true false) none (s.bank s.cur).scpc)))

/-- nop does nothing; halt stops the seat after it has retired, with PC at the next word (R134). cbw writes entry imm[7:0] of
the constant bank, cbrd reads it, cbld writes 32 entries from memory; writes act as of their issue, or are buffered in a
scene, and trap SEG_RIGHTS on a locked bank (R28, R36, R136, R137). -/
def Obligations.SystemResults : Prop :=
  ((∀ (f : FmtS) s s1, let h : Shape := { srcs := [] }
     Issues s h s1 [] → exec (.nop f) s = .next (passed s h [] f.hold s1)) ∧
   (∀ (f : FmtS) s s1, let h : Shape := { srcs := [] }
     Issues s h s1 [] →
       exec (.halt f) s = .next (passed s h [] f.hold (s1.modBank s.cur fun b => { b with run := .halted })) ∧
       ((passed s h [] f.hold (s1.modBank s.cur fun b => { b with run := .halted })).bank s.cur).run = .halted ∧
       ((passed s h [] f.hold (s1.modBank s.cur fun b => { b with run := .halted })).bank s.cur).pc = (s.bank s.cur).pc + 4)) ∧
  ((∀ (f : FmtS) s s1 v, let h : Shape := { srcs := [isrc f.ra], entries := 1 }
     let i := f.imm.toNat % 256
     Issues s h s1 [v] →
       ((s1.crCore s.cur.core 0x00a).getLsbD 0 = true → exec (.cbw f) s = .next (trapped s h .segRights 0 none)) ∧
       ((s1.crCore s.cur.core 0x00a).getLsbD 0 = false →
         ((s1.bank s.cur).openScene = none → exec (.cbw f) s = .next (passed s h [v] f.hold
           (s1.modCore s.cur.core fun k => { k with cbNew := k.cbNew ++ [(s1.clk, i, v)] }))) ∧
         (∀ sc, (s1.bank s.cur).openScene = some sc → exec (.cbw f) s = .next (passed s h [v] f.hold
           (s1.modBank s.cur fun b => b.buffer 1 (.cbw i v)))))) ∧
   (∀ (f : FmtS) s s1, let h : Shape := { srcs := [], dst := some f.ra.toNat, lat := .fixed 1 }
     Issues s h s1 [] → exec (.cbrd f) s = .next (retired s h [] f.hold s1
       (some (s1.cbGet s.cur.core (f.imm.toNat % 256))) (succ s h))) ∧
   (∀ (f : FmtS) s s1 s2 a vs, let h : Shape := { srcs := [isrc f.ra], entries := 8 }
     let b := f.imm.toNat / 8 % 8
     Issues s h s1 [a] → (s1.crCore s.cur.core 0x00a).getLsbD 0 = false →
       (∀ j, j < 32 → Free s (f.imm.toNat % 8) (a + BitVec.ofNat 64 (8 * j)) 8 true false) →
       s1.checkReads s.cur (f.imm.toNat % 8) ((List.range 32).map fun j => a + BitVec.ofNat 64 (8 * j)) = none →
       s1.dwordReads s.cur (f.imm.toNat % 8) ((List.range 32).map fun j => a + BitVec.ofNat 64 (8 * j)) = (s2, .ok vs) →
         ((s2.bank s.cur).openScene = none → exec (.cbld f) s = .next (passed s h [a] f.hold
           (s2.modCore s.cur.core fun k => { k with
             cbNew := k.cbNew ++ (List.range vs.length).zipWith (fun i v => (s2.clk, 32 * b + i, v)) vs }))) ∧
         (∀ sc, (s2.bank s.cur).openScene = some sc → exec (.cbld f) s = .next (passed s h [a] f.hold
           (s2.modBank s.cur fun k => k.buffer 8 (.cbld b vs))))))

/-! Loads and stores. -/

/-- A load of 2^sz bytes completes with the bytes of its location, its own scene's buffered stores first, extended by zeros or
by sign; a store of 2^sz bytes is performed at its location, or buffered in the open scene (R102-R105, R126). -/
def Obligations.LoadStoreResults : Prop :=
  ((∀ (f : FmtM) s s1 a s2 ks page,
     let h : Shape := { srcs := [isrc f.ra], dst := some f.rd.toNat, lat := .var }
     let off := a + f.imm.signExtend 64 * BitVec.ofNat 64 (2 ^ f.sz.toNat)
     Issues s h s1 [a] → Free s f.seg.toNat off (2 ^ f.sz.toNat) true false →
       s1.locate s.cur f.seg.toNat off.toNat (2 ^ f.sz.toNat) (2 ^ f.sz.toNat) true false false = (s2, .ok ks page) →
       s2.heldBack s.cur ks = false → s2.bad ks = false →
         exec (.ld f) s = .next (retired s h [a] f.hold (s2.seatBytes s.cur page ks).1
           (some (loadVal (f.sx == 1) (s2.seatBytes s.cur page ks).2)) (succ s h))) ∧
   (∀ (f : FmtX) s s1 a b s2 ks page,
     let h : Shape := { srcs := [isrc f.ra, isrc f.rb], dst := some f.rd.toNat, lat := .var }
     let off := a + b * BitVec.ofNat 64 (2 ^ f.sz.toNat)
     Issues s h s1 [a, b] → Free s f.seg.toNat off (2 ^ f.sz.toNat) true false →
       s1.locate s.cur f.seg.toNat off.toNat (2 ^ f.sz.toNat) (2 ^ f.sz.toNat) true false false = (s2, .ok ks page) →
       s2.heldBack s.cur ks = false → s2.bad ks = false →
         exec (.ldx f) s = .next (retired s h [a, b] f.hold (s2.seatBytes s.cur page ks).1
           (some (loadVal false (s2.seatBytes s.cur page ks).2)) (succ s h)) ∧
         exec (.ldxSx f) s = .next (retired s h [a, b] f.hold (s2.seatBytes s.cur page ks).1
           (some (loadVal true (s2.seatBytes s.cur page ks).2)) (succ s h)))) ∧
  ((∀ (f : FmtM) s s1 v a s2 ks page,
     let h : Shape := { srcs := [isrc f.rd, isrc f.ra], entries := 1 }
     let off := a + f.imm.signExtend 64 * BitVec.ofNat 64 (2 ^ f.sz.toNat)
     Issues s h s1 [v, a] → Free s f.seg.toNat off (2 ^ f.sz.toNat) false true →
       s1.locate s.cur f.seg.toNat off.toNat (2 ^ f.sz.toNat) (2 ^ f.sz.toNat) false true false = (s2, .ok ks page) →
       s2.heldBack s.cur ks = false →
         exec (.st f) s = .next (passed s h [v, a] f.hold
           (s2.seatStore s.cur page (ks.zip (leBytes (2 ^ f.sz.toNat) v.toNat))))) ∧
   (∀ (f : FmtX) s s1 v a b s2 ks page,
     let h : Shape := { srcs := [isrc f.rd, isrc f.ra, isrc f.rb], entries := 1 }
     let off := a + b * BitVec.ofNat 64 (2 ^ f.sz.toNat)
     Issues s h s1 [v, a, b] → Free s f.seg.toNat off (2 ^ f.sz.toNat) false true →
       s1.locate s.cur f.seg.toNat off.toNat (2 ^ f.sz.toNat) (2 ^ f.sz.toNat) false true false = (s2, .ok ks page) →
       s2.heldBack s.cur ks = false →
         exec (.stx f) s = .next (passed s h [v, a, b] f.hold
           (s2.seatStore s.cur page (ks.zip (leBytes (2 ^ f.sz.toNat) v.toNat))))))

/-- A store outside a scene to bytes of the on-chip path writes exactly those bytes of memory, little-endian, and a load
outside a scene from bytes that no cache holds gives what memory holds there (R9, R103, R256). -/
def Obligations.PlainAccess : Prop :=
  (∀ (s : State) (p : Machine.Place) (ks : List Nat) (n : Nat) (v : Word) (a : Nat),
    Memory.wf s.mem = true → (s.bank p).openScene = none → s.ue = [] → ks.length = n → ks.Nodup →
    (∀ k ∈ ks, isExt k = false) →
      memRead (s.seatStore p none (ks.zip (leBytes n v.toNat))).mem a =
        match ks.findIdx? (· == a) with
        | some i => BitVec.ofNat 8 (v.toNat / 256 ^ i)
        | none => memRead s.mem a) ∧
  (∀ (s : State) (p : Machine.Place) (ks : List Nat) page, (s.bank p).openScene = none →
    (∀ k ∈ ks, isExt k = false ∧ isCoh k = false) → s.seatBytes p page ks = (s, ks.map (memRead s.mem))) ∧
  (∀ (bs : List Byte), bs ≠ [] → bs.length ≤ 8 →
    loadVal false bs = BitVec.ofNat 64 (leNat bs) ∧
    loadVal true bs = (BitVec.ofNat (8 * bs.length) (leNat bs)).signExtend 64)

/-- The checks of a segment access, in this order: rights, then the limit, then alignment (R18); a load or store, with an
immediate or an index, that fails one traps, with its offset as fault address, and loads or stores nothing. -/
def Obligations.SegmentChecks : Prop :=
  (∀ (g : Seg) (off n al : Nat) (r w x : Bool), segCheck g off n al r w x =
    if (r = true ∧ g.acc.getLsbD 0 = false) ∨ (w = true ∧ g.acc.getLsbD 1 = false) ∨ (x = true ∧ g.acc.getLsbD 2 = false)
      then some .segRights
    else if off + n > g.limit.toNat then some .segLimit
    else if off % al ≠ 0 then some .misaligned else none) ∧
  (∀ (f : FmtM) s s1 a c,
    let h : Shape := { srcs := [isrc f.ra], dst := some f.rd.toNat, lat := .var }
    let off := a + f.imm.signExtend 64 * BitVec.ofNat 64 (2 ^ f.sz.toNat)
    Issues s h s1 [a] →
      segCheck ((s1.bank s.cur).seg f.seg.toNat) off.toNat (2 ^ f.sz.toNat) (2 ^ f.sz.toNat) true false false = some c →
        exec (.ld f) s = .next (trapped s h c 0 (some off))) ∧
  (∀ (f : FmtM) s s1 v a c,
    let h : Shape := { srcs := [isrc f.rd, isrc f.ra], entries := 1 }
    let off := a + f.imm.signExtend 64 * BitVec.ofNat 64 (2 ^ f.sz.toNat)
    Issues s h s1 [v, a] →
      segCheck ((s1.bank s.cur).seg f.seg.toNat) off.toNat (2 ^ f.sz.toNat) (2 ^ f.sz.toNat) false true false = some c →
        exec (.st f) s = .next (trapped s h c 0 (some off))) ∧
  (∀ (f : FmtX) s s1 a b c,
    let h : Shape := { srcs := [isrc f.ra, isrc f.rb], dst := some f.rd.toNat, lat := .var }
    let off := a + b * BitVec.ofNat 64 (2 ^ f.sz.toNat)
    Issues s h s1 [a, b] →
      segCheck ((s1.bank s.cur).seg f.seg.toNat) off.toNat (2 ^ f.sz.toNat) (2 ^ f.sz.toNat) true false false = some c →
        exec (.ldx f) s = .next (trapped s h c 0 (some off)) ∧ exec (.ldxSx f) s = .next (trapped s h c 0 (some off))) ∧
  (∀ (f : FmtX) s s1 v a b c,
    let h : Shape := { srcs := [isrc f.rd, isrc f.ra, isrc f.rb], entries := 1 }
    let off := a + b * BitVec.ofNat 64 (2 ^ f.sz.toNat)
    Issues s h s1 [v, a, b] →
      segCheck ((s1.bank s.cur).seg f.seg.toNat) off.toNat (2 ^ f.sz.toNat) (2 ^ f.sz.toNat) false true false = some c →
        exec (.stx f) s = .next (trapped s h c 0 (some off)))

/-! Atomics, fences, ordered accesses, remote stores, lut4ld and hints. -/

/-- The atomics write what R273 gives of the old value and of b, both of n = 4 or 8 bytes; a port performs only amoswap,
amoadd and cas (R274). cas reads rd as the expected value and writes b only when the old value equals it; rd gets the old
value. An atomic is one unit at its home (R275): it writes its new bytes, or none, and no other byte of memory. One that a
port answers with an error status traps EXT_ABORT, and whether its bytes were written is open. -/
def Obligations.AtomicResults : Prop :=
  (GivesAmo .amoswap true (fun _ _ b => b) ∧ GivesAmo .amoadd true (fun n old b => (old + b) % 2 ^ (8 * n)) ∧
   GivesAmo .amoand false (fun _ old b => old &&& b) ∧ GivesAmo .amoor false (fun _ old b => old ||| b) ∧
   GivesAmo .amomax false (fun n old b => amoNew 4 n old b) ∧ GivesAmo .amomin false (fun n old b => amoNew 5 n old b) ∧
   GivesAmo .amomaxu false (fun _ old b => max old b) ∧
   (∀ n old b, n = 4 ∨ n = 8 → old < 2 ^ (8 * n) → b < 2 ^ (8 * n) →
     amoNew 4 n old b = (if (BitVec.ofNat (8 * n) old).slt (BitVec.ofNat (8 * n) b) then b else old) ∧
     amoNew 5 n old b = (if (BitVec.ofNat (8 * n) b).slt (BitVec.ofNat (8 * n) old) then b else old))) ∧
  (∀ (f : FmtAmo) s s1 s2 s3 s4 d off b ks page ks' page',
     let n := 4 * (1 + f.d.toNat)
     let h : Shape := { srcs := [isrc f.rd, isrc f.ra, isrc f.rb], dst := some f.rd.toNat, lat := .var, closes := true }
     let s5 := settled s4 s.cur ks'
     let old := held s5 ks'
     let s6 := s5.amoUnit s.cur page' ks'
       (if old = d.toNat % 2 ^ (8 * n) then some (b.toNat % 2 ^ (8 * n)) else none)
     f.rd.toNat ≠ 61 → Issues s h s1 [d, off, b] → Free s f.seg.toNat off n true true →
     Found s1 s.cur f.seg.toNat off n true true s2 ks page → committed s h [d, off, b] s1 = some s3 → Found s3 s.cur f.seg.toNat off n true true s4 ks' page' →
       exec (.cas f) s = .next (portEnd s h [d, off, b] ks' off s5 s6
         (passed s h [d, off, b] f.hold (s6.setReg s.cur f.rd.toNat (BitVec.ofNat 64 old))))) ∧
  (∀ (s : State) (p : Machine.Place) (ks : List Nat) (new : Option Nat) (a : Nat),
     Memory.wf s.mem = true → s.ue = [] → ks.Nodup →
       memRead (s.amoUnit p none ks new).mem a =
         match new, ks.findIdx? (· == a) with
         | some v, some i => BitVec.ofNat 8 (v / 256 ^ i)
         | _, _ => memRead s.mem a)

/-- fence.acq waits for the seat's own loads and raises pts to CSTS (R268), fence.rel waits for its effects within the scope
(R267), fence.full does both (R269); in a scene each is buffered (R270). ld.acq loads, and then acquires; st.rel releases,
and then stores (R278). That a release lets the seat's fixed-latency pushes land is the model's reading (log 71), and so is
that ld.acq waits for the seat's earlier loads (log 33). -/
def Obligations.OrderingResults : Prop :=
  (Fences .fenceAcq .acquire (fun s p _ => s.loadsDue p) (fun s p => s.raisePts p.core (s.core p.core).csts) ∧
   Fences .fenceRel .release (fun s p sc => s.relPending p sc) (fun s p => s.landPushes p) ∧
   Fences .fenceFull .full (fun s p sc => s.relPending p sc || s.loadsDue p)
     (fun s p => let t := s.landPushes p; t.raisePts p.core (t.core p.core).csts)) ∧
  ((∀ (f : FmtOrd) s s1 s2 off ks page,
     let h : Shape := { srcs := [isrc f.ra], dst := some f.rx.toNat, lat := .var, entries := 1 }
     let r := s2.seatBytes s.cur page ks
     Issues s h s1 [off] → Free s f.seg.toNat off (2 ^ (2 + f.d.toNat)) true false →
     Found s1 s.cur f.seg.toNat off (2 ^ (2 + f.d.toNat)) true false s2 ks page →
       ((s1.bank s.cur).openScene = none → s1.loadsDue s.cur = false → exec (.ldAcq f) s =
         .next (retired s h [off] f.hold (r.1.raisePts s.cur.core (r.1.core s.cur.core).csts) (some (loadVal false r.2))
           (succ s h))) ∧
       (∀ sc, (s1.bank s.cur).openScene = some sc → exec (.ldAcq f) s =
         .next (retired s h [off] f.hold (r.1.modBank s.cur fun b => b.buffer 1 (.acquire (ordScope f)))
           (some (loadVal false r.2)) (succ s h)))) ∧
   (∀ (f : FmtOrd) s s1 s2 off v ks page,
     let h : Shape := { srcs := [isrc f.ra, isrc f.rx], entries := 2 }
     let n := 2 ^ (2 + f.d.toNat)
     Issues s h s1 [off, v] → Free s f.seg.toNat off n false true →
     Found s1 s.cur f.seg.toNat off n false true s2 ks page →
       ((s1.bank s.cur).openScene = none → s1.relPending s.cur (ordScope f) = false → exec (.stRel f) s =
         .next (passed s h [off, v] f.hold (s2.seatStore s.cur page (ks.zip (leBytes n v.toNat))))) ∧
       (∀ sc s3 ks' page', (s1.bank s.cur).openScene = some sc →
         Found (s1.modBank s.cur fun b => b.buffer 1 (.release (ordScope f))) s.cur f.seg.toNat off n false true s3 ks' page' →
           exec (.stRel f) s = .next (passed s h [off, v] f.hold (s3.seatStore s.cur page' (ks'.zip (leBytes n v.toNat)))))))

/-- rst and rst.a send 2^sz bytes of rs to the destination word in ra, and retire once the message has entered the mesh, or
buffer them in a scene with their stage-door entry reserved, where a word with a span that no core has bounces at once; an
offset that is not a multiple of the size traps MISALIGNED (R279, R281). rstv and rstv.a enter a command that
sends their vector register; outside a scene the instruction begins, and retires when the command is performed and its
message has entered the mesh; in a scene 8 entries are buffered for it. An X-seat outside a scene waits while its mesh is
stopped (R179), and another seat waits where a stopped mesh has no room left for the message among those handed over
(log 17: the model's choice). The bounce at issue inside a scene is the model's reading (log 33). -/
def Obligations.RemoteStoreResults : Prop :=
  (∀ (f : FmtRst) s s1 v w,
     let h : Shape := { srcs := [isrc f.rs, isrc f.ra], entries := 1 }
     let off := w.toNat % 2 ^ 21
     let bytes := leBytes (2 ^ f.sz.toNat) v.toNat
     let isHeld := s1.rstHeld s.cur.core w
     Issues s h s1 [v, w] →
       (off % 2 ^ f.sz.toNat ≠ 0 →
         exec (.rst f) s = .next (trapped s h .misaligned 0 (some (BitVec.ofNat 64 off))) ∧
         exec (.rstA f) s = .next (trapped s h .misaligned 0 (some (BitVec.ofNat 64 off)))) ∧
       (off % 2 ^ f.sz.toNat = 0 → isHeld = true → s1.doorRoom (Config.dieOf s.cur.core) = false →
         exec (.rst f) s = .next (trapped s h .stageDoorFull 0 none) ∧
         exec (.rstA f) s = .next (trapped s h .stageDoorFull 0 none)) ∧
       (off % 2 ^ f.sz.toNat = 0 → (isHeld = true → s1.doorRoom (Config.dieOf s.cur.core) = true) →
         ((s1.bank s.cur).openScene = none →
           (meshStops s → exec (.rst f) s = .next (meshHeld s) ∧ exec (.rstA f) s = .next (meshHeld s)) ∧
           (¬ meshStops s → s1.rstRoom s.cur.core w bytes.length = true →
             exec (.rst f) s = .next (posts s h [v, w] f.hold s1.msgNo (s1.sendRst s.cur w bytes false)) ∧
             exec (.rstA f) s = .next (posts s h [v, w] f.hold s1.msgNo (s1.sendRst s.cur w bytes true))) ∧
           (¬ meshStops s → s1.rstRoom s.cur.core w bytes.length = false →
             exec (.rst f) s = .next (s.stall .queue) ∧ exec (.rstA f) s = .next (s.stall .queue))) ∧
         (∀ sc, (s1.bank s.cur).openScene = some sc → s1.rstOff s.cur.core w bytes.length = true →
           let t := s1.mailLand s.cur.core s.cur.num 31 (rstBounce w .msgBounce)
           exec (.rst f) s = .next (passed s h [v, w] f.hold t) ∧ exec (.rstA f) s = .next (passed s h [v, w] f.hold t)) ∧
         (∀ sc, (s1.bank s.cur).openScene = some sc → s1.rstOff s.cur.core w bytes.length = false →
           let s2 := if isHeld then s1.doorReserve (Config.dieOf s.cur.core) else s1
           exec (.rst f) s = .next (passed s h [v, w] f.hold
             (s2.modBank s.cur fun b => b.buffer 1 (.rst w bytes false isHeld none))) ∧
           exec (.rstA f) s = .next (passed s h [v, w] f.hold
             (s2.modBank s.cur fun b => b.buffer 1 (.rst w bytes true isHeld none)))))) ∧
  (∀ (f : FmtRsv) (adaptive : Bool) s,
     let j : Instr := if adaptive then .rstvA f else .rstv f
     let form : Form := .rsv (if adaptive then .rstvA else .rstv) f
     let h : Shape := { srcs := [isrc f.ra], vr := [f.vs.toNat], entries := 8 }
     (∀ s1 w, let isHeld := s1.rstHeld s.cur.core w
       let s2 := if isHeld then s1.doorReserve (Config.dieOf s.cur.core) else s1
       Issues s h s1 [w] → (s.core s.cur.core).vq.length < 16 →
         (w.toNat % 2 ^ 21 % 4 ≠ 0 →
           exec j s = .next (trapped s h .misaligned 0 (some (BitVec.ofNat 64 (w.toNat % 2 ^ 21))))) ∧
         (w.toNat % 2 ^ 21 % 4 = 0 → (isHeld = true → s1.doorRoom (Config.dieOf s.cur.core) = true) →
           ((s1.bank s.cur).openScene = none →
             let r := s2.venq (ctx s h [w]) form w [] false false isHeld
             (meshStops s → exec j s = .next (meshHeld s)) ∧
             (¬ meshStops s → exec j s = .next (begun s h [w] (r.1.modBank s.cur fun b => { b with wip := .rstv r.2 })))) ∧
           (∀ sc, (s1.bank s.cur).openScene = some sc → s1.rstOff s.cur.core w 256 = true → exec j s = .next (passed s h [w]
             f.hold (s1.mailLand s.cur.core s.cur.num 31 (rstBounce w .msgBounce)))) ∧
           (∀ sc, (s1.bank s.cur).openScene = some sc → s1.rstOff s.cur.core w 256 = false →
             let r := s2.venq (ctx s h [w]) form w [] false false false
             exec j s = .next (passed s h [w] f.hold
               (r.1.modBank s.cur fun b => b.buffer 8 (.rst w [] adaptive isHeld (some r.2))))))) ∧
     (∀ id, (s.bank s.cur).wip = .rstv id →
       let waits := (s.core s.cur.core).vq.any (·.id == id) || s.outboxOf s.cur
       (waits = false → exec j s = .next (passed s h [] f.hold s)) ∧ (waits = true → exec j s = .next (s.stall .queue))))

/-- lut4ld reads 16 bytes; outside a scene it begins, and retires with LUT4 written when no started command of its tile's
engines is left; in a scene it is buffered (R283). Hints never trap (R285): with no DRAM line at their address they only
pass; pref.l1 reads the line into the L1, mhint.home sends the line home, mhint.page raises the page's counter to CNTTH,
pref.l2 changes no value, and mhint.near moves the line to the issuing cluster. -/
def Obligations.Lut4HintResults : Prop :=
  (∀ (f : FmtS) s, let h : Shape := { srcs := [isrc f.ra], entries := 1 }
     (∀ s1 s2 off ks page, Issues s h s1 [off] → s.accessWait s.cur (f.imm.toNat % 8) off 16 16 true false = none →
       s1.locate s.cur (f.imm.toNat % 8) off.toNat 16 16 true false false = (s2, .ok ks page) →
       s2.heldBack s.cur ks = false → s2.bad ks = false →
         let r := s2.seatBytes s.cur page ks
         let t := BitVec.ofNat 128 (leNat r.2)
         ((r.1.bank s.cur).openScene = none →
           exec (.lut4ld f) s = .next (begun s h [off] (r.1.modBank s.cur fun b => { b with wip := .lut4 t }))) ∧
         (∀ sc, (r.1.bank s.cur).openScene = some sc →
           exec (.lut4ld f) s = .next (passed s h [off] f.hold (r.1.modBank s.cur fun b => b.buffer 1 (.lut4 t))))) ∧
     (∀ t, (s.bank s.cur).wip = .lut4 t →
       (s.lutBusy s.cur.core = true → exec (.lut4ld f) s = .next (s.stall .memory)) ∧
       (s.lutBusy s.cur.core = false → exec (.lut4ld f) s = .next (passed s h [] f.hold
         (s.modCore s.cur.core fun k => { k with lutNew := k.lutNew ++ [(s.clk, t)] }))))) ∧
  (∀ (f : FmtS) s s1 a, let h : Shape := { srcs := [isrc f.ra] }
     let seg := f.imm.toNat % 8
     let lvl := f.imm.toNat / 8 % 4
     Issues s h s1 [a] →
       (s1.hintAt s.cur seg a = none →
         ∀ j ∈ [Instr.prefL1 f, .prefL2 f, .mhintNear f, .mhintHome f, .mhintPage f],
           exec j s = .next (passed s h [a] f.hold s1)) ∧
       (∀ s2 k pg, s1.hintAt s.cur seg a = some (s2, k, pg) →
         (let r := s2.readLine s.cur.core (lineOf k) 0xf
          exec (.prefL1 f) s = .next (passed s h [a] f.hold
            (if lvl = 0 ∧ isDram k = true ∧ s2.bad [k] = false then
              (if r.2.home = true then r.1.countOn s.cur.core (some pg) else r.1) else s2))) ∧
         exec (.prefL2 f) s = .next (passed s h [a] f.hold s2) ∧
         exec (.mhintNear f) s = .next (passed s h [a] f.hold
           (if lvl = 0 ∧ isDram k = true ∧ (s2.crGlob (Machine.bits k 12 12) 0x194).getLsbD 0 = true ∧
               Config.clusterOf s.cur.core / 24 = Machine.bits k 12 12
             then s2.moveLine (lineOf k) (some (Config.clusterOf s.cur.core)) else s2)) ∧
         exec (.mhintHome f) s = .next (passed s h [a] f.hold
           (if isDram k = true then s2.moveLine (lineOf k) none else s2)) ∧
         exec (.mhintPage f) s = .next (passed s h [a] f.hold
           (s2.countPage (Config.clusterOf s.cur.core) pg.1 pg.2.1 pg.2.2
             (some ((s2.crGlob (Config.dieOf s.cur.core) 0x18e).toNat % 2 ^ 16))))))

/-! Continuations, messages and gangs. -/

/-- spawn puts a record that resumes at its successor on the deque, raises its join block's count and goes on as the child
at the target, with cp from rb (R183); a target whose low two bits are not zero traps. join goes on when the block's count
is 0, and otherwise leaves its record in the block and leaves the seat (R184); suspend takes a wake credit and goes on when
there is one, and otherwise does the same in its wait block (R185). Of a join block only the counter is checked and used
until a record must wait there (log 24: the model's reading of R167 and R183). -/
def Obligations.SpawnJoinResults : Prop :=
  (∀ (f : FmtR) s s1 s2 s3 s4 s1' ks' a b ks,
     let h : Shape := { srcs := [isrc f.ra, isrc f.rb], imp := [3], closes := true }
     let r := fun (t : State) => t.recOf s.cur (succ s h)
     Issues s h s1 [a, b] → MaySuspend s s.cur →
       (a.toNat % 4 ≠ 0 → exec (.spawn f) s = .next (trapped s h .misaligned 0 (some a))) ∧
       (a.toNat % 4 = 0 → Safety.Block s1 s.cur (s1.joinOff s.cur) 8 8 s1' ks' →
         (s1.pushDeque s.cur.core (r s1) = none → exec (.spawn f) s = .next (trapped s h .dequeOverflow 0 none)) ∧
         ((s1.pushDeque s.cur.core (r s1)).isSome = true → committed s h [a, b] s1 = some s2 →
           Safety.Block s2 s.cur (s2.joinOff s.cur) 8 8 s3 ks → s3.pushDeque s.cur.core (r s3) = some s4 →
             exec (.spawn f) s = .next (retired s h [a, b] f.hold
               (((wrote s4 s.cur ks 0 (s4.blockRead ks 0 + 1)).countSpawn s.cur).setReg s.cur 3 b) none a)))) ∧
  ((∀ (f : FmtR) s s1 s2 s3 ks,
     let h : Shape := { srcs := [], imp := [3], closes := true }
     Issues s h s1 [] → MaySuspend s s.cur → blockChk (s1.joinOff s.cur) 8 [joinMore] 8 (ctx s h []) s1 = none →
     committed s h [] s1 = some s2 → Safety.Block s2 s.cur (s2.joinOff s.cur) 8 8 s3 ks →
       (s3.blockRead ks 0 = 0 → exec (.join f) s = .next (passed s h [] f.hold (s3.see s.cur.core ks))) ∧
       (∀ s4 kr, s3.blockRead ks 0 ≠ 0 → Safety.Block s3 s.cur (s3.joinOff s.cur) 8 128 s4 kr →
         exec (.join f) s = .next (departed s
           ((s4.blockWrite s.cur.core kr [(64, (s4.recOf s.cur (succ s h)).bytes), (8, leBytes 8 1)]).leave s.cur)))) ∧
   (∀ (f : FmtR) s s1 s2 s3 s1' ks' a ks,
     let h : Shape := { srcs := [isrc f.ra], closes := true }
     let off := a &&& ~~~(63 : Word)
     Issues s h s1 [a] → MaySuspend s s.cur → Safety.Block s1 s.cur off 128 128 s1' ks' → committed s h [a] s1 = some s2 →
     Safety.Block s2 s.cur off 128 128 s3 ks →
       (s3.blockRead ks 0 ≠ 0 → exec (.suspend f) s =
         .next (passed s h [a] f.hold (wrote s3 s.cur ks 0 (s3.blockRead ks 0 - 1)))) ∧
       (s3.blockRead ks 0 = 0 → exec (.suspend f) s = .next (departed s
         ((s3.blockWrite s.cur.core ks [(64, (s3.recOf s.cur (succ s h)).bytes), (8, leBytes 8 1)]).leave s.cur)))))

/-- yield puts its record in the ready queue and leaves the seat (R186); with no room for it it goes on, an open scene
left open (log 8: the model's choice); exit ends the continuation (R187); exit.j also counts its join block down, and
readies a record that waits there when the count reaches 0 (R167, R187); of the block it uses only the counter, then the
state, then the record, each when the one before leads to it (log 24: the model's reading). wake wakes the record that
waits in its block, or leaves a credit there; in a scene it is buffered (R185); on an X-seat it traps REFLEX_BLOCK (R202),
and it waits for room at a stage door at which the record must be held (log 68: the model's choice). -/
def Obligations.YieldExitWakeResults : Prop :=
  ((∀ (f : FmtR) s s1 s2 s3, let h : Shape := { srcs := [], closes := true }
     Issues s h s1 [] → MaySuspend s s.cur →
       ((s1.pushReady s.cur.core (s1.recOf s.cur (succ s h))).isSome = true → committed s h [] s1 = some s2 →
         s2.pushReady s.cur.core (s2.recOf s.cur (succ s h)) = some s3 →
           exec (.yield f) s = .next (departed s (s3.leave s.cur))) ∧
       (s1.pushReady s.cur.core (s1.recOf s.cur (succ s h)) = none →
         exec (.yield f) s = .next (s1.finish (ctx s h []) h f.hold none (succ s h)))) ∧
   (∀ (f : FmtR) s s1 s2, let h : Shape := { srcs := [], closes := true }
     Issues s h s1 [] → s.pushDue s.cur = false → (s1.bank s.cur).handler = false → s1.ganged s.cur = false →
     committed s h [] s1 = some s2 →
       exec (.exit f) s = .next (departed s (s2.exitSeat s.cur))) ∧
   (∀ (f : FmtR) s s1 s2 s3 a ks, let h : Shape := { srcs := [isrc f.ra], closes := true }
     let off := a &&& ~~~(63 : Word)
     let n := s3.blockRead ks 0
     Issues s h s1 [a] → s.pushDue s.cur = false → (s1.bank s.cur).handler = false → s.cur.reflex = false →
     s1.ganged s.cur = false → blockChk off 8 exitMore 8 (ctx s h [a]) s1 = none → committed s h [a] s1 = some s2 →
     Safety.Block s2 s.cur off 8 8 s3 ks →
       (n = 0 → exec (.exitJ f) s = .next (departed s ((s3.see s.cur.core ks).exitSeat s.cur))) ∧
       (n ≠ 0 → n ≠ 1 → exec (.exitJ f) s = .next (departed s ((wrote s3 s.cur ks 0 (n - 1)).exitSeat s.cur))) ∧
       (∀ s4 k4, n = 1 → Safety.Block s3 s.cur off 8 16 s4 k4 →
         (s4.blockRead k4 8 ≠ 1 → exec (.exitJ f) s = .next (departed s
           ((wrote (s4.see s.cur.core ((k4.drop 8).take 8)) s.cur k4 0 0).exitSeat s.cur))) ∧
         (∀ s5 k5, s4.blockRead k4 8 = 1 → Safety.Block s4 s.cur off 8 128 s5 k5 →
           let s6 := (s5.see s.cur.core ((k5.drop 64).take 64)).blockWrite s.cur.core k5 [(0, leBytes 8 0), (8, leBytes 8 0)]
           exec (.exitJ f) s = .next (departed s
             ((match s6.pushReady s.cur.core (s5.blockRec k5) with
               | some t => t
               | none => s6.post s.cur.core s.cur.core none 2 false s.cur.num (.wakeRec (s5.blockRec k5))).exitSeat s.cur)))))) ∧
  ((∀ (f : FmtR) s s1 s2 a ks, let h : Shape := { srcs := [isrc f.ra], entries := 1 }
     Issues s h s1 [a] →
       (s.cur.reflex = true → exec (.wake f) s = .next (trapped s h .reflexBlock 0 none)) ∧
       (s.cur.reflex = false → Safety.Block s1 s.cur (a &&& ~~~(63 : Word)) 128 128 s2 ks →
         let full := s2.blockRead ks 8 = 1 ∧ s2.wakeFull s.cur (s2.blockRec ks) = true
         ((s2.bank s.cur).openScene = none →
           (¬ full → exec (.wake f) s = .next (passed s h [a] f.hold (s2.wakeBlock s.cur ks))) ∧
           (full → exec (.wake f) s = .next (s.stall .queue))) ∧
         (∀ sc, (s2.bank s.cur).openScene = some sc →
           exec (.wake f) s = .next (passed s h [a] f.hold (s2.modBank s.cur fun b => b.buffer 1 (.wake ks)))))) ∧
   (∀ (s : State) (p : Machine.Place) (ks : List Nat),
     (s.blockRead ks 8 ≠ 1 → s.wakeBlock p ks = wrote s p ks 0 (s.blockRead ks 0 + 1)) ∧
     (s.blockRead ks 8 = 1 → s.wakeBlock p ks =
       (wrote (s.see p.core ((ks.drop 64).take 64)) p ks 8 0).wakeRec p (Rec.ofBytes (memReads s.mem ((ks.drop 64).take 64))))))

/-- bar, gang and ungang complete (R189, R199, R201). bar passes at once in no ensemble or in a gang; in an ensemble it counts
its arrival and, unless every member has arrived, begins; it retires when every member has issued its n-th bar or has
exited. gang n retires with the gang formed when every other member waits in it, else begins, and retires once the gang
stands; in a formed gang it passes; with a size that is not the ensemble's, or outside a gang ensemble, it traps GANG_BROKEN,
and so do those that wait. ungang waits for gang-relative commands and then ends the membership of its core; outside a gang
it changes nothing. In handler mode and in a scene each traps (R181, R395), and gang and ungang trap on an X-seat (R202).
That gang passes in a formed gang, and that ungang leaves position and leader as they were, is the model's reading
(log 30). -/
def Obligations.BarGangResults : Prop :=
  let h : Shape := { srcs := [] }
  let arrived := fun (t : Slot) (n : Nat) => ∀ i, i < t.members.length → n ≤ mget t.bars i 0 ∨ mget t.mlive i 0 = 0
  let ready := fun (s : State) => Issues s h s [] ∧ (s.bank s.cur).handler = false ∧ (s.bank s.cur).openScene = none
  ((∀ (f : FmtR) s, ready s →
      (s.bank s.cur).ens = 0 ∨ s.ganged s.cur = true ∨ (s.slot (s.bank s.cur).cslot.toNat).hdr = none →
        exec (.bar f) s = .next (passed s h [] f.hold s)) ∧
   (∀ (f : FmtR) s hd, ready s → (s.bank s.cur).ens ≠ 0 → s.ganged s.cur = false →
      (s.slot (s.bank s.cur).cslot.toNat).hdr = some hd →
      let q := (s.bank s.cur).cslot.toNat
      let i := (s.bank s.cur).vcore.toNat - hd.vbase
      let n := mget (s.slot q).bars i 0 + 1
      let s2 := s.modSlot q fun t => { t with bars := mset t.bars i n }
      (arrived (s2.slot q) n → exec (.bar f) s = .next (passed s h [] f.hold s2)) ∧
      (¬ arrived (s2.slot q) n →
        exec (.bar f) s = .next (begun s h [] (s2.modBank s.cur fun b => { b with wip := .bar n })))) ∧
   (∀ (f : FmtR) s n, (s.bank s.cur).wip = .bar n →
      (arrived (s.slot (s.bank s.cur).cslot.toNat) n → exec (.bar f) s = .next (passed s h [] f.hold s)) ∧
      (¬ arrived (s.slot (s.bank s.cur).cslot.toNat) n → exec (.bar f) s = .next (s.stall .presence)))) ∧
  ((∀ (f : FmtS) s ms n, ready s → s.cur.reflex = false → s.gangMembers s.cur = some (ms, n) →
      (f.imm.toNat = n ∧ (n = 2 ∨ n = 4 ∨ n = 8) →
        (s.ganged s.cur = true → exec (.gang f) s = .next (passed s h [] f.hold s)) ∧
        (s.ganged s.cur = false → (∀ c ∈ ms, c = s.cur.core ∨ (s.bank ⟨c, 0, 0⟩).wip = .gang n) → exec (.gang f) s = .next
          (passed s h [] f.hold ((List.range ms.length).foldl (fun t i => t.modCore (ms.getD i 0) fun k => { k with
            gangPos := i, gangLeader := ms.getD 0 0, gangSize := n }) s))) ∧
        (s.ganged s.cur = false → ¬ (∀ c ∈ ms, c = s.cur.core ∨ (s.bank ⟨c, 0, 0⟩).wip = .gang n) →
          exec (.gang f) s = .next (begun s h [] (s.modBank s.cur fun b => { b with wip := .gang n })))) ∧
      (¬ (f.imm.toNat = n ∧ (n = 2 ∨ n = 4 ∨ n = 8)) → exec (.gang f) s = .next
        ((s.breakWaiting ms n).trapAt s.cur .gangBroken 0 none (s.bank s.cur).pc 1 (s.wordOf s.cur)))) ∧
   (∀ (f : FmtS) s, ready s → s.cur.reflex = false → s.gangMembers s.cur = none →
      exec (.gang f) s = .next (trapped s h .gangBroken 0 none)) ∧
   (∀ (f : FmtS) s n, (s.bank s.cur).wip = .gang n →
      ((s.core s.cur.core).gangSize ≠ 1 → exec (.gang f) s = .next (passed s h [] f.hold s)) ∧
      ((s.core s.cur.core).gangSize = 1 → exec (.gang f) s = .next (s.stall .presence))) ∧
   (∀ (f : FmtS) s, ready s → s.cur.reflex = false →
      (s.ganged s.cur = false → exec (.ungang f) s = .next (passed s h [] f.hold s)) ∧
      (s.ganged s.cur = true → s.gangBusy s.cur = false → exec (.ungang f) s =
        .next (passed s h [] f.hold (s.modCore s.cur.core fun k => { k with gangSize := 1 }))) ∧
      (s.ganged s.cur = true → s.gangBusy s.cur = true → exec (.ungang f) s = .next (s.stall .engine)))) ∧
  (∀ (b : FmtR) (f : FmtS) s, Issues s h s [] → (s.ganged s.cur && s.gangBusy s.cur) = false →
    ((s.bank s.cur).handler = true → ∀ j ∈ [Instr.bar b, .gang f, .ungang f], exec j s = .next (trapped s h .privInsn 0 none)) ∧
    ((s.bank s.cur).handler = false → (s.bank s.cur).openScene.isSome = true →
      ∀ j ∈ [Instr.bar b, .gang f, .ungang f], exec j s = .next (trapped s h .syncInScene 0 none)) ∧
    ((s.bank s.cur).handler = false → (s.bank s.cur).openScene = none → s.cur.reflex = true →
      ∀ j ∈ [Instr.gang f, .ungang f], exec j s = .next (trapped s h .gangBroken 0 none)))

/-- widf rd, k writes wfield(WID, k) and widfr rd, ra, k writes wfield(value(ra), k), both with latency 1: the Wk bits of x
from bit W0 + ... + W(k-1) on, zero-extended, and 0 when Wk is 0 (R188). -/
def Obligations.WorkIdFields : Prop :=
  (∀ (f : FmtWid) s s1, let h : Shape := { srcs := [], dst := some f.rd.toNat, lat := .fixed 1 }
    Issues s h s1 [] → exec (.widf f) s =
      .next (retired s h [] f.hold s1 (some (wfield (s1.bank s.cur).widw (s1.bank s.cur).wid f.k.toNat)) (succ s h))) ∧
  (∀ (f : FmtWid) s s1 a, let h : Shape := { srcs := [isrc f.ra], dst := some f.rd.toNat, lat := .fixed 1 }
    Issues s h s1 [a] → exec (.widfr f) s =
      .next (retired s h [a] f.hold s1 (some (wfield (s1.bank s.cur).widw a f.k.toNat)) (succ s h))) ∧
  (∀ (w : BitVec 42) (x : Word) (k : Nat), k < 6 →
    let width := fun j => w.toNat / 2 ^ (7 * j) % 128
    let g := ((List.range k).map width).sum
    (width k = 0 → wfield w x k = 0) ∧
    (width k ≠ 0 → ∀ i, i < 64 → (wfield w x k).getLsbD i = (decide (i < width k) && x.getLsbD (g + i)))) ∧
  wfield (BitVec.ofNat 42 (4 + 6 * 128)) 87 0 = 7 ∧ wfield (BitVec.ofNat 42 (4 + 6 * 128)) 87 1 = 5 ∧
  (∀ k ∈ [2, 3, 4, 5], wfield (BitVec.ofNat 42 (4 + 6 * 128)) 87 k = 0)

/-- chain links the seat's qout by its link word, once its pushes on their way have their values, or is buffered in a scene
(R190, R191). send hands its value to the mesh for the mail register, the reflex start or the held virtual core that its
word names when it issues, and retires once the message has entered the mesh; it writes a bounce word into the sender's m31
when there is none; with the stage door full it traps STAGE_DOOR_FULL (R175, R176, R193, R194). On an X-seat whose mesh is
stopped it waits (R179), and so it does where a stopped mesh has no room left for the message (log 17: the model's choice).
That chain waits for the seat's pushes on their way is the model's choice (log 67), and the core number in the bounce word of
a physical destination is its reading (log 44). -/
def Obligations.SendChainResults : Prop :=
  ((∀ (f : FmtR) s s1 w, let h : Shape := { srcs := [isrc f.ra], entries := 1 }
     Issues s h s1 [w] →
       ((s1.bank s.cur).openScene = none →
         (s.pushDue s.cur = false → exec (.chain f) s = .next (passed s h [w] f.hold (s1.chainOp s.cur w))) ∧
         (s.pushDue s.cur = true → exec (.chain f) s = .next (s.stall .memory))) ∧
       (∀ sc, (s1.bank s.cur).openScene = some sc →
         exec (.chain f) s = .next (passed s h [w] f.hold (s1.modBank s.cur fun b => b.buffer 1 (.chain w)))))) ∧
  (∀ (f : FmtR) s s1 w v, let h : Shape := { srcs := [isrc f.ra, isrc f.rb], closes := true, keep := sendKeep }
     let c := s.cur.core
     let to_ := s1.sendTo c w v
     let full := (∃ vc, to_ = .held vc) ∧ s1.doorRoom (Config.dieOf c) = false
     let body := Body.mail (w.toNat / 2 ^ 32 % 8) (w.toNat / 2 ^ 35 % 32) v
     Issues s h s1 [w, v] → (s1.bank s.cur).sendTo = none →
       (full → exec (.send f) s = .next (trapped s h .stageDoorFull 0 none)) ∧
       (¬ full → meshStops s → exec (.send f) s = .next (meshHeld s)) ∧
       (∀ s2, ¬ full → ¬ meshStops s → committed s h [w, v] s1 = some s2 → (s2.bank s.cur).sendTo = some to_ →
         (∀ d vd, to_ = .mail d vd → s2.outRoom c 32 = true → exec (.send f) s =
           .next (posts s h [w, v] f.hold s2.msgNo (s2.post c d vd 2 false s.cur.num body))) ∧
         (∀ d off, to_ = .start d off → s2.outRoom c 32 = true → exec (.send f) s =
           .next (posts s h [w, v] f.hold s2.msgNo (s2.post c d none 2 false s.cur.num (.start off)))) ∧
         ((∃ d vd, to_ = .mail d vd) ∨ (∃ d off, to_ = .start d off) → s2.outRoom c 32 = false →
           exec (.send f) s = .next (s.stall .queue)) ∧
         (∀ vc, to_ = .held vc → let s3 := s2.unreserve s.cur
           exec (.send f) s = .next (passed s h [w, v] f.hold
             (s3.hold (Config.dieOf c) (s3.msg c 0 (some vc) 2 false (s3.core c).pts s.cur.num body)))) ∧
         (to_ = .bounce → exec (.send f) s =
           .next (passed s h [w, v] f.hold (s2.mailLand c s.cur.num 31
             (bounceWord (w.toNat % 2 ^ 32) (w.toNat / 2 ^ 32 % 8) (w.toNat / 2 ^ 35 % 32) 50)))))) ∧
  (∀ (f : FmtR) s no, (s.bank s.cur).wip = .posted no →
     (s.inOutbox s.cur.core no = true → exec (.send f) s = .next (s.stall .queue)) ∧
     (s.inOutbox s.cur.core no = false → exec (.send f) s = .next (passed s { srcs := [isrc f.ra, isrc f.rb] } [] f.hold s)))

/-- mclr clears the presence bits that its mask names and that were set before it, or is buffered with that choice (R196);
mwait retires with the masked presence bits when all of them are set, mwait.any when one is, or when the deadline has come,
and waits until then; without a deadline a reflex does not wait and traps REFLEX_BLOCK (R150, R197). -/
def Obligations.MailResults : Prop :=
  (∀ (f : FmtR) s s1 m, let h : Shape := { srcs := [isrc f.ra], entries := 1 }
    let k := s1.mclrMask s.cur (m.setWidth 32)
    Issues s h s1 [m] →
      ((s1.bank s.cur).openScene = none → exec (.mclr f) s = .next (passed s h [m] f.hold
        (s1.modSeat s.cur.core s.cur.seat fun t => { t with mpres := t.mpres &&& ~~~k }))) ∧
      (∀ sc, (s1.bank s.cur).openScene = some sc → exec (.mclr f) s =
        .next (passed s h [m] f.hold (s1.modBank s.cur fun b => b.buffer 1 (.mclr k s1.clk))))) ∧
  (∀ (f : FmtR) s s1 m d, let h : Shape := { srcs := [isrc f.ra, isrc f.rb], dst := some f.rd.toNat, lat := .fixed 1 }
    let mask : BitVec 32 := m.setWidth 32
    let got := (s1.seat s.cur.core s.cur.seat).mpres &&& mask
    let late := d ≠ 0 ∧ d.toNat ≤ s1.dtime
    Issues s h s1 [m, d] →
      (got = mask ∨ late → exec (.mwait f) s =
        .next (retired s h [m, d] f.hold s1 (some (got.setWidth 64)) (succ s h))) ∧
      (got ≠ 0 ∨ mask = 0 ∨ late → exec (.mwaitAny f) s =
        .next (retired s h [m, d] f.hold s1 (some (got.setWidth 64)) (succ s h))) ∧
      (got ≠ mask → ¬ late → ¬ (s.cur.reflex = true ∧ d = 0) → exec (.mwait f) s = .next (s.stall .presence)) ∧
      (got ≠ mask → ¬ late → s.cur.reflex = true ∧ d = 0 →
        exec (.mwait f) s = .next (trapped s h .reflexBlock 0 none)) ∧
      (got = 0 → mask ≠ 0 → ¬ late → ¬ (s.cur.reflex = true ∧ d = 0) → exec (.mwaitAny f) s = .next (s.stall .presence)) ∧
      (got = 0 → mask ≠ 0 → ¬ late → s.cur.reflex = true ∧ d = 0 →
        exec (.mwaitAny f) s = .next (trapped s h .reflexBlock 0 none)))

/-! The vector unit. -/

/-- The vector and mask instructions enter their command with what they read of the seat (R205, R207, R210): of two registers
(R211, R213, R215-R217, R220), the rounding ones (R212), those with a scalar operand, whose literal is taken by the type of
the operation (R17, R214, R218, R220, R226). The scalar result of a reduction, vext or kmovs is pending (R206, R219, R226);
vstat reads the queue at issue (R226); vfence waits until the seat's commands are performed (R227). -/
def Obligations.VectorCommandsEnter : Prop :=
  (V2 .vadd .vadd ∧ V2 .vsub .vsub ∧ V2 .vmul .vmul ∧ V2 .vmulh .vmulh ∧ V2 .vmulhu .vmulhu ∧ V2 .vand .vand ∧
   V2 .vor .vor ∧ V2 .vxor .vxor ∧ V2 .vsll .vsll ∧ V2 .vsrl .vsrl ∧ V2 .vsra .vsra ∧ V2 .vmin .vmin ∧
   V2 .vmax .vmax ∧ V2 .vminu .vminu ∧ V2 .vmaxu .vmaxu ∧ V2 .vadds .vadds ∧ V2 .vsubs .vsubs ∧ V2 .vaddus .vaddus ∧
   V2 .vsubus .vsubus ∧ V2 .vsel .vsel ∧ V2 .vfmin .vfmin ∧ V2 .vfmax .vfmax ∧ V2 .vfsgnj .vfsgnj ∧
   V2 .vperm .vperm ∧ V1 .vabs .vabs ∧ V1 .vfabs .vfabs ∧ V1 .vfneg .vfneg ∧ V1 .vrcp .vrcp ∧ V1 .vrsqrt .vrsqrt ∧
   V1 .vexp2 .vexp2 ∧ V1 .vlog2 .vlog2 ∧ V1 .vtanh .vtanh ∧ V1 .vsigm .vsigm ∧ V1 .vsinpi .vsinpi ∧
   V1 .vcospi .vcospi ∧ V1 .vmov .vmov ∧ V1 .vcvtSI .vcvtSI ∧ V1 .vcvtIS .vcvtIS ∧ V1 .vcvtSH .vcvtSH ∧
   V1 .vcvtHS .vcvtHS ∧ V1 .vcvtSBf .vcvtSBf ∧ V1 .vcvtBfS .vcvtBfS ∧ V1 .vcvtSU .vcvtSU ∧ V1 .vcvtUS .vcvtUS ∧
   VK .vcmpeq .vcmpeq ∧ VK .vcmpne .vcmpne ∧ VK .vcmplt .vcmplt ∧ VK .vcmpge .vcmpge ∧ VK .vcmpltu .vcmpltu ∧
   VK .vcmpgeu .vcmpgeu ∧ VK .vfeq .vfeq ∧ VK .vflt .vflt ∧ VK .vfle .vfle ∧ VK .vfun .vfun ∧ KK2 .kand .kand ∧
   KK2 .kor .kor ∧ KK2 .kxor .kxor ∧ KK2 .kandn .kandn ∧ KK1 .knot .knot) ∧
  (VF .vfadd .vfadd true false ∧ VF .vfsub .vfsub true false ∧ VF .vfmul .vfmul true false ∧
   VF .vfdiv .vfdiv true false ∧ VF .vfsqrt .vfsqrt false false ∧ VF .vfmadd .vfmadd true true ∧
   VF .vfmsub .vfmsub true true ∧ VF .vfnmsub .vfnmsub true true) ∧
  (VSc .vaddVs .vaddVs .int true false ∧ VSc .vsubVs .vsubVs .int true false ∧
   VSc .vrsubVs .vrsubVs .int true false ∧ VSc .vmulVs .vmulVs .int true false ∧
   VSc .vandVs .vandVs .int true false ∧ VSc .vorVs .vorVs .int true false ∧ VSc .vxorVs .vxorVs .int true false ∧
   VSc .vsllVs .vsllVs .int true false ∧ VSc .vsrlVs .vsrlVs .int true false ∧ VSc .vsraVs .vsraVs .int true false ∧
   VSc .vminVs .vminVs .int true false ∧ VSc .vmaxVs .vmaxVs .int true false ∧
   VSc .vmovVs .vmovVs .int false false ∧ VSc .vfaddVs .vfaddVs .f32 true false ∧
   VSc .vfsubVs .vfsubVs .f32 true false ∧ VSc .vfrsubVs .vfrsubVs .f32 true false ∧
   VSc .vfmulVs .vfmulVs .f32 true false ∧ VSc .vfmaddVs .vfmaddVs .f32 true true ∧
   VSc .vfminVs .vfminVs .f32 true false ∧ VSc .vfmaxVs .vfmaxVs .f32 true false ∧
   VSc .vcvtn .vcvtn .int true false ∧ VSc .vcvtw .vcvtw .int true false ∧ VSc .vrot .vrot .int true false ∧
   VSk .vcmpeqVs .vcmpeqVs .int ∧ VSk .vcmpltVs .vcmpltVs .int ∧ VSk .vcmpltuVs .vcmpltuVs .int ∧
   VSk .vfeqVs .vfeqVs .f32 ∧ VSk .vfltVs .vfltVs .f32 ∧ VSk .vfleVs .vfleVs .f32 ∧
   (∀ f : FmtVS, Enqueues (.kset f) [isrc f.sb] [] (some (32 + f.vd.toNat % 8)) f.hold (.vS .kset f))) ∧
  (VR .vredadd .vredadd ∧ VR .vredmin .vredmin ∧ VR .vredmax .vredmax ∧ VR .vredminu .vredminu ∧
   VR .vredmaxu .vredmaxu ∧ VR .vredand .vredand ∧ VR .vredor .vredor ∧ VR .vredxor .vredxor ∧
   VR .vredfadd .vredfadd ∧ VR .vredfmin .vredfmin ∧ VR .vredfmax .vredfmax ∧ VR .vredfamax .vredfamax ∧
   (∀ f : FmtVS, EnqueuesScalar (.vext f) f.sb [f.va.toNat, 32 + f.km.toNat % 8] f.hold (.vS .vext f)) ∧
   (∀ f : FmtVS, EnqueuesScalar (.kmovs f) f.sb [32 + f.km.toNat % 8] f.hold (.vS .kmovs f)) ∧
   (∀ (f : FmtVS) s s1, let h : Shape := { srcs := [], dst := some f.sb.toNat, lat := .fixed 1 }
     let q := (s1.core s.cur.core).vq
     Issues s h s1 [] → exec (.vstat f) s = .next (retired s h [] f.hold s1
       (some (BitVec.ofNat 64 ((if q.any (·.num == s.cur.num) then 32 else 0) + q.length))) (succ s h))) ∧
   (∀ (f : FmtV) s s1, let h : Shape := { srcs := [] }
     let mine := (s1.core s.cur.core).vq.any (·.num == s.cur.num)
     Issues s h s1 [] →
       (mine = false → exec (.vfence f) s = .next (passed s h [] f.hold s1)) ∧
       (mine = true → exec (.vfence f) s = .next (s.stall .engine))))

/-- Vector loads and stores enter their command with the location of each lane (R222, R223, R224); they wait for room in the
queue of 16, gather and scatter for an empty queue (R223). The gang-relative forms need seat 0 of a ganged core (R228, R229). -/
def Obligations.VectorMemoryCommandsEnter : Prop :=
  (∀ f : FmtVM, EnqueuesMemory (.vld f) { srcs := [isrc f.sb], vr := [32 + f.km.toNat % 8], vd := some f.vd.toNat } f.hold
    (.vM .vld f) false (fun s p a => s.vspan p f.seg.toNat a false) (fun _ => 0) 16) ∧
  (∀ f : FmtVM, EnqueuesMemory (.vst f) { srcs := [isrc f.sb], vr := [f.vd.toNat, 32 + f.km.toNat % 8], entries := 8 }
    f.hold (.vM .vst f) true (fun s p a => s.vspan p f.seg.toNat a true) (fun _ => 8) 16) ∧
  (∀ f : FmtVG, EnqueuesMemory (.vgather f)
    { srcs := [isrc f.sb], vr := [f.va.toNat, 32 + f.km.toNat % 8], vd := some f.vd.toNat } f.hold (.vG .vgather f) false
    (fun s p a => s.vindexed p f.seg.toNat a f.va.toNat f.km.toNat false) (fun _ => 0)
    1) ∧
  (∀ f : FmtVG, EnqueuesMemory (.vscatter f)
    { srcs := [isrc f.sb], vr := [f.va.toNat, f.vd.toNat, 32 + f.km.toNat % 8] } f.hold (.vG .vscatter f) true
    (fun s p a => s.vindexed p f.seg.toNat a f.va.toNat f.km.toNat true) (fun l => l.length)
    1) ∧
  (∀ f : FmtVS, EnqueuesMemory (.vlds f) { srcs := [isrc f.sb], vr := [32 + f.km.toNat % 8], vd := some f.vd.toNat } f.hold
    (.vS .vlds f) false (fun s p a => s.vslices p a) (fun _ => 0) 16) ∧
  (∀ f : FmtVS, EnqueuesMemory (.vsts f) { srcs := [isrc f.sb], vr := [f.vd.toNat, 32 + f.km.toNat % 8], entries := 8 }
    f.hold (.vS .vsts f) true (fun s p a => s.vslices p a) (fun _ => 8) 16) ∧
  EnqueuesGang .vgmov .vgmov (fun _ => []) ∧ EnqueuesGang .vgadd .vgadd (fun f => [f.va.toNat]) ∧
  EnqueuesGang .vgfadd .vgfadd (fun f => [f.va.toNat]) ∧ EnqueuesGang .vgfmax .vgfmax (fun f => [f.va.toNat])

/-- The lanes of the integer vector instructions (R211): shift amounts are b[4:0], vadds and vsubs saturate signed, vaddus
and vsubus unsigned. -/
def Obligations.VectorIntegerLanes : Prop :=
  ∀ (rm : RM) (a b : W32) (m : Bool),
    laneV .vadd rm a b m = a + b ∧ laneV .vsub rm a b m = a - b ∧ laneV .vmul rm a b m = a * b ∧
    laneV .vmulh rm a b m = BitVec.ofInt 32 (a.toInt * b.toInt / 2 ^ 32) ∧
    laneV .vmulhu rm a b m = BitVec.ofNat 32 (a.toNat * b.toNat / 2 ^ 32) ∧
    laneV .vand rm a b m = a &&& b ∧ laneV .vor rm a b m = a ||| b ∧ laneV .vxor rm a b m = a ^^^ b ∧
    laneV .vsll rm a b m = a <<< (b.toNat % 32) ∧ laneV .vsrl rm a b m = a >>> (b.toNat % 32) ∧
    laneV .vsra rm a b m = a.sshiftRight (b.toNat % 32) ∧
    (laneV .vmin rm a b m).toInt = min a.toInt b.toInt ∧ (laneV .vmax rm a b m).toInt = max a.toInt b.toInt ∧
    (laneV .vminu rm a b m).toNat = min a.toNat b.toNat ∧ (laneV .vmaxu rm a b m).toNat = max a.toNat b.toNat ∧
    (laneV .vadds rm a b m).toInt = max (-2 ^ 31) (min (2 ^ 31 - 1) (a.toInt + b.toInt)) ∧
    (laneV .vsubs rm a b m).toInt = max (-2 ^ 31) (min (2 ^ 31 - 1) (a.toInt - b.toInt)) ∧
    (laneV .vaddus rm a b m).toNat = min (2 ^ 32 - 1) (a.toNat + b.toNat) ∧
    (laneV .vsubus rm a b m).toNat = a.toNat - b.toNat ∧
    laneV .vabs rm a b m = (if a.toInt < 0 then -a else a) ∧ laneV .vsel rm a b m = (if m then a else b)

/-- A performed vector command writes the active lanes of vd and keeps the others, and leaves the queue (R204, R205). Mask k0
reads as all ones, and writes to it are discarded (R203). -/
def Obligations.VectorCommandPerforms : Prop :=
  (∀ (s : State) (c : Nat) (v : VCmd) (rest : List VCmd) (i : Nat), (s.core c).vq = v :: rest → v.ganged = false →
     s.halfway (v.place c) (v.lanes.map (·.2)) = false → i < 64 →
     ∃ t, exec (.vectorCommandPerform c) s = .next t ∧ (t.core c).vq = rest ∧
       (∀ op f, v.form = .v op f → maskOp op = none → relV op = none → op ≠ .vperm → op ≠ .vsel →
         vlane (t.vreg c f.vd.toNat) i =
           if (s.kreg c f.km.toNat).getLsbD i
             then laneV op (rmOfFrm (BitVec.ofNat 2 v.rm)) (vlane (s.vreg c f.va.toNat) i) (vlane (s.vreg c f.vb.toNat) i) true
             else vlane (s.vreg c f.vd.toNat) i) ∧
       (∀ f, v.form = .v .vsel f → vlane (t.vreg c f.vd.toNat) i =
         if (s.kreg c f.km.toNat).getLsbD i then vlane (s.vreg c f.va.toNat) i else vlane (s.vreg c f.vb.toNat) i) ∧
       (∀ f, v.form = .v .vperm f → vlane (t.vreg c f.vd.toNat) i =
         if (s.kreg c f.km.toNat).getLsbD i
           then vlane (s.vreg c f.va.toNat) ((vlane (s.vreg c f.vb.toNat) i).toNat % 64)
           else vlane (s.vreg c f.vd.toNat) i) ∧
       (∀ op f r, v.form = .v op f → maskOp op = none → relV op = some r → f.vd.toNat % 8 ≠ 0 →
         (t.kreg c (f.vd.toNat % 8)).getLsbD i =
           ((s.kreg c f.km.toNat).getLsbD i && r (vlane (s.vreg c f.va.toNat) i) (vlane (s.vreg c f.vb.toNat) i))) ∧
       (∀ op f, v.form = .vF op f → vlane (t.vreg c f.vd.toNat) i =
         if (s.kreg c f.km.toNat).getLsbD i
           then laneVF op (rmOf f.rnd (BitVec.ofNat 2 v.rm)) (vlane (s.vreg c f.va.toNat) i)
             (vlane (s.vreg c f.vb.toNat) i) (vlane (s.vreg c f.vd.toNat) i)
           else vlane (s.vreg c f.vd.toNat) i) ∧
       (∀ op f, v.form = .vr op f → (t.bank (v.place c)).pending =
         (s.bank (v.place c)).pending.map fun q => if q.id = v.id && q.src == 1
           then { q with val := some (redVal op (s.kreg c f.km.toNat) (s.vreg c f.va.toNat)), src := 0 } else q)) ∧
  (∀ (s : State) (c : Nat) (v : Word), s.kreg c 0 = BitVec.allOnes 64 ∧ s.setKreg c 0 v = s)

/-! Engines. -/

/-- Every engine operation enters its command by the steps of R287 with the checks of its engine's chapter: those of the
accumulators, operands and drains (R299, R306, R307), of copies (R318, R319), of sampler commands (R347, R353), of grammar
records and masks (R357) and of Caddy spans (R328); the others make none (R366). An mtask rings the doorbell of its cluster in
the step in which it issues, at a place that it has reserved (R310; log 37: the model's reading). -/
def Obligations.EngineCommandsEnter : Prop :=
  (∀ f : FmtCop, EntersCop (.mzero f) 0 f.q.toNat 0 f.sa f.sb f.hold State.accBad) ∧
  (∀ f : FmtCop, EntersCop (.mmaN f) 0 f.q.toNat 1 f.sa f.sb f.hold State.mmaBad) ∧
  (∀ f : FmtCop, EntersCop (.mmaH f) 0 f.q.toNat 2 f.sa f.sb f.hold State.mmaBad) ∧
  (∀ f : FmtCop, EntersCop (.mmaBf f) 0 f.q.toNat 3 f.sa f.sb f.hold State.mmaBad) ∧
  (∀ f : FmtCop, EntersCop (.mmaS f) 0 f.q.toNat 4 f.sa f.sb f.hold State.mmaBad) ∧
  (∀ f : FmtCop, EntersCop (.mdrain f) 0 f.q.toNat 8 f.sa f.sb f.hold State.drainBad) ∧
  (∀ f : FmtCpy, EntersCop (.cpy f) 1 (FmtCpy.channel f) 0 f.sa f.sb f.hold State.copyBad) ∧
  (∀ f : FmtCpy, EntersCop (.cfill f) 1 (FmtCpy.channel f) 1 f.sa f.sb f.hold State.copyBad) ∧
  (∀ f : FmtCop, EntersCop (.ssamp f) 2 f.q.toNat 0 f.sa f.sb f.hold State.ssampBad) ∧
  (∀ f : FmtCop, EntersCop (.sdraw f) 2 f.q.toNat 1 f.sa f.sb f.hold State.sdrawBad) ∧
  (∀ f : FmtCop, EntersCop (.gstep f) 3 f.q.toNat 0 f.sa f.sb f.hold State.recordBad) ∧
  (∀ f : FmtCop, EntersCop (.gmask f) 3 f.q.toNat 1 f.sa f.sb f.hold State.gmaskBad) ∧
  (∀ f : FmtCop, EntersCop (.gflush f) 3 f.q.toNat 2 f.sa f.sb f.hold unchecked) ∧
  (∀ f : FmtCop, EntersCop (.sin f) 4 f.q.toNat 0 f.sa f.sb f.hold unchecked) ∧
  (∀ f : FmtCop, EntersCop (.sadv f) 4 f.q.toNat 1 f.sa f.sb f.hold unchecked) ∧
  (∀ f : FmtCop, EntersCop (.stok f) 4 f.q.toNat 2 f.sa f.sb f.hold unchecked) ∧
  (∀ f : FmtCop, EntersCop (.sopen f) 4 f.q.toNat 3 f.sa f.sb f.hold unchecked) ∧
  (∀ f : FmtCop, EntersCop (.cpost f) 5 f.q.toNat 0 f.sa f.sb f.hold fun s p e => s.caddyBad p e 0) ∧
  (∀ f : FmtCop, EntersCop (.cpubl f) 5 f.q.toNat 1 f.sa f.sb f.hold unchecked) ∧
  (∀ f : FmtCop, EntersCop (.cread f) 5 f.q.toNat 2 f.sa f.sb f.hold fun s p e => s.caddyBad p e 16) ∧
  (∀ f : FmtCop, EntersCop (.evput f) 6 f.q.toNat 0 f.sa f.sb f.hold unchecked) ∧
  (∀ f : FmtCop, EntersCop (.csave f) 7 f.q.toNat 0 f.sa f.sb f.hold unchecked) ∧
  (∀ f : FmtCop, EntersCop (.crestore f) 7 f.q.toNat 1 f.sa f.sb f.hold unchecked) ∧
  (∀ (f : FmtCop) s s1 s2 a b, let cl := Config.clusterOf s.cur.core
    let h : Shape := { srcs := [isrc f.sa, isrc f.sb], closes := true
                       keep := fun x s => s.modBank x.p fun b => { b with copRoom := some (mtaskKey (Config.clusterOf x.p.core)) } }
    Issues s h s1 [a, b] →
      (s.cur.reflex = true → exec (.mtask f) s = .next (trapped s h .engineAbsent 0 none)) ∧
      (s.cur.reflex = false → (s1.eregUnit cl 0 0x181).getLsbD 4 = false →
        exec (.mtask f) s = .next (trapped s h .engineDesc 0 none)) ∧
      (s.cur.reflex = false → (s1.eregUnit cl 0 0x181).getLsbD 4 = true →
        (64 ≤ s1.bellLoad s.cur cl → exec (.mtask f) s = .next (s.stall .engine)) ∧
        (s1.bellLoad s.cur cl < 64 → committed s h [a, b] s1 = some s2 →
          exec (.mtask f) s = .next (passed s h [a, b] f.hold (s2.modSched cl fun t => { t with
            bells := t.bells ++ [⟨a.toNat % 2 ^ 11 % 2 ^ s2.ttLog cl, (s2.bank s.cur).cslot.toNat, s.cur.core, s.cur.num,
              (s2.core s.cur.core).ids⟩] })))))

/-- copw writes and coprd reads a register of an engine that the tile lists, privileged shared registers being writable from
the core's own supervisor core only (R289, R290, R291), and those of engine 7 in handler mode too (R398, R416; log 26: the
model's reading); a coprd of a copy channel's write pointer joins the completed copies that it reports (R322; log 64: the
model's reading); a register that the tile does not list halts the seat (R51, R296). A staging register reads back what the
seat wrote, in its writable bits, and no other staging register changes. -/
def Obligations.EngineRegisterInstructions : Prop :=
  (∀ (f : FmtCpw) s,
     let eng := f.eng.toNat
     let n := f.n.toNat
     let priv := fun (t : State) => decide (0x100 ≤ n) && sharedPriv eng n &&
       !(if eng = 7 then t.mayPriv s.cur else t.isSuper s.cur.core)
     (engUnlisted s.cur.core eng n = true → ∀ j ∈ [Instr.copw f, .coprd f], exec j s =
       .next (haltedIllegal s (s.wordOf s.cur))) ∧
     (engUnlisted s.cur.core eng n = false →
       (∀ s1 v, let h : Shape := { srcs := [isrc f.sa] }
         Issues s h s1 [v] →
           (engineAbsent s eng = true → exec (.copw f) s = .next (trapped s h .engineAbsent 0 none)) ∧
           (engineAbsent s eng = false → priv s1 = true → exec (.copw f) s = .next (trapped s h .privReg 0 none)) ∧
           (engineAbsent s eng = false → priv s1 = false →
             exec (.copw f) s = .next (passed s h [v] f.hold (s1.engRegWrite s.cur eng n v)))) ∧
       (let h : Shape := { srcs := [], dst := some f.sa.toNat
                           lat := if n < 0x100 ∨ sharedUnit s.cur.core eng n = none then .fixed 2 else .var }
        Issues s h s [] →
           (engineAbsent s eng = true → exec (.coprd f) s = .next (trapped s h .engineAbsent 0 none)) ∧
           (engineAbsent s eng = false → exec (.coprd f) s = .next (retired s h [] f.hold
             (if eng = 1 ∧ 0x108 ≤ n ∧ n < 0x110 then s.cwpJoin s.cur.core (n - 0x108) else s)
             (some (s.engRegRead s.cur eng n)) (succ s h)))))) ∧
  (∀ (s : State) (p : Machine.Place) (eng n m eng' : Nat) (v : Word), n < 0x100 → m < 0x100 → eng < 8 → eng' < 8 →
     (s.engRegWrite p eng n v).engRegRead p eng' m =
       if eng' = eng ∧ m = n then v &&& BitVec.ofNat 64 (stagingMask eng n) else s.engRegRead p eng' m)

/-- esync waits for the seat's own commands in the masked queues, joins them and gives the masked queues that are empty, or
reports the first fault that its mask covers (R292); qfence waits for the commands of the masked queues issued before it,
qfence.all for every command (R277). -/
def Obligations.EngineSynchronisation : Prop :=
  (∀ (f : FmtEsy) s, let h : Shape := { srcs := [], dst := some f.sa.toNat, lat := .fixed 2 }
    let eng := f.eng.toNat
    let mask := f.mask.toNat
    let waits := (s.bank s.cur).faultPos eng mask = none ∧ s.esyncBusy s.cur eng mask = true
    Issues s h s [] →
      (waits → exec (.esync f) s = .next (s.stall .engine)) ∧
      (¬ waits → engineAbsent s eng = true → exec (.esync f) s = .next (trapped s h .engineAbsent 0 none)) ∧
      (engineAbsent s eng = false → (s.bank s.cur).faultPos eng mask = none → s.esyncBusy s.cur eng mask = false →
        let t := s.joinTs s.cur.core fun key tag =>
          keyEng key == eng && tag == s.cur.seat + 2 * s.cur.bank && bit mask (key % 4)
        exec (.esync f) s = .next (retired s h [] f.hold t
          (some (BitVec.ofNat 64 (t.emptyQueues s.cur.core eng mask))) (succ s h))) ∧
      (∀ i q a, engineAbsent s eng = false → (s.bank s.cur).faultPos eng mask = some i →
        (s.bank s.cur).faults[i]? = some (eng, q, a) → exec (.esync f) s =
          .next ((s.modBank s.cur fun b => { b with faults := dropAt b.faults i }).trapAt s.cur .engineFault
            (eng + 8 * (q % 4)) (some a) (s.bank s.cur).pc 1 (s.wordOf s.cur)))) ∧
  (∀ (f : FmtQf) s, let h : Shape := { srcs := [isrc f.ra] }
    (∀ s1 m, Issues s h s1 [m] →
      let below := (s1.core s.cur.core).ids
      let busy := s1.qfBusy s.cur.core f.eng.toNat m.toNat below
      (busy = false → exec (.qfence f) s =
        .next (passed s h [m] f.hold (s1.qfJoin s.cur.core f.eng.toNat m.toNat))) ∧
      (busy = true → exec (.qfence f) s =
        .next (begun s h [m] (s1.modBank s.cur fun b => { b with wip := .qf f.eng.toNat m.toNat below })))) ∧
    (∀ e m below, (s.bank s.cur).wip = .qf e m below →
      (s.qfBusy s.cur.core e m below = true → exec (.qfence f) s = .next (s.stall .engine)) ∧
      (s.qfBusy s.cur.core e m below = false → exec (.qfence f) s =
        .next (passed s h [] f.hold (s.qfJoin s.cur.core e m))))) ∧
  (∀ (f : FmtS) s, let h : Shape := { srcs := [] }
    Issues s h s [] →
      let below := (s.core s.cur.core).ids
      (s.qfBusy s.cur.core 8 0 below = false → exec (.qfenceAll f) s =
        .next (passed s h [] f.hold (s.qfJoin s.cur.core 8 0))) ∧
      (s.qfBusy s.cur.core 8 0 below = true → exec (.qfenceAll f) s =
        .next (begun s h [] (s.modBank s.cur fun b => { b with wip := .qf 8 0 below }))))

/-! Control registers. -/

/-- crd gives the value of control register n, and cwr writes it, or traps PRIV_REG (R135, R250, R398); a number that the
tile does not list halts the seat (R51). A BFMT write, by cwr or bfset, begins, and retires after 128 clk once no earlier
operation names the bank (R233, R284); bfrd reads BFMT. -/
def Obligations.ControlRegisterInstructions : Prop :=
  (∀ (f : FmtS) s, let n := f.imm.toNat
    (crUnlisted s.cur.core n = true →
      ∀ j ∈ [Instr.crd f, .cwr f], exec j s = .next (haltedIllegal s (s.wordOf s.cur))) ∧
    (crUnlisted s.cur.core n = false →
      (let h : Shape := { srcs := [], dst := some f.ra.toNat, lat := .fixed 2 }
       Issues s h s [] →
        exec (.crd f) s = .next (retired s h [] f.hold s (some (s.crRead s.cur n)) (succ s h))) ∧
      (∀ s1 v, let h : Shape := { srcs := [isrc f.ra] }
        Issues s h s1 [v] →
          (s1.crDenied s.cur n v = true → exec (.cwr f) s = .next (trapped s h .privReg 0 none)) ∧
          (s1.crDenied s.cur n v = false →
            (¬ (0x1c0 ≤ n ∧ n ≤ 0x1ff) → exec (.cwr f) s = .next (passed s h [v] f.hold
              (s1.crWrite s.cur n v (s1.isSuper s.cur.core)))) ∧
            (0x1c0 ≤ n ∧ n ≤ 0x1ff → exec (.cwr f) s = .next (begun s h [v] (s1.modBank s.cur fun b => { b with
              wip := .bfmt (n - 0x1c0) v (s1.clk + 128) (s1.core s.cur.core).ids }))))))) ∧
  (∀ (f : FmtS) s b v ready below, (s.bank s.cur).wip = .bfmt b v ready below →
    (s.clk < ready ∨ s.bfBusy s.cur.core b below = true →
      (crUnlisted s.cur.core f.imm.toNat = false → 0x1c0 ≤ f.imm.toNat → f.imm.toNat ≤ 0x1ff →
        exec (.cwr f) s = .next (s.stall .memory)) ∧
      exec (.bfset f) s = .next (s.stall .memory)) ∧
    (ready ≤ s.clk → s.bfBusy s.cur.core b below = false →
      (crUnlisted s.cur.core f.imm.toNat = false → 0x1c0 ≤ f.imm.toNat → f.imm.toNat ≤ 0x1ff →
        exec (.cwr f) s = .next (passed s { srcs := [isrc f.ra] } [] f.hold (s.bfPut s.cur.core b v))) ∧
      exec (.bfset f) s = .next (passed s { srcs := [isrc f.ra, (f.imm.toNat % 64, .int)] } [] f.hold
        (s.bfPut s.cur.core b v)))) ∧
  (∀ (f : FmtS) s s1 a v, let h : Shape := { srcs := [isrc f.ra, (f.imm.toNat % 64, .int)] }
    let b := a.toNat % 64
    Issues s h s1 [a, v] →
      (Config.isX s.cur.core = false → 24 ≤ b →
        exec (.bfset f) s = .next (trapped s h .addrUnmapped 0 (some (BitVec.ofNat 64 b)))) ∧
      (Config.isX s.cur.core = true ∨ b < 24 → exec (.bfset f) s = .next (begun s h [a, v] (s1.modBank s.cur fun k => { k with
        wip := .bfmt b v (s1.clk + 128) (s1.core s.cur.core).ids })))) ∧
  (∀ (f : FmtS) s s1 a, let h : Shape := { srcs := [isrc f.ra], dst := some (f.imm.toNat % 64), lat := .fixed 2 }
    let b := a.toNat % 64
    Issues s h s1 [a] →
      (Config.isX s.cur.core = false → 24 ≤ b →
        exec (.bfrd f) s = .next (trapped s h .addrUnmapped 0 (some (BitVec.ofNat 64 b)))) ∧
      (Config.isX s.cur.core = true ∨ b < 24 → exec (.bfrd f) s =
        .next (retired s h [a] f.hold s1 (some (s1.crCore s.cur.core (0x1c0 + b))) (succ s h))))

/-- A register reads what was written to it, in its writable bits: the segment registers (R38), FRM, AMAX and JOINC (R30,
R32, R153), the trap vector and the handler segments (R397), and EPC without its low two bits; read-only registers keep
their value (R10). -/
def Obligations.ControlRegisterValues : Prop :=
  ∀ (s : State) (p : Machine.Place) (v : Word) (priv : Bool),
    (∀ n, n < 8 →
      (s.crWrite p (0x080 + 3 * n) v priv).crRead p (0x080 + 3 * n) = v &&& ~~~(0x3f : Word) ∧
      (s.crWrite p (0x081 + 3 * n) v priv).crRead p (0x081 + 3 * n) = v ∧
      (s.crWrite p (0x082 + 3 * n) v priv).crRead p (0x082 + 3 * n) =
        v &&& (if Config.isX p.core then 7 else 15)) ∧
    (s.crWrite p 0x001 v priv).crRead p 0x001 = v &&& 3 ∧
    (s.crWrite p 0x002 v priv).crRead p 0x002 = v &&& 0xffff_ffff ∧
    (s.crWrite p 0x103 v priv).crRead p 0x103 = v &&& 0x7_ffff ∧
    (s.crWrite p 0x282 v priv).crRead p 0x282 = v &&& ~~~(3 : Word) ∧
    (∀ n ∈ [0x285, 0x288], (s.crWrite p n v priv).crRead p n = (s.crRead p n &&& 0x3f) ||| (v &&& ~~~(0x3f : Word))) ∧
    (∀ n ∈ [0x286, 0x289], (s.crWrite p n v priv).crRead p n = v) ∧
    (s.crWrite p 0x284 v priv).crRead p 0x284 = (s.crRead p 0x284 &&& 2) ||| (v &&& ~~~(2 : Word)) ∧
    (∀ n ∈ [0x287, 0x28a], let rights : Word := if Config.isX p.core then 7 else 15
      (s.crWrite p n v priv).crRead p n = (s.crRead p n &&& ~~~rights) ||| (v &&& rights)) ∧
    (∀ n ∈ [0x003, 0x005, 0x006, 0x007, 0x008, 0x009, 0x00b, 0x00c, 0x00d, 0x00e, 0x100, 0x101, 0x102, 0x104, 0x105,
      0x106, 0x107, 0x210, 0x280, 0x281, 0x283, 0x292, 0x294, 0x295, 0x296], s.crWrite p n v priv = s)

/-! Traps, handlers and the supervisor. -/

/-- A trap on a core with TVEC.EN outside handler mode retires the seat's writes, saves PC, cause, segments 0 and 7 and
STATUS.SOPEN, and goes on at TVEC.OFF in the handler's segments (R394, R397); any other trap halts the seat and sends its
fault message, unless it would have to cross a lost link (R51, R394, R410; log 75). Either way FADDR holds the offset that the
trap names; at a trap that halts, that is the model's reading (log 14). Memory and the other seats' banks stay. -/
def Obligations.TrapEntry : Prop :=
  ∀ (s : State) (p : Machine.Place) (c : Cause) (info len : Nat) (fa : Option Word) (epc : Word) (w : W32),
    let t := s.trapAt p c info fa epc len w
    let b := t.bank p
    let enters := c ≠ .illegalEncoding ∧ (s.bank p).handler = false ∧ p.seat ≠ 8 ∧ (s.crCore p.core 0x284).getLsbD 0 = true
    let sup := (s.crCore p.core 0x28b).toNat % 1024
    t.mem = s.mem ∧ t.ended = .trap ∧ b.inflight = [] ∧ b.scene = (s.bank p).scene ∧ b.faddr = fa.getD (s.bank p).faddr ∧
    (∀ q : Machine.Place, q.key ≠ p.key → t.bank q = s.bank q) ∧
    (enters → b.pc = s.crCore p.core 0x284 &&& ~~~(3 : Word) ∧ b.epc = epc ∧ b.run = (s.bank p).run ∧
      b.cause = BitVec.ofNat 32 (c.num + info * 2 ^ 16) ∧
      b.tstat = BitVec.ofNat 7 (1 + 2 * (if (s.bank p).scene.isSome then 1 else 0) + 16 * len) ∧
      b.kept = some ((s.bank p).seg 0, (s.bank p).seg 7) ∧
      b.seg 7 = ⟨s.crCore p.core 0x285, s.crCore p.core 0x286, (s.crCore p.core 0x287).setWidth 4⟩ ∧
      b.seg 0 = ⟨s.crCore p.core 0x288 + BitVec.ofNat 64 (768 * p.slotNo), s.crCore p.core 0x289,
        (s.crCore p.core 0x28a).setWidth 4⟩ ∧
      (∀ n, 0 < n → n < 7 → b.seg n = (s.bank p).seg n) ∧ t.net = s.net) ∧
    (¬ enters → b.run = .halted ∧ b.pc = epc ∧
      t.net = s.net ++ (if s.crosses p.core sup then [] else [⟨s.msgNo, p.core, sup, none, 3, false, (s.core p.core).pts, p.num,
        .fault (BitVec.ofNat 64 (p.core + p.num * 2 ^ 10 + c.num * 2 ^ 16 + (s.bank p).vcore.toNat * 2 ^ 32)) epc
          (w.setWidth 64) (BitVec.ofNat 64 s.dtime)⟩]))

/-- trap n has no effect except a trap entry with CAUSE.CODE = SW_TRAP, INFO = n, EPC its own offset and LEN 1; the handler
skips it by writing EPC := EPC + 4 (R400). -/
def Obligations.TrapInstruction : Prop :=
  ∀ (f : FmtS) s, Issues s { srcs := [] } s [] →
    exec (.trap f) s = .next (s.trapAt s.cur .swTrap f.imm.toNat none (s.bank s.cur).pc 1 (s.wordOf s.cur)) ∧
    ((s.bank s.cur).handler = false → s.cur.seat ≠ 8 → (s.crCore s.cur.core 0x284).getLsbD 0 = true →
      ∃ t, exec (.trap f) s = .next t ∧ let b := t.bank s.cur
        b.handler = true ∧ b.cause.toNat % 2 ^ 7 = 3 ∧ b.cause.toNat / 2 ^ 16 = f.imm.toNat ∧ b.epc = (s.bank s.cur).pc ∧
        b.tstat.toNat / 2 ^ 4 % 4 = 1 ∧ b.faddr = (s.bank s.cur).faddr ∧ t.mem = s.mem ∧ t.net = s.net ∧
        (∀ v : Word, v = b.epc + 4 → v.toNat % 4 = 0 →
          ((t.crWrite s.cur 0x282 v true).bank s.cur).epc = b.epc + 4))

/-- trap n traps SW_TRAP with INFO n (R400); rett goes back to EPC, and rett.redo, with a frozen scene, to its start, both
with IN cleared and segments 0 and 7 as they were kept; rett.kill kills the continuation (R401, R402); all of them need
handler mode (R399). An illegal word halts its seat (R51). -/
def Obligations.TrapReturns : Prop :=
  let h : Shape := { srcs := [] }
  (∀ (f : FmtS) s, Issues s h s [] → exec (.trap f) s = .next (trapped s h .swTrap f.imm.toNat none)) ∧
  (∀ f : FmtS, HandlerOnly (.rett f) h ∧ HandlerOnly (.rettRedo f) h ∧ HandlerOnly (.rettKill f) h) ∧
  (∀ (f : FmtS) s, Issues s h s [] → (s.bank s.cur).handler = true →
    let t := s.modBank s.cur Bank.leaveHandler
    exec (.rett f) s = .next (retired s h [] f.hold t none (s.bank s.cur).epc) ∧
    ((s.bank s.cur).tstat.getLsbD 1 = false →
      exec (.rettRedo f) s = .next (retired s h [] f.hold t none (s.bank s.cur).epc)) ∧
    ((s.bank s.cur).tstat.getLsbD 1 = true → s.sceneVectors s.cur = false →
      (∀ r ∈ (s.bank s.cur).pending, r.val.isSome = true) → (t.discard s.cur true true false).ended ≠ .trap →
        exec (.rettRedo f) s = .next (retired s h [] f.hold (t.discard s.cur true true false) none (s.bank s.cur).scpc)) ∧
    exec (.rettKill f) s = .next (departed s (s.killSeat s.cur))) ∧
  (∀ (b : Bank), (b.leaveHandler).tstat.getLsbD 0 = false ∧
    ∀ g0 g7, b.kept = some (g0, g7) → (b.leaveHandler).seg 0 = g0 ∧ (b.leaveHandler).seg 7 = g7 ∧
      ∀ n, 0 < n → n < 7 → (b.leaveHandler).seg n = b.seg n) ∧
  (∀ (w : W32) s, exec (.illegal w) s = .next (haltedIllegal s w))

/-- swin and swin.w read and write the selected bank of a seat that is halted and that the issuing core supervises, and
otherwise set SWSEL.ERR (R411); csfreeze and csthaw stop and free the core's take-up of work (R420); all need handler mode
(R399). seize and release of a reflex group act at once or at the commit, or trap SEIZE_REFUSED (R422, R425). -/
def Obligations.SupervisorInstructions : Prop :=
  (∀ f : FmtS, HandlerOnly (.swin f) { srcs := [], dst := some f.ra.toNat, lat := .var } ∧
    HandlerOnly (.swinW f) { srcs := [isrc f.ra] } ∧ HandlerOnly (.csfreeze f) { srcs := [] } ∧
    HandlerOnly (.csthaw f) { srcs := [] }) ∧
  (∀ (f : FmtS) s, let h : Shape := { srcs := [], dst := some f.ra.toNat, lat := .var }
    let q := s.swPlace s.cur
    let may := s.swOwn s.cur q && s.swHalted q
    Issues s h s [] → (s.bank s.cur).handler = true →
      (may = true → exec (.swin f) s =
        .next (retired s h [] f.hold s (some (s.swRead q (s.swCrn s.cur) f.imm.toNat)) (succ s h))) ∧
      (may = false → exec (.swin f) s = .next (retired s h [] f.hold (s.swErr s.cur) (some 0) (succ s h)))) ∧
  (∀ (f : FmtS) s s1 v, let h : Shape := { srcs := [isrc f.ra] }
    let q := s1.swPlace s.cur
    let may := s1.swOwn s.cur q && s1.swHalted q
    Issues s h s1 [v] → (s1.bank s.cur).handler = true →
      (may = true → exec (.swinW f) s =
        .next (passed s h [v] f.hold (s1.swWrite q (s1.swCrn s.cur) f.imm.toNat v))) ∧
      (may = false → exec (.swinW f) s = .next (passed s h [v] f.hold (s1.swErr s.cur)))) ∧
  (∀ (f : FmtS) s, let h : Shape := { srcs := [] }
    Issues s h s [] → (s.bank s.cur).handler = true →
      exec (.csfreeze f) s = .next (passed s h [] f.hold (s.modCore s.cur.core fun k => { k with frozen := true })) ∧
      exec (.csthaw f) s = .next (passed s h [] f.hold (s.modCore s.cur.core fun k => { k with frozen := false }))) ∧
  (∀ (f : FmtS) s s1 s2 a, let c := s.cur.core
    let g := f.imm.toNat % 32
    let h : Shape := { srcs := [isrc f.ra], closes := true
                       keep := fun x s => s.modBank x.p fun b => { b with copRoom := some (seizeKey g) } }
    let off := a.toNat / 64 % 2 ^ 15 * 64
    let may := Config.isX c = true ∧ s1.maySeize c g = true ∧ s1.members g ≠ [] ∧ mfind s1.holds g = none ∧
      s1.seizing s.cur g = false
    Issues s h s1 [a] →
      ((s1.bank s.cur).handler = true → exec (.seize f) s = .next (trapped s h .privInsn 0 none)) ∧
      ((s1.bank s.cur).handler = false → ¬ may → exec (.seize f) s = .next (trapped s h .seizeRefused 0 none)) ∧
      ((s1.bank s.cur).handler = false → may → s1.bad (keysFrom (Config.tileKey c off) 64) = false →
        committed s h [a] s1 = some s2 →
          exec (.seize f) s = .next (passed s h [a] f.hold (seized s2 s.cur g (s2.lockedRec c off))))) ∧
  (∀ (f : FmtS) s, let h : Shape := { srcs := [], entries := 1 }
    let g := f.imm.toNat % 32
    Issues s h s [] →
      (mfind s.holds g ≠ some s.cur → exec (.release f) s = .next (trapped s h .seizeRefused 0 none)) ∧
      (mfind s.holds g = some s.cur →
        ((s.bank s.cur).openScene = none → exec (.release f) s = .next (passed s h [] f.hold (s.releaseGroup s.cur g))) ∧
        (∀ sc, (s.bank s.cur).openScene = some sc →
          exec (.release f) s = .next (passed s h [] f.hold (s.modBank s.cur fun b => b.buffer 1 (.unseize g))))))

/-! The events. Each statement says what the event does when its conditions hold; a message that arrives out of turn, or an
action whose conditions do not hold, changes nothing. -/

/-- What each message does at its destination (R150, R159, R166, R176, R177, R185, R263, R281, R351, R410, R423, R425), and
that a message for which there is no room, or that comes in the same clk as another mail of its core (R195), stays in
flight. What the bounce of a refused remote store carries is the model's reading (log 44), and so is that a steal reply enters
whole or waits (log 53). -/
def Obligations.MessageArrivals : Prop :=
  (∀ (s : State) (k : Nat) (m : Msg), Arrives s k m → (s.core m.dst).fenced = false →
    let c := m.dst
    let t := tookIn s k m
    let free := (s.core c).arrClk ≠ s.clk + 1
    (∀ i x v, m.body = .mail i x v → i < Config.seats c →
      (free → exec (.mailArrival k) s = .next ((t.mailLand c i x v).modCore c fun q => { q with arrClk := s.clk + 1 })) ∧
      (¬ free → exec (.mailArrival k) s = .next s)) ∧
    (∀ i x v, m.body = .mail i x v → Config.seats c ≤ i →
      exec (.mailArrival k) s = .next (t.refuse c m (bounceWord (m.vdst.getD c) i x 50))) ∧
    (∀ r, m.body = .wakeRec r → s.holding c = false → exec (.mailArrival k) s = .next ((t.enterReady c r).getD s)) ∧
    (∀ seat off w, m.body = .bounce seat off w →
      (seat < 100 → exec (.bounceWordArrival k) s = .next (t.mailLand c seat 31 w)) ∧
      (100 ≤ seat → seat < 1000 → exec (.bounceWordArrival k) s =
        .next (t.modHead c (seat - 100) fun e =>
          if e.bounced then e else { e with bounced := true, faddr := BitVec.ofNat 64 off })) ∧
      (1000 ≤ seat → exec (.bounceWordArrival k) s = .next (t.mailLand c ((seat - 1000) % 16) 31 w))) ∧
    (∀ off bytes a b, m.body = .store off bytes a b →
      (rstFits c off bytes.length = true → Config.isX c = true ∨ ((off + bytes.length ≤ 0x7_e000 ∨ 0x8_0000 ≤ off) ∧
          ((s.groupOf c) = none ∨ off + bytes.length ≤ 0xb_0000)) →
        let r := t.engWrite c m.pts (cellsAt (Config.tileKey c off) bytes)
        exec (.remoteStoreArrival k) s = .next (if m.sender = 0 then r.1.raisePts m.src r.2
          else r.1.modHead m.src (m.seat - 100) fun e => { e with ts := max e.ts r.2 })) ∧
      (rstFits c off bytes.length = false → exec (.remoteStoreArrival k) s =
        .next (t.refuse c m (bounceWord (m.vdst.getD c) 0 0 50)))) ∧
    (∀ off, m.body = .start off → exec (.reflexStartMessage k) s = .next (t.reflexStart c off)) ∧
    (∀ q hd, m.body = .cue q hd → s.holding c = false → exec (.launchCueArrival k) s = .next ((t.cueArrive q hd c).getD s)) ∧
    (∀ rs, m.body = .steal rs → s.holding c = false → exec (.stealReplyArrival k) s =
      .next (match t.stealEnter c rs with | (u, []) => u | _ => s)) ∧
    (s.holding c = true →
      (∀ r, m.body = .wakeRec r → exec (.mailArrival k) s = .next (t.holdEvent c m.body)) ∧
      (∀ q hd, m.body = .cue q hd → exec (.launchCueArrival k) s = .next (t.holdEvent c m.body)) ∧
      (∀ rs, m.body = .steal rs → exec (.stealReplyArrival k) s = .next (t.holdEvent c m.body))) ∧
    (∀ w, m.body = .winner w → exec (.winnerMessageArrival k) s = .next
      (if (s.core c).winners.length < 16 then t.modCore c fun q => { q with winners := q.winners ++ [w] } else s)) ∧
    (∀ a b d e, m.body = .fault a b d e → exec (.faultMessageArrival k) s = .next
      (if s.fringFull c then s else t.fringPut c [a, b, d, e])) ∧
    (∀ g pos r, m.body = .seize g pos r → exec (.seizeArrival k) s = .next ((t.seizeArrive c g pos r).getD s)) ∧
    (∀ g, m.body = .release g → exec (.releaseArrival k) s = .next ((t.releaseArrive c g).getD s))) ∧
  (∀ (s : State) (die k c : Nat) (m : Msg) i x v, (mget s.stage die [])[k]? = some m → m.body = .mail i x v →
    ((mget s.stage die []).take k).any (fun o => o.vdst == m.vdst || (o.src == m.src && o.engine == m.engine &&
      o.cls == m.cls && s.dest o.src (o.vdst.getD 0) == s.dest m.src (m.vdst.getD 0))) = false →
    s.dest m.src (m.vdst.getD 0) = .to_ c → s.crosses m.src c = false → s.net.any (fun o => s.holdsBack o { m with dst := c }) = false → (s.core c).arrClk ≠ s.clk + 1 →
    (s.core c).fenced = false → i < Config.seats c →
      exec (.stageDoorDelivery die k) s = .next (((tookHeld s die k c m).mailLand c i x v).modCore c fun q =>
        { q with arrClk := s.clk + 1 })) ∧
  (∀ (s : State) (c i x y : Nat) (v : Word), x < 32 → y < 32 →
    let t := (s.mailLand c i x v).seat c i
    mget t.mail y 0 = (if y = x then v else mget (s.seat c i).mail y 0) ∧
    t.mpres.getLsbD y = (decide (y = x) || (s.seat c i).mpres.getLsbD y))

/-- Time, results of loads, take-up of work and timers on one core (R25, R103, R144, R146, R177, R191, R257, R451): pts advances
once in 16 clk; a result that has arrived lands in its register, a mail register included, without setting its presence bit
(R150), or enters the queue for which qout reserved its entry; a seat takes up the next work of its core with the record's
registers, and the segments of its slot; a timer starts its reflex, at an understudy not. -/
def Obligations.CoreEvents : Prop :=
  (∀ (s : State) (c : Nat), ∃ t, exec (.ptsTick c) s = .next t ∧ t.mem = s.mem ∧ t.banks = s.banks ∧ t.seats = s.seats ∧
    (t.core c).pts = (if (s.core c).ticks < s.clk / 16 then (s.core c).pts + 1 else (s.core c).pts) ∧
    (t.core c).ticks = (if (s.core c).ticks < s.clk / 16 then (s.core c).ticks + 1 else (s.core c).ticks)) ∧
  (∀ (s : State) (c i b k : Nat) (r : PendRes) (v : Word), (s.bank ⟨c, i, b⟩).pending[k]? = some r → r.val = some v →
    r.code < 60 → ∃ t, exec (.loadDataArrival c i b k) s = .next t ∧
      (t.bank ⟨c, i, b⟩).pending = dropAt (s.bank ⟨c, i, b⟩).pending k ∧
      (t.bank ⟨c, i, b⟩).amax = (if r.note = 0 then (s.bank ⟨c, i, b⟩).amax else amaxMerge (s.bank ⟨c, i, b⟩).amax r.note) ∧
      (r.code ≠ 0 → t.reg ⟨c, i, b⟩ r.code = v) ∧ (∀ n, n ≠ r.code → t.reg ⟨c, i, b⟩ n = s.reg ⟨c, i, b⟩ n) ∧
      ∀ d j, (t.seat d j).mpres = (s.seat d j).mpres) ∧
  (∀ (s : State) (c i b k d j : Nat) (r : PendRes) (v : Word), let p : Machine.Place := ⟨c, i, b⟩
    (s.bank p).pending[k]? = some r → r.val = some v → r.code = 61 → (s.seat c p.num).down = some (d, j) →
      ∃ t, exec (.loadDataArrival c i b k) s = .next t ∧ (t.bank p).pending = dropAt (s.bank p).pending k ∧
        (t.seat d j).qin = (s.seat d j).qin ++ [v] ∧ (t.seat c p.num).outRes = (s.seat c p.num).outRes - 1) ∧
  (∀ (s s' : State) (c i : Nat) (r : Rec), s.canTake c i = true → s.nextWork c = some (s', r) →
    ∃ t, exec (.takeUp c i) s = .next t ∧
      let b := t.bank ⟨c, i, 0⟩
      b.run = .running ∧ b.pc = r.pc &&& ~~~(3 : Word) ∧ b.wid = r.wid ∧ b.cslot = BitVec.ofNat 6 r.slot ∧ b.prio = r.prio ∧
      b.vcore = BitVec.ofNat 32 r.vcore ∧ b.scene = none ∧ b.frm = 0 ∧ b.inflight = [] ∧ t.reg ⟨c, i, 0⟩ 3 = r.cp ∧
      t.reg ⟨c, i, 0⟩ 4 = r.s4 ∧ t.reg ⟨c, i, 0⟩ 5 = r.s5 ∧ t.reg ⟨c, i, 0⟩ 6 = r.s6 ∧ t.reg ⟨c, i, 0⟩ 7 = r.s7 ∧
      ∀ n, n < 8 → b.seg n = (((s'.slotImage r.slot)[n]?).map (·.onCore c)).getD ⟨0, 0, 0⟩) ∧
  (∀ (s : State) (c n : Nat),
    let v := (s.crCore c (0x320 + n)).toNat
    let per := v / 2 ^ 24 % 2 ^ 24
    let next := mget (s.core c).xfire n 0
    let t := s.modCore c fun k => { k with xfire := mset k.xfire n (next + per) }
    Config.isX c = true → v.testBit 63 = true → per ≠ 0 → next ≤ s.dtime → exec (.xtimerFire c n) s = .next
      (if (s.crGlob 0 0x309).getLsbD 62 then t else t.reflexStart c (v / 2 ^ 48 % 2 ^ 15 * 64)))

/-- Lines, green rooms, notifications, page moves and translations (R240, R244-R248, R251): the sixteenth decision in a row for
one cluster moves a line to that cluster's slice; END waits until what was queued at the home slices has been replayed (log
60: the model's reading, as is what the copy does with bad sectors, logs 60 and 77). -/
def Obligations.MemoryEvents : Prop :=
  (∀ (s : State) (c l d : Nat) (e : L2Line), isDram (l * 128) = true → mfind s.l2 l = some e → e.window.length = 7 →
    let home := Machine.bits (l * 128) 12 12
    let who := if Config.isX c = false ∧ Config.clusterOf c / 24 = home then Config.clusterOf c else 48
    d < 48 → 5 ≤ (e.window ++ [who]).count d → e.last = some d → ∃ e', mfind (s.l2Access c l).l2 l = some e' ∧
      e'.window = [] ∧ e'.last = some d ∧ e'.slice = e.slice ∧
      (e.run = 15 → d ≠ e.slice.getD (homeSlice l) → (s.crGlob home 0x194).getLsbD 0 = true →
        e'.due = some d ∧ e'.run = 0) ∧
      (e.run ≠ 15 → e'.run = e.run + 1 ∧ e'.due = e.due)) ∧
  (∀ (s : State) (l d : Nat) (e : L2Line), mfind s.l2 l = some e → e.due = some d →
      ∃ t, exec (.l2LineMigration l) s = .next t ∧ t.mem = s.mem ∧
        ∃ e', mfind t.l2 l = some e' ∧ e'.due = none ∧ e'.slice = if d = homeSlice l then none else some d) ∧
  (∀ (s : State) (c : Nat), ∃ t, exec (.l1ctlInv c) s = .next t ∧ (t.core c).l1 = [] ∧ t.mem = s.mem) ∧
  (∀ (s : State) (c : Nat) (v : Word), Config.isX c = false → ∃ t, exec (.grhostWrite c v) s = .next t ∧
    t.crCore c 0x189 = if (s.groupOf c).isSome then 0 else v &&& 1) ∧
  (∀ (s : State) (c n : Nat), (s.core c).recallTag = some n →
    let i := n / 2
    let tag := Config.tileKey c (0x7_0000 + 16 * i)
    let d0 := leNat (memReads s.mem (keysFrom tag 8))
    let d1 := leNat (memReads s.mem (keysFrom (tag + 8) 8))
    let pa := d0 / 2 ^ 10 % 2 ^ 38 * 2 ^ 10
    let next := fun (u : State) (n' : Nat) => u.modCore c fun k => { k with recallTag := some n' }
    let piece := Config.tileKey c (i * 1024)
    (448 ≤ i → exec (.greenRoomRecall c) s = .next
      (((s.setCrCore c 0x189 0).modCore c fun k => { k with recallTag := none }).releaseHeldEv c)) ∧
    (i < 448 → n % 2 = 0 → s.bad [tag] = false → d0 % 2 = 0 → exec (.greenRoomRecall c) s = .next (next s (n + 2))) ∧
    (i < 448 → n % 2 = 0 → s.bad [tag] = false → d0 % 2 = 1 → isDram pa = true → s.blocked pa = false →
      (∀ q, q < 32 → s.bad [piece + 32 * q] = false) → exec (.greenRoomRecall c) s = .next
        (next (((s.engWrite c (s.core c).pts ((List.range 32).flatMap fun q =>
          cellsAt (s.redirect pa + 32 * q) (memReads s.mem (keysFrom (piece + 32 * q) 32)))).1).poke c
            (cellsAt tag (leBytes 8 (d0 - 1)))) (n + 1))) ∧
    (i < 448 → n % 2 = 1 → s.mnqRoom (Config.dieOf c) = true → exec (.greenRoomRecall c) s = .next
      (next (s.mnqPost (Config.dieOf c) (BitVec.ofNat 64 (2 + d1 / 2 ^ 10 * 2 ^ 10)) (BitVec.ofNat 64 (c + pa))) (n + 1)))) ∧
  (∀ (s : State) (d : Nat) (v : Word), exec (.mnqheadWrite d v) s =
    .next ((s.setCrGlob d 0x18c (v &&& 0xffff_ffff)).mnqRescan d)) ∧
  (∀ (s : State) (d : Nat) (v : Word), ∃ t, exec (.migackWrite d v) s = .next t ∧
    ∀ m ∈ t.mmus, m.1 / 24 = d → ∀ e ∈ m.2.counters, e.slot = v.toNat % 64 → e.sub = v.getLsbD 9 →
      e.page = pageNo (v.toNat / 2 ^ 10 * 2 ^ 10) e.sub → e.count = 0 ∧ e.pend = false ∧ e.posted = false) ∧
  (∀ (s : State) (d : Nat), (s.move d).state = 0 → ∃ t, exec (.pmctlGo d) s = .next t ∧
    let size := (s.crGlob d 0x192).toNat % 2
    let n := if size = 0 then 2 ^ 10 else 2 ^ 21
    let src := (s.crGlob d 0x190).toNat / n * n
    let dst := (s.crGlob d 0x191).toNat / n * n
    t.move d = ⟨src, dst, size, if isDram src = true ∧ isDram dst = true then 1 else 3, [], false⟩ ∧ t.mem = s.mem) ∧
  (∀ (s : State) (d a : Nat), let m := s.move d
    m.state = 1 → Memory.wf s.mem = true → ∃ t, exec (.pageMoveCopyDone d) s = .next t ∧ (t.move d).state = 2 ∧
      memRead t.mem a = if m.dst ≤ a ∧ a < m.dst + m.bytes then memRead s.mem (a - m.dst + m.src) else memRead s.mem a) ∧
  (∀ (s : State) (d : Nat), let m := s.move d
    (m.state = 3 ∨ m.state = 2 ∧ (∀ e ∈ m.queue, s.atHome e.1 = false) →
      ∃ t, exec (.pmctlEnd d) s = .next t ∧ (t.move d).state = 0 ∧ t.mem = s.mem) ∧
    (m.state = 2 → (∃ e ∈ m.queue, s.atHome e.1 = true) →
      ∃ t, exec (.pmctlEnd d) s = .next t ∧ t.move d = { m with ending := true } ∧ t.mem = s.mem)) ∧
  (∀ (s : State) (v : Word), ∃ t, exec (.tlbinvWrite v) s = .next t ∧ t.tlbBusy = true ∧
    t.crGlob 0 0x193 = v &&& 0xffff_ffff_ffe0_013f) ∧
  (∀ (s : State), s.tlbBusy = true → ∃ t, exec .tlbinvDone s = .next t ∧ t.tlbBusy = false ∧
    ∀ m ∈ t.mmus, ∀ e ∈ m.2.tlb, e.slot = (s.crGlob 0 0x193).toNat % 64 →
      (s.crGlob 0 0x193).getLsbD 8 = false ∧ e.page ≠ (s.crGlob 0 0x193).toNat / 2 ^ 21)

/-- Writes of registers by the host, by a seat outside its program, and of the registers whose writes are events (R10, R233,
R403, R404, R410, R450): the host writes the registers of module scope in its window with privilege, and no other; a seat
writes as its cwr or copw does, with its own privilege; a page wake lets every parked seat that waits for the page go on. How
the event numbers the registers, and that it exists for a seat, is the model's choice (log 64). -/
def Obligations.RegisterEvents : Prop :=
  (∀ (s : State) (i b n : Nat) (v : Word),
    let window := [0x300, 0x301, 0x303, 0x304, 0x305, 0x306, 0x307, 0x308, 0x309, 0x30a, 0x30b, 0x30f, 0x310, 0x311, 0x312,
      0x313, 0x314, 0x318, 0x319, 0x31a, 0x31b, 0x31c, 0x31d]
    (n ∈ window → exec (.registerWrite 1024 i b n v) s = .next (s.crWrite ⟨0, 0, 0⟩ n v true)) ∧
    (n ∉ window → exec (.registerWrite 1024 i b n v) s = .next s)) ∧
  (∀ (s : State) (c i b n : Nat) (v : Word), let p : Machine.Place := ⟨c, i, b⟩
    placeOk p = true →
    (n < 0x400 → crListed c n = true → s.crDenied p n v = false →
      (¬ (0x1c0 ≤ n ∧ n ≤ 0x1ff) → exec (.registerWrite c i b n v) s = .next (s.crWrite p n v (s.isSuper c))) ∧
      (0x1c0 ≤ n ∧ n ≤ 0x1ff → exec (.registerWrite c i b n v) s = .next (s.bfPut c (n - 0x1c0) v))) ∧
    (n < 0x400 → s.crDenied p n v = true → exec (.registerWrite c i b n v) s = .next s) ∧
    (∀ eng k, eng < 8 → k < 0x200 → n = 0x400 + eng * 0x200 + k →
      okEngReg (BitVec.ofNat 3 eng) (BitVec.ofNat 9 k) = true → engUnlisted c eng k = false →
        exec (.registerWrite c i b n v) s = .next (if s.engDenied p eng k then s else s.engRegWrite p eng k v))) ∧
  (∀ (s : State) (c b : Nat) (v : Word), b < (if Config.isX c then 64 else 24) →
    s.bfBusy c b (s.core c).ids = false → ∃ t, exec (.bfmtWrite c b v) s = .next t ∧
      t.crCore c (0x1c0 + b) = maskedW (0x7f * 2 ^ 40 + 2 ^ 33 - 1) (s.crCore c (0x1c0 + b)) v) ∧
  (∀ (s : State) (c : Nat) (v : Word), ∃ t, exec (.fheadWrite c v) s = .next t ∧
    t.crCore c 0x291 = maskedW (2 ^ 32 - 1) (s.crCore c 0x291) v ∧ t.mem = s.mem) ∧
  (∀ (s : State) (v : Word), ∃ t, exec (.pgwakeWrite v) s = .next t ∧
    let hit := wakeTakes (v.toNat % 64) (v.toNat / 2 ^ 10 * 2 ^ 10) (v.getLsbD 9)
    (∀ m ∈ t.mmus, ∀ e ∈ m.2.parks, hit e = false) ∧
    (∀ m ∈ s.mmus, ∀ e ∈ m.2.parks, hit e = true → ∀ p ∈ e.seats, (s.bank p).run = .parked →
      (t.bank p).run = .running))

/-- Steps of the matrix engine (R300-R307): an mma reads the formats of its operands when it starts; a step multiplies two
found blocks into its accumulator, element by element, on an X-tile eight rows of it, and a narrow step with finite factors
whose A is all zeros is passed over; mzero zeroes an accumulator; mdrain writes one to its own tile, or hands it to the mesh,
once there is room for it, as a remote store, which ends the step (log 36: the model's reading). A faulted head is resumed or
removed (R296, R305). Tile tasks (R310, R311): a doorbell decrements the record's DEP once the poster's earlier vector stores
are performed; the head of the ready list becomes the command of the lowest enabled tile of the cluster that may take it. A
record that reads uncorrectable is reported (log 22: the model's reading of R249). -/
def Obligations.MatrixEvents : Prop :=
  ((∀ (s : State) (c q : Nat) (e : ECmd), s.headCmd c q = some e → e.isMma = true → e.started = false → e.task = none →
     s.matReady c q e = true → ∃ t, exec (.mmaStep c q) s = .next t ∧ t.mem = s.mem ∧ t.headCmd c q =
       some { e with started := true, aux := .mma (s.bfList c e.sa.toNat) (s.bfList c e.sb.toNat) }) ∧
   (∀ (s s2 s3 : State) (c q : Nat) (e : ECmd) (bfa bfb : List Word) (ba bb : Block),
     let g := e.geom
     let st := if Config.isX c then e.step / 4 else e.step
     let kk := st / (g.mt * g.nt)
     s.headCmd c q = some e → e.isMma = true → e.started = true → s.matReady c q e = true → e.step < e.mmaSteps →
     e.aux = .mma bfa bfb → s.findBlock e e.opA bfa (st / g.nt % g.mt) kk = (s2, .ok ba) →
     s2.findBlock e e.opB bfb (st % g.nt) kk = (s3, .ok bb) →
     s3.badSec (ba.keys ++ ba.scl ++ bb.keys ++ bb.scl) = none →
       let t := s3.mmaApply c q e ba bb
       exec (.mmaStep c q) s = .next (match t.headCmd c q with
         | some e' => if e'.mmaSteps ≤ e'.step ∧ e'.task = none then t.complete c q else t
         | none => t)) ∧
   (∀ (s : State) (c q : Nat) (e : ECmd) (ba bb : Block) (r k : Nat), r < 32 → k < 32 →
     let g := e.geom
     let st := if Config.isX c then e.step / 4 else e.step
     let acc := g.acc + st / g.nt % g.mt * g.nt + st % g.nt
     let old := if e.step = 0 ∧ g.zero = true then 0 else s.accGet c acc r k
     let s1 := (s.engRead c e.pts (ba.keys ++ ba.scl)).1
     let s2 := (s1.engRead c e.pts (bb.keys ++ bb.scl)).1
     let av := (s2.blockVals e e.opA ba).1
     let bv := s2.blockVals e e.opB bb
     let skip := e.op = 1 ∧ bb.bf.isSome = true ∧ bv.2 = true ∧ (Config.isX c = true → e.step % 4 = 0) ∧ ∀ x ∈ av, x.isZero = true
     0 < g.nt → 0 < g.mt →
       (skip → (s.mmaApply c q e ba bb).accGet c acc r k = old) ∧
       (¬ skip → (s.mmaApply c q e ba bb).accGet c acc r k = if Config.isX c = true ∧ r / 8 ≠ e.step % 4 then old else
         dot32 old (((av.drop (32 * r)).take 32).zip ((bv.1.drop (32 * k)).take 32)))) ∧
   (∀ (s : State) (c q n : Nat) (e : ECmd), s.headCmd c q = some e → e.op = 0 → s.matReady c q e = true →
     e.accs[e.step]? = some n → ∃ t, exec (.mzeroStep c q) s = .next t ∧ t.mem = s.mem ∧
       ∀ i, mget (t.core c).acc i 0 = if i / 1024 = n then 0 else mget (s.core c).acc i 0) ∧
   (∀ (s : State) (c q n : Nat) (e : ECmd), s.headCmd c q = some e → e.op = 8 → e.task = none →
     s.matReady c q e = true → e.bounced = false → e.accs[e.step]? = some n →
     let w := e.sa.toNat
     let off := w % 2 ^ 21 + e.step * tileBytes (e.st 7 / 2 ^ 8 % 8) (e.st 8)
     let s1 := s.modHead c q fun e => { e with started := true }
     let tile := s1.drainTile e n (BitVec.ofNat 64 (if bit w 54 then off else w / 2 ^ 21 % 2 ^ 32 * 2 ^ 21 + off))
     (∀ s2 ks, bit w 54 = true → s1.spaceKeys e .own off tile.1.length true true = (s2, .ok ks) →
       ∃ t, exec (.mdrainStep c q) s = .next t ∧ t.mem = memWrites s2.mem (ks.zip tile.1)) ∧
     (bit w 54 = false →
       (2 ^ 21 ≤ off → exec (.mdrainStep c q) s = .next (s1.matFault c q Cause.msgBounce.num (BitVec.ofNat 64 off))) ∧
       (off < 2 ^ 21 →
         (s1.outRoom e.core 4096 = false → exec (.mdrainStep c q) s = .next (s1.matWait e)) ∧
         (∀ s2, s1.outRoom e.core 4096 = true →
           s1.engStore e q (BitVec.ofNat 64 (w / 2 ^ 21 * 2 ^ 21 + off)) tile.1 = .ok s2 →
             exec (.mdrainStep c q) s = .next (s2.drainStep c q e n tile.1.length 0 tile.2))))) ∧
   (∀ (s : State) (c q : Nat) (e : ECmd), s.headCmd c q = some e → e.state = 3 →
     (∃ t, exec (.mctlResume c q) s = .next t ∧ t.headCmd c q = some { e with
       state := 1, cause := 0, retried := false, sent := false, bounced := false } ∧ t.mem = s.mem) ∧
     exec (.mctlAbort c q) s = .next (s.complete c q) ∧
     (s.complete c q).queue c q = (s.queue c q).tail)) ∧
  ((∀ (s : State) (cl : Nat) (b : Bell) (rest), (s.sched cl).bells = b :: rest →
     (s.storesBefore b.core b.seat b.below = true → exec (.tileTaskPost cl) s = .next s) ∧
     (s.storesBefore b.core b.seat b.below = false → exec (.tileTaskPost cl) s = .next ((s.modSched cl fun k => { k with
       bells := rest, posted := mset k.posted b.index (b.slot, b.core) }).taskDec cl b.index b.core))) ∧
   (∀ (s : State) (cl i c k : Nat), s.taskBad cl i = some k → s.taskDec cl i c = s.reportUE c k) ∧
   (∀ (s : State) (cl i c : Nat), s.taskBad cl i = none → let d := s.taskDword cl i 0
     (d % 2 ^ 16 = 0 → s.taskDec cl i c = (s.taskState cl i c 4).taskReport c i 0 0) ∧
     (d % 2 ^ 16 ≠ 0 →
       let t := (s.engWrite c (s.core c).pts ((s.taskKeys cl i 0 8).zip (leBytes 8 (d - 1)))).1
       s.taskDec cl i c = if d % 2 ^ 16 = 1 ∧ d / 2 ^ 16 % 8 = 1 then t.modSched cl fun k => { k with ready := k.ready ++ [i] }
         else t)) ∧
   (∀ (s : State) (cl i x : Nat) (rest),
     let ctl := (s.eregUnit cl 0 0x181).toNat
     let poster := (mget (s.sched cl).posted i (0, Config.tileOf cl 0)).2
     let accs := (s.taskCmd cl i poster).accs
     let may := fun y => let c := Config.tileOf cl y
       bit ctl (16 + y) && (s.queue c 3).isEmpty && !s.claimed c 3 accs && !((s.groupOf c).isSome && accs.any (6 ≤ ·))
     (s.sched cl).ready = i :: rest → bit ctl 4 = true → s.taskBad cl i = none → s.taskDword cl i 0 / 2 ^ 19 % 8 < 4 →
     x < 16 → may x = true → (∀ y, y < x → may y = false) →
       let c := Config.tileOf cl x
       exec (.tileTaskIssue cl) s = .next
         (((((s.modSched cl fun k => { k with ready := rest }).taskState cl i poster 2).modQueue c 3
           (· ++ [s.taskCmd cl i c])).modCore c fun k => { k with ids := k.ids + 1 }))))

/-- The copy engine (R320-R326): at its start a command reads the formats of its ends and makes the checks left for then; a
step moves the next bytes of a cpy or writes those of a cfill, at once or by a remote store, or converts the next elements; a
step sent to another core is performed once it has been acknowledged, and faults MSG_BOUNCE when it has been refused; after
its last step a command sends its wake and completes when it has been delivered. A faulted head is resumed, or removed as
completed. When a step to another core ends is the model's reading (log 36), and so is that the formats are taken at the
start (log 65). -/
def Obligations.CopyEvents : Prop :=
  (∀ (s : State) (c ch : Nat) (e : ECmd), Runs s c (16 + ch) e → e.aux = .none →
    let fa := s.copyFmt c e.sa.toNat
    let fb := s.copyFmt c e.sb.toNat
    let held := fun (w : Word) f => w.toNat / 2 ^ 62 = 0 ∧
      s.spanReserved e.place c (copyBase w.toNat) (elemBytes (Narrow.of (f % 2 ^ 32)) (e.cn 0)) = true
    (s.converts e = false → (e.deferred = true → s.copySrcBad e.place e = false ∧ s.copyDstBad e.place e = false) →
      ∃ t, exec (.copyStep c ch) s = .next t ∧ t.mem = s.mem ∧
        t.headCmd c (16 + ch) = some { e with started := true, aux := .copy 0 0 0 none }) ∧
    (s.converts e = true → convBad e fa fb = false → ¬ held e.sa fa → ¬ held e.sb fb →
      ∃ t, exec (.copyStep c ch) s = .next t ∧ t.mem = s.mem ∧ t.headCmd c (16 + ch) =
        some { e with started := true, aux := .copy 0 0 0 (some (BitVec.ofNat 64 fa, BitVec.ofNat 64 fb)) }) ∧
    (s.converts e = true ∧ (convBad e fa fb = true ∨ held e.sa fa ∨ held e.sb fb) ∨ s.converts e = false ∧
        e.deferred = true ∧ (s.copySrcBad e.place e = true ∨ s.copyDstBad e.place e = true) →
      exec (.copyStep c ch) s = .next (s.engFault c (16 + ch) Cause.copyFault.num
        (BitVec.ofNat 64 (copyBase e.sb.toNat))))) ∧
  (∀ (s s1 s2 : State) (c ch done : Nat) (e : ECmd) (ks kd : List Nat),
    let n := e.stepLen done
    let r := s1.engRead c (max e.pts e.ts) ks
    Runs s c (16 + ch) e → s.engOut c (16 + ch) = false → e.bounced = false → e.aux = .copy done 0 0 none →
    done < e.copyTotal → e.op = 0 → copySpace e.sa.toNat = .own → copySpace e.sb.toNat = .own →
    s.spaceKeys e .own (e.srcPos done).toNat n false false = (s1, .ok ks) → s1.badSec ks = none →
    r.1.spaceKeys e .own (e.dstPos done) r.2.1.length true false = (s2, .ok kd) →
      ∃ t e', exec (.copyStep c ch) s = .next t ∧ t.mem = memWrites s.mem (kd.zip (memReads s.mem ks)) ∧
        t.headCmd c (16 + ch) = some e' ∧ e'.aux = .copy (done + n) 0 0 none) ∧
  (∀ (s s1 s2 : State) (c ch done : Nat) (e : ECmd) (ks : List Nat),
    let n := e.stepLen done
    let r := s1.engRead c (max e.pts e.ts) ks
    Runs s c (16 + ch) e → s.engOut c (16 + ch) = false → e.bounced = false → e.aux = .copy done 0 0 none →
    done < e.copyTotal → e.op = 0 → s.spaceKeys e (copySpace e.sa.toNat) (e.srcPos done).toNat n false false = (s1, .ok ks) →
    s1.badSec ks = none →
      (∀ d, copySpace e.sb.toNat = .tile d →
        r.1.engStore e (16 + ch) (copyRst e.sb.toNat (e.dstPos done)) r.2.1 = .ok s2 →
          exec (.copyStep c ch) s = .next (s2.modHead c (16 + ch) fun e => { e with
            ts := max e.ts r.2.2, aux := match e.aux with | .copy d _ _ f => .copy d n 0 f | a => a })) ∧
      (∀ g kd, copySpace e.sb.toNat = .glob g →
        r.1.spaceKeys e (.glob g) (e.dstPos done) r.2.1.length true false = (s2, .ok kd) → (∀ k ∈ kd, isExt k = false) →
          ∃ t e', exec (.copyStep c ch) s = .next t ∧ t.mem = memWrites s2.mem (kd.zip r.2.1) ∧
            t.headCmd c (16 + ch) = some e' ∧ e'.aux = .copy (done + n) 0 0 none)) ∧
  (∀ (s s1 : State) (c ch done : Nat) (e : ECmd) (kd : List Nat),
    let n := e.stepLen done
    let bytes := (List.range n).map fun j => BitVec.ofNat 8 (e.sa.toNat / 2 ^ (8 * ((e.dstPos done + j) % 8)))
    Runs s c (16 + ch) e → s.engOut c (16 + ch) = false → e.bounced = false → e.aux = .copy done 0 0 none →
    done < e.copyTotal → e.op = 1 →
      (copySpace e.sb.toNat = .own → s.spaceKeys e .own (e.dstPos done) n true false = (s1, .ok kd) →
        ∃ t e', exec (.copyStep c ch) s = .next t ∧ t.mem = memWrites s.mem (kd.zip bytes) ∧
          t.headCmd c (16 + ch) = some e' ∧ e'.aux = .copy (done + n) 0 0 none) ∧
      (∀ d, copySpace e.sb.toNat = .tile d →
        s.engStore e (16 + ch) (copyRst e.sb.toNat (e.dstPos done)) bytes = .ok s1 →
        exec (.copyStep c ch) s = .next (s1.modHead c (16 + ch) fun e => { e with
          ts := max e.ts 0, aux := match e.aux with | .copy d _ _ f => .copy d n 0 f | a => a }))) ∧
  (∀ (s : State) (c ch done sent : Nat) (note : BitVec 32) (e : ECmd) conv, Runs s c (16 + ch) e →
    e.aux = .copy done sent note conv →
      (s.engOut c (16 + ch) = true → exec (.copyStep c ch) s = .next (s.engCount c 1 0x11d 1)) ∧
      (s.engOut c (16 + ch) = false → e.bounced = true → exec (.copyStep c ch) s =
        .next ((s.modHead c (16 + ch) fun e => { e with aux := .copy done 0 0 conv }).engFault c (16 + ch)
          Cause.msgBounce.num (BitVec.ofNat 64 (e.posAfter done)))) ∧
      (s.engOut c (16 + ch) = false → e.bounced = false →
        (sent ≠ 0 → exec (.copyStep c ch) s = .next (s.copyAdvance c ch e sent (match conv with
          | some (_, fb) => sent * (Narrow.of (fb.toNat % 2 ^ 32)).cont / 8
          | none => sent) 0 note)) ∧
        (∀ fa fb, sent = 0 → done < e.copyAll → conv = some (fa, fb) →
          exec (.copyStep c ch) s = .next (s.copyConv c ch e fa.toNat fb.toNat)) ∧
        (sent = 0 → e.copyAll ≤ done → s.wakeOut c (16 + ch) = false →
          (e.woke = true → exec (.copyStep c ch) s = .next (s.copyComplete c ch)) ∧
          (e.woke = false → (mget e.stg 7 0).getLsbD 63 = false → exec (.copyStep c ch) s =
            .next ((s.modHead c (16 + ch) fun e => { e with woke := true }).copyComplete c ch)) ∧
          (∀ s2, e.woke = false → s.engWake e (16 + ch) (BitVec.ofNat 64 (e.st 7)) (BitVec.ofNat 64 (e.st 8)) = some s2 →
            let t := s2.modHead c (16 + ch) fun e => { e with woke := true }
            exec (.copyStep c ch) s = .next (if t.wakeOut c (16 + ch) then t else t.copyComplete c ch)) ∧
          (e.woke = false → s.engWake e (16 + ch) (BitVec.ofNat 64 (e.st 7)) (BitVec.ofNat 64 (e.st 8)) = none →
            exec (.copyStep c ch) s = .next (s.engCount c 1 0x11d 1))))) ∧
  (∀ (s : State) (e : ECmd) (key d : Nat) (w v : Word) vd, w.getLsbD 63 = true →
    s.sendTo e.core (w &&& 0x7fff_ffff_ffff_ffff) v = .mail d vd →
      s.engWake e key w v = if s.outRoom e.core 32 then some (s.engPost e d vd (wakeTag key e.num)
        (.mail (w.toNat / 2 ^ 32 % 8) (w.toNat / 2 ^ 35 % 32) v)) else none) ∧
  (∀ (s : State) (c ch : Nat) (e : ECmd), s.headCmd c (16 + ch) = some e → e.state = 3 →
    (∃ t, exec (.ccmdResume c ch) s = .next t ∧ t.headCmd c (16 + ch) = some { e with
      state := 1, cause := 0, retried := false, sent := false, bounced := false } ∧ t.mem = s.mem) ∧
    (∃ t, exec (.ccmdAbort c ch) s = .next t ∧ t = s.copyComplete c ch ∧
      t.queue c (16 + ch) = (s.queue c (16 + ch)).tail ∧ t.mem = s.mem))

/-- The sampler (R344-R354): the barrier is checked every 16 clk and reads the mask header first and the deadline second; a
scan step keeps the better of its tokens; a gather merges the children's winners, once each, and ends when all have come; the
result goes to its destination and a winner to the parent slice; sdraw writes 32 draws a step; a faulted head starts over, or
is removed, a slice other than 0 after a last message to its parent. That an aborted slice's command stays until that message
is delivered, and that of several matching winners the first is used, is the model's reading (log 38). -/
def Obligations.SamplerEvents : Prop :=
  (∀ (s s1 s2 : State) (c q : Nat) (e : ECmd) (p : Samp) ks,
    s.sampHead c q = some (s1, e, p) → p.phase = 0 → (∀ k, p.since = some k → k + 16 ≤ s1.clk) →
    s1.spaceKeys e .own (e.st 2 % 2 ^ 32) 16 false false = (s2, .ok ks) → s2.badSec ks = none →
    let r := s2.engRead c e.pts ks
    let h := leNat r.2.1
    let goes := fun (p' : Samp) => State.sampSet ((r.1.sampWait c q p false).sampEnergy e false) c (32 + q) r.2.2
      (.samp { p' with since := none })
    let ours := h % 2 ^ 32 = e.sa.toNat % 2 ^ 32 ∧ h / 2 ^ 32 % 2 ^ 32 = e.sb.toNat % 2 ^ 32
    let count := h / 2 ^ 64 % 2 ^ 32
    (ours → count = 0 → exec (.samplerBarrierCheck c q) s = .next (goes { p with phase := e.scans + 1, none_ := true })) ∧
    (ours → count = 1 → exec (.samplerBarrierCheck c q) s = .next (goes { p with
      phase := e.scans + 1, forced := true, ftok := BitVec.ofNat 32 (h / 2 ^ 96 % 2 ^ 32) })) ∧
    (ours → 2 ≤ count → exec (.samplerBarrierCheck c q) s = .next (goes { p with phase := 1 })) ∧
    (¬ ours → e.st 6 ≠ 0 → e.st 6 ≤ r.1.dtime → exec (.samplerBarrierCheck c q) s = .next
      (goes { p with phase := e.scans + 1, late := true })) ∧
    (¬ ours → e.st 6 = 0 ∨ r.1.dtime < e.st 6 → exec (.samplerBarrierCheck c q) s = .next (r.1.sampWait c q p true))) ∧
  (∀ (s s1 s2 s3 : State) (c q : Nat) (e : ECmd) (p : Samp) lk mk,
    let i0 := 512 * (p.phase - 1)
    let n := min 512 (e.vlen - i0)
    s.sampHead c q = some (s1, e, p) → p.phase ≠ 0 → p.phase ≤ e.scans →
    s1.spaceKeys e .own (e.st 1 % 2 ^ 32 + i0 * e.lsize) (n * e.lsize) false false = (s2, .ok lk) →
    s1.spaceKeys e .own (e.st 2 % 2 ^ 32 + 16 + i0 / 8) (if e.masked then 64 else 0) false false = (s3, .ok mk) →
    s1.badSec (lk ++ mk) = none →
      let bs := memReads s1.mem lk
      let ms := memReads s1.mem mk
      let allowed := fun i => !e.masked || (ms.getD (i / 8) 0).getLsbD (i % 8)
      let best := (List.range n).foldl (fun a i => if allowed i then better a
        ((score e (e.vbase + i0 + i) (logit e ((bs.drop (i * e.lsize)).take e.lsize))).map fun x => (e.vbase + i0 + i, x))
        else a) p.win
      ∃ t e', exec (.samplerScanStep c q) s = .next t ∧ t.headCmd c (32 + q) = some e' ∧
        e'.aux = .samp { p with phase := p.phase + 1, win := best } ∧ t.mem = s1.mem) ∧
  (∀ (s s1 : State) (c q : Nat) (e : ECmd) (p : Samp),
    s.sampHead c q = some (s1, e, p) → p.phase = e.scans + 1 →
    let mine := (s1.core c).winners.filter fun m => m.tags e
    mine = [] ∨ (s1.core c).winUe = 0 →
    let sorted := (s1.core c).winners.foldl (fun (a : List Winner × List Winner) m =>
      if m.tags e = false then (a.1, a.2 ++ [m]) else if m.k ∉ e.children then a
      else if ∃ w ∈ a.1, w.k = m.k then (a.1, a.2 ++ [m]) else (a.1 ++ [m], a.2)) (p.got, [])
    let got := sorted.1
    let t := s1.modCore c fun k => { k with winners := sorted.2 }
    ((∀ k ∈ e.children, ∃ w ∈ got, w.k = k) → exec (.samplerGather c q) s = .next
      (State.sampSet ((t.sampWait c q { p with got := got } false).sampEnergy e false) c (32 + q) 0 (.samp { p with
        got := got, phase := p.phase + 1, since := none
        win := got.foldl (fun a m => better a m.win) p.win, late := p.late || got.any (·.late) }))) ∧
    (¬ (∀ k ∈ e.children, ∃ w ∈ got, w.k = k) → exec (.samplerGather c q) s = .next
      (t.sampWait c q { p with got := got } true))) ∧
  (∀ (s s1 : State) (c q : Nat) (e : ECmd) (p : Samp),
    s.sampHead c q = some (s1, e, p) → s1.engOut c (32 + q) = false → e.bounced = false →
    (p.phase = e.scans + 2 → e.slice = 0 → exec (.samplerDeliver c q) s = .next (s1.sampResult c q e p)) ∧
    (∀ s2, p.phase = e.scans + 2 → e.slice ≠ 0 →
      s1.sendWinner e q ⟨e.sa.setWidth 32, e.sb.setWidth 32, e.slice, p.win, p.late, p.forced⟩ = .ok s2 →
      ∀ e', (s2.sampGone c q e 0 p).headCmd c (32 + q) = some e' →
        exec (.samplerDeliver c q) s = .next ((s2.sampGone c q e 0 p).sampEnd c q e')) ∧
    (p.phase = e.scans + 3 → exec (.samplerDeliver c q) s = .next (s1.sampEnd c q e))) ∧
  (∀ (s s1 s2 : State) (c q : Nat) (e : ECmd) (p : Samp) ks,
    let r := resultOf e p.win p.late p.forced p.ftok
    s.sampHead c q = some (s1, e, p) → s1.engOut c (32 + q) = false → e.bounced = false →
    p.phase = e.scans + 2 → e.slice = 0 → (mget e.stg 7 0).getLsbD 54 = true →
    s1.spaceKeys e .own (e.st 7 % 2 ^ 21) 16 true false = (s2, .ok ks) →
      ∃ t, exec (.samplerDeliver c q) s = .next t ∧ t.mem = memWrites s1.mem (ks.zip (leBytes 4 r.1 ++
        leBytes 4 r.2.1 ++ leBytes 4 e.sb.toNat ++ leBytes 2 r.2.2 ++ leBytes 2 e.sa.toNat))) ∧
  (∀ (s s1 : State) (c q : Nat) (e : ECmd) ks, Runs s c (32 + q) e → e.op = 1 →
    let i0 := 32 * e.step
    let m := min 32 (e.st 0xa / 2 ^ 32 % 2 ^ 16 + 1 - i0)
    let bytes := (List.range m).flatMap fun i => leBytes 8
      (draw (mget e.stg 5 0) e.sa e.sb (e.st 0xb % 2 ^ 32) ((e.st 0xb / 2 ^ 32 % 2 ^ 32 + i0 + i) % 2 ^ 32)).toNat
    s.spaceKeys e .own (e.st 0xa % 2 ^ 32 + 8 * i0) (8 * m) true false = (s1, .ok ks) →
      ∃ t, exec (.sdrawStep c q) s = .next t ∧ t.mem = memWrites s1.mem (ks.zip bytes)) ∧
  (∀ (s : State) (c q : Nat) (e : ECmd), s.headCmd c (32 + q) = some e → e.state = 3 →
    (∃ t, exec (.sctlResume c q) s = .next t ∧ t.headCmd c (32 + q) = some { e with
      state := 1, cause := 0, retried := false, started := false, step := 0, sent := false, bounced := false } ∧
      t.mem = s.mem) ∧
    (e.op ≠ 0 ∨ e.slice = 0 → exec (.sctlAbort c q) s = .next (s.complete c (32 + q))) ∧
    (e.op = 0 → e.slice ≠ 0 → ∃ t, exec (.sctlAbort c q) s = .next t ∧ t.mem = s.mem ∧ t.headCmd c (32 + q) =
      some { e with state := 1, cause := 0, started := true, aux := .samp { e.sampStart with
        phase := e.scans + 2, late := true, none_ := true, aborted := true } }))

/-- The grammar engine (R358-R364): gstep takes an allowed token through its transition, refuses one that is not allowed by
setting the record's REJECTED flag, leaves a rejected record, and faults STACK_OVERFLOW, with the OVERFLOW flag set, where the
stack is full; a gmask reads its record first, takes a summary from the cache or sums up, then writes the units that its
destination asks for, and its header last; it waits while a store of it is on its way, and goes on once it has been written.
gflush empties the cluster's cache of a grammar, or of all. A faulted head is resumed or removed. That a mask waits at each
step for its remote store, and takes the step again after a bounce, is the model's reading (log 36). -/
def Obligations.GrammarEvents : Prop :=
  (∀ (s s1 s2 s3 : State) (c q t0 t1 t2 : Nat) (e : ECmd) (m : Image) (r bs : List Byte), Runs s c (48 + q) e → e.op = 0 →
    let s0 := s.modHead c (48 + q) fun e => { e with started := true }
    let e0 := { e with started := true }
    let rk := s0.recKeys e0
    s0.badSec rk = none → s0.engRead c e.pts rk = (s1, r, t0) →
      (bit (recByte r 3) 0 = true → ∃ t, exec (.gstepApply c q) s = .next t ∧ t.mem = s.mem ∧
        t.queue c (48 + q) = (s.queue c (48 + q)).tail) ∧
      (bit (recByte r 3) 0 = false → s1.gvalid (Config.clusterOf c) (recGid r) = true → recDepth r ≤ 8 →
       s1.image c e.id t0 (recGid r) = (s2, .ok m t1) → recState r ≤ m.nsm1 →
       s2.dramRead c e.id t1 (s2.lookKeys m (recState r) e.sb.toNat) = (s3, .ok bs t2) →
        let wrote := fun r' t => exec (.gstepApply c q) s = .next t ∧ t.mem = memWrites s3.mem (rk.zip r')
        let rejected := ∃ t, wrote (r.set 3 (BitVec.ofNat 8 (recByte r 3 ||| 1))) t ∧
          t.queue c (48 + q) = (s.queue c (48 + q)).tail
        (s3.look m (recState r) e.sb.toNat = .none → rejected) ∧
        (∀ ent, s3.look m (recState r) e.sb.toNat = .entry ent →
          (entAllowed (recTop r) ent = false → rejected) ∧
          (entAllowed (recTop r) ent = true → ent % 2 ^ 8 ≤ m.nsm1 →
            (¬ (ent / 2 ^ 8 % 4 = 1 ∧ recDepth r = 8) →
              ∃ t, wrote (recStep r ent) t ∧ t.queue c (48 + q) = (s.queue c (48 + q)).tail) ∧
            (ent / 2 ^ 8 % 4 = 1 → recDepth r = 8 →
              ∃ t e', wrote (r.set 3 (BitVec.ofNat 8 (recByte r 3 ||| 2))) t ∧ t.headCmd c (48 + q) = some e' ∧
                e'.state = 3 ∧ e'.cause = Cause.stackOverflow.num ∧ e'.faddr = e.sa))))) ∧
  (∀ (s s1 s2 : State) (c q t0 t1 : Nat) (e : ECmd) (m : Image) (r : List Byte), Runs s c (48 + q) e → e.op = 1 →
    e.aux = .none →
    let s0 := s.modHead c (48 + q) fun e => { e with started := true }
    let e0 := { e with started := true }
    let rk := s0.recKeys e0
    s0.badSec rk = none → s0.engRead c e.pts rk = (s1, r, t0) → s1.image c e.id t0 (recGid r) = (s2, .ok m t1) →
    e.st 0 % 2 ^ 9 + e.st 0 / 2 ^ 16 % 2 ^ 9 ≤ m.num1 → s2.gvalid (Config.clusterOf c) (recGid r) = true →
    recState r ≤ m.nsm1 → recDepth r ≤ 8 →
      let set := fun a => ∃ t e', exec (.gmaskStep c q) s = .next t ∧ t.mem = s2.mem ∧ t.headCmd c (48 + q) = some e' ∧ e'.aux = a
      (bit (recByte r 3) 0 = true → set (.gmask r 0 0 0xffff_ffff true 0)) ∧
      (bit (recByte r 3) 0 = false → s2.gcacheGet (Config.clusterOf c) r none = none →
        set (.gmask r 0 0 0xffff_ffff false 0)) ∧
      (∀ g, bit (recByte r 3) 0 = false → s2.gcacheGet (Config.clusterOf c) r none = some g →
        set (.gmask r 0 g.count g.ftok true 0))) ∧
  (∀ (s : State) (c q : Nat) (e : ECmd) r scan cnt ftok known units, Runs s c (48 + q) e → e.op = 1 →
    e.aux = .gmask r scan cnt ftok known units →
    let s0 := s.modHead c (48 + q) fun e => { e with started := true }
    let e0 := { e with started := true }
    let n := e.st 0 / 2 ^ 16 % 2 ^ 9 + 1
    let goes := fun a => ∃ t e', exec (.gmaskStep c q) s = .next t ∧ t.mem = s.mem ∧ t.headCmd c (48 + q) = some e' ∧ e'.aux = a
    (s0.engOut c (48 + q) = true → exec (.gmaskStep c q) s = .next s0) ∧
    (s0.engOut c (48 + q) = false →
      (e.bounced = true → exec (.gmaskStep c q) s = .next (s0.gramFault c q .msgBounce e0)) ∧
      (e.bounced = false → e.sent = true → goes (.gmask r scan cnt ftok known (units + 1))) ∧
      (e.bounced = false → e.sent = false → known = false →
        exec (.gmaskStep c q) s = .next (s0.gmaskSum c q e0 r scan cnt ftok)) ∧
      (e.bounced = false → e.sent = false → known = true → n < units → s0.wakeOut c (48 + q) = false →
        (e.woke = true → exec (.gmaskStep c q) s = .next (s0.complete c (48 + q))) ∧
        (e.woke = false → (mget e.stg 1 0).getLsbD 63 = false → exec (.gmaskStep c q) s =
          .next ((s0.modHead c (48 + q) fun e => { e with woke := true }).complete c (48 + q)))))) ∧
  (∀ (s s1 : State) (c q : Nat) (e : ECmd) r scan cnt ftok units ks, Runs s c (48 + q) e → e.op = 1 →
    e.aux = .gmask r scan cnt ftok true units → e.bounced = false → e.sent = false → e.sb.getLsbD 54 = true →
    let s0 := s.modHead c (48 + q) fun e => { e with started := true }
    let e0 := { e with started := true }
    let n := e.st 0 / 2 ^ 16 % 2 ^ 9 + 1
    let head := (r.drop 4).take 4 ++ leBytes 4 (recPos r) ++ leBytes 4 cnt ++ leBytes 4 ftok.toNat
    let wrote := fun bs => ∃ t, exec (.gmaskStep c q) s = .next t ∧ t.mem = memWrites s.mem (ks.zip bs)
    s0.engOut c (48 + q) = false →
      (units < n → s0.spaceKeys e0 .own (e.sb.toNat % 2 ^ 21 + (16 + 64 * units)) 64 true false = (s1, .ok ks) →
        (bit (recByte r 3) 0 = true → wrote (leBytes 64 0)) ∧
        (∀ g, bit (recByte r 3) 0 = false → s0.gcacheGet (Config.clusterOf c) r (some (e.st 0 % 2 ^ 9 + units)) = some g →
          wrote (leBytes 64 g.bits.toNat))) ∧
      (∀ m s2 s3 s4 kd bs t1 t2 b, let u := e.st 0 % 2 ^ 9 + units
        units < n → bit (recByte r 3) 0 = false → s0.gcacheGet (Config.clusterOf c) r (some u) = none →
        s0.image c e.id e.pts (recGid r) = (s2, .ok m t1) →
        s2.dramRead c e.id t1 (s2.unitKeys m (recState r) u) = (s3, .ok bs t2) →
        s3.unitMask m (recState r) (recTop r) u = some b →
        s3.spaceKeys e0 .own (e.sb.toNat % 2 ^ 21 + (16 + 64 * units)) 64 true false = (s4, .ok kd) →
          ∃ t, exec (.gmaskStep c q) s = .next t ∧ t.mem = memWrites s3.mem (kd.zip (leBytes 64 b.toNat))) ∧
      (units = n → s0.spaceKeys e0 .own (e.sb.toNat % 2 ^ 21 + 0) head.length true false = (s1, .ok ks) → wrote head)) ∧
  (∀ (s : State) (m : Image) (q top u i : Nat) (b : BitVec 512), i < 512 → s.unitMask m q top u = some b →
    b.getLsbD i = match s.look m q (512 * u + i) with | .entry ent => entAllowed top ent | _ => false) ∧
  (∀ (s : State) (c q : Nat) (e : ECmd), Runs s c (48 + q) e → e.op = 2 → ∃ t, exec (.gflushApply c q) s = .next t ∧
    t.gcacheOf (Config.clusterOf c) = (s.gcacheOf (Config.clusterOf c)).filter (fun x =>
      !(e.sa.getLsbD 4 || x.gid == e.sa.toNat % 16)) ∧ t.queue c (48 + q) = (s.queue c (48 + q)).tail ∧ t.mem = s.mem) ∧
  (∀ (s : State) (c q : Nat) (e : ECmd), s.headCmd c (48 + q) = some e → e.state = 3 →
    (∃ t, exec (.gctlResume c q) s = .next t ∧ t.headCmd c (48 + q) = some { e with
      state := 1, cause := 0, retried := false, sent := false, bounced := false } ∧ t.mem = s.mem) ∧
    (∃ t, exec (.gctlAbort c q) s = .next t ∧ t.queue c (48 + q) = (s.queue c (48 + q)).tail ∧ t.mem = s.mem))

/-- The stream engine (R366-R372): an event is held on arrival, and sopen acts at once; an event is applied in the order of
its stamp, once it is old enough, with its counters and its marks in the record; a frame that comes late, that truncates or
that does neither posts its notice, a truncation giving up what was generated past the playback. The Caddy (R327-R335): cpost
claims and fills the staging buffer, ends it with zeros and publishes it when it says so, CXREPL counting a version that it
replaces; cpubl publishes a filled one, CXNOPUB counting one that finds none; CXDROP counts commands whose mailbox does not
admit them; a flip makes a published buffer the current one, cread delivers the version it sampled, and a description defines
a mailbox unless it would overlap another. A command to the other die waits while the link is lost (log 75: the model's
choice). -/
def Obligations.StreamCaddyEvents : Prop :=
  ((∀ (s : State) (c q : Nat) (e : ECmd), Runs s c (64 + q) e → e.woke = false → e.aux ≠ .held → e.op ≠ 3 →
     s.linkUp = true ∨ q / 4 = Config.dieOf c → (s.held (q / 4)).length < 64 → ∃ t, exec (.streamEventArrival c q) s = .next t ∧
       t.held (q / 4) = s.held (q / 4) ++ [⟨e.sa.toNat % 2 ^ 8, e.sa.toNat / 2 ^ 32, e.op, e.sa.getLsbD 9, e.sb, s.clk, c,
         64 + q, e.id⟩] ∧ t.headCmd c (64 + q) = some { e with started := true, aux := .held }) ∧
   (∀ (s : State) (c q : Nat) (e : ECmd), Runs s c (64 + q) e → e.woke = false → e.aux ≠ .held → e.op = 3 →
     s.linkUp = true ∨ q / 4 = Config.dieOf c → exec (.streamEventArrival c q) s = .next (s.sxOpen (q / 4) e (64 + q))) ∧
   (∀ (s s1 : State) (die k t0 : Nat) (ev : SEvent) (e : ECmd) (bs : List Byte),
     let rk := keysFrom (s.sxKey die ev.stream 0) 128
     let info := s.sxDword die ev.stream 24
     (s.held die)[k]? = some ev → s.headCmd ev.core ev.queue = some e → s.sxReady die k ev = true →
     s.engStopped ev.core ev.queue = false → s.dramRead ev.core e.id e.pts rk = (s1, .ok bs t0) →
       (info.testBit 2 = false ∨ s.sxEffect die ev = none →
         exec (.streamEventApply die k) s = .next (((sevDrop s1 die k).sxCount die 0x106).sxDone ev)) ∧
       (∀ f s2 bs2 t1, info.testBit 2 = true → s.sxEffect die ev = some f →
         f.notice = none ∨ (s.sxDword die ev.stream 32).testBit 63 = false →
         let cells := f.cells ++ cellsAt (s.sxKey die ev.stream 20) (leBytes 4 ev.stamp) ++
           cellsAt (s.sxKey die ev.stream 24) (leBytes 1 (info % 256 / 4 * 4 + ev.cls))
         (∀ x ∈ s2.redirected cells, isExt x.1 = false) → s.sxBlocked ev.core e.id cells = none → s1.dramRead ev.core e.id t0 f.reads = (s2, .ok bs2 t1) → s2.ue = [] →
         ∃ t, exec (.streamEventApply die k) s = .next t ∧ t.mem = memWrites s2.mem (s2.redirected cells) ∧
           t.held die = dropAt (s2.held die) k)) ∧
   (∀ (s : State) (die : Nat) (ev : SEvent), ev.cls = 0 →
     let st := ev.stream
     let g := s.sxDword die st 0
     let p := s.sxDword die st 8
     let nb := s.sxDword die st 40
     let tail := s.sxDword die st 48
     let notice := fun kind cause dropped snap => cellsAt (nb / 2 ^ 6 % 2 ^ 42 * 64 + 32 * (tail % 2 ^ (nb % 32)))
       (leBytes 8 (kind + cause * 16 + ev.stamp * 2 ^ 32) ++ leBytes 8 ev.val.toNat ++ leBytes 8 p ++
         leBytes 8 (dropped + snap * 2 ^ 32)) ++ cellsAt (s.sxKey die st 48) (leBytes 8 (tail + 1))
     (ev.stamp < s.sxDword die st 16 % 2 ^ 32 →
       s.sxEffect die ev = some ⟨notice 3 Cause.lateFrame.num 0 0, [], [0x104], some tail⟩) ∧
     (s.sxDword die st 16 % 2 ^ 32 ≤ ev.stamp →
       (ev.trunc = false → s.sxEffect die ev = some ⟨notice 1 0 0 0, [], [], some tail⟩) ∧
       (ev.trunc = true → ∃ f snap cells, s.sxEffect die ev = some f ∧ f.counts = [0x105] ∧ f.notice = some tail ∧
         f.cells = cells ++ cellsAt (s.sxKey die st 0) (leBytes 8 p) ++ notice 2 0 ((g - p) % 2 ^ 32) snap)))) ∧
  ((∀ (s : State) (c q : Nat) (e : ECmd), Runs s c (80 + q) e → s.boxFar c e = true →
     (e.op = 0 → exec (.cpostStep c q) s = .next s) ∧ (e.op = 1 → exec (.cpublApply c q) s = .next s) ∧
     (e.op = 2 → exec (.creadStep c q) s = .next s)) ∧
   (∀ (s : State) (c q : Nat) (e : ECmd), Runs s c (80 + q) e → s.boxFar c e = false → e.op = 0 → e.aux = .none →
     let die := boxDie e.sa
     let mb := boxIdx e.sa
     let m := s.box die mb
     let s1 := s.caddyFlip die mb
     let m1 := s1.box die mb
     (m.valid = false ∨ m.admits c = false →
       exec (.cpostStep c q) s = .next ((s.caddyCount die 0x10b).caddyDone c (80 + q) die e)) ∧
     (m.valid = true → m.admits c = true → m1.stage ≠ 1 → ∃ t e', exec (.cpostStep c q) s = .next t ∧
       t.headCmd c (80 + q) = some e' ∧ e'.aux = .cpost 0 (m1.gen + 1) ∧ (t.box die mb).stage = 1 ∧
       (t.box die mb).owner = some (c, 80 + q) ∧ (2 ≤ m1.stage →
         t.eregUnit (unitDie die) 5 0x109 = s1.eregUnit (unitDie die) 5 0x109 + 1))) ∧
   (∀ (s s1 : State) (c q done gen : Nat) (e : ECmd) ks,
     let die := boxDie e.sa
     let m := s.box die (boxIdx e.sa)
     let count := min (boxLen e.sa) m.bytes
     let n := min 256 (count - done)
     Runs s c (80 + q) e → s.boxFar c e = false → e.op = 0 → e.aux = .cpost done gen → s.flipped m = false →
     s.spaceKeys e .own (e.sb.toNat + done) n false false = (s1, .ok ks) → s1.badSec ks = none → s1.ue = [] →
     ∃ t, exec (.cpostStep c q) s = .next t ∧
       (done + n < count → t.mem = memWrites s1.mem (cellsAt (m.key die m.stg done) (memReads s1.mem ks))) ∧
       (count ≤ done + n → t.mem = memWrites s1.mem (cellsAt (m.key die m.stg done)
         (memReads s1.mem ks ++ List.replicate (m.bytes - count) 0)))) ∧
   (∀ (s : State) (c key die mb count : Nat) (e : ECmd), let m := s.box die mb
     let t := (s.cpostEnd c key die mb e count).box die mb
     let free := (List.range 5).find? fun b => b != m.stg && !s.boxHeld m b
     (e.sa.getLsbD 31 = false ∨ s.clk < m.flipClk →
       t.stage = (if e.sa.getLsbD 31 then 3 else 2) ∧ t.svlen = count ∧ t.owner = none ∧ t.cur = m.cur) ∧
     (∀ b, e.sa.getLsbD 31 = true → m.flipClk ≤ s.clk → free = some b →
       t.stage = 0 ∧ t.cur = m.stg ∧ t.stg = b ∧ t.vlen = count ∧ t.stamp = BitVec.ofNat 64 s.dtime)) ∧
   (∀ (s : State) (c q : Nat) (e : ECmd), Runs s c (80 + q) e → s.boxFar c e = false → e.op = 1 →
     let die := boxDie e.sa
     let m := s.box die (boxIdx e.sa)
     let stamp := if e.sb = 0 then BitVec.ofNat 64 s.dtime else e.sb
     (m.valid = false ∨ m.admits c = false →
       exec (.cpublApply c q) s = .next ((s.caddyCount die 0x10b).caddyDone c (80 + q) die e)) ∧
     (m.valid = true → m.admits c = true → m.stage ≠ 2 →
       exec (.cpublApply c q) s = .next ((s.caddyCount die 0x10a).caddyDone c (80 + q) die e)) ∧
     (m.valid = true → m.admits c = true → m.stage = 2 →
       (s.clk < m.flipClk → ∃ t, exec (.cpublApply c q) s = .next t ∧
         (t.box die (boxIdx e.sa)).stage = 3 ∧ (t.box die (boxIdx e.sa)).sstamp = stamp) ∧
       (∀ b, m.flipClk ≤ s.clk → (List.range 5).find? (fun b => b != m.stg && !s.boxHeld m b) = some b →
         ∃ t, exec (.cpublApply c q) s = .next t ∧ (t.box die (boxIdx e.sa)).stage = 0 ∧
           (t.box die (boxIdx e.sa)).cur = m.stg ∧ (t.box die (boxIdx e.sa)).stamp = stamp))) ∧
   (∀ (s : State) (die mb b : Nat), let m := s.box die mb
     m.stage = 3 → m.flipClk ≤ s.clk → (List.range 5).find? (fun b => b != m.stg && !s.boxHeld m b) = some b →
       ∃ t, exec (.caddyFlip die mb) s = .next t ∧ let n := t.box die mb
         n.cur = m.stg ∧ n.stg = b ∧ n.version = (m.version + 1) % 2 ^ 32 ∧ n.stamp = m.sstamp ∧ n.vlen = m.svlen ∧
         n.stage = 0 ∧ n.flipClk = s.clk + 16 ∧ n.was = m.current ∧ t.mem = s.mem) ∧
   (∀ (s s1 : State) (c q : Nat) (e : ECmd) stamp version vlen flags bytes ks, Runs s c (80 + q) e → s.boxFar c e = false → e.op = 2 →
     (e.aux = .none → exec (.creadStep c q) s = .next (s.creadStart c (80 + q) e)) ∧
     (e.aux = .none → let m := s.box (boxDie e.sa) (boxIdx e.sa)
       let v := s.sample m
       let n := min (boxLen e.sa) v.2.2.2.1
       let src := keysFrom (m.key (boxDie e.sa) v.1 0) n
       m.valid = true → s.badSec src = none → ∃ t e', exec (.creadStep c q) s = .next t ∧ t.headCmd c (80 + q) = some e' ∧
         e'.aux = .cread v.2.2.1 v.2.1 v.2.2.2.1 0 (memReads s.mem src ++ List.replicate (boxLen e.sa - n) 0)) ∧
     (e.aux = .cread stamp version vlen flags bytes → e.step = 0 → bytes ≠ [] →
       s.spaceKeys e .own (e.sb.toNat + 16) bytes.length true false = (s1, .ok ks) →
         ∃ t, exec (.creadStep c q) s = .next t ∧ t.mem = memWrites s1.mem (ks.zip bytes)) ∧
     (e.aux = .cread stamp version vlen flags bytes → e.step ≠ 0 ∨ bytes = [] →
       s.spaceKeys e .own e.sb.toNat 16 true false = (s1, .ok ks) →
         ∃ t, exec (.creadStep c q) s = .next t ∧
           t.mem = memWrites s1.mem (ks.zip (caddyHeader stamp version vlen flags)))) ∧
   (∀ (s : State) (die mb : Nat) (v : Word),
     let desc := v &&& 0x83ff_003f_0000_ffff
     (s.boxRefused die mb desc.toNat = true → ∃ t, exec (.cxdescWrite die mb v) s = .next t ∧ t.boxes = s.boxes ∧
       t.eregUnit (unitDie die) 5 0x103 = (s.eregUnit (unitDie die) 5 0x103 ||| 1)) ∧
     (s.boxRefused die mb desc.toNat = false → ∃ t, exec (.cxdescWrite die mb v) s = .next t ∧
       t.box die mb = { Mailbox.reset with desc := desc })))

/-- Events and images from outside, and the save engine (R336-R341, R417-R419): a record goes to the queue of its route, with
its timestamp (R262); a pixel packet fills its frame; csave writes and crestore reads the rows of an area in order. That the
frame index rises at a frame's start, or at the packet that opens one without a start, is the model's reading (log 40). -/
def Obligations.IngressSaveEvents : Prop :=
  (∀ (s : State) (c q : Nat) (e : ECmd), Runs s c (96 + q) e →
    exec (.evputStep c q) s = .next ((s.evRoute (Config.dieOf c)
      (some (e.sa.toNat % 2 ^ 10, e.sa.toNat / 2 ^ 10 % 8))
      ⟨9, none, none, s.dtime, e.sb.toNat / 16 * 16 + 6, e.pts⟩).complete c (96 + q))) ∧
  (∀ (s : State) (c i : Nat) (e : EvRec), c < Config.cores → i < Config.seats c → let t := s.seat c i
    let mark := BitVec.ofNat 30 (e.time / 2 ^ 34)
    t.evMark = some mark → t.evDrop = 0 → t.evq.length < 32 →
      ((s.evDeliver c i none e).seat c i).evq = t.evq ++ [BitVec.ofNat 64 e.val] ∧
      ((s.evDeliver c i none e).core c).csts = max (s.core c).csts e.ts) ∧
  (∀ (s : State) (die rx vc dt : Nat) (bytes : List Byte) (w : Nat), bit (s.eirx die rx) 0 = true →
    dt = s.eirx die rx / 2 ^ 8 % 2 ^ 8 → evWords bytes = [w] →
    let time := s.dtime + w / 2 ^ 24 % 2 ^ 8 * max 1 (s.eirx die rx / 2 ^ 16 % 2 ^ 10)
    let x := w % 2 ^ 11
    let y := w / 2 ^ 11 % 2 ^ 11
    exec (.csiEventPacket die rx vc dt true bytes) s = .next (s.evRoute die none ⟨die * 4 + rx % 4, some vc, some (x, y), time,
      1 + rx % 4 * 16 + w / 2 ^ 22 % 2 * 2 ^ 7 + x * 2 ^ 8 + y * 2 ^ 19 + time % 2 ^ 34 * 2 ^ 30, 0⟩)) ∧
  (∀ (s : State) (die rx vc dt : Nat) (bytes : List Byte), bit (s.eirx die rx) 0 = true → imageType dt = true → s.ue = [] →
    let n := (s.openFrame die rx vc).2.1
    let len := (s.openFrame die rx vc).2.2
    let size := s.eirx die rx / 2 ^ 32 % 2 ^ 16 * 4096
    let ring := (s.eregUnit (unitDie die) 6 (0x108 + rx % 4)).toNat
    let slot := n % 2 ^ (ring / 2 ^ 8 % 16)
    let got := bytes.take (size - len)
    ∃ t, exec (.csiImagePacket die rx vc dt true bytes) s = .next t ∧
      t.mem = memWrites s.mem (s.redirected (cellsAt (ring / 2 ^ 12 % 2 ^ 36 * 4096 + slot * size + len) got)) ∧
      t.openFrame die rx vc = (t, n, len + got.length)) ∧
  (∀ (s : State) (die rx vc dt : Nat) (bytes : List Byte), bit (s.eirx die rx) 0 = true →
    exec (.csiEventPacket die rx vc dt false bytes) s = .next (s.evErr die rx) ∧
    exec (.csiImagePacket die rx vc dt false bytes) s = .next (s.evErr die rx)) ∧
  (∀ (s : State) (die rx vc : Nat), bit (s.eirx die rx) 0 = true →
    (∃ t, exec (.csiFrameMark die rx vc false) s = .next t ∧ t.openFrame die rx vc = (t, s.frames0 die rx, 0) ∧
      t.frames0 die rx = s.frames0 die rx + 1) ∧
    (∃ t, exec (.csiFrameMark die rx vc true) s = .next t ∧ (∀ f ∈ t.frames, f.1 ≠ frameKey die rx (vc % 16)))) ∧
  (∀ (s : State), ∃ t, exec (.ppsEdge 0) s = .next t ∧ t.pulses = (s.pulses + 1) % 2 ^ 26) ∧
  (∀ (s s1 s2 : State) (c : Nat) (e : ECmd) (row : SaveRow) base size bs ks, Runs s c saveKey e →
    e.aux = .save base size → 2 ≤ e.step → (saveRows (e.sb.toNat % 2 ^ 27))[e.step - 2]? = some row →
    (e.op = 0 → 256 * (e.step - 1) + 256 ≤ size → s.saveSource c e row = (s1, some bs) → bs.length = 256 →
      s1.saveFind c (base + 256 * (e.step - 1)) 256 true = (s2, some ks) → s2.ue = [] →
      (∀ k ∈ ks, isExt k = false) →
        ∃ t, exec (.csaveStep c) s = .next t ∧ t.mem = memWrites s2.mem (ks.zip bs)) ∧
    (e.op = 0 → size < 256 * (e.step - 1) + 256 → exec (.csaveStep c) s = .next (s.saveFull c base e)) ∧
    (∀ b r, e.op = 1 → row = .bank b r → s.saveRead c (base + 256 * (e.step - 1)) 256 e = (s1, some bs) →
      ∃ t, exec (.crestoreStep c) s = .next t ∧ t.mem = memWrites s1.mem ((saveKeys c b r).zip bs)) ∧
    (e.op = 1 → s.saveRead c (base + 256 * (e.step - 1)) 256 e = (s1, some bs) → (∀ b r, row ≠ .bank b r) →
      let part := fun n j => leNat ((bs.drop (n * j)).take n)
      ∃ t, exec (.crestoreStep c) s = .next t ∧ t.mem = s1.mem ∧
        (∀ i, row = .acc i → ∀ j, j < 64 → mget (t.core c).acc (64 * i + j) 0 = BitVec.ofNat 32 (part 4 j)) ∧
        (∀ v, row = .vreg v → t.vreg c v = BitVec.ofNat 2048 (leNat bs)) ∧
        (row = .kregs → ∀ j, j < 7 → t.kreg c (j + 1) = BitVec.ofNat 64 (part 8 j)) ∧
        (∀ r, row = .cbank r → (t.core c).cbNew = (s1.core c).cbNew ++
          (List.range 32).map fun j => (s1.clk, 32 * r + j, BitVec.ofNat 64 (part 8 j))))) ∧
  (∀ (s : State) (c : Nat) (e : ECmd), s.headCmd c saveKey = some e → e.state = 3 →
    (∃ t, exec (.csctlResume c) s = .next t ∧
      t.headCmd c saveKey = some { e with state := 1, cause := 0, retried := false, sent := false, bounced := false } ∧
      t.mem = s.mem) ∧
    exec (.csctlAbort c) s = .next (s.complete c saveKey))

/-- Pre-emption (R406-R409): a request is merged into one under way; a seat whose turn has come enters its handler, or halts
without one; an expired PTIME requests one and is cleared; the messages of the spill area are sent again, before those handed
over since, and stay there while the stage door that must hold them is full, or while there is no room for them. Commands for
halted seats, the curtain and machine checks (R393, R412-R414): a raise reaches every core of its partition and stops it, a
lower lets it go on, and a machine check halts the core's seats and asks for the curtain. Model's choices: what a full door or
a full interface does to a resend, and bits 63:48 and 47:32 of a spilled record (log 17); a request without targets (log 46);
raises and lowers queued at each core (log 47); a machine check stopping an idle bank (log 48). -/
def Obligations.PreemptionCurtainEvents : Prop :=
  ((∀ (s : State) (c kind : Nat),
     let s1 := s.modCore c fun k => { k with spillFresh := true }
     (Config.isX c = false → (s.core c).fenced = false → s.preStatus c = 0 →
       (s1.preTargets c ≠ [] →
         exec (.preemptReq c kind) s = .next (s1.modCore c fun k => { k with preState := 1, preKind := kind })) ∧
       (s1.preTargets c = [] → exec (.preemptReq c kind) s = .next (s1.netSpill c))) ∧
     (Config.isX c = true ∨ (s.core c).fenced = true ∨ s.preStatus c ≠ 0 → exec (.preemptReq c kind) s = .next s)) ∧
   (∀ (s : State) (c : Nat) (m : Msg), (s.core c).outbox = [m] → (s.core c).spillFresh = true → m.pieces = [m] →
     m.record.length ≤ 2048 →
       ((s.netSpill c).core c).outbox = [] ∧ ((s.netSpill c).core c).spillN = 1 ∧
       (s.netSpill c).mem = memWrites s.mem (cellsAt (Config.tileKey c 0x7_f800) m.record)) ∧
   (∀ (s : State) (c : Nat), (s.crCore c 0x28d).toNat ≠ 0 → (s.crCore c 0x28d).toNat ≤ s.dtime →
     exec (.ptimeExpiry c) s = .next ((s.setCrCore c 0x28d 0).preRequest c 1)) ∧
   (∀ (s : State) (c i : Nat), let p : Machine.Place := ⟨c, i, 0⟩
     (s.core c).preState = 1 → (s.core c).curtain = false → (s.preTargets c).contains p = true → s.preReady p = true → i ≠ 0 →
       ∃ t, exec (.preemptHandlerEntry c i) s = .next t ∧ (t.bank p).scene.isSome = (s.bank p).scene.isSome ∧
         (t.bank p).inflight = [] ∧ (t.bank p).wip = .none ∧
         ((s.crCore c 0x284).getLsbD 0 = true → (t.bank p).handler = true ∧ (t.bank p).run = .running ∧
           (t.bank p).pc = (s.crCore c 0x284) >>> 2 <<< 2) ∧
         ((s.crCore c 0x284).getLsbD 0 = false → (t.bank p).run = .halted)) ∧
   (∀ (s : State) (c : Nat), (s.core c).spillN = 1 → let s0 := s.modCore c fun k => { k with outbox := [] }
     let late := ((s.core c).outbox.map (·.body.spill)).sum
     (∀ s2, s0.resend1 c late 0 = some s2 → ∃ t, exec (.preemptResend c) s = .next t ∧ (t.core c).spillN = 0 ∧ t.net = s2.net ∧
       (t.core c).outbox = (s2.core c).outbox ++ (s.core c).outbox) ∧
     (s0.resend1 c late 0 = none → ∃ t, exec (.preemptResend c) s = .next t ∧ (t.core c).spillN = 1 ∧ t.net = s.net ∧
       (t.core c).outbox = (s.core c).outbox)) ∧
   (∀ (s0 : State) (c late d : Nat) vd, let h := s0.spillWord c 8
     let w := s0.spillWord c 0
     let v := leNat (memReads s0.mem (keysFrom (Config.tileKey c 0x7_f810) 8))
     h % 2 ^ 4 = 1 → h / 2 ^ 32 % 2 ^ 16 = 8 → h / 2 ^ 8 % 2 ^ 8 = 1 →
     s0.sendTo c (BitVec.ofNat 64 w) (BitVec.ofNat 64 v) = .mail d vd →
       s0.resend1 c late 0 = if s0.outRoom c (late + 32) then some (s0.post c d vd 2 false
         (if h / 2 ^ 48 % 2 ^ 16 = 0 then h / 2 ^ 24 % 8 else h / 2 ^ 48 % 2 ^ 16)
         (.mail (w / 2 ^ 32 % 8) (w / 2 ^ 35 % 32) (BitVec.ofNat 64 v))) else none)) ∧
  ((∀ (s : State) (c i b : Nat), (s.bank ⟨c, i, b⟩).run = .halted → (s.core c).curtain = false →
     exec (.swcmdResume c i b) s = .next (s.modBank ⟨c, i, b⟩ fun b => { b with run := .running }) ∧
     exec (.swcmdKill c i b) s = .next (s.killSeat ⟨c, i, b⟩)) ∧
   (∀ (s : State) (part c : Nat), c < Config.cores → s.part c = part →
     (∃ t, exec (.curtainRaise part) s = .next t ∧ (t.core c).curtReq = (s.core c).curtReq ++ [true]) ∧
     (∃ t, exec (.curtdevRaise part) s = .next t ∧ (t.core c).curtReq = (s.core c).curtReq ++ [true]) ∧
     (∃ t, exec (.curtainLower part) s = .next t ∧ (t.core c).curtReq = (s.core c).curtReq ++ [false]) ∧
     (∃ t, exec (.curtdevLower part) s = .next t ∧ (t.core c).curtReq = (s.core c).curtReq ++ [false])) ∧
   (∀ (s : State) (c : Nat) (rest : List Bool),
     ((s.core c).curtReq = true :: rest → (s.core c).curtain = false → ∃ t, exec (.curtainHalt c) s = .next t ∧
       (t.core c).curtain = true ∧ (t.core c).curtReq = rest ∧
       t.crCore c 0x294 = BitVec.ofNat 64 (s.core c).retired ∧ t.crCore c 0x295 = BitVec.ofNat 64 (s.core c).sent ∧
       t.crCore c 0x296 = BitVec.ofNat 64 (s.core c).recv) ∧
     ((s.core c).curtReq = false :: rest → ∃ t, exec (.curtainResume c) s = .next t ∧ (t.core c).curtain = false ∧
       (t.core c).curtReq = rest ∧ t.mem = s.mem)) ∧
   (∀ (s : State) (c i : Nat), c < 768 → i < 9 → ∃ t, exec (.machineCheck c) s = .next t ∧ t.mem = s.mem ∧
     ((s.bank ⟨c, i, 0⟩).run = .running ∨ (s.bank ⟨c, i, 0⟩).run = .parked → (t.bank ⟨c, i, 0⟩).run = .halted) ∧
     ((s.bank ⟨c, i, 0⟩).run = .idle → i ≠ 8 → (t.bank ⟨c, i, 0⟩).run = .stopped) ∧
     (t.core c).curtReq = (s.core c).curtReq ++ [true]))

/-- Seizure groups and watchdogs (R421-R428): a group register is written when its group is not held and no tile of it is
fenced, a green-room host (log 74) or in another group, and a tile that had left comes back with it (log 50); a seizure
that has arrived takes up its record on seat 7; a kick starts a slot's count (log 63), and each limit that runs out has
its step, the last fencing the cores that still hold something of the slot (log 56). The logs named hold the model's
choices and readings. -/
def Obligations.SeizureWatchdogEvents : Prop :=
  (∀ (s : State) (g : Nat) (v : Word), g < 32 → mfind s.holds g = none →
    (∀ c ∈ grpTiles v.toNat, (s.core c).fenced = false ∧ s.host c = false ∧ (∀ h, s.groupOf c = some h → h = g)) →
      ∃ t, exec (.szgrpWrite g v) s = .next t ∧ t.crGlob 0 (0x2a0 + g) = v ∧
        ∀ c ∈ grpTiles v.toNat, g ∉ (t.core c).left) ∧
  (∀ (s : State) (c pos : Nat) (r : Rec), (s.core c).szPend = some (pos, r) →
    ¬ ((s.bank ⟨c, 7, 0⟩).run = .running ∧ (s.bank ⟨c, 7, 0⟩).mustEnd = true) →
    ((s.core c).szWait = true → s.sceneVectors ⟨c, 7, 0⟩ = false) →
      ∃ t, exec (.seizeTakeUp c) s = .next t ∧ (t.core c).szPend = none ∧ (t.bank ⟨c, 8, 0⟩).run = .running ∧
        (t.bank ⟨c, 8, 0⟩).pc = r.pc &&& ~~~3 ∧ (t.bank ⟨c, 8, 0⟩).wid = BitVec.ofNat 64 pos ∧ (t.seat c 8).mpres = 0) ∧
  (∀ (s : State) (q : Nat), q < 64 → ∃ t, exec (.wdogKick q) s = .next t ∧ (t.slot q).wdogOn = true ∧
    (t.slot q).wdogClk = s.dtime ∧ t.wdogAt q = 0) ∧
  (∀ (s : State) (q : Nat), q < 64 → s.wdogDue q 1 = true → ∃ t, exec (.watchdogPreempt q) s = .next t ∧
    t.wdogAt q = 1 ∧ (t.slot q).wdogClk = s.dtime) ∧
  (∀ (s : State) (q c : Nat), q < 64 → s.wdogDue q 2 = true → ∃ t, exec (.watchdogKill q) s = .next t ∧
    t.wdogAt q = 2 ∧ (∀ r ∈ (t.core c).deque, r.slot ≠ q) ∧ (∀ x ∈ (t.core c).ready, x.r.slot ≠ q)) ∧
  (∀ (s : State) (q c : Nat), q < 64 → s.wdogDue q 3 = true → (mfind s.cores c).isSome = true → s.slotOn q c = true →
    ∃ t, exec (.watchdogFence q) s = .next t ∧ (t.core c).fenced = true ∧ t.wdogAt q = 3)

/-- The command processor of a module (R438-R441, R453): doorbells map a queue to a slot, once the firmware runs (R452) and
not at an understudy (R446), where they wait; a command is accepted into the prompt book, runs, and signals; a slot with
nothing to do is freed. A launch is refused when its header breaks a limit of R157, R158, R163 or R169 (log 52: the model's
reading) or when its segment image reads uncorrectable (log 54), and an understudy dispatches none. A wait starts the slot's
watchdog (log 63), and a quote takes 48 free values (log 3). How the device's own accesses for a slot are translated is the
model's reading (log 54). -/
def Obligations.CommandEvents : Prop :=
  (∀ (s : State) (v : Word), let i := v.toNat % 4096
    let stage := (s.crGlob 0 0x311).toNat % 16
    (s.understudy = true ∨ stage ≠ 2 → exec (.qdoorWrite v) s = .next
      (if i ∈ s.bells then s else { s with bells := s.bells ++ [i] })) ∧
    (s.understudy = false → stage = 2 →
      ((s.crGlob 0 0x300).toNat % 4096 < i → exec (.qdoorWrite v) s = .next (s.queueRefuse i 1)) ∧
      (∀ q, i ≤ (s.crGlob 0 0x300).toNat % 4096 → s.slotOf i = some q →
        exec (.qdoorWrite v) s = .next (s.modSlot q fun t => { t with doorClk := s.dtime, tail := s.ringTail t })) ∧
      (∀ q, i ≤ (s.crGlob 0 0x300).toNat % 4096 → s.slotOf i = none → q < 64 → (s.slot q).mapped = false →
        (∀ r, r < q → (s.slot r).mapped = true) → exec (.qdoorWrite v) s = .next (s.mapQueue q i)))) ∧
  (∀ (s : State) (q : Nat), let t := s.slot q
    let ks := keysFrom (t.ring + 64 * (s.ringHead t % 2 ^ t.log)) 64
    let raw := memReads s.mem ks
    let seq := (s.crGlob 0 0x308).toNat
    t.mapped = true → s.stopped = false → s.understudy = false → t.phase = .idle → t.again = [] →
    s.ringHead t < t.tail → s.bad ks = false →
      ∃ u, exec (.commandAccept q) s = .next u ∧ (u.slot q).cmd = some (Cmd.ofBytes raw) ∧ (u.slot q).seq = seq ∧
        u.crGlob 0 0x308 = BitVec.ofNat 64 (seq + 1) ∧ (s.mirrors = false → (Cmd.ofBytes raw).bad = false →
          (u.slot q).phase = .fetched ∧ (u.slot q).sigval = (Cmd.ofBytes raw).sval)) ∧
  (∀ (s : State) (q : Nat) (c : Cmd) ks, (s.slot q).phase = .fetched → (s.slot q).cmd = some c →
    (c.op = 1 → s.understudy = true → exec (.cmdLaunch q) s = .next s) ∧
    (c.op = 1 → s.understudy = false → s.slotFind q c.arg.toNat 128 false = .ok ks →
      let h := Header.ofBytes (memReads s.mem ks)
      (headerOk (memReads s.mem ks) h = false ∨ c.arg.toNat % 64 ≠ 0 → exec (.cmdLaunch q) s = .next (s.refuseCmd q 2)) ∧
      (headerOk (memReads s.mem ks) h = true → c.arg.toNat % 64 = 0 → h.segtab = 0 →
        let image := keysFrom (s.slot q).segimg 192
        exec (.cmdLaunch q) s = .next (if s.bad image then s.refuseCmd q 2
          else s.dispatch q c.arg h (segsOf (memReads s.mem image))))) ∧
    (c.op = 2 → exec (.cmdWait q) s = .next (((s.wdogStep q 0).modSlot q fun t => { t with
      phase := .wait, wdogClk := s.dtime, wdogOn := true }).waitDone q)) ∧
    (c.op = 3 → exec (.cmdSignal q) s = .next ((s.logCmd q 3 0).modSlot q fun t => { t with phase := .signal })) ∧
    (∀ s2, c.op = 4 → s.slotFind q c.arg.toNat 48 false = .ok ks →
      s.slotWrite q 0 c.eaddr (s.quote (memReads s.mem ks)) .fetched = (s2, true) →
        ∃ t, exec (.cmdQuote q) s = .next t ∧ (t.slot q).phase = .signal ∧ t.fctr = s2.fctr + 48)) ∧
  (∀ (s : State) (q : Nat) (c : Cmd), (s.slot q).phase = .wait → (s.slot q).cmd = some c → s.waitOver c.arg.toNat = true →
    exec (.waitSatisfied q) s = .next ((s.logCmd q 3 0).modSlot q fun t => { t with phase := .signal, wdogOn := false })) ∧
  (∀ (s s2 : State) (q : Nat) (c : Cmd), (s.slot q).phase = .signal → (s.slot q).cmd = some c →
    s.launchBusy q (s.slot q) = false → c.saddr ≠ 0 →
    s.slotWrite q s.lastTs c.saddr (leBytes 8 (s.slot q).sigval.toNat) .signal = (s2, true) →
      ∃ t, exec (.cmdSignal q) s = .next t ∧ (t.slot q).phase = .idle ∧ (t.slot q).cmd = none) ∧
  (∀ (s : State) (q : Nat), let t := s.slot q
    t.mapped = true → t.phase = .idle → t.again = [] → t.tail ≤ s.ringHead t → t.doorClk + 100000 ≤ s.dtime →
    s.bells = [] → ∃ u, exec (.slotFree q) s = .next u ∧ (u.slot q).mapped = false ∧ u.mem = s.mem)

/-- Launches (R157-R170, R443): a steal probe sends a thief half of its victim's stealable records, oldest first; two equal
quiet waves end a launch; an ensemble claims its cores in order and then starts; a placement that waits too long pre-empts.
That the last claim, the displacements and the start are one step is the model's reading (log 51), and so is what a wave
counts as quiet and that a launch being placed does not end (log 52). -/
def Obligations.LaunchEvents : Prop :=
  (∀ (s : State) (c q j : Nat) (h : Header), (s.core c).lastSlot = some q → (s.slot q).hdr = some h →
    s.indexOf q c = some j → 2 ≤ h.coreSet.length → s.stealIdle c = true → (s.core c).probeClk ≤ s.clk →
    let x := nextX ((s.core c).lfsr.getD (BitVec.ofNat 16 (c + 1)))
    let v := h.coreSet.getD (victimOf x j h.coreSet.length) 0
    let p := fun r => stealable q v c r && !s.crosses v c
    let ring := (s.spillRead v q).getD []
    let d := ((s.core v).deque.filter p).length + (ring.filter p).length
    let m := min 16 ((d + 1) / 2)
    let a := takeOldest p m ring.reverse
    let b := takeOldest p (m - a.2.length) (s.core v).deque
    let s1 := s.modCore c fun k => { k with lfsr := some x, probeClk := if d = 0 then s.clk + 32 else k.probeClk }
    let sends := fun (s2 : State) => (s2.modCore v fun k => { k with deque := b.1 }).post v c none 2 false 0 (.steal (a.2 ++ b.2))
    (d = 0 → exec (.stealProbe c) s = .next s1) ∧
    (d ≠ 0 → a.2 = [] → exec (.stealProbe c) s = .next (sends s1)) ∧
    (∀ s2, d ≠ 0 → a.2 ≠ [] → s1.spillKeep v q a.1.reverse = some s2 → exec (.stealProbe c) s = .next (sends s2))) ∧
  (∀ (s : State) (q : Nat) (h : Header), (s.slot q).phase = .running → (s.slot q).hdr = some h → (s.slot q).placing = false →
    let w := ((h.coreSet.map fun c => mget (s.core c).created q 0).sum, (h.coreSet.map fun c => mget (s.core c).exited q 0).sum,
      h.coreSet.all (s.quiet q))
    ∃ t, exec (.terminationWave q) s = .next t ∧
      ((s.slot q).wave = some w → w.1 = w.2.1 → w.2.2 = true → (t.slot q).phase = .ended ∧ (t.slot q).wdogOn = false) ∧
      (¬ ((s.slot q).wave = some w ∧ w.1 = w.2.1 ∧ w.2.2 = true) →
        (t.slot q).phase = .running ∧ (t.slot q).wave = some w)) ∧
  (∀ (s : State) (q : Nat), (s.slot q).placing = true → (s.slot q).yieldTo = none →
    (∀ c, (s.slot q).nextClaim = some c → s.holding c = false → s.claimFree c = true → s.runsMember q c = none →
      s.claimant c = none → exec (.ensembleClaim q) s = .next (s.claim q c) ∧
        ((s.claim q c).slot q).claimed = (s.slot q).claimed ++ [c]) ∧
    (∀ c, (s.slot q).nextClaim = some c → s.holding c = true → (∀ m ∈ (s.core c).heldEv, m.body ≠ .claim q) →
      exec (.ensembleClaim q) s = .next (s.holdEvent c (.claim q))) ∧
    (∀ h s2, (s.slot q).nextClaim = none → (s.slot q).hdr = some h → (s.slot q).members.all s.memberReady = true →
      s.displaceAll (s.slot q).members = some s2 →
        ∃ t, exec (.ensembleClaim q) s = .next t ∧ t.mem = (s2.startEnsemble q h).mem ∧
          t.banks = (s2.startEnsemble q h).banks)) ∧
  (∀ (s : State) (q c o : Nat), let wait := (s.crGlob 0 0x304).toNat / 2 ^ 32 % 2 ^ 16
    wait ≠ 0 → (s.slot q).placing = true → (s.slot q).yieldTo = none → (s.slot q).pre443 = false → (s.slot q).placedAt + wait * 1000 < s.dtime →
    (s.slot q).nextClaim = some c → s.runsMember q c = some o → s.slotPrio o < s.slotPrio q →
      exec (.placementWaitExpiry q) s = .next
        ((s.slot o).members.foldl (fun s c => s.preRequest c 1) (s.modSlot q fun t => { t with pre443 := true })))

/-- The module (R34, R39, R437, R446-R452): its reset, boot measurement, mirroring, take-over, link loss, load averaging,
thermal and power limits, core resets. Model's choices and readings: module reset keeps memory (log 61); how the boot ROM's
checks reach the model, the digest's place in the header and the start of the firmware (log 59); every D-tile denied above the
power limit (log 58); a core reset keeps memory and pts (log 56). -/
def Obligations.ModuleEvents : Prop :=
  (∀ s : State, ∃ t, exec .moduleReset s = .next t ∧ t.mem = s.mem ∧ t.banks = [] ∧ t.seats = [] ∧ t.cores = [] ∧
    t.crs = [] ∧ t.net = [] ∧ t.slots = []) ∧
  (∀ (s : State) (img : List Byte) (wellFormed : Bool) (key : KeyCheck), let stage := (s.crGlob 0 0x311).toNat % 16
    let body := sha384 (img.drop 256)
    let good := key.keyOk = true ∧ key.sigOk = true ∧ img.take 48 = body
    ∃ t, exec (.bootImageLoad img wellFormed key) s = .next t ∧
      (wellFormed = false ∨ img.length < 256 → t.meas = s.meas ∧ t.crGlob 0 0x311 = BitVec.ofNat 64 (stage + 32)) ∧
      (wellFormed = true → 256 ≤ img.length →
        (good → t.meas = sha384 (s.meas ++ body) ∧ t.crGlob 0 0x311 = BitVec.ofNat 64 (max 1 stage)) ∧
        (¬ good → t.meas = s.meas ∧ t.crGlob 0 0x311 = BitVec.ofNat 64 (stage + 16) ∧ (stage ≠ 2 → t.sigDue = true)))) ∧
  (∀ s : State, (s.crGlob 0 0x311).toNat % 16 = 1 → let t := s.firmwareStart
    (t.crGlob 0 0x311).toNat % 16 = 2 ∧ (t.bank ⟨0, 0, 0⟩).run = .running ∧ (t.bank ⟨384, 0, 0⟩).run = .running) ∧
  (∀ (s : State) (n : Word), ∃ t, exec (.mirrorAckArrival n) s = .next t ∧ t.acked = max s.acked (n.toNat + 1)) ∧
  (∀ (s : State) (n : Word) (e : List Byte), s.understudy = true → s.ue = [] → ∃ t, exec (.mirrorEntryArrival n e) s = .next t ∧
    t.out = s.out ++ [.ack n] ∧ t.mem = memWrites s.mem (s.redirected (cellsAt (s.bookAt n.toNat) (e.take 128)))) ∧
  (∀ s : State, s.mirrors = true → ∃ t, exec .heartbeatSend s = .next t ∧ t.out = s.out ++ [.heartbeat]) ∧
  (∀ (s : State) (rows : List (Nat × Nat × List Byte)),
    (s.mirrors = true → ∃ t, exec (.xBankMirror rows) s = .next t ∧
      t.out = s.out ++ s.xRows.map fun r => .xrow r.1 r.2.1 r.2.2) ∧
    (s.mirrors = false → s.understudy = true → ∃ t, exec (.xBankMirror rows) s = .next t ∧ t.xcopy = rows.flatMap fun r =>
      if Config.isX r.1 then cellsAt (Config.tileKey r.1 r.2.1) r.2.2 else [])) ∧
  (∀ (s : State) (word : Word), let a := (s.crGlob 0 0x30a).toNat / 8 * 8
    let t := if isHost a then s.poke 0 (cellsAt a (leBytes 8 word.toNat)) else s
    (s.understudy = true → s.peerUp = false → Memory.wf s.mem = true →
      exec (.understudyCheck word) s = .next
        (if isHost a = true ∧ s.dtime ≤ word.toNat + s.hbLimit then t.devReport .peerDown 0 0 else t.takeover)) ∧
    (s.understudy = false ∨ s.peerUp = true → exec (.understudyCheck word) s = .next t)) ∧
  (∀ (s : State) (c : Nat), s.understudy = false → c < Config.cores → ∃ t, exec .peerFenceArrival s = .next t ∧
    t.stopped = true ∧ (t.core c).curtReq = (s.core c).curtReq ++ [true]) ∧
  (∀ s : State, ∃ t, exec .peerHeartbeatArrival s = .next t ∧ t.peerHb = max 1 s.dtime) ∧
  (∀ s : State, ∃ t, exec .linkLoss s = .next t ∧ t.linkUp = false ∧ t.mem = s.mem) ∧
  (∀ (s : State) (c dir : Nat), Config.isX c = false → (s.crGlob 0 0x305).getLsbD 24 = true → (s.core c).curtain = false →
    (s.core c).fenced = false → exec (.loadAveraging c dir) s = .next (if dir < 4 then s.loadSend c dir else s.loadExchange c)) ∧
  (∀ (s : State) (c temp : Nat), temp < 256 → ∃ t, exec (.thermalStep c temp) s = .next t ∧
    (t.crCore c 0x30e).toNat / 2 ^ 8 = temp) ∧
  (∀ (s : State) (c : Nat), c < Config.cores → let u := s.gangDrain c
    ((∀ v ∈ (s.core c).vq, v.ganged = false) → u = s) ∧
    ∃ t, exec (.corerstWrite c) s = .next t ∧ t.mem = u.mem ∧
      (∀ i b, i < 16 → b < 4 → t.bank ⟨c, i, b⟩ = Bank.reset c) ∧
      t.core c = { Core.reset with left := List.range 32, pts := (u.core c).pts, ticks := (u.core c).ticks }) ∧
  (∀ (s : State) (ppm : Int), ∃ t, exec (.ptmCorrection ppm) s = .next t ∧ t.ppm = max (-500) (min 500 ppm)) ∧
  (∀ (s : State) (w c : Nat), c < Config.dTiles → w < 2 ^ 16 → ∃ t, exec (.powerLimitThrottle w) s = .next t ∧
    t.crGlob 0 0x310 = BitVec.ofNat 64 w ∧
    (t.core c).denied = decide (max 150 (min 450 ((s.crGlob 0 0x30f).toNat % 512)) * 16 < w))
end

