-- ==== Sys2Proof/Laws/Store.lean ====
section
/-! SUPPORT. Laws of finite maps and of memory: read after write, and every memory operation keeps the canonical form. -/
namespace Sys2Proof.Machine

section Maps
variable {α : Type}

@[simp] theorem mfind_mset_same (m : SMap α) (k : Nat) (v : α) : mfind (mset m k v) k = some v := by
  induction m with
  | nil => simp [mset, mfind]
  | cons x t ih =>
    obtain ⟨j, w⟩ := x
    by_cases h : j = k
    · simp [mset, mfind, h]
    · by_cases h2 : k < j <;> simp [mset, mfind, h, h2, ih]

theorem mfind_mset_other (m : SMap α) {k k' : Nat} (v : α) (h : k ≠ k') : mfind (mset m k v) k' = mfind m k' := by
  induction m with
  | nil => simp [mset, mfind, h]
  | cons x t ih =>
    obtain ⟨j, w⟩ := x
    by_cases h1 : j = k
    · subst h1
      simp [mset, mfind, h]
    · by_cases h2 : k < j
      · simp [mset, mfind, h1, h2, h]
      · rw [show mset ((j, w) :: t) k v = (j, w) :: mset t k v by simp [mset, h1, h2]]
        simp only [mfind, ih]

theorem mfind_mset (m : SMap α) (k k' : Nat) (v : α) :
    mfind (mset m k v) k' = if k = k' then some v else mfind m k' := by
  by_cases h : k = k'
  · subst h; simp
  · simp [mfind_mset_other m v h, h]

@[simp] theorem mget_mset_same (m : SMap α) (k : Nat) (v d : α) : mget (mset m k v) k d = v := by simp [mget]

theorem mget_mset_other (m : SMap α) {k k' : Nat} (v d : α) (h : k ≠ k') : mget (mset m k v) k' d = mget m k' d := by
  simp [mget, mfind_mset_other m v h]

theorem mget_mset (m : SMap α) (k k' : Nat) (v d : α) :
    mget (mset m k v) k' d = if k = k' then v else mget m k' d := by
  by_cases h : k = k'
  · subst h; simp
  · simp [mget_mset_other m v d h, h]

@[simp] theorem mget_nil (k : Nat) (d : α) : mget ([] : SMap α) k d = d := rfl

end Maps

/-! Memory. -/

theorem memAbove_mono {lo lo' : Nat} {m : List Host.Cell} (h : memAbove lo m = true) (hl : lo' ≤ lo) :
    memAbove lo' m = true := by
  cases m with
  | nil => rfl
  | cons x t =>
    obtain ⟨k, b⟩ := x
    simp only [memAbove, Bool.and_eq_true, decide_eq_true_eq] at h ⊢
    exact ⟨⟨by omega, h.1.2⟩, h.2⟩

/-- Below the lowest listed address every byte reads as the default. -/
theorem memRead_below {lo k : Nat} {m : List Host.Cell} (h : memAbove lo m = true) (hk : k < lo) :
    memRead m k = memDefault := by
  cases m with
  | nil => rfl
  | cons x t =>
    obtain ⟨j, b⟩ := x
    simp only [memAbove, Bool.and_eq_true, decide_eq_true_eq] at h
    have h1 : j ≠ k := by omega
    have h2 : k < j := by omega
    simp [memRead, h1, h2]

theorem memWrite_above {lo : Nat} {m : List Host.Cell} (h : memAbove lo m = true) (k : Nat) (b : Byte) (hk : lo ≤ k) :
    memAbove lo (memWrite m k b) = true := by
  induction m generalizing lo with
  | nil =>
    by_cases hb : b = memDefault <;> simp [memWrite, memAbove, hb, hk]
  | cons x t ih =>
    obtain ⟨j, c⟩ := x
    simp only [memAbove, Bool.and_eq_true, decide_eq_true_eq] at h
    obtain ⟨⟨h1, h2⟩, h3⟩ := h
    by_cases hj : j = k
    · subst hj
      by_cases hb : b = memDefault
      · simpa [memWrite, hb] using memAbove_mono h3 (by omega)
      · simp [memWrite, memAbove, hb, h1, h3]
    · by_cases hlt : k < j
      · by_cases hb : b = memDefault
        · simp [memWrite, hj, hlt, hb, memAbove, h1, h3]
          simpa using h2
        · simp [memWrite, hj, hlt, hb, memAbove, hk, h3]
          simpa using h2
      · have := ih h3 (by omega)
        simp [memWrite, hj, hlt, memAbove, h1, this]
        simpa using h2

/-- Writing a byte keeps the canonical form. -/
theorem memWrite_wf {m : List Host.Cell} (h : Memory.wf m = true) (k : Nat) (b : Byte) : Memory.wf (memWrite m k b) = true :=
  memWrite_above h k b (Nat.zero_le k)

/-- Writing bytes keeps the canonical form. -/
theorem memWrites_wf {m : List Host.Cell} (h : Memory.wf m = true) (cs : List Host.Cell) : Memory.wf (memWrites m cs) = true := by
  induction cs generalizing m with
  | nil => exact h
  | cons c t ih => exact ih (memWrite_wf h c.1 c.2)

theorem memRead_memWrite_above {lo : Nat} {m : List Host.Cell} (h : memAbove lo m = true) (k k' : Nat) (b : Byte) :
    memRead (memWrite m k b) k' = if k = k' then b else memRead m k' := by
  induction m generalizing lo with
  | nil =>
    by_cases hb : b = memDefault
    · by_cases hk : k = k' <;> simp [memWrite, memRead, hb, hk]
    · by_cases hk : k = k'
      · simp [memWrite, memRead, hb, hk]
      · by_cases hl : k' < k <;> simp [memWrite, memRead, hb, hk, hl]
  | cons x t ih =>
    obtain ⟨j, c⟩ := x
    simp only [memAbove, Bool.and_eq_true, decide_eq_true_eq] at h
    obtain ⟨⟨h1, h2⟩, h3⟩ := h
    by_cases hj : j = k
    · subst hj
      by_cases hb : b = memDefault
      · subst hb
        by_cases hk : j = k'
        · subst hk
          simp [memWrite, memRead_below h3 (Nat.lt_succ_self j)]
        · by_cases hl : k' < j
          · simp [memWrite, memRead, hk, hl, memRead_below h3 (show k' < j + 1 by omega)]
          · simp [memWrite, memRead, hk, hl]
      · by_cases hk : j = k'
        · simp [memWrite, memRead, hb, hk]
        · simp [memWrite, memRead, hb, hk]
    · by_cases hlt : k < j
      · by_cases hb : b = memDefault
        · subst hb
          by_cases hk : k = k'
          · subst hk
            simp [memWrite, memRead, hj, hlt]
          · simp [memWrite, memRead, hj, hlt, hk]
        · by_cases hk : k = k'
          · subst hk
            simp [memWrite, memRead, hj, hlt, hb]
          · by_cases hl : k' < k
            · have h5 : j ≠ k' := by omega
              have h6 : k' < j := by omega
              simp [memWrite, memRead, hj, hlt, hb, hk, hl, h5, h6]
            · simp [memWrite, memRead, hj, hlt, hb, hk, hl]
      · have ih' := ih h3
        by_cases hk : j = k'
        · have hne : k ≠ k' := by omega
          rw [show memWrite ((j, c) :: t) k b = (j, c) :: memWrite t k b by simp [memWrite, hj, hlt]]
          simp [memRead, hk, hne]
        · by_cases hl : k' < j
          · have hne : k ≠ k' := by omega
            simp [memWrite, memRead, hj, hlt, hk, hl, hne]
          · simp [memWrite, memRead, hj, hlt, hk, hl, ih']

/-- A byte reads as it was written last. -/
theorem memRead_memWrite {m : List Host.Cell} (h : Memory.wf m = true) (k k' : Nat) (b : Byte) :
    memRead (memWrite m k b) k' = if k = k' then b else memRead m k' := memRead_memWrite_above h k k' b

/-- Bytes that are not written stay. -/
theorem memRead_memWrites_other {m : List Host.Cell} (h : Memory.wf m = true) (cs : List Host.Cell) (k : Nat)
    (hk : ∀ c ∈ cs, c.1 ≠ k) : memRead (memWrites m cs) k = memRead m k := by
  induction cs generalizing m with
  | nil => rfl
  | cons c t ih =>
    have h1 : c.1 ≠ k := hk c (List.mem_cons_self ..)
    have := ih (memWrite_wf h c.1 c.2) (fun d hd => hk d (List.mem_cons_of_mem _ hd))
    rw [show memWrites m (c :: t) = memWrites (memWrite m c.1 c.2) t from rfl, this, memRead_memWrite h]
    simp [h1]

theorem memWf_nil : Memory.wf [] = true := rfl

/-- Dropping bytes keeps the canonical form. -/
theorem memAbove_filter {lo : Nat} {m : List Host.Cell} (h : memAbove lo m = true) (p : Host.Cell → Bool) :
    memAbove lo (m.filter p) = true := by
  induction m generalizing lo with
  | nil => rfl
  | cons x t ih =>
    obtain ⟨j, c⟩ := x
    simp only [memAbove, Bool.and_eq_true, decide_eq_true_eq] at h
    obtain ⟨⟨h1, h2⟩, h3⟩ := h
    by_cases hp : p (j, c) = true
    · simp [List.filter, hp, memAbove, h1, ih h3]
      simpa using h2
    · simp [List.filter, hp]
      exact memAbove_mono (ih h3) (by omega)

/-- Dropping bytes keeps the canonical form. -/
theorem memFilter_wf {m : List Host.Cell} (h : Memory.wf m = true) (p : Host.Cell → Bool) : Memory.wf (m.filter p) = true :=
  memAbove_filter h p

end Sys2Proof.Machine
end

