-- ==== Sys2Proof/Laws/State.lean ====
section
/-! SUPPORT. Laws of the state's updates: every field after every update, and the reads of banks, seats, cores and slots
after them. -/
namespace Sys2Proof.Machine

/-! modBank. -/

@[simp] theorem State.agenda_modBank (s : State) (p : Place) (f : Bank → Bank) : (s.modBank p f).agenda = s.agenda := rfl
@[simp] theorem State.turned_modBank (s : State) (p : Place) (f : Bank → Bank) : (s.modBank p f).turned = s.turned := rfl
@[simp] theorem State.cur_modBank (s : State) (p : Place) (f : Bank → Bank) : (s.modBank p f).cur = s.cur := rfl
@[simp] theorem State.ended_modBank (s : State) (p : Place) (f : Bank → Bank) : (s.modBank p f).ended = s.ended := rfl
@[simp] theorem State.fctr_modBank (s : State) (p : Place) (f : Bank → Bank) : (s.modBank p f).fctr = s.fctr := rfl
@[simp] theorem State.clk_modBank (s : State) (p : Place) (f : Bank → Bank) : (s.modBank p f).clk = s.clk := rfl
@[simp] theorem State.dt_modBank (s : State) (p : Place) (f : Bank → Bank) : (s.modBank p f).dt = s.dt := rfl
@[simp] theorem State.ppm_modBank (s : State) (p : Place) (f : Bank → Bank) : (s.modBank p f).ppm = s.ppm := rfl
@[simp] theorem State.seats_modBank (s : State) (p : Place) (f : Bank → Bank) : (s.modBank p f).seats = s.seats := rfl
@[simp] theorem State.cores_modBank (s : State) (p : Place) (f : Bank → Bank) : (s.modBank p f).cores = s.cores := rfl
@[simp] theorem State.crs_modBank (s : State) (p : Place) (f : Bank → Bank) : (s.modBank p f).crs = s.crs := rfl
@[simp] theorem State.eregs_modBank (s : State) (p : Place) (f : Bank → Bank) : (s.modBank p f).eregs = s.eregs := rfl
@[simp] theorem State.mem_modBank (s : State) (p : Place) (f : Bank → Bank) : (s.modBank p f).mem = s.mem := rfl
@[simp] theorem State.ue_modBank (s : State) (p : Place) (f : Bank → Bank) : (s.modBank p f).ue = s.ue := rfl
@[simp] theorem State.lines_modBank (s : State) (p : Place) (f : Bank → Bank) : (s.modBank p f).lines = s.lines := rfl
@[simp] theorem State.l2_modBank (s : State) (p : Place) (f : Bank → Bank) : (s.modBank p f).l2 = s.l2 := rfl
@[simp] theorem State.net_modBank (s : State) (p : Place) (f : Bank → Bank) : (s.modBank p f).net = s.net := rfl
@[simp] theorem State.msgNo_modBank (s : State) (p : Place) (f : Bank → Bank) : (s.modBank p f).msgNo = s.msgNo := rfl
@[simp] theorem State.meshStop_modBank (s : State) (p : Place) (f : Bank → Bank) : (s.modBank p f).meshStop = s.meshStop := rfl
@[simp] theorem State.stage_modBank (s : State) (p : Place) (f : Bank → Bank) : (s.modBank p f).stage = s.stage := rfl
@[simp] theorem State.doorRes_modBank (s : State) (p : Place) (f : Bank → Bank) : (s.modBank p f).doorRes = s.doorRes := rfl
@[simp] theorem State.routes_modBank (s : State) (p : Place) (f : Bank → Bank) : (s.modBank p f).routes = s.routes := rfl
@[simp] theorem State.slots_modBank (s : State) (p : Place) (f : Bank → Bank) : (s.modBank p f).slots = s.slots := rfl
@[simp] theorem State.mmus_modBank (s : State) (p : Place) (f : Bank → Bank) : (s.modBank p f).mmus = s.mmus := rfl
@[simp] theorem State.moves_modBank (s : State) (p : Place) (f : Bank → Bank) : (s.modBank p f).moves = s.moves := rfl
@[simp] theorem State.tlbBusy_modBank (s : State) (p : Place) (f : Bank → Bank) : (s.modBank p f).tlbBusy = s.tlbBusy := rfl
@[simp] theorem State.extq_modBank (s : State) (p : Place) (f : Bank → Bank) : (s.modBank p f).extq = s.extq := rfl
@[simp] theorem State.boxes_modBank (s : State) (p : Place) (f : Bank → Bank) : (s.modBank p f).boxes = s.boxes := rfl
@[simp] theorem State.evRoutes_modBank (s : State) (p : Place) (f : Bank → Bank) : (s.modBank p f).evRoutes = s.evRoutes := rfl
@[simp] theorem State.frames_modBank (s : State) (p : Place) (f : Bank → Bank) : (s.modBank p f).frames = s.frames := rfl
@[simp] theorem State.pulses_modBank (s : State) (p : Place) (f : Bank → Bank) : (s.modBank p f).pulses = s.pulses := rfl
@[simp] theorem State.gcache_modBank (s : State) (p : Place) (f : Bank → Bank) : (s.modBank p f).gcache = s.gcache := rfl
@[simp] theorem State.sevents_modBank (s : State) (p : Place) (f : Bank → Bank) : (s.modBank p f).sevents = s.sevents := rfl
@[simp] theorem State.scheds_modBank (s : State) (p : Place) (f : Bank → Bank) : (s.modBank p f).scheds = s.scheds := rfl
@[simp] theorem State.bells_modBank (s : State) (p : Place) (f : Bank → Bank) : (s.modBank p f).bells = s.bells := rfl
@[simp] theorem State.sigDue_modBank (s : State) (p : Place) (f : Bank → Bank) : (s.modBank p f).sigDue = s.sigDue := rfl
@[simp] theorem State.holds_modBank (s : State) (p : Place) (f : Bank → Bank) : (s.modBank p f).holds = s.holds := rfl
@[simp] theorem State.book_modBank (s : State) (p : Place) (f : Bank → Bank) : (s.modBank p f).book = s.book := rfl
@[simp] theorem State.acked_modBank (s : State) (p : Place) (f : Bank → Bank) : (s.modBank p f).acked = s.acked := rfl
@[simp] theorem State.peerHb_modBank (s : State) (p : Place) (f : Bank → Bank) : (s.modBank p f).peerHb = s.peerHb := rfl
@[simp] theorem State.xcopy_modBank (s : State) (p : Place) (f : Bank → Bank) : (s.modBank p f).xcopy = s.xcopy := rfl
@[simp] theorem State.stopped_modBank (s : State) (p : Place) (f : Bank → Bank) : (s.modBank p f).stopped = s.stopped := rfl
@[simp] theorem State.linkUp_modBank (s : State) (p : Place) (f : Bank → Bank) : (s.modBank p f).linkUp = s.linkUp := rfl
@[simp] theorem State.out_modBank (s : State) (p : Place) (f : Bank → Bank) : (s.modBank p f).out = s.out := rfl

/-! upd. -/

@[simp] theorem State.agenda_upd (s : State) (f : Bank → Bank) : (s.upd f).agenda = s.agenda := rfl
@[simp] theorem State.turned_upd (s : State) (f : Bank → Bank) : (s.upd f).turned = s.turned := rfl
@[simp] theorem State.cur_upd (s : State) (f : Bank → Bank) : (s.upd f).cur = s.cur := rfl
@[simp] theorem State.ended_upd (s : State) (f : Bank → Bank) : (s.upd f).ended = s.ended := rfl
@[simp] theorem State.fctr_upd (s : State) (f : Bank → Bank) : (s.upd f).fctr = s.fctr := rfl
@[simp] theorem State.clk_upd (s : State) (f : Bank → Bank) : (s.upd f).clk = s.clk := rfl
@[simp] theorem State.dt_upd (s : State) (f : Bank → Bank) : (s.upd f).dt = s.dt := rfl
@[simp] theorem State.ppm_upd (s : State) (f : Bank → Bank) : (s.upd f).ppm = s.ppm := rfl
@[simp] theorem State.seats_upd (s : State) (f : Bank → Bank) : (s.upd f).seats = s.seats := rfl
@[simp] theorem State.cores_upd (s : State) (f : Bank → Bank) : (s.upd f).cores = s.cores := rfl
@[simp] theorem State.crs_upd (s : State) (f : Bank → Bank) : (s.upd f).crs = s.crs := rfl
@[simp] theorem State.eregs_upd (s : State) (f : Bank → Bank) : (s.upd f).eregs = s.eregs := rfl
@[simp] theorem State.mem_upd (s : State) (f : Bank → Bank) : (s.upd f).mem = s.mem := rfl
@[simp] theorem State.ue_upd (s : State) (f : Bank → Bank) : (s.upd f).ue = s.ue := rfl
@[simp] theorem State.lines_upd (s : State) (f : Bank → Bank) : (s.upd f).lines = s.lines := rfl
@[simp] theorem State.l2_upd (s : State) (f : Bank → Bank) : (s.upd f).l2 = s.l2 := rfl
@[simp] theorem State.net_upd (s : State) (f : Bank → Bank) : (s.upd f).net = s.net := rfl
@[simp] theorem State.msgNo_upd (s : State) (f : Bank → Bank) : (s.upd f).msgNo = s.msgNo := rfl
@[simp] theorem State.meshStop_upd (s : State) (f : Bank → Bank) : (s.upd f).meshStop = s.meshStop := rfl
@[simp] theorem State.stage_upd (s : State) (f : Bank → Bank) : (s.upd f).stage = s.stage := rfl
@[simp] theorem State.doorRes_upd (s : State) (f : Bank → Bank) : (s.upd f).doorRes = s.doorRes := rfl
@[simp] theorem State.routes_upd (s : State) (f : Bank → Bank) : (s.upd f).routes = s.routes := rfl
@[simp] theorem State.slots_upd (s : State) (f : Bank → Bank) : (s.upd f).slots = s.slots := rfl
@[simp] theorem State.mmus_upd (s : State) (f : Bank → Bank) : (s.upd f).mmus = s.mmus := rfl
@[simp] theorem State.moves_upd (s : State) (f : Bank → Bank) : (s.upd f).moves = s.moves := rfl
@[simp] theorem State.tlbBusy_upd (s : State) (f : Bank → Bank) : (s.upd f).tlbBusy = s.tlbBusy := rfl
@[simp] theorem State.extq_upd (s : State) (f : Bank → Bank) : (s.upd f).extq = s.extq := rfl
@[simp] theorem State.boxes_upd (s : State) (f : Bank → Bank) : (s.upd f).boxes = s.boxes := rfl
@[simp] theorem State.evRoutes_upd (s : State) (f : Bank → Bank) : (s.upd f).evRoutes = s.evRoutes := rfl
@[simp] theorem State.frames_upd (s : State) (f : Bank → Bank) : (s.upd f).frames = s.frames := rfl
@[simp] theorem State.pulses_upd (s : State) (f : Bank → Bank) : (s.upd f).pulses = s.pulses := rfl
@[simp] theorem State.gcache_upd (s : State) (f : Bank → Bank) : (s.upd f).gcache = s.gcache := rfl
@[simp] theorem State.sevents_upd (s : State) (f : Bank → Bank) : (s.upd f).sevents = s.sevents := rfl
@[simp] theorem State.scheds_upd (s : State) (f : Bank → Bank) : (s.upd f).scheds = s.scheds := rfl
@[simp] theorem State.bells_upd (s : State) (f : Bank → Bank) : (s.upd f).bells = s.bells := rfl
@[simp] theorem State.sigDue_upd (s : State) (f : Bank → Bank) : (s.upd f).sigDue = s.sigDue := rfl
@[simp] theorem State.holds_upd (s : State) (f : Bank → Bank) : (s.upd f).holds = s.holds := rfl
@[simp] theorem State.book_upd (s : State) (f : Bank → Bank) : (s.upd f).book = s.book := rfl
@[simp] theorem State.acked_upd (s : State) (f : Bank → Bank) : (s.upd f).acked = s.acked := rfl
@[simp] theorem State.peerHb_upd (s : State) (f : Bank → Bank) : (s.upd f).peerHb = s.peerHb := rfl
@[simp] theorem State.xcopy_upd (s : State) (f : Bank → Bank) : (s.upd f).xcopy = s.xcopy := rfl
@[simp] theorem State.stopped_upd (s : State) (f : Bank → Bank) : (s.upd f).stopped = s.stopped := rfl
@[simp] theorem State.linkUp_upd (s : State) (f : Bank → Bank) : (s.upd f).linkUp = s.linkUp := rfl
@[simp] theorem State.out_upd (s : State) (f : Bank → Bank) : (s.upd f).out = s.out := rfl

/-! modSeat. -/

@[simp] theorem State.agenda_modSeat (s : State) (c i : Nat) (f : Seat → Seat) : (s.modSeat c i f).agenda = s.agenda := rfl
@[simp] theorem State.turned_modSeat (s : State) (c i : Nat) (f : Seat → Seat) : (s.modSeat c i f).turned = s.turned := rfl
@[simp] theorem State.cur_modSeat (s : State) (c i : Nat) (f : Seat → Seat) : (s.modSeat c i f).cur = s.cur := rfl
@[simp] theorem State.ended_modSeat (s : State) (c i : Nat) (f : Seat → Seat) : (s.modSeat c i f).ended = s.ended := rfl
@[simp] theorem State.fctr_modSeat (s : State) (c i : Nat) (f : Seat → Seat) : (s.modSeat c i f).fctr = s.fctr := rfl
@[simp] theorem State.clk_modSeat (s : State) (c i : Nat) (f : Seat → Seat) : (s.modSeat c i f).clk = s.clk := rfl
@[simp] theorem State.dt_modSeat (s : State) (c i : Nat) (f : Seat → Seat) : (s.modSeat c i f).dt = s.dt := rfl
@[simp] theorem State.ppm_modSeat (s : State) (c i : Nat) (f : Seat → Seat) : (s.modSeat c i f).ppm = s.ppm := rfl
@[simp] theorem State.banks_modSeat (s : State) (c i : Nat) (f : Seat → Seat) : (s.modSeat c i f).banks = s.banks := rfl
@[simp] theorem State.cores_modSeat (s : State) (c i : Nat) (f : Seat → Seat) : (s.modSeat c i f).cores = s.cores := rfl
@[simp] theorem State.crs_modSeat (s : State) (c i : Nat) (f : Seat → Seat) : (s.modSeat c i f).crs = s.crs := rfl
@[simp] theorem State.eregs_modSeat (s : State) (c i : Nat) (f : Seat → Seat) : (s.modSeat c i f).eregs = s.eregs := rfl
@[simp] theorem State.mem_modSeat (s : State) (c i : Nat) (f : Seat → Seat) : (s.modSeat c i f).mem = s.mem := rfl
@[simp] theorem State.ue_modSeat (s : State) (c i : Nat) (f : Seat → Seat) : (s.modSeat c i f).ue = s.ue := rfl
@[simp] theorem State.lines_modSeat (s : State) (c i : Nat) (f : Seat → Seat) : (s.modSeat c i f).lines = s.lines := rfl
@[simp] theorem State.l2_modSeat (s : State) (c i : Nat) (f : Seat → Seat) : (s.modSeat c i f).l2 = s.l2 := rfl
@[simp] theorem State.net_modSeat (s : State) (c i : Nat) (f : Seat → Seat) : (s.modSeat c i f).net = s.net := rfl
@[simp] theorem State.msgNo_modSeat (s : State) (c i : Nat) (f : Seat → Seat) : (s.modSeat c i f).msgNo = s.msgNo := rfl
@[simp] theorem State.meshStop_modSeat (s : State) (c i : Nat) (f : Seat → Seat) : (s.modSeat c i f).meshStop = s.meshStop := rfl
@[simp] theorem State.stage_modSeat (s : State) (c i : Nat) (f : Seat → Seat) : (s.modSeat c i f).stage = s.stage := rfl
@[simp] theorem State.doorRes_modSeat (s : State) (c i : Nat) (f : Seat → Seat) : (s.modSeat c i f).doorRes = s.doorRes := rfl
@[simp] theorem State.routes_modSeat (s : State) (c i : Nat) (f : Seat → Seat) : (s.modSeat c i f).routes = s.routes := rfl
@[simp] theorem State.slots_modSeat (s : State) (c i : Nat) (f : Seat → Seat) : (s.modSeat c i f).slots = s.slots := rfl
@[simp] theorem State.mmus_modSeat (s : State) (c i : Nat) (f : Seat → Seat) : (s.modSeat c i f).mmus = s.mmus := rfl
@[simp] theorem State.moves_modSeat (s : State) (c i : Nat) (f : Seat → Seat) : (s.modSeat c i f).moves = s.moves := rfl
@[simp] theorem State.tlbBusy_modSeat (s : State) (c i : Nat) (f : Seat → Seat) : (s.modSeat c i f).tlbBusy = s.tlbBusy := rfl
@[simp] theorem State.extq_modSeat (s : State) (c i : Nat) (f : Seat → Seat) : (s.modSeat c i f).extq = s.extq := rfl
@[simp] theorem State.boxes_modSeat (s : State) (c i : Nat) (f : Seat → Seat) : (s.modSeat c i f).boxes = s.boxes := rfl
@[simp] theorem State.evRoutes_modSeat (s : State) (c i : Nat) (f : Seat → Seat) : (s.modSeat c i f).evRoutes = s.evRoutes := rfl
@[simp] theorem State.frames_modSeat (s : State) (c i : Nat) (f : Seat → Seat) : (s.modSeat c i f).frames = s.frames := rfl
@[simp] theorem State.pulses_modSeat (s : State) (c i : Nat) (f : Seat → Seat) : (s.modSeat c i f).pulses = s.pulses := rfl
@[simp] theorem State.gcache_modSeat (s : State) (c i : Nat) (f : Seat → Seat) : (s.modSeat c i f).gcache = s.gcache := rfl
@[simp] theorem State.sevents_modSeat (s : State) (c i : Nat) (f : Seat → Seat) : (s.modSeat c i f).sevents = s.sevents := rfl
@[simp] theorem State.scheds_modSeat (s : State) (c i : Nat) (f : Seat → Seat) : (s.modSeat c i f).scheds = s.scheds := rfl
@[simp] theorem State.bells_modSeat (s : State) (c i : Nat) (f : Seat → Seat) : (s.modSeat c i f).bells = s.bells := rfl
@[simp] theorem State.sigDue_modSeat (s : State) (c i : Nat) (f : Seat → Seat) : (s.modSeat c i f).sigDue = s.sigDue := rfl
@[simp] theorem State.holds_modSeat (s : State) (c i : Nat) (f : Seat → Seat) : (s.modSeat c i f).holds = s.holds := rfl
@[simp] theorem State.book_modSeat (s : State) (c i : Nat) (f : Seat → Seat) : (s.modSeat c i f).book = s.book := rfl
@[simp] theorem State.acked_modSeat (s : State) (c i : Nat) (f : Seat → Seat) : (s.modSeat c i f).acked = s.acked := rfl
@[simp] theorem State.peerHb_modSeat (s : State) (c i : Nat) (f : Seat → Seat) : (s.modSeat c i f).peerHb = s.peerHb := rfl
@[simp] theorem State.xcopy_modSeat (s : State) (c i : Nat) (f : Seat → Seat) : (s.modSeat c i f).xcopy = s.xcopy := rfl
@[simp] theorem State.stopped_modSeat (s : State) (c i : Nat) (f : Seat → Seat) : (s.modSeat c i f).stopped = s.stopped := rfl
@[simp] theorem State.linkUp_modSeat (s : State) (c i : Nat) (f : Seat → Seat) : (s.modSeat c i f).linkUp = s.linkUp := rfl
@[simp] theorem State.out_modSeat (s : State) (c i : Nat) (f : Seat → Seat) : (s.modSeat c i f).out = s.out := rfl

/-! modCore. -/

@[simp] theorem State.agenda_modCore (s : State) (c : Nat) (f : Core → Core) : (s.modCore c f).agenda = s.agenda := rfl
@[simp] theorem State.turned_modCore (s : State) (c : Nat) (f : Core → Core) : (s.modCore c f).turned = s.turned := rfl
@[simp] theorem State.cur_modCore (s : State) (c : Nat) (f : Core → Core) : (s.modCore c f).cur = s.cur := rfl
@[simp] theorem State.ended_modCore (s : State) (c : Nat) (f : Core → Core) : (s.modCore c f).ended = s.ended := rfl
@[simp] theorem State.fctr_modCore (s : State) (c : Nat) (f : Core → Core) : (s.modCore c f).fctr = s.fctr := rfl
@[simp] theorem State.clk_modCore (s : State) (c : Nat) (f : Core → Core) : (s.modCore c f).clk = s.clk := rfl
@[simp] theorem State.dt_modCore (s : State) (c : Nat) (f : Core → Core) : (s.modCore c f).dt = s.dt := rfl
@[simp] theorem State.ppm_modCore (s : State) (c : Nat) (f : Core → Core) : (s.modCore c f).ppm = s.ppm := rfl
@[simp] theorem State.banks_modCore (s : State) (c : Nat) (f : Core → Core) : (s.modCore c f).banks = s.banks := rfl
@[simp] theorem State.seats_modCore (s : State) (c : Nat) (f : Core → Core) : (s.modCore c f).seats = s.seats := rfl
@[simp] theorem State.crs_modCore (s : State) (c : Nat) (f : Core → Core) : (s.modCore c f).crs = s.crs := rfl
@[simp] theorem State.eregs_modCore (s : State) (c : Nat) (f : Core → Core) : (s.modCore c f).eregs = s.eregs := rfl
@[simp] theorem State.mem_modCore (s : State) (c : Nat) (f : Core → Core) : (s.modCore c f).mem = s.mem := rfl
@[simp] theorem State.ue_modCore (s : State) (c : Nat) (f : Core → Core) : (s.modCore c f).ue = s.ue := rfl
@[simp] theorem State.lines_modCore (s : State) (c : Nat) (f : Core → Core) : (s.modCore c f).lines = s.lines := rfl
@[simp] theorem State.l2_modCore (s : State) (c : Nat) (f : Core → Core) : (s.modCore c f).l2 = s.l2 := rfl
@[simp] theorem State.net_modCore (s : State) (c : Nat) (f : Core → Core) : (s.modCore c f).net = s.net := rfl
@[simp] theorem State.msgNo_modCore (s : State) (c : Nat) (f : Core → Core) : (s.modCore c f).msgNo = s.msgNo := rfl
@[simp] theorem State.meshStop_modCore (s : State) (c : Nat) (f : Core → Core) : (s.modCore c f).meshStop = s.meshStop := rfl
@[simp] theorem State.stage_modCore (s : State) (c : Nat) (f : Core → Core) : (s.modCore c f).stage = s.stage := rfl
@[simp] theorem State.doorRes_modCore (s : State) (c : Nat) (f : Core → Core) : (s.modCore c f).doorRes = s.doorRes := rfl
@[simp] theorem State.routes_modCore (s : State) (c : Nat) (f : Core → Core) : (s.modCore c f).routes = s.routes := rfl
@[simp] theorem State.slots_modCore (s : State) (c : Nat) (f : Core → Core) : (s.modCore c f).slots = s.slots := rfl
@[simp] theorem State.mmus_modCore (s : State) (c : Nat) (f : Core → Core) : (s.modCore c f).mmus = s.mmus := rfl
@[simp] theorem State.moves_modCore (s : State) (c : Nat) (f : Core → Core) : (s.modCore c f).moves = s.moves := rfl
@[simp] theorem State.tlbBusy_modCore (s : State) (c : Nat) (f : Core → Core) : (s.modCore c f).tlbBusy = s.tlbBusy := rfl
@[simp] theorem State.extq_modCore (s : State) (c : Nat) (f : Core → Core) : (s.modCore c f).extq = s.extq := rfl
@[simp] theorem State.boxes_modCore (s : State) (c : Nat) (f : Core → Core) : (s.modCore c f).boxes = s.boxes := rfl
@[simp] theorem State.evRoutes_modCore (s : State) (c : Nat) (f : Core → Core) : (s.modCore c f).evRoutes = s.evRoutes := rfl
@[simp] theorem State.frames_modCore (s : State) (c : Nat) (f : Core → Core) : (s.modCore c f).frames = s.frames := rfl
@[simp] theorem State.pulses_modCore (s : State) (c : Nat) (f : Core → Core) : (s.modCore c f).pulses = s.pulses := rfl
@[simp] theorem State.gcache_modCore (s : State) (c : Nat) (f : Core → Core) : (s.modCore c f).gcache = s.gcache := rfl
@[simp] theorem State.sevents_modCore (s : State) (c : Nat) (f : Core → Core) : (s.modCore c f).sevents = s.sevents := rfl
@[simp] theorem State.scheds_modCore (s : State) (c : Nat) (f : Core → Core) : (s.modCore c f).scheds = s.scheds := rfl
@[simp] theorem State.bells_modCore (s : State) (c : Nat) (f : Core → Core) : (s.modCore c f).bells = s.bells := rfl
@[simp] theorem State.sigDue_modCore (s : State) (c : Nat) (f : Core → Core) : (s.modCore c f).sigDue = s.sigDue := rfl
@[simp] theorem State.holds_modCore (s : State) (c : Nat) (f : Core → Core) : (s.modCore c f).holds = s.holds := rfl
@[simp] theorem State.book_modCore (s : State) (c : Nat) (f : Core → Core) : (s.modCore c f).book = s.book := rfl
@[simp] theorem State.acked_modCore (s : State) (c : Nat) (f : Core → Core) : (s.modCore c f).acked = s.acked := rfl
@[simp] theorem State.peerHb_modCore (s : State) (c : Nat) (f : Core → Core) : (s.modCore c f).peerHb = s.peerHb := rfl
@[simp] theorem State.xcopy_modCore (s : State) (c : Nat) (f : Core → Core) : (s.modCore c f).xcopy = s.xcopy := rfl
@[simp] theorem State.stopped_modCore (s : State) (c : Nat) (f : Core → Core) : (s.modCore c f).stopped = s.stopped := rfl
@[simp] theorem State.linkUp_modCore (s : State) (c : Nat) (f : Core → Core) : (s.modCore c f).linkUp = s.linkUp := rfl
@[simp] theorem State.out_modCore (s : State) (c : Nat) (f : Core → Core) : (s.modCore c f).out = s.out := rfl

/-! modSlot. -/

@[simp] theorem State.agenda_modSlot (s : State) (q : Nat) (f : Slot → Slot) : (s.modSlot q f).agenda = s.agenda := rfl
@[simp] theorem State.turned_modSlot (s : State) (q : Nat) (f : Slot → Slot) : (s.modSlot q f).turned = s.turned := rfl
@[simp] theorem State.cur_modSlot (s : State) (q : Nat) (f : Slot → Slot) : (s.modSlot q f).cur = s.cur := rfl
@[simp] theorem State.ended_modSlot (s : State) (q : Nat) (f : Slot → Slot) : (s.modSlot q f).ended = s.ended := rfl
@[simp] theorem State.fctr_modSlot (s : State) (q : Nat) (f : Slot → Slot) : (s.modSlot q f).fctr = s.fctr := rfl
@[simp] theorem State.clk_modSlot (s : State) (q : Nat) (f : Slot → Slot) : (s.modSlot q f).clk = s.clk := rfl
@[simp] theorem State.dt_modSlot (s : State) (q : Nat) (f : Slot → Slot) : (s.modSlot q f).dt = s.dt := rfl
@[simp] theorem State.ppm_modSlot (s : State) (q : Nat) (f : Slot → Slot) : (s.modSlot q f).ppm = s.ppm := rfl
@[simp] theorem State.banks_modSlot (s : State) (q : Nat) (f : Slot → Slot) : (s.modSlot q f).banks = s.banks := rfl
@[simp] theorem State.seats_modSlot (s : State) (q : Nat) (f : Slot → Slot) : (s.modSlot q f).seats = s.seats := rfl
@[simp] theorem State.cores_modSlot (s : State) (q : Nat) (f : Slot → Slot) : (s.modSlot q f).cores = s.cores := rfl
@[simp] theorem State.crs_modSlot (s : State) (q : Nat) (f : Slot → Slot) : (s.modSlot q f).crs = s.crs := rfl
@[simp] theorem State.eregs_modSlot (s : State) (q : Nat) (f : Slot → Slot) : (s.modSlot q f).eregs = s.eregs := rfl
@[simp] theorem State.mem_modSlot (s : State) (q : Nat) (f : Slot → Slot) : (s.modSlot q f).mem = s.mem := rfl
@[simp] theorem State.ue_modSlot (s : State) (q : Nat) (f : Slot → Slot) : (s.modSlot q f).ue = s.ue := rfl
@[simp] theorem State.lines_modSlot (s : State) (q : Nat) (f : Slot → Slot) : (s.modSlot q f).lines = s.lines := rfl
@[simp] theorem State.l2_modSlot (s : State) (q : Nat) (f : Slot → Slot) : (s.modSlot q f).l2 = s.l2 := rfl
@[simp] theorem State.net_modSlot (s : State) (q : Nat) (f : Slot → Slot) : (s.modSlot q f).net = s.net := rfl
@[simp] theorem State.msgNo_modSlot (s : State) (q : Nat) (f : Slot → Slot) : (s.modSlot q f).msgNo = s.msgNo := rfl
@[simp] theorem State.meshStop_modSlot (s : State) (q : Nat) (f : Slot → Slot) : (s.modSlot q f).meshStop = s.meshStop := rfl
@[simp] theorem State.stage_modSlot (s : State) (q : Nat) (f : Slot → Slot) : (s.modSlot q f).stage = s.stage := rfl
@[simp] theorem State.doorRes_modSlot (s : State) (q : Nat) (f : Slot → Slot) : (s.modSlot q f).doorRes = s.doorRes := rfl
@[simp] theorem State.routes_modSlot (s : State) (q : Nat) (f : Slot → Slot) : (s.modSlot q f).routes = s.routes := rfl
@[simp] theorem State.mmus_modSlot (s : State) (q : Nat) (f : Slot → Slot) : (s.modSlot q f).mmus = s.mmus := rfl
@[simp] theorem State.moves_modSlot (s : State) (q : Nat) (f : Slot → Slot) : (s.modSlot q f).moves = s.moves := rfl
@[simp] theorem State.tlbBusy_modSlot (s : State) (q : Nat) (f : Slot → Slot) : (s.modSlot q f).tlbBusy = s.tlbBusy := rfl
@[simp] theorem State.extq_modSlot (s : State) (q : Nat) (f : Slot → Slot) : (s.modSlot q f).extq = s.extq := rfl
@[simp] theorem State.boxes_modSlot (s : State) (q : Nat) (f : Slot → Slot) : (s.modSlot q f).boxes = s.boxes := rfl
@[simp] theorem State.evRoutes_modSlot (s : State) (q : Nat) (f : Slot → Slot) : (s.modSlot q f).evRoutes = s.evRoutes := rfl
@[simp] theorem State.frames_modSlot (s : State) (q : Nat) (f : Slot → Slot) : (s.modSlot q f).frames = s.frames := rfl
@[simp] theorem State.pulses_modSlot (s : State) (q : Nat) (f : Slot → Slot) : (s.modSlot q f).pulses = s.pulses := rfl
@[simp] theorem State.gcache_modSlot (s : State) (q : Nat) (f : Slot → Slot) : (s.modSlot q f).gcache = s.gcache := rfl
@[simp] theorem State.sevents_modSlot (s : State) (q : Nat) (f : Slot → Slot) : (s.modSlot q f).sevents = s.sevents := rfl
@[simp] theorem State.scheds_modSlot (s : State) (q : Nat) (f : Slot → Slot) : (s.modSlot q f).scheds = s.scheds := rfl
@[simp] theorem State.bells_modSlot (s : State) (q : Nat) (f : Slot → Slot) : (s.modSlot q f).bells = s.bells := rfl
@[simp] theorem State.sigDue_modSlot (s : State) (q : Nat) (f : Slot → Slot) : (s.modSlot q f).sigDue = s.sigDue := rfl
@[simp] theorem State.holds_modSlot (s : State) (q : Nat) (f : Slot → Slot) : (s.modSlot q f).holds = s.holds := rfl
@[simp] theorem State.book_modSlot (s : State) (q : Nat) (f : Slot → Slot) : (s.modSlot q f).book = s.book := rfl
@[simp] theorem State.acked_modSlot (s : State) (q : Nat) (f : Slot → Slot) : (s.modSlot q f).acked = s.acked := rfl
@[simp] theorem State.peerHb_modSlot (s : State) (q : Nat) (f : Slot → Slot) : (s.modSlot q f).peerHb = s.peerHb := rfl
@[simp] theorem State.xcopy_modSlot (s : State) (q : Nat) (f : Slot → Slot) : (s.modSlot q f).xcopy = s.xcopy := rfl
@[simp] theorem State.stopped_modSlot (s : State) (q : Nat) (f : Slot → Slot) : (s.modSlot q f).stopped = s.stopped := rfl
@[simp] theorem State.linkUp_modSlot (s : State) (q : Nat) (f : Slot → Slot) : (s.modSlot q f).linkUp = s.linkUp := rfl
@[simp] theorem State.out_modSlot (s : State) (q : Nat) (f : Slot → Slot) : (s.modSlot q f).out = s.out := rfl

/-! modQueue. -/

@[simp] theorem State.agenda_modQueue (s : State) (c key : Nat) (f : List ECmd → List ECmd) : (s.modQueue c key f).agenda = s.agenda := rfl
@[simp] theorem State.turned_modQueue (s : State) (c key : Nat) (f : List ECmd → List ECmd) : (s.modQueue c key f).turned = s.turned := rfl
@[simp] theorem State.cur_modQueue (s : State) (c key : Nat) (f : List ECmd → List ECmd) : (s.modQueue c key f).cur = s.cur := rfl
@[simp] theorem State.ended_modQueue (s : State) (c key : Nat) (f : List ECmd → List ECmd) : (s.modQueue c key f).ended = s.ended := rfl
@[simp] theorem State.fctr_modQueue (s : State) (c key : Nat) (f : List ECmd → List ECmd) : (s.modQueue c key f).fctr = s.fctr := rfl
@[simp] theorem State.clk_modQueue (s : State) (c key : Nat) (f : List ECmd → List ECmd) : (s.modQueue c key f).clk = s.clk := rfl
@[simp] theorem State.dt_modQueue (s : State) (c key : Nat) (f : List ECmd → List ECmd) : (s.modQueue c key f).dt = s.dt := rfl
@[simp] theorem State.ppm_modQueue (s : State) (c key : Nat) (f : List ECmd → List ECmd) : (s.modQueue c key f).ppm = s.ppm := rfl
@[simp] theorem State.banks_modQueue (s : State) (c key : Nat) (f : List ECmd → List ECmd) : (s.modQueue c key f).banks = s.banks := rfl
@[simp] theorem State.seats_modQueue (s : State) (c key : Nat) (f : List ECmd → List ECmd) : (s.modQueue c key f).seats = s.seats := rfl
@[simp] theorem State.crs_modQueue (s : State) (c key : Nat) (f : List ECmd → List ECmd) : (s.modQueue c key f).crs = s.crs := rfl
@[simp] theorem State.eregs_modQueue (s : State) (c key : Nat) (f : List ECmd → List ECmd) : (s.modQueue c key f).eregs = s.eregs := rfl
@[simp] theorem State.mem_modQueue (s : State) (c key : Nat) (f : List ECmd → List ECmd) : (s.modQueue c key f).mem = s.mem := rfl
@[simp] theorem State.ue_modQueue (s : State) (c key : Nat) (f : List ECmd → List ECmd) : (s.modQueue c key f).ue = s.ue := rfl
@[simp] theorem State.lines_modQueue (s : State) (c key : Nat) (f : List ECmd → List ECmd) : (s.modQueue c key f).lines = s.lines := rfl
@[simp] theorem State.l2_modQueue (s : State) (c key : Nat) (f : List ECmd → List ECmd) : (s.modQueue c key f).l2 = s.l2 := rfl
@[simp] theorem State.net_modQueue (s : State) (c key : Nat) (f : List ECmd → List ECmd) : (s.modQueue c key f).net = s.net := rfl
@[simp] theorem State.msgNo_modQueue (s : State) (c key : Nat) (f : List ECmd → List ECmd) : (s.modQueue c key f).msgNo = s.msgNo := rfl
@[simp] theorem State.meshStop_modQueue (s : State) (c key : Nat) (f : List ECmd → List ECmd) : (s.modQueue c key f).meshStop = s.meshStop := rfl
@[simp] theorem State.stage_modQueue (s : State) (c key : Nat) (f : List ECmd → List ECmd) : (s.modQueue c key f).stage = s.stage := rfl
@[simp] theorem State.doorRes_modQueue (s : State) (c key : Nat) (f : List ECmd → List ECmd) : (s.modQueue c key f).doorRes = s.doorRes := rfl
@[simp] theorem State.routes_modQueue (s : State) (c key : Nat) (f : List ECmd → List ECmd) : (s.modQueue c key f).routes = s.routes := rfl
@[simp] theorem State.slots_modQueue (s : State) (c key : Nat) (f : List ECmd → List ECmd) : (s.modQueue c key f).slots = s.slots := rfl
@[simp] theorem State.mmus_modQueue (s : State) (c key : Nat) (f : List ECmd → List ECmd) : (s.modQueue c key f).mmus = s.mmus := rfl
@[simp] theorem State.moves_modQueue (s : State) (c key : Nat) (f : List ECmd → List ECmd) : (s.modQueue c key f).moves = s.moves := rfl
@[simp] theorem State.tlbBusy_modQueue (s : State) (c key : Nat) (f : List ECmd → List ECmd) : (s.modQueue c key f).tlbBusy = s.tlbBusy := rfl
@[simp] theorem State.extq_modQueue (s : State) (c key : Nat) (f : List ECmd → List ECmd) : (s.modQueue c key f).extq = s.extq := rfl
@[simp] theorem State.boxes_modQueue (s : State) (c key : Nat) (f : List ECmd → List ECmd) : (s.modQueue c key f).boxes = s.boxes := rfl
@[simp] theorem State.evRoutes_modQueue (s : State) (c key : Nat) (f : List ECmd → List ECmd) : (s.modQueue c key f).evRoutes = s.evRoutes := rfl
@[simp] theorem State.frames_modQueue (s : State) (c key : Nat) (f : List ECmd → List ECmd) : (s.modQueue c key f).frames = s.frames := rfl
@[simp] theorem State.pulses_modQueue (s : State) (c key : Nat) (f : List ECmd → List ECmd) : (s.modQueue c key f).pulses = s.pulses := rfl
@[simp] theorem State.gcache_modQueue (s : State) (c key : Nat) (f : List ECmd → List ECmd) : (s.modQueue c key f).gcache = s.gcache := rfl
@[simp] theorem State.sevents_modQueue (s : State) (c key : Nat) (f : List ECmd → List ECmd) : (s.modQueue c key f).sevents = s.sevents := rfl
@[simp] theorem State.scheds_modQueue (s : State) (c key : Nat) (f : List ECmd → List ECmd) : (s.modQueue c key f).scheds = s.scheds := rfl
@[simp] theorem State.bells_modQueue (s : State) (c key : Nat) (f : List ECmd → List ECmd) : (s.modQueue c key f).bells = s.bells := rfl
@[simp] theorem State.sigDue_modQueue (s : State) (c key : Nat) (f : List ECmd → List ECmd) : (s.modQueue c key f).sigDue = s.sigDue := rfl
@[simp] theorem State.holds_modQueue (s : State) (c key : Nat) (f : List ECmd → List ECmd) : (s.modQueue c key f).holds = s.holds := rfl
@[simp] theorem State.book_modQueue (s : State) (c key : Nat) (f : List ECmd → List ECmd) : (s.modQueue c key f).book = s.book := rfl
@[simp] theorem State.acked_modQueue (s : State) (c key : Nat) (f : List ECmd → List ECmd) : (s.modQueue c key f).acked = s.acked := rfl
@[simp] theorem State.peerHb_modQueue (s : State) (c key : Nat) (f : List ECmd → List ECmd) : (s.modQueue c key f).peerHb = s.peerHb := rfl
@[simp] theorem State.xcopy_modQueue (s : State) (c key : Nat) (f : List ECmd → List ECmd) : (s.modQueue c key f).xcopy = s.xcopy := rfl
@[simp] theorem State.stopped_modQueue (s : State) (c key : Nat) (f : List ECmd → List ECmd) : (s.modQueue c key f).stopped = s.stopped := rfl
@[simp] theorem State.linkUp_modQueue (s : State) (c key : Nat) (f : List ECmd → List ECmd) : (s.modQueue c key f).linkUp = s.linkUp := rfl
@[simp] theorem State.out_modQueue (s : State) (c key : Nat) (f : List ECmd → List ECmd) : (s.modQueue c key f).out = s.out := rfl

/-! setCrCore. -/

@[simp] theorem State.agenda_setCrCore (s : State) (c n : Nat) (v : Word) : (s.setCrCore c n v).agenda = s.agenda := rfl
@[simp] theorem State.turned_setCrCore (s : State) (c n : Nat) (v : Word) : (s.setCrCore c n v).turned = s.turned := rfl
@[simp] theorem State.cur_setCrCore (s : State) (c n : Nat) (v : Word) : (s.setCrCore c n v).cur = s.cur := rfl
@[simp] theorem State.ended_setCrCore (s : State) (c n : Nat) (v : Word) : (s.setCrCore c n v).ended = s.ended := rfl
@[simp] theorem State.fctr_setCrCore (s : State) (c n : Nat) (v : Word) : (s.setCrCore c n v).fctr = s.fctr := rfl
@[simp] theorem State.clk_setCrCore (s : State) (c n : Nat) (v : Word) : (s.setCrCore c n v).clk = s.clk := rfl
@[simp] theorem State.dt_setCrCore (s : State) (c n : Nat) (v : Word) : (s.setCrCore c n v).dt = s.dt := rfl
@[simp] theorem State.ppm_setCrCore (s : State) (c n : Nat) (v : Word) : (s.setCrCore c n v).ppm = s.ppm := rfl
@[simp] theorem State.banks_setCrCore (s : State) (c n : Nat) (v : Word) : (s.setCrCore c n v).banks = s.banks := rfl
@[simp] theorem State.seats_setCrCore (s : State) (c n : Nat) (v : Word) : (s.setCrCore c n v).seats = s.seats := rfl
@[simp] theorem State.crs_setCrCore (s : State) (c n : Nat) (v : Word) : (s.setCrCore c n v).crs = s.crs := rfl
@[simp] theorem State.eregs_setCrCore (s : State) (c n : Nat) (v : Word) : (s.setCrCore c n v).eregs = s.eregs := rfl
@[simp] theorem State.mem_setCrCore (s : State) (c n : Nat) (v : Word) : (s.setCrCore c n v).mem = s.mem := rfl
@[simp] theorem State.ue_setCrCore (s : State) (c n : Nat) (v : Word) : (s.setCrCore c n v).ue = s.ue := rfl
@[simp] theorem State.lines_setCrCore (s : State) (c n : Nat) (v : Word) : (s.setCrCore c n v).lines = s.lines := rfl
@[simp] theorem State.l2_setCrCore (s : State) (c n : Nat) (v : Word) : (s.setCrCore c n v).l2 = s.l2 := rfl
@[simp] theorem State.net_setCrCore (s : State) (c n : Nat) (v : Word) : (s.setCrCore c n v).net = s.net := rfl
@[simp] theorem State.msgNo_setCrCore (s : State) (c n : Nat) (v : Word) : (s.setCrCore c n v).msgNo = s.msgNo := rfl
@[simp] theorem State.meshStop_setCrCore (s : State) (c n : Nat) (v : Word) : (s.setCrCore c n v).meshStop = s.meshStop := rfl
@[simp] theorem State.stage_setCrCore (s : State) (c n : Nat) (v : Word) : (s.setCrCore c n v).stage = s.stage := rfl
@[simp] theorem State.doorRes_setCrCore (s : State) (c n : Nat) (v : Word) : (s.setCrCore c n v).doorRes = s.doorRes := rfl
@[simp] theorem State.routes_setCrCore (s : State) (c n : Nat) (v : Word) : (s.setCrCore c n v).routes = s.routes := rfl
@[simp] theorem State.slots_setCrCore (s : State) (c n : Nat) (v : Word) : (s.setCrCore c n v).slots = s.slots := rfl
@[simp] theorem State.mmus_setCrCore (s : State) (c n : Nat) (v : Word) : (s.setCrCore c n v).mmus = s.mmus := rfl
@[simp] theorem State.moves_setCrCore (s : State) (c n : Nat) (v : Word) : (s.setCrCore c n v).moves = s.moves := rfl
@[simp] theorem State.tlbBusy_setCrCore (s : State) (c n : Nat) (v : Word) : (s.setCrCore c n v).tlbBusy = s.tlbBusy := rfl
@[simp] theorem State.extq_setCrCore (s : State) (c n : Nat) (v : Word) : (s.setCrCore c n v).extq = s.extq := rfl
@[simp] theorem State.boxes_setCrCore (s : State) (c n : Nat) (v : Word) : (s.setCrCore c n v).boxes = s.boxes := rfl
@[simp] theorem State.evRoutes_setCrCore (s : State) (c n : Nat) (v : Word) : (s.setCrCore c n v).evRoutes = s.evRoutes := rfl
@[simp] theorem State.frames_setCrCore (s : State) (c n : Nat) (v : Word) : (s.setCrCore c n v).frames = s.frames := rfl
@[simp] theorem State.pulses_setCrCore (s : State) (c n : Nat) (v : Word) : (s.setCrCore c n v).pulses = s.pulses := rfl
@[simp] theorem State.gcache_setCrCore (s : State) (c n : Nat) (v : Word) : (s.setCrCore c n v).gcache = s.gcache := rfl
@[simp] theorem State.sevents_setCrCore (s : State) (c n : Nat) (v : Word) : (s.setCrCore c n v).sevents = s.sevents := rfl
@[simp] theorem State.scheds_setCrCore (s : State) (c n : Nat) (v : Word) : (s.setCrCore c n v).scheds = s.scheds := rfl
@[simp] theorem State.bells_setCrCore (s : State) (c n : Nat) (v : Word) : (s.setCrCore c n v).bells = s.bells := rfl
@[simp] theorem State.sigDue_setCrCore (s : State) (c n : Nat) (v : Word) : (s.setCrCore c n v).sigDue = s.sigDue := rfl
@[simp] theorem State.holds_setCrCore (s : State) (c n : Nat) (v : Word) : (s.setCrCore c n v).holds = s.holds := rfl
@[simp] theorem State.book_setCrCore (s : State) (c n : Nat) (v : Word) : (s.setCrCore c n v).book = s.book := rfl
@[simp] theorem State.acked_setCrCore (s : State) (c n : Nat) (v : Word) : (s.setCrCore c n v).acked = s.acked := rfl
@[simp] theorem State.peerHb_setCrCore (s : State) (c n : Nat) (v : Word) : (s.setCrCore c n v).peerHb = s.peerHb := rfl
@[simp] theorem State.xcopy_setCrCore (s : State) (c n : Nat) (v : Word) : (s.setCrCore c n v).xcopy = s.xcopy := rfl
@[simp] theorem State.stopped_setCrCore (s : State) (c n : Nat) (v : Word) : (s.setCrCore c n v).stopped = s.stopped := rfl
@[simp] theorem State.linkUp_setCrCore (s : State) (c n : Nat) (v : Word) : (s.setCrCore c n v).linkUp = s.linkUp := rfl
@[simp] theorem State.out_setCrCore (s : State) (c n : Nat) (v : Word) : (s.setCrCore c n v).out = s.out := rfl

/-! setCrGlob. -/

@[simp] theorem State.agenda_setCrGlob (s : State) (d n : Nat) (v : Word) : (s.setCrGlob d n v).agenda = s.agenda := rfl
@[simp] theorem State.turned_setCrGlob (s : State) (d n : Nat) (v : Word) : (s.setCrGlob d n v).turned = s.turned := rfl
@[simp] theorem State.cur_setCrGlob (s : State) (d n : Nat) (v : Word) : (s.setCrGlob d n v).cur = s.cur := rfl
@[simp] theorem State.ended_setCrGlob (s : State) (d n : Nat) (v : Word) : (s.setCrGlob d n v).ended = s.ended := rfl
@[simp] theorem State.fctr_setCrGlob (s : State) (d n : Nat) (v : Word) : (s.setCrGlob d n v).fctr = s.fctr := rfl
@[simp] theorem State.clk_setCrGlob (s : State) (d n : Nat) (v : Word) : (s.setCrGlob d n v).clk = s.clk := rfl
@[simp] theorem State.dt_setCrGlob (s : State) (d n : Nat) (v : Word) : (s.setCrGlob d n v).dt = s.dt := rfl
@[simp] theorem State.ppm_setCrGlob (s : State) (d n : Nat) (v : Word) : (s.setCrGlob d n v).ppm = s.ppm := rfl
@[simp] theorem State.banks_setCrGlob (s : State) (d n : Nat) (v : Word) : (s.setCrGlob d n v).banks = s.banks := rfl
@[simp] theorem State.seats_setCrGlob (s : State) (d n : Nat) (v : Word) : (s.setCrGlob d n v).seats = s.seats := rfl
@[simp] theorem State.cores_setCrGlob (s : State) (d n : Nat) (v : Word) : (s.setCrGlob d n v).cores = s.cores := rfl
@[simp] theorem State.eregs_setCrGlob (s : State) (d n : Nat) (v : Word) : (s.setCrGlob d n v).eregs = s.eregs := rfl
@[simp] theorem State.mem_setCrGlob (s : State) (d n : Nat) (v : Word) : (s.setCrGlob d n v).mem = s.mem := rfl
@[simp] theorem State.ue_setCrGlob (s : State) (d n : Nat) (v : Word) : (s.setCrGlob d n v).ue = s.ue := rfl
@[simp] theorem State.lines_setCrGlob (s : State) (d n : Nat) (v : Word) : (s.setCrGlob d n v).lines = s.lines := rfl
@[simp] theorem State.l2_setCrGlob (s : State) (d n : Nat) (v : Word) : (s.setCrGlob d n v).l2 = s.l2 := rfl
@[simp] theorem State.net_setCrGlob (s : State) (d n : Nat) (v : Word) : (s.setCrGlob d n v).net = s.net := rfl
@[simp] theorem State.msgNo_setCrGlob (s : State) (d n : Nat) (v : Word) : (s.setCrGlob d n v).msgNo = s.msgNo := rfl
@[simp] theorem State.meshStop_setCrGlob (s : State) (d n : Nat) (v : Word) : (s.setCrGlob d n v).meshStop = s.meshStop := rfl
@[simp] theorem State.stage_setCrGlob (s : State) (d n : Nat) (v : Word) : (s.setCrGlob d n v).stage = s.stage := rfl
@[simp] theorem State.doorRes_setCrGlob (s : State) (d n : Nat) (v : Word) : (s.setCrGlob d n v).doorRes = s.doorRes := rfl
@[simp] theorem State.routes_setCrGlob (s : State) (d n : Nat) (v : Word) : (s.setCrGlob d n v).routes = s.routes := rfl
@[simp] theorem State.slots_setCrGlob (s : State) (d n : Nat) (v : Word) : (s.setCrGlob d n v).slots = s.slots := rfl
@[simp] theorem State.mmus_setCrGlob (s : State) (d n : Nat) (v : Word) : (s.setCrGlob d n v).mmus = s.mmus := rfl
@[simp] theorem State.moves_setCrGlob (s : State) (d n : Nat) (v : Word) : (s.setCrGlob d n v).moves = s.moves := rfl
@[simp] theorem State.tlbBusy_setCrGlob (s : State) (d n : Nat) (v : Word) : (s.setCrGlob d n v).tlbBusy = s.tlbBusy := rfl
@[simp] theorem State.extq_setCrGlob (s : State) (d n : Nat) (v : Word) : (s.setCrGlob d n v).extq = s.extq := rfl
@[simp] theorem State.boxes_setCrGlob (s : State) (d n : Nat) (v : Word) : (s.setCrGlob d n v).boxes = s.boxes := rfl
@[simp] theorem State.evRoutes_setCrGlob (s : State) (d n : Nat) (v : Word) : (s.setCrGlob d n v).evRoutes = s.evRoutes := rfl
@[simp] theorem State.frames_setCrGlob (s : State) (d n : Nat) (v : Word) : (s.setCrGlob d n v).frames = s.frames := rfl
@[simp] theorem State.pulses_setCrGlob (s : State) (d n : Nat) (v : Word) : (s.setCrGlob d n v).pulses = s.pulses := rfl
@[simp] theorem State.gcache_setCrGlob (s : State) (d n : Nat) (v : Word) : (s.setCrGlob d n v).gcache = s.gcache := rfl
@[simp] theorem State.sevents_setCrGlob (s : State) (d n : Nat) (v : Word) : (s.setCrGlob d n v).sevents = s.sevents := rfl
@[simp] theorem State.scheds_setCrGlob (s : State) (d n : Nat) (v : Word) : (s.setCrGlob d n v).scheds = s.scheds := rfl
@[simp] theorem State.bells_setCrGlob (s : State) (d n : Nat) (v : Word) : (s.setCrGlob d n v).bells = s.bells := rfl
@[simp] theorem State.sigDue_setCrGlob (s : State) (d n : Nat) (v : Word) : (s.setCrGlob d n v).sigDue = s.sigDue := rfl
@[simp] theorem State.holds_setCrGlob (s : State) (d n : Nat) (v : Word) : (s.setCrGlob d n v).holds = s.holds := rfl
@[simp] theorem State.book_setCrGlob (s : State) (d n : Nat) (v : Word) : (s.setCrGlob d n v).book = s.book := rfl
@[simp] theorem State.acked_setCrGlob (s : State) (d n : Nat) (v : Word) : (s.setCrGlob d n v).acked = s.acked := rfl
@[simp] theorem State.peerHb_setCrGlob (s : State) (d n : Nat) (v : Word) : (s.setCrGlob d n v).peerHb = s.peerHb := rfl
@[simp] theorem State.xcopy_setCrGlob (s : State) (d n : Nat) (v : Word) : (s.setCrGlob d n v).xcopy = s.xcopy := rfl
@[simp] theorem State.stopped_setCrGlob (s : State) (d n : Nat) (v : Word) : (s.setCrGlob d n v).stopped = s.stopped := rfl
@[simp] theorem State.linkUp_setCrGlob (s : State) (d n : Nat) (v : Word) : (s.setCrGlob d n v).linkUp = s.linkUp := rfl
@[simp] theorem State.out_setCrGlob (s : State) (d n : Nat) (v : Word) : (s.setCrGlob d n v).out = s.out := rfl

/-! setEregCore. -/

@[simp] theorem State.agenda_setEregCore (s : State) (c e n : Nat) (v : Word) : (s.setEregCore c e n v).agenda = s.agenda := rfl
@[simp] theorem State.turned_setEregCore (s : State) (c e n : Nat) (v : Word) : (s.setEregCore c e n v).turned = s.turned := rfl
@[simp] theorem State.cur_setEregCore (s : State) (c e n : Nat) (v : Word) : (s.setEregCore c e n v).cur = s.cur := rfl
@[simp] theorem State.ended_setEregCore (s : State) (c e n : Nat) (v : Word) : (s.setEregCore c e n v).ended = s.ended := rfl
@[simp] theorem State.fctr_setEregCore (s : State) (c e n : Nat) (v : Word) : (s.setEregCore c e n v).fctr = s.fctr := rfl
@[simp] theorem State.clk_setEregCore (s : State) (c e n : Nat) (v : Word) : (s.setEregCore c e n v).clk = s.clk := rfl
@[simp] theorem State.dt_setEregCore (s : State) (c e n : Nat) (v : Word) : (s.setEregCore c e n v).dt = s.dt := rfl
@[simp] theorem State.ppm_setEregCore (s : State) (c e n : Nat) (v : Word) : (s.setEregCore c e n v).ppm = s.ppm := rfl
@[simp] theorem State.banks_setEregCore (s : State) (c e n : Nat) (v : Word) : (s.setEregCore c e n v).banks = s.banks := rfl
@[simp] theorem State.seats_setEregCore (s : State) (c e n : Nat) (v : Word) : (s.setEregCore c e n v).seats = s.seats := rfl
@[simp] theorem State.crs_setEregCore (s : State) (c e n : Nat) (v : Word) : (s.setEregCore c e n v).crs = s.crs := rfl
@[simp] theorem State.eregs_setEregCore (s : State) (c e n : Nat) (v : Word) : (s.setEregCore c e n v).eregs = s.eregs := rfl
@[simp] theorem State.mem_setEregCore (s : State) (c e n : Nat) (v : Word) : (s.setEregCore c e n v).mem = s.mem := rfl
@[simp] theorem State.ue_setEregCore (s : State) (c e n : Nat) (v : Word) : (s.setEregCore c e n v).ue = s.ue := rfl
@[simp] theorem State.lines_setEregCore (s : State) (c e n : Nat) (v : Word) : (s.setEregCore c e n v).lines = s.lines := rfl
@[simp] theorem State.l2_setEregCore (s : State) (c e n : Nat) (v : Word) : (s.setEregCore c e n v).l2 = s.l2 := rfl
@[simp] theorem State.net_setEregCore (s : State) (c e n : Nat) (v : Word) : (s.setEregCore c e n v).net = s.net := rfl
@[simp] theorem State.msgNo_setEregCore (s : State) (c e n : Nat) (v : Word) : (s.setEregCore c e n v).msgNo = s.msgNo := rfl
@[simp] theorem State.meshStop_setEregCore (s : State) (c e n : Nat) (v : Word) : (s.setEregCore c e n v).meshStop = s.meshStop := rfl
@[simp] theorem State.stage_setEregCore (s : State) (c e n : Nat) (v : Word) : (s.setEregCore c e n v).stage = s.stage := rfl
@[simp] theorem State.doorRes_setEregCore (s : State) (c e n : Nat) (v : Word) : (s.setEregCore c e n v).doorRes = s.doorRes := rfl
@[simp] theorem State.routes_setEregCore (s : State) (c e n : Nat) (v : Word) : (s.setEregCore c e n v).routes = s.routes := rfl
@[simp] theorem State.slots_setEregCore (s : State) (c e n : Nat) (v : Word) : (s.setEregCore c e n v).slots = s.slots := rfl
@[simp] theorem State.mmus_setEregCore (s : State) (c e n : Nat) (v : Word) : (s.setEregCore c e n v).mmus = s.mmus := rfl
@[simp] theorem State.moves_setEregCore (s : State) (c e n : Nat) (v : Word) : (s.setEregCore c e n v).moves = s.moves := rfl
@[simp] theorem State.tlbBusy_setEregCore (s : State) (c e n : Nat) (v : Word) : (s.setEregCore c e n v).tlbBusy = s.tlbBusy := rfl
@[simp] theorem State.extq_setEregCore (s : State) (c e n : Nat) (v : Word) : (s.setEregCore c e n v).extq = s.extq := rfl
@[simp] theorem State.boxes_setEregCore (s : State) (c e n : Nat) (v : Word) : (s.setEregCore c e n v).boxes = s.boxes := rfl
@[simp] theorem State.evRoutes_setEregCore (s : State) (c e n : Nat) (v : Word) : (s.setEregCore c e n v).evRoutes = s.evRoutes := rfl
@[simp] theorem State.frames_setEregCore (s : State) (c e n : Nat) (v : Word) : (s.setEregCore c e n v).frames = s.frames := rfl
@[simp] theorem State.pulses_setEregCore (s : State) (c e n : Nat) (v : Word) : (s.setEregCore c e n v).pulses = s.pulses := rfl
@[simp] theorem State.gcache_setEregCore (s : State) (c e n : Nat) (v : Word) : (s.setEregCore c e n v).gcache = s.gcache := rfl
@[simp] theorem State.sevents_setEregCore (s : State) (c e n : Nat) (v : Word) : (s.setEregCore c e n v).sevents = s.sevents := rfl
@[simp] theorem State.scheds_setEregCore (s : State) (c e n : Nat) (v : Word) : (s.setEregCore c e n v).scheds = s.scheds := rfl
@[simp] theorem State.bells_setEregCore (s : State) (c e n : Nat) (v : Word) : (s.setEregCore c e n v).bells = s.bells := rfl
@[simp] theorem State.sigDue_setEregCore (s : State) (c e n : Nat) (v : Word) : (s.setEregCore c e n v).sigDue = s.sigDue := rfl
@[simp] theorem State.holds_setEregCore (s : State) (c e n : Nat) (v : Word) : (s.setEregCore c e n v).holds = s.holds := rfl
@[simp] theorem State.book_setEregCore (s : State) (c e n : Nat) (v : Word) : (s.setEregCore c e n v).book = s.book := rfl
@[simp] theorem State.acked_setEregCore (s : State) (c e n : Nat) (v : Word) : (s.setEregCore c e n v).acked = s.acked := rfl
@[simp] theorem State.peerHb_setEregCore (s : State) (c e n : Nat) (v : Word) : (s.setEregCore c e n v).peerHb = s.peerHb := rfl
@[simp] theorem State.xcopy_setEregCore (s : State) (c e n : Nat) (v : Word) : (s.setEregCore c e n v).xcopy = s.xcopy := rfl
@[simp] theorem State.stopped_setEregCore (s : State) (c e n : Nat) (v : Word) : (s.setEregCore c e n v).stopped = s.stopped := rfl
@[simp] theorem State.linkUp_setEregCore (s : State) (c e n : Nat) (v : Word) : (s.setEregCore c e n v).linkUp = s.linkUp := rfl
@[simp] theorem State.out_setEregCore (s : State) (c e n : Nat) (v : Word) : (s.setEregCore c e n v).out = s.out := rfl

/-! setEregUnit. -/

@[simp] theorem State.agenda_setEregUnit (s : State) (u e n : Nat) (v : Word) : (s.setEregUnit u e n v).agenda = s.agenda := rfl
@[simp] theorem State.turned_setEregUnit (s : State) (u e n : Nat) (v : Word) : (s.setEregUnit u e n v).turned = s.turned := rfl
@[simp] theorem State.cur_setEregUnit (s : State) (u e n : Nat) (v : Word) : (s.setEregUnit u e n v).cur = s.cur := rfl
@[simp] theorem State.ended_setEregUnit (s : State) (u e n : Nat) (v : Word) : (s.setEregUnit u e n v).ended = s.ended := rfl
@[simp] theorem State.fctr_setEregUnit (s : State) (u e n : Nat) (v : Word) : (s.setEregUnit u e n v).fctr = s.fctr := rfl
@[simp] theorem State.clk_setEregUnit (s : State) (u e n : Nat) (v : Word) : (s.setEregUnit u e n v).clk = s.clk := rfl
@[simp] theorem State.dt_setEregUnit (s : State) (u e n : Nat) (v : Word) : (s.setEregUnit u e n v).dt = s.dt := rfl
@[simp] theorem State.ppm_setEregUnit (s : State) (u e n : Nat) (v : Word) : (s.setEregUnit u e n v).ppm = s.ppm := rfl
@[simp] theorem State.banks_setEregUnit (s : State) (u e n : Nat) (v : Word) : (s.setEregUnit u e n v).banks = s.banks := rfl
@[simp] theorem State.seats_setEregUnit (s : State) (u e n : Nat) (v : Word) : (s.setEregUnit u e n v).seats = s.seats := rfl
@[simp] theorem State.cores_setEregUnit (s : State) (u e n : Nat) (v : Word) : (s.setEregUnit u e n v).cores = s.cores := rfl
@[simp] theorem State.crs_setEregUnit (s : State) (u e n : Nat) (v : Word) : (s.setEregUnit u e n v).crs = s.crs := rfl
@[simp] theorem State.mem_setEregUnit (s : State) (u e n : Nat) (v : Word) : (s.setEregUnit u e n v).mem = s.mem := rfl
@[simp] theorem State.ue_setEregUnit (s : State) (u e n : Nat) (v : Word) : (s.setEregUnit u e n v).ue = s.ue := rfl
@[simp] theorem State.lines_setEregUnit (s : State) (u e n : Nat) (v : Word) : (s.setEregUnit u e n v).lines = s.lines := rfl
@[simp] theorem State.l2_setEregUnit (s : State) (u e n : Nat) (v : Word) : (s.setEregUnit u e n v).l2 = s.l2 := rfl
@[simp] theorem State.net_setEregUnit (s : State) (u e n : Nat) (v : Word) : (s.setEregUnit u e n v).net = s.net := rfl
@[simp] theorem State.msgNo_setEregUnit (s : State) (u e n : Nat) (v : Word) : (s.setEregUnit u e n v).msgNo = s.msgNo := rfl
@[simp] theorem State.meshStop_setEregUnit (s : State) (u e n : Nat) (v : Word) : (s.setEregUnit u e n v).meshStop = s.meshStop := rfl
@[simp] theorem State.stage_setEregUnit (s : State) (u e n : Nat) (v : Word) : (s.setEregUnit u e n v).stage = s.stage := rfl
@[simp] theorem State.doorRes_setEregUnit (s : State) (u e n : Nat) (v : Word) : (s.setEregUnit u e n v).doorRes = s.doorRes := rfl
@[simp] theorem State.routes_setEregUnit (s : State) (u e n : Nat) (v : Word) : (s.setEregUnit u e n v).routes = s.routes := rfl
@[simp] theorem State.slots_setEregUnit (s : State) (u e n : Nat) (v : Word) : (s.setEregUnit u e n v).slots = s.slots := rfl
@[simp] theorem State.mmus_setEregUnit (s : State) (u e n : Nat) (v : Word) : (s.setEregUnit u e n v).mmus = s.mmus := rfl
@[simp] theorem State.moves_setEregUnit (s : State) (u e n : Nat) (v : Word) : (s.setEregUnit u e n v).moves = s.moves := rfl
@[simp] theorem State.tlbBusy_setEregUnit (s : State) (u e n : Nat) (v : Word) : (s.setEregUnit u e n v).tlbBusy = s.tlbBusy := rfl
@[simp] theorem State.extq_setEregUnit (s : State) (u e n : Nat) (v : Word) : (s.setEregUnit u e n v).extq = s.extq := rfl
@[simp] theorem State.boxes_setEregUnit (s : State) (u e n : Nat) (v : Word) : (s.setEregUnit u e n v).boxes = s.boxes := rfl
@[simp] theorem State.evRoutes_setEregUnit (s : State) (u e n : Nat) (v : Word) : (s.setEregUnit u e n v).evRoutes = s.evRoutes := rfl
@[simp] theorem State.frames_setEregUnit (s : State) (u e n : Nat) (v : Word) : (s.setEregUnit u e n v).frames = s.frames := rfl
@[simp] theorem State.pulses_setEregUnit (s : State) (u e n : Nat) (v : Word) : (s.setEregUnit u e n v).pulses = s.pulses := rfl
@[simp] theorem State.gcache_setEregUnit (s : State) (u e n : Nat) (v : Word) : (s.setEregUnit u e n v).gcache = s.gcache := rfl
@[simp] theorem State.sevents_setEregUnit (s : State) (u e n : Nat) (v : Word) : (s.setEregUnit u e n v).sevents = s.sevents := rfl
@[simp] theorem State.scheds_setEregUnit (s : State) (u e n : Nat) (v : Word) : (s.setEregUnit u e n v).scheds = s.scheds := rfl
@[simp] theorem State.bells_setEregUnit (s : State) (u e n : Nat) (v : Word) : (s.setEregUnit u e n v).bells = s.bells := rfl
@[simp] theorem State.sigDue_setEregUnit (s : State) (u e n : Nat) (v : Word) : (s.setEregUnit u e n v).sigDue = s.sigDue := rfl
@[simp] theorem State.holds_setEregUnit (s : State) (u e n : Nat) (v : Word) : (s.setEregUnit u e n v).holds = s.holds := rfl
@[simp] theorem State.book_setEregUnit (s : State) (u e n : Nat) (v : Word) : (s.setEregUnit u e n v).book = s.book := rfl
@[simp] theorem State.acked_setEregUnit (s : State) (u e n : Nat) (v : Word) : (s.setEregUnit u e n v).acked = s.acked := rfl
@[simp] theorem State.peerHb_setEregUnit (s : State) (u e n : Nat) (v : Word) : (s.setEregUnit u e n v).peerHb = s.peerHb := rfl
@[simp] theorem State.xcopy_setEregUnit (s : State) (u e n : Nat) (v : Word) : (s.setEregUnit u e n v).xcopy = s.xcopy := rfl
@[simp] theorem State.stopped_setEregUnit (s : State) (u e n : Nat) (v : Word) : (s.setEregUnit u e n v).stopped = s.stopped := rfl
@[simp] theorem State.linkUp_setEregUnit (s : State) (u e n : Nat) (v : Word) : (s.setEregUnit u e n v).linkUp = s.linkUp := rfl
@[simp] theorem State.out_setEregUnit (s : State) (u e n : Nat) (v : Word) : (s.setEregUnit u e n v).out = s.out := rfl

/-! Reads. -/

@[simp] theorem State.seat_modBank (s : State) (p : Place) (f : Bank → Bank) (k j : Nat) : (s.modBank p f).seat k j = s.seat k j := rfl
@[simp] theorem State.core_modBank (s : State) (p : Place) (f : Bank → Bank) (k : Nat) : (s.modBank p f).core k = s.core k := rfl
@[simp] theorem State.slot_modBank (s : State) (p : Place) (f : Bank → Bank) (r : Nat) : (s.modBank p f).slot r = s.slot r := rfl
@[simp] theorem State.crGlob_modBank (s : State) (p : Place) (f : Bank → Bank) (d m : Nat) : (s.modBank p f).crGlob d m = s.crGlob d m := rfl
@[simp] theorem State.eregUnit_modBank (s : State) (p : Place) (f : Bank → Bank) (u g m : Nat) : (s.modBank p f).eregUnit u g m = s.eregUnit u g m := rfl
@[simp] theorem State.seat_upd (s : State) (f : Bank → Bank) (k j : Nat) : (s.upd f).seat k j = s.seat k j := rfl
@[simp] theorem State.core_upd (s : State) (f : Bank → Bank) (k : Nat) : (s.upd f).core k = s.core k := rfl
@[simp] theorem State.slot_upd (s : State) (f : Bank → Bank) (r : Nat) : (s.upd f).slot r = s.slot r := rfl
@[simp] theorem State.crGlob_upd (s : State) (f : Bank → Bank) (d m : Nat) : (s.upd f).crGlob d m = s.crGlob d m := rfl
@[simp] theorem State.eregUnit_upd (s : State) (f : Bank → Bank) (u g m : Nat) : (s.upd f).eregUnit u g m = s.eregUnit u g m := rfl
@[simp] theorem State.bank_modSeat (s : State) (c i : Nat) (f : Seat → Seat) (pl : Place) : (s.modSeat c i f).bank pl = s.bank pl := rfl
@[simp] theorem State.core_modSeat (s : State) (c i : Nat) (f : Seat → Seat) (k : Nat) : (s.modSeat c i f).core k = s.core k := rfl
@[simp] theorem State.slot_modSeat (s : State) (c i : Nat) (f : Seat → Seat) (r : Nat) : (s.modSeat c i f).slot r = s.slot r := rfl
@[simp] theorem State.crGlob_modSeat (s : State) (c i : Nat) (f : Seat → Seat) (d m : Nat) : (s.modSeat c i f).crGlob d m = s.crGlob d m := rfl
@[simp] theorem State.eregUnit_modSeat (s : State) (c i : Nat) (f : Seat → Seat) (u g m : Nat) : (s.modSeat c i f).eregUnit u g m = s.eregUnit u g m := rfl
@[simp] theorem State.bank_modCore (s : State) (c : Nat) (f : Core → Core) (pl : Place) : (s.modCore c f).bank pl = s.bank pl := rfl
@[simp] theorem State.seat_modCore (s : State) (c : Nat) (f : Core → Core) (k j : Nat) : (s.modCore c f).seat k j = s.seat k j := rfl
@[simp] theorem State.slot_modCore (s : State) (c : Nat) (f : Core → Core) (r : Nat) : (s.modCore c f).slot r = s.slot r := rfl
@[simp] theorem State.crGlob_modCore (s : State) (c : Nat) (f : Core → Core) (d m : Nat) : (s.modCore c f).crGlob d m = s.crGlob d m := rfl
@[simp] theorem State.eregUnit_modCore (s : State) (c : Nat) (f : Core → Core) (u g m : Nat) : (s.modCore c f).eregUnit u g m = s.eregUnit u g m := rfl
@[simp] theorem State.bank_modSlot (s : State) (q : Nat) (f : Slot → Slot) (pl : Place) : (s.modSlot q f).bank pl = s.bank pl := rfl
@[simp] theorem State.seat_modSlot (s : State) (q : Nat) (f : Slot → Slot) (k j : Nat) : (s.modSlot q f).seat k j = s.seat k j := rfl
@[simp] theorem State.core_modSlot (s : State) (q : Nat) (f : Slot → Slot) (k : Nat) : (s.modSlot q f).core k = s.core k := rfl
@[simp] theorem State.crGlob_modSlot (s : State) (q : Nat) (f : Slot → Slot) (d m : Nat) : (s.modSlot q f).crGlob d m = s.crGlob d m := rfl
@[simp] theorem State.eregUnit_modSlot (s : State) (q : Nat) (f : Slot → Slot) (u g m : Nat) : (s.modSlot q f).eregUnit u g m = s.eregUnit u g m := rfl
@[simp] theorem State.bank_modQueue (s : State) (c key : Nat) (f : List ECmd → List ECmd) (pl : Place) : (s.modQueue c key f).bank pl = s.bank pl := rfl
@[simp] theorem State.seat_modQueue (s : State) (c key : Nat) (f : List ECmd → List ECmd) (k j : Nat) : (s.modQueue c key f).seat k j = s.seat k j := rfl
@[simp] theorem State.slot_modQueue (s : State) (c key : Nat) (f : List ECmd → List ECmd) (r : Nat) : (s.modQueue c key f).slot r = s.slot r := rfl
@[simp] theorem State.crGlob_modQueue (s : State) (c key : Nat) (f : List ECmd → List ECmd) (d m : Nat) : (s.modQueue c key f).crGlob d m = s.crGlob d m := rfl
@[simp] theorem State.eregUnit_modQueue (s : State) (c key : Nat) (f : List ECmd → List ECmd) (u g m : Nat) : (s.modQueue c key f).eregUnit u g m = s.eregUnit u g m := rfl
@[simp] theorem State.bank_setCrCore (s : State) (c n : Nat) (v : Word) (pl : Place) : (s.setCrCore c n v).bank pl = s.bank pl := rfl
@[simp] theorem State.seat_setCrCore (s : State) (c n : Nat) (v : Word) (k j : Nat) : (s.setCrCore c n v).seat k j = s.seat k j := rfl
@[simp] theorem State.slot_setCrCore (s : State) (c n : Nat) (v : Word) (r : Nat) : (s.setCrCore c n v).slot r = s.slot r := rfl
@[simp] theorem State.crGlob_setCrCore (s : State) (c n : Nat) (v : Word) (d m : Nat) : (s.setCrCore c n v).crGlob d m = s.crGlob d m := rfl
@[simp] theorem State.eregUnit_setCrCore (s : State) (c n : Nat) (v : Word) (u g m : Nat) : (s.setCrCore c n v).eregUnit u g m = s.eregUnit u g m := rfl
@[simp] theorem State.bank_setCrGlob (s : State) (d n : Nat) (v : Word) (pl : Place) : (s.setCrGlob d n v).bank pl = s.bank pl := rfl
@[simp] theorem State.seat_setCrGlob (s : State) (d n : Nat) (v : Word) (k j : Nat) : (s.setCrGlob d n v).seat k j = s.seat k j := rfl
@[simp] theorem State.core_setCrGlob (s : State) (d n : Nat) (v : Word) (k : Nat) : (s.setCrGlob d n v).core k = s.core k := rfl
@[simp] theorem State.slot_setCrGlob (s : State) (d n : Nat) (v : Word) (r : Nat) : (s.setCrGlob d n v).slot r = s.slot r := rfl
@[simp] theorem State.eregUnit_setCrGlob (s : State) (d n : Nat) (v : Word) (u g m : Nat) : (s.setCrGlob d n v).eregUnit u g m = s.eregUnit u g m := rfl
@[simp] theorem State.bank_setEregCore (s : State) (c e n : Nat) (v : Word) (pl : Place) : (s.setEregCore c e n v).bank pl = s.bank pl := rfl
@[simp] theorem State.seat_setEregCore (s : State) (c e n : Nat) (v : Word) (k j : Nat) : (s.setEregCore c e n v).seat k j = s.seat k j := rfl
@[simp] theorem State.slot_setEregCore (s : State) (c e n : Nat) (v : Word) (r : Nat) : (s.setEregCore c e n v).slot r = s.slot r := rfl
@[simp] theorem State.crGlob_setEregCore (s : State) (c e n : Nat) (v : Word) (d m : Nat) : (s.setEregCore c e n v).crGlob d m = s.crGlob d m := rfl
@[simp] theorem State.eregUnit_setEregCore (s : State) (c e n : Nat) (v : Word) (u g m : Nat) : (s.setEregCore c e n v).eregUnit u g m = s.eregUnit u g m := rfl
@[simp] theorem State.bank_setEregUnit (s : State) (u e n : Nat) (v : Word) (pl : Place) : (s.setEregUnit u e n v).bank pl = s.bank pl := rfl
@[simp] theorem State.seat_setEregUnit (s : State) (u e n : Nat) (v : Word) (k j : Nat) : (s.setEregUnit u e n v).seat k j = s.seat k j := rfl
@[simp] theorem State.core_setEregUnit (s : State) (u e n : Nat) (v : Word) (k : Nat) : (s.setEregUnit u e n v).core k = s.core k := rfl
@[simp] theorem State.slot_setEregUnit (s : State) (u e n : Nat) (v : Word) (r : Nat) : (s.setEregUnit u e n v).slot r = s.slot r := rfl
@[simp] theorem State.crGlob_setEregUnit (s : State) (u e n : Nat) (v : Word) (d m : Nat) : (s.setEregUnit u e n v).crGlob d m = s.crGlob d m := rfl

theorem Place.key_inj {p q : Place} (hp : p.seat < 16) (hpb : p.bank < 4) (hq : q.seat < 16) (hqb : q.bank < 4)
    (h : p.key = q.key) : p = q := by
  obtain ⟨c, i, b⟩ := p
  obtain ⟨d, j, e⟩ := q
  simp only [Place.key, Place.mk.injEq] at *
  omega

@[simp] theorem State.bank_modBank_same (s : State) (p : Place) (f : Bank → Bank) : (s.modBank p f).bank p = f (s.bank p) := by
  simp [State.modBank, State.bank]
theorem State.bank_modBank_other (s : State) {p q : Place} (f : Bank → Bank) (h : p.key ≠ q.key) :
    (s.modBank p f).bank q = s.bank q := by
  simp [State.modBank, State.bank, mget_mset_other _ _ _ h]
@[simp] theorem State.seat_modSeat_same (s : State) (c i : Nat) (f : Seat → Seat) : (s.modSeat c i f).seat c i = f (s.seat c i) := by
  simp [State.modSeat, State.seat]
theorem State.seat_modSeat_other (s : State) {c i d j : Nat} (f : Seat → Seat) (h : c * 16 + i ≠ d * 16 + j) :
    (s.modSeat c i f).seat d j = s.seat d j := by
  simp [State.modSeat, State.seat, mget_mset_other _ _ _ h]
@[simp] theorem State.core_modCore_same (s : State) (c : Nat) (f : Core → Core) : (s.modCore c f).core c = f (s.core c) := by
  simp [State.modCore, State.core]
theorem State.core_modCore_other (s : State) {c d : Nat} (f : Core → Core) (h : c ≠ d) : (s.modCore c f).core d = s.core d := by
  simp [State.modCore, State.core, mget_mset_other _ _ _ h]
@[simp] theorem State.slot_modSlot_same (s : State) (q : Nat) (f : Slot → Slot) : (s.modSlot q f).slot q = f (s.slot q) := by
  simp [State.modSlot, State.slot]
theorem State.slot_modSlot_other (s : State) {q r : Nat} (f : Slot → Slot) (h : q ≠ r) : (s.modSlot q f).slot r = s.slot r := by
  simp [State.modSlot, State.slot, mget_mset_other _ _ _ h]
@[simp] theorem State.crCore_setCrCore_same (s : State) (c n : Nat) (v : Word) : (s.setCrCore c n v).crCore c n = v := by
  simp [State.setCrCore, State.crCore]
@[simp] theorem State.crGlob_setCrGlob_same (s : State) (d n : Nat) (v : Word) : (s.setCrGlob d n v).crGlob d n = v := by
  simp [State.setCrGlob, State.crGlob]

/-- s0 reads zero (R14). -/
@[simp] theorem State.reg_zero (s : State) (p : Place) : s.reg p 0 = 0 := rfl
/-- Writes to s0 are discarded (R14). -/
@[simp] theorem State.setReg_zero (s : State) (p : Place) (v : Word) : s.setReg p 0 v = s := rfl

end Sys2Proof.Machine
end

