-- ==== Sys2Proof/Laws/Access.lean ====
section
/-! SUPPORT. Laws of the checks of an access: translation changes only the translation caches, and the windows in which the
home slices count the reads of its walk. -/
namespace Sys2Proof.Machine

/-- Changing one MMU changes only the MMUs. -/
theorem State.modMmu_only (s : State) (cl : Nat) (f : Mmu → Mmu) : ∃ m, s.modMmu cl f = { s with mmus := m } := ⟨_, rfl⟩

/-- An access counted at a home slice changes only the lines' windows. -/
theorem State.l2Access_only (s : State) (c l : Nat) : ∃ t, s.l2Access c l = { s with l2 := t } := by
  unfold State.l2Access
  split
  · exact ⟨s.l2, rfl⟩
  · exact ⟨_, rfl⟩

/-- So do several. -/
theorem State.l2Accesses_only (f : State → Nat → Nat × Nat) (as : List Nat) (s : State) :
    ∃ t, as.foldl (fun (s : State) a => s.l2Access (f s a).1 (f s a).2) s = { s with l2 := t } := by
  induction as generalizing s with
  | nil => exact ⟨s.l2, rfl⟩
  | cons a as ih =>
    obtain ⟨t, ht⟩ := s.l2Access_only (f s a).1 (f s a).2
    obtain ⟨u, hu⟩ := ih (s.l2Access (f s a).1 (f s a).2)
    exact ⟨u, hu.trans (by rw [ht])⟩

/-- Translation changes at most the MMUs and the lines' windows. -/
theorem State.translate_only (s : State) (who : Option Who) (c slot va : Nat) (w x : Bool) :
    ∃ m l, (s.translate who c slot va w x).1 = { s with mmus := m, l2 := l } := by
  unfold State.translate
  dsimp only
  split
  · exact ⟨s.mmus, s.l2, rfl⟩
  · split
    · exact ⟨s.mmus, s.l2, rfl⟩
    · obtain ⟨l, hl⟩ := State.l2Accesses_only (fun s a => (c, lineOf (s.redirect a)))
        (s.walkReads va [(63, 57), (56, 48), (47, 39), (38, 30)] (s.slot slot).root) s
      exact ⟨_, l, by simp only [hl]; rfl⟩

/-- Placing an access changes at most the MMUs and the lines' windows. -/
theorem State.place_only (s : State) (p : Place) (g : Seg) (off n : Nat) (w x : Bool) :
    ∃ m l, (s.place p g off n w x).1 = { s with mmus := m, l2 := l } := by
  unfold State.place
  dsimp only
  split
  · obtain ⟨m, l, hm⟩ := s.translate_only (some (.seat p)) p.core (s.bank p).cslot.toNat ((g.base.toNat + off) % 2 ^ 64) w x
    split <;> rename_i heq <;> rw [heq] at hm
    · split
      · exact ⟨m, l, hm⟩
      · exact ⟨m, l, hm⟩
    all_goals exact ⟨m, l, hm⟩
  · split
    · split <;> exact ⟨s.mmus, s.l2, rfl⟩
    · exact ⟨s.mmus, s.l2, rfl⟩

/-- The checks of an access change at most the MMUs and the lines' windows. -/
theorem State.locate_only (s : State) (p : Place) (seg off n al : Nat) (r w x : Bool) :
    ∃ m l, (s.locate p seg off n al r w x).1 = { s with mmus := m, l2 := l } := by
  unfold State.locate
  dsimp only
  split
  · exact ⟨s.mmus, s.l2, rfl⟩
  · exact s.place_only p _ off n w x

/-- The checks of an access leave what an access of its bytes waits for as it is. -/
theorem State.heldBack_locate {s s' : State} {q p : Place} {seg off n al : Nat} {r w x : Bool} {a : Acc} {ks : List Nat}
    (h : s.locate q seg off n al r w x = (s', a)) : s'.heldBack p ks = s.heldBack p ks := by
  obtain ⟨m, l, hm⟩ := s.locate_only q seg off n al r w x
  rw [h] at hm
  obtain rfl : s' = { s with mmus := m, l2 := l } := hm
  rfl

/-- A fetch changes at most the MMUs and the lines' windows. -/
theorem State.fetch_only (s : State) (p : Place) (off : Word) :
    ∃ m l, (s.fetch p off).1 = { s with mmus := m, l2 := l } := by
  obtain ⟨m, l, hm⟩ := s.locate_only p 7 off.toNat 4 1 false false true
  unfold State.fetch
  split <;> rename_i heq <;> rw [heq] at hm
  · split <;> exact ⟨m, l, hm⟩
  all_goals exact ⟨m, l, hm⟩

/-- Fetching literal words changes at most the MMUs and the lines' windows. -/
theorem State.literals_only (s : State) (p : Place) (l : List (Nat × Lit)) (off : Word) :
    ∃ m k, (s.literals p l off).1 = { s with mmus := m, l2 := k } := by
  induction l generalizing s off with
  | nil => exact ⟨s.mmus, s.l2, rfl⟩
  | cons x t ih =>
    unfold State.literals
    split
    · obtain ⟨m, k, hm⟩ := s.fetch_only p off
      split <;> rename_i heq <;> rw [heq] at hm
      · obtain rfl : _ = { s with mmus := m, l2 := k } := hm
        obtain ⟨m', k', hm'⟩ := ih { s with mmus := m, l2 := k } (off + 4)
        split <;> rename_i heq' <;> rw [heq'] at hm' <;> exact ⟨m', k', hm'⟩
      · exact ⟨m, k, hm⟩
    · exact ih s off

variable {seg sz : Nat} {off v : Word} {sx : Bool} {x : Ctx} {s s2 : State} {ks : List Nat} {page : Option (Nat × Nat × Bool)}

/-- A load whose location is found, free and sound takes its bytes. -/
theorem loadAct_ok (hl : s.locate x.p seg off.toNat (2 ^ sz) (2 ^ sz) true false false = (s2, .ok ks page))
    (hv : s2.heldBack x.p ks = false) (hb : s2.bad ks = false) :
    loadAct seg off sz sx x s =
      .done (s2.seatBytes x.p page ks).1 (some (loadVal sx (s2.seatBytes x.p page ks).2)) none := by
  simp only [loadAct, State.seatRead, hl, hv, hb]
  rfl

/-- A store whose location is found and free passes its check. -/
theorem storeChk_ok (hl : s.locate x.p seg off.toNat (2 ^ sz) (2 ^ sz) false true false = (s2, .ok ks page))
    (hv : s2.heldBack x.p ks = false) : storeChk seg off sz x s = none := by
  rw [State.heldBack_locate hl] at hv
  simp only [storeChk, hl, hv]
  rfl

/-- A store whose location is found and free is performed or buffered. -/
theorem storeAct_ok (hl : s.locate x.p seg off.toNat (2 ^ sz) (2 ^ sz) false true false = (s2, .ok ks page))
    (hv : s2.heldBack x.p ks = false) :
    storeAct seg off sz v x s = .done (s2.seatStore x.p page (ks.zip (leBytes (2 ^ sz) v.toNat))) none none := by
  simp only [storeAct, State.seatWrite, hl, hv]
  rfl

end Sys2Proof.Machine
end

