-- ==== Sys2Proof/Laws/Dispatch.lean ====
section
/-! SUPPORT. Dispatch, one law per constructor: `exec` of an instruction is its meaning. -/
namespace Sys2Proof.Machine

@[simp] theorem exec_illegal (w : BitVec 32) (s : State) : exec (.illegal w) s = execIllegal w s := rfl
@[simp] theorem exec_add (f : FmtR) (s : State) : exec (.add f) s = execAdd f s := rfl
@[simp] theorem exec_sub (f : FmtR) (s : State) : exec (.sub f) s = execSub f s := rfl
@[simp] theorem exec_and (f : FmtR) (s : State) : exec (.and f) s = execAnd f s := rfl
@[simp] theorem exec_or (f : FmtR) (s : State) : exec (.or f) s = execOr f s := rfl
@[simp] theorem exec_xor (f : FmtR) (s : State) : exec (.xor f) s = execXor f s := rfl
@[simp] theorem exec_andn (f : FmtR) (s : State) : exec (.andn f) s = execAndn f s := rfl
@[simp] theorem exec_orn (f : FmtR) (s : State) : exec (.orn f) s = execOrn f s := rfl
@[simp] theorem exec_sll (f : FmtR) (s : State) : exec (.sll f) s = execSll f s := rfl
@[simp] theorem exec_srl (f : FmtR) (s : State) : exec (.srl f) s = execSrl f s := rfl
@[simp] theorem exec_sra (f : FmtR) (s : State) : exec (.sra f) s = execSra f s := rfl
@[simp] theorem exec_rol (f : FmtR) (s : State) : exec (.rol f) s = execRol f s := rfl
@[simp] theorem exec_ror (f : FmtR) (s : State) : exec (.ror f) s = execRor f s := rfl
@[simp] theorem exec_min (f : FmtR) (s : State) : exec (.min f) s = execMin f s := rfl
@[simp] theorem exec_max (f : FmtR) (s : State) : exec (.max f) s = execMax f s := rfl
@[simp] theorem exec_minu (f : FmtR) (s : State) : exec (.minu f) s = execMinu f s := rfl
@[simp] theorem exec_maxu (f : FmtR) (s : State) : exec (.maxu f) s = execMaxu f s := rfl
@[simp] theorem exec_adds (f : FmtR) (s : State) : exec (.adds f) s = execAdds f s := rfl
@[simp] theorem exec_subs (f : FmtR) (s : State) : exec (.subs f) s = execSubs f s := rfl
@[simp] theorem exec_addus (f : FmtR) (s : State) : exec (.addus f) s = execAddus f s := rfl
@[simp] theorem exec_subus (f : FmtR) (s : State) : exec (.subus f) s = execSubus f s := rfl
@[simp] theorem exec_clz (f : FmtR) (s : State) : exec (.clz f) s = execClz f s := rfl
@[simp] theorem exec_ctz (f : FmtR) (s : State) : exec (.ctz f) s = execCtz f s := rfl
@[simp] theorem exec_popc (f : FmtR) (s : State) : exec (.popc f) s = execPopc f s := rfl
@[simp] theorem exec_bswap (f : FmtR) (s : State) : exec (.bswap f) s = execBswap f s := rfl
@[simp] theorem exec_abs (f : FmtR) (s : State) : exec (.abs f) s = execAbs f s := rfl
@[simp] theorem exec_addi (f : FmtI) (s : State) : exec (.addi f) s = execAddi f s := rfl
@[simp] theorem exec_andi (f : FmtI) (s : State) : exec (.andi f) s = execAndi f s := rfl
@[simp] theorem exec_ori (f : FmtI) (s : State) : exec (.ori f) s = execOri f s := rfl
@[simp] theorem exec_xori (f : FmtI) (s : State) : exec (.xori f) s = execXori f s := rfl
@[simp] theorem exec_slli (f : FmtSh) (s : State) : exec (.slli f) s = execSlli f s := rfl
@[simp] theorem exec_srli (f : FmtSh) (s : State) : exec (.srli f) s = execSrli f s := rfl
@[simp] theorem exec_srai (f : FmtSh) (s : State) : exec (.srai f) s = execSrai f s := rfl
@[simp] theorem exec_rori (f : FmtSh) (s : State) : exec (.rori f) s = execRori f s := rfl
@[simp] theorem exec_slti (f : FmtSlt) (s : State) : exec (.slti f) s = execSlti f s := rfl
@[simp] theorem exec_sltiu (f : FmtSlt) (s : State) : exec (.sltiu f) s = execSltiu f s := rfl
@[simp] theorem exec_seqi (f : FmtSlt) (s : State) : exec (.seqi f) s = execSeqi f s := rfl
@[simp] theorem exec_snei (f : FmtSlt) (s : State) : exec (.snei f) s = execSnei f s := rfl
@[simp] theorem exec_lik (f : FmtK) (s : State) : exec (.lik f) s = execLik f s := rfl
@[simp] theorem exec_bfxu (f : FmtBF) (s : State) : exec (.bfxu f) s = execBfxu f s := rfl
@[simp] theorem exec_bfxs (f : FmtBF) (s : State) : exec (.bfxs f) s = execBfxs f s := rfl
@[simp] theorem exec_bfi (f : FmtBF) (s : State) : exec (.bfi f) s = execBfi f s := rfl
@[simp] theorem exec_mul (f : FmtR) (s : State) : exec (.mul f) s = execMul f s := rfl
@[simp] theorem exec_mulh (f : FmtR) (s : State) : exec (.mulh f) s = execMulh f s := rfl
@[simp] theorem exec_mulhu (f : FmtR) (s : State) : exec (.mulhu f) s = execMulhu f s := rfl
@[simp] theorem exec_mulhsu (f : FmtR) (s : State) : exec (.mulhsu f) s = execMulhsu f s := rfl
@[simp] theorem exec_div (f : FmtR) (s : State) : exec (.div f) s = execDiv f s := rfl
@[simp] theorem exec_divu (f : FmtR) (s : State) : exec (.divu f) s = execDivu f s := rfl
@[simp] theorem exec_rem (f : FmtR) (s : State) : exec (.rem f) s = execRem f s := rfl
@[simp] theorem exec_remu (f : FmtR) (s : State) : exec (.remu f) s = execRemu f s := rfl
@[simp] theorem exec_cmpeq (f : FmtR) (s : State) : exec (.cmpeq f) s = execCmpeq f s := rfl
@[simp] theorem exec_cmpne (f : FmtR) (s : State) : exec (.cmpne f) s = execCmpne f s := rfl
@[simp] theorem exec_cmplt (f : FmtR) (s : State) : exec (.cmplt f) s = execCmplt f s := rfl
@[simp] theorem exec_cmpge (f : FmtR) (s : State) : exec (.cmpge f) s = execCmpge f s := rfl
@[simp] theorem exec_cmpltu (f : FmtR) (s : State) : exec (.cmpltu f) s = execCmpltu f s := rfl
@[simp] theorem exec_cmpgeu (f : FmtR) (s : State) : exec (.cmpgeu f) s = execCmpgeu f s := rfl
@[simp] theorem exec_csel (f : FmtR) (s : State) : exec (.csel f) s = execCsel f s := rfl
@[simp] theorem exec_cmovz (f : FmtR) (s : State) : exec (.cmovz f) s = execCmovz f s := rfl
@[simp] theorem exec_cmovnz (f : FmtR) (s : State) : exec (.cmovnz f) s = execCmovnz f s := rfl
@[simp] theorem exec_fadd (f : FmtFR) (s : State) : exec (.fadd f) s = execFadd f s := rfl
@[simp] theorem exec_fsub (f : FmtFR) (s : State) : exec (.fsub f) s = execFsub f s := rfl
@[simp] theorem exec_fmul (f : FmtFR) (s : State) : exec (.fmul f) s = execFmul f s := rfl
@[simp] theorem exec_fdiv (f : FmtFR) (s : State) : exec (.fdiv f) s = execFdiv f s := rfl
@[simp] theorem exec_fsqrt (f : FmtFR) (s : State) : exec (.fsqrt f) s = execFsqrt f s := rfl
@[simp] theorem exec_fmin (f : FmtFT) (s : State) : exec (.fmin f) s = execFmin f s := rfl
@[simp] theorem exec_fmax (f : FmtFT) (s : State) : exec (.fmax f) s = execFmax f s := rfl
@[simp] theorem exec_fsgnj (f : FmtFT) (s : State) : exec (.fsgnj f) s = execFsgnj f s := rfl
@[simp] theorem exec_fsgnjn (f : FmtFT) (s : State) : exec (.fsgnjn f) s = execFsgnjn f s := rfl
@[simp] theorem exec_fsgnjx (f : FmtFT) (s : State) : exec (.fsgnjx f) s = execFsgnjx f s := rfl
@[simp] theorem exec_fclass (f : FmtFT) (s : State) : exec (.fclass f) s = execFclass f s := rfl
@[simp] theorem exec_fmadd (f : FmtFR) (s : State) : exec (.fmadd f) s = execFmadd f s := rfl
@[simp] theorem exec_fmsub (f : FmtFR) (s : State) : exec (.fmsub f) s = execFmsub f s := rfl
@[simp] theorem exec_fnmsub (f : FmtFR) (s : State) : exec (.fnmsub f) s = execFnmsub f s := rfl
@[simp] theorem exec_fnmadd (f : FmtFR) (s : State) : exec (.fnmadd f) s = execFnmadd f s := rfl
@[simp] theorem exec_faddc (f : FmtC) (s : State) : exec (.faddc f) s = execFaddc f s := rfl
@[simp] theorem exec_fsubc (f : FmtC) (s : State) : exec (.fsubc f) s = execFsubc f s := rfl
@[simp] theorem exec_frsubc (f : FmtC) (s : State) : exec (.frsubc f) s = execFrsubc f s := rfl
@[simp] theorem exec_fmulc (f : FmtC) (s : State) : exec (.fmulc f) s = execFmulc f s := rfl
@[simp] theorem exec_fmulac (f : FmtC) (s : State) : exec (.fmulac f) s = execFmulac f s := rfl
@[simp] theorem exec_fmacc (f : FmtC) (s : State) : exec (.fmacc f) s = execFmacc f s := rfl
@[simp] theorem exec_fldc (f : FmtC) (s : State) : exec (.fldc f) s = execFldc f s := rfl
@[simp] theorem exec_fli (f : FmtF20) (s : State) : exec (.fli f) s = execFli f s := rfl
@[simp] theorem exec_cvt (f : FmtCvt) (s : State) : exec (.cvt f) s = execCvt f s := rfl
@[simp] theorem exec_feq (f : FmtFT) (s : State) : exec (.feq f) s = execFeq f s := rfl
@[simp] theorem exec_fne (f : FmtFT) (s : State) : exec (.fne f) s = execFne f s := rfl
@[simp] theorem exec_flt (f : FmtFT) (s : State) : exec (.flt f) s = execFlt f s := rfl
@[simp] theorem exec_fle (f : FmtFT) (s : State) : exec (.fle f) s = execFle f s := rfl
@[simp] theorem exec_funord (f : FmtFT) (s : State) : exec (.funord f) s = execFunord f s := rfl
@[simp] theorem exec_ld (f : FmtM) (s : State) : exec (.ld f) s = execLd f s := rfl
@[simp] theorem exec_st (f : FmtM) (s : State) : exec (.st f) s = execSt f s := rfl
@[simp] theorem exec_ldx (f : FmtX) (s : State) : exec (.ldx f) s = execLdx f s := rfl
@[simp] theorem exec_stx (f : FmtX) (s : State) : exec (.stx f) s = execStx f s := rfl
@[simp] theorem exec_ldxSx (f : FmtX) (s : State) : exec (.ldxSx f) s = execLdxSx f s := rfl
@[simp] theorem exec_bfxur (f : FmtR) (s : State) : exec (.bfxur f) s = execBfxur f s := rfl
@[simp] theorem exec_bfxsr (f : FmtR) (s : State) : exec (.bfxsr f) s = execBfxsr f s := rfl
@[simp] theorem exec_bfir (f : FmtR) (s : State) : exec (.bfir f) s = execBfir f s := rfl
@[simp] theorem exec_amoswap (f : FmtAmo) (s : State) : exec (.amoswap f) s = execAmoswap f s := rfl
@[simp] theorem exec_amoadd (f : FmtAmo) (s : State) : exec (.amoadd f) s = execAmoadd f s := rfl
@[simp] theorem exec_amoand (f : FmtAmo) (s : State) : exec (.amoand f) s = execAmoand f s := rfl
@[simp] theorem exec_amoor (f : FmtAmo) (s : State) : exec (.amoor f) s = execAmoor f s := rfl
@[simp] theorem exec_amomax (f : FmtAmo) (s : State) : exec (.amomax f) s = execAmomax f s := rfl
@[simp] theorem exec_amomin (f : FmtAmo) (s : State) : exec (.amomin f) s = execAmomin f s := rfl
@[simp] theorem exec_amomaxu (f : FmtAmo) (s : State) : exec (.amomaxu f) s = execAmomaxu f s := rfl
@[simp] theorem exec_cas (f : FmtAmo) (s : State) : exec (.cas f) s = execCas f s := rfl
@[simp] theorem exec_beqz (f : FmtB) (s : State) : exec (.beqz f) s = execBeqz f s := rfl
@[simp] theorem exec_bnez (f : FmtB) (s : State) : exec (.bnez f) s = execBnez f s := rfl
@[simp] theorem exec_bltz (f : FmtB) (s : State) : exec (.bltz f) s = execBltz f s := rfl
@[simp] theorem exec_bgez (f : FmtB) (s : State) : exec (.bgez f) s = execBgez f s := rfl
@[simp] theorem exec_bgtz (f : FmtB) (s : State) : exec (.bgtz f) s = execBgtz f s := rfl
@[simp] theorem exec_blez (f : FmtB) (s : State) : exec (.blez f) s = execBlez f s := rfl
@[simp] theorem exec_beven (f : FmtB) (s : State) : exec (.beven f) s = execBeven f s := rfl
@[simp] theorem exec_bodd (f : FmtB) (s : State) : exec (.bodd f) s = execBodd f s := rfl
@[simp] theorem exec_j (f : FmtJ) (s : State) : exec (.j f) s = execJ f s := rfl
@[simp] theorem exec_jl (f : FmtJ) (s : State) : exec (.jl f) s = execJl f s := rfl
@[simp] theorem exec_jr (f : FmtR) (s : State) : exec (.jr f) s = execJr f s := rfl
@[simp] theorem exec_jlr (f : FmtR) (s : State) : exec (.jlr f) s = execJlr f s := rfl
@[simp] theorem exec_ret (f : FmtR) (s : State) : exec (.ret f) s = execRet f s := rfl
@[simp] theorem exec_scene (f : FmtSC) (s : State) : exec (.scene f) s = execScene f s := rfl
@[simp] theorem exec_sceneChk (f : FmtSC) (s : State) : exec (.sceneChk f) s = execSceneChk f s := rfl
@[simp] theorem exec_redo (f : FmtSC) (s : State) : exec (.redo f) s = execRedo f s := rfl
@[simp] theorem exec_commit (f : FmtSC) (s : State) : exec (.commit f) s = execCommit f s := rfl
@[simp] theorem exec_nop (f : FmtS) (s : State) : exec (.nop f) s = execNop f s := rfl
@[simp] theorem exec_halt (f : FmtS) (s : State) : exec (.halt f) s = execHalt f s := rfl
@[simp] theorem exec_crd (f : FmtS) (s : State) : exec (.crd f) s = execCrd f s := rfl
@[simp] theorem exec_cwr (f : FmtS) (s : State) : exec (.cwr f) s = execCwr f s := rfl
@[simp] theorem exec_cbw (f : FmtS) (s : State) : exec (.cbw f) s = execCbw f s := rfl
@[simp] theorem exec_cbrd (f : FmtS) (s : State) : exec (.cbrd f) s = execCbrd f s := rfl
@[simp] theorem exec_cbld (f : FmtS) (s : State) : exec (.cbld f) s = execCbld f s := rfl
@[simp] theorem exec_ldAcq (f : FmtOrd) (s : State) : exec (.ldAcq f) s = execLdAcq f s := rfl
@[simp] theorem exec_stRel (f : FmtOrd) (s : State) : exec (.stRel f) s = execStRel f s := rfl
@[simp] theorem exec_lut4ld (f : FmtS) (s : State) : exec (.lut4ld f) s = execLut4ld f s := rfl
@[simp] theorem exec_bfset (f : FmtS) (s : State) : exec (.bfset f) s = execBfset f s := rfl
@[simp] theorem exec_bfrd (f : FmtS) (s : State) : exec (.bfrd f) s = execBfrd f s := rfl
@[simp] theorem exec_prefL1 (f : FmtS) (s : State) : exec (.prefL1 f) s = execPrefL1 f s := rfl
@[simp] theorem exec_prefL2 (f : FmtS) (s : State) : exec (.prefL2 f) s = execPrefL2 f s := rfl
@[simp] theorem exec_mhintNear (f : FmtS) (s : State) : exec (.mhintNear f) s = execMhintNear f s := rfl
@[simp] theorem exec_mhintHome (f : FmtS) (s : State) : exec (.mhintHome f) s = execMhintHome f s := rfl
@[simp] theorem exec_mhintPage (f : FmtS) (s : State) : exec (.mhintPage f) s = execMhintPage f s := rfl
@[simp] theorem exec_spawn (f : FmtR) (s : State) : exec (.spawn f) s = execSpawn f s := rfl
@[simp] theorem exec_join (f : FmtR) (s : State) : exec (.join f) s = execJoin f s := rfl
@[simp] theorem exec_suspend (f : FmtR) (s : State) : exec (.suspend f) s = execSuspend f s := rfl
@[simp] theorem exec_yield (f : FmtR) (s : State) : exec (.yield f) s = execYield f s := rfl
@[simp] theorem exec_exit (f : FmtR) (s : State) : exec (.exit f) s = execExit f s := rfl
@[simp] theorem exec_exitJ (f : FmtR) (s : State) : exec (.exitJ f) s = execExitJ f s := rfl
@[simp] theorem exec_wake (f : FmtR) (s : State) : exec (.wake f) s = execWake f s := rfl
@[simp] theorem exec_bar (f : FmtR) (s : State) : exec (.bar f) s = execBar f s := rfl
@[simp] theorem exec_chain (f : FmtR) (s : State) : exec (.chain f) s = execChain f s := rfl
@[simp] theorem exec_widf (f : FmtWid) (s : State) : exec (.widf f) s = execWidf f s := rfl
@[simp] theorem exec_widfr (f : FmtWid) (s : State) : exec (.widfr f) s = execWidfr f s := rfl
@[simp] theorem exec_send (f : FmtR) (s : State) : exec (.send f) s = execSend f s := rfl
@[simp] theorem exec_mclr (f : FmtR) (s : State) : exec (.mclr f) s = execMclr f s := rfl
@[simp] theorem exec_mwait (f : FmtR) (s : State) : exec (.mwait f) s = execMwait f s := rfl
@[simp] theorem exec_mwaitAny (f : FmtR) (s : State) : exec (.mwaitAny f) s = execMwaitAny f s := rfl
@[simp] theorem exec_rst (f : FmtRst) (s : State) : exec (.rst f) s = execRst f s := rfl
@[simp] theorem exec_rstA (f : FmtRst) (s : State) : exec (.rstA f) s = execRstA f s := rfl
@[simp] theorem exec_rstv (f : FmtRsv) (s : State) : exec (.rstv f) s = execRstv f s := rfl
@[simp] theorem exec_rstvA (f : FmtRsv) (s : State) : exec (.rstvA f) s = execRstvA f s := rfl
@[simp] theorem exec_gang (f : FmtS) (s : State) : exec (.gang f) s = execGang f s := rfl
@[simp] theorem exec_ungang (f : FmtS) (s : State) : exec (.ungang f) s = execUngang f s := rfl
@[simp] theorem exec_fenceAcq (f : FmtFence) (s : State) : exec (.fenceAcq f) s = execFenceAcq f s := rfl
@[simp] theorem exec_fenceRel (f : FmtFence) (s : State) : exec (.fenceRel f) s = execFenceRel f s := rfl
@[simp] theorem exec_fenceFull (f : FmtFence) (s : State) : exec (.fenceFull f) s = execFenceFull f s := rfl
@[simp] theorem exec_qfence (f : FmtQf) (s : State) : exec (.qfence f) s = execQfence f s := rfl
@[simp] theorem exec_qfenceAll (f : FmtS) (s : State) : exec (.qfenceAll f) s = execQfenceAll f s := rfl
@[simp] theorem exec_vadd (f : FmtV) (s : State) : exec (.vadd f) s = execVadd f s := rfl
@[simp] theorem exec_vsub (f : FmtV) (s : State) : exec (.vsub f) s = execVsub f s := rfl
@[simp] theorem exec_vmul (f : FmtV) (s : State) : exec (.vmul f) s = execVmul f s := rfl
@[simp] theorem exec_vmulh (f : FmtV) (s : State) : exec (.vmulh f) s = execVmulh f s := rfl
@[simp] theorem exec_vmulhu (f : FmtV) (s : State) : exec (.vmulhu f) s = execVmulhu f s := rfl
@[simp] theorem exec_vand (f : FmtV) (s : State) : exec (.vand f) s = execVand f s := rfl
@[simp] theorem exec_vor (f : FmtV) (s : State) : exec (.vor f) s = execVor f s := rfl
@[simp] theorem exec_vxor (f : FmtV) (s : State) : exec (.vxor f) s = execVxor f s := rfl
@[simp] theorem exec_vsll (f : FmtV) (s : State) : exec (.vsll f) s = execVsll f s := rfl
@[simp] theorem exec_vsrl (f : FmtV) (s : State) : exec (.vsrl f) s = execVsrl f s := rfl
@[simp] theorem exec_vsra (f : FmtV) (s : State) : exec (.vsra f) s = execVsra f s := rfl
@[simp] theorem exec_vmin (f : FmtV) (s : State) : exec (.vmin f) s = execVmin f s := rfl
@[simp] theorem exec_vmax (f : FmtV) (s : State) : exec (.vmax f) s = execVmax f s := rfl
@[simp] theorem exec_vminu (f : FmtV) (s : State) : exec (.vminu f) s = execVminu f s := rfl
@[simp] theorem exec_vmaxu (f : FmtV) (s : State) : exec (.vmaxu f) s = execVmaxu f s := rfl
@[simp] theorem exec_vadds (f : FmtV) (s : State) : exec (.vadds f) s = execVadds f s := rfl
@[simp] theorem exec_vsubs (f : FmtV) (s : State) : exec (.vsubs f) s = execVsubs f s := rfl
@[simp] theorem exec_vaddus (f : FmtV) (s : State) : exec (.vaddus f) s = execVaddus f s := rfl
@[simp] theorem exec_vsubus (f : FmtV) (s : State) : exec (.vsubus f) s = execVsubus f s := rfl
@[simp] theorem exec_vabs (f : FmtV) (s : State) : exec (.vabs f) s = execVabs f s := rfl
@[simp] theorem exec_vsel (f : FmtV) (s : State) : exec (.vsel f) s = execVsel f s := rfl
@[simp] theorem exec_vcmpeq (f : FmtV) (s : State) : exec (.vcmpeq f) s = execVcmpeq f s := rfl
@[simp] theorem exec_vcmpne (f : FmtV) (s : State) : exec (.vcmpne f) s = execVcmpne f s := rfl
@[simp] theorem exec_vcmplt (f : FmtV) (s : State) : exec (.vcmplt f) s = execVcmplt f s := rfl
@[simp] theorem exec_vcmpge (f : FmtV) (s : State) : exec (.vcmpge f) s = execVcmpge f s := rfl
@[simp] theorem exec_vcmpltu (f : FmtV) (s : State) : exec (.vcmpltu f) s = execVcmpltu f s := rfl
@[simp] theorem exec_vcmpgeu (f : FmtV) (s : State) : exec (.vcmpgeu f) s = execVcmpgeu f s := rfl
@[simp] theorem exec_vfadd (f : FmtVF) (s : State) : exec (.vfadd f) s = execVfadd f s := rfl
@[simp] theorem exec_vfsub (f : FmtVF) (s : State) : exec (.vfsub f) s = execVfsub f s := rfl
@[simp] theorem exec_vfmul (f : FmtVF) (s : State) : exec (.vfmul f) s = execVfmul f s := rfl
@[simp] theorem exec_vfdiv (f : FmtVF) (s : State) : exec (.vfdiv f) s = execVfdiv f s := rfl
@[simp] theorem exec_vfsqrt (f : FmtVF) (s : State) : exec (.vfsqrt f) s = execVfsqrt f s := rfl
@[simp] theorem exec_vfmadd (f : FmtVF) (s : State) : exec (.vfmadd f) s = execVfmadd f s := rfl
@[simp] theorem exec_vfmsub (f : FmtVF) (s : State) : exec (.vfmsub f) s = execVfmsub f s := rfl
@[simp] theorem exec_vfnmsub (f : FmtVF) (s : State) : exec (.vfnmsub f) s = execVfnmsub f s := rfl
@[simp] theorem exec_vfmin (f : FmtV) (s : State) : exec (.vfmin f) s = execVfmin f s := rfl
@[simp] theorem exec_vfmax (f : FmtV) (s : State) : exec (.vfmax f) s = execVfmax f s := rfl
@[simp] theorem exec_vfabs (f : FmtV) (s : State) : exec (.vfabs f) s = execVfabs f s := rfl
@[simp] theorem exec_vfneg (f : FmtV) (s : State) : exec (.vfneg f) s = execVfneg f s := rfl
@[simp] theorem exec_vfsgnj (f : FmtV) (s : State) : exec (.vfsgnj f) s = execVfsgnj f s := rfl
@[simp] theorem exec_vfeq (f : FmtV) (s : State) : exec (.vfeq f) s = execVfeq f s := rfl
@[simp] theorem exec_vflt (f : FmtV) (s : State) : exec (.vflt f) s = execVflt f s := rfl
@[simp] theorem exec_vfle (f : FmtV) (s : State) : exec (.vfle f) s = execVfle f s := rfl
@[simp] theorem exec_vfun (f : FmtV) (s : State) : exec (.vfun f) s = execVfun f s := rfl
@[simp] theorem exec_vaddVs (f : FmtVS) (s : State) : exec (.vaddVs f) s = execVaddVs f s := rfl
@[simp] theorem exec_vsubVs (f : FmtVS) (s : State) : exec (.vsubVs f) s = execVsubVs f s := rfl
@[simp] theorem exec_vrsubVs (f : FmtVS) (s : State) : exec (.vrsubVs f) s = execVrsubVs f s := rfl
@[simp] theorem exec_vmulVs (f : FmtVS) (s : State) : exec (.vmulVs f) s = execVmulVs f s := rfl
@[simp] theorem exec_vandVs (f : FmtVS) (s : State) : exec (.vandVs f) s = execVandVs f s := rfl
@[simp] theorem exec_vorVs (f : FmtVS) (s : State) : exec (.vorVs f) s = execVorVs f s := rfl
@[simp] theorem exec_vxorVs (f : FmtVS) (s : State) : exec (.vxorVs f) s = execVxorVs f s := rfl
@[simp] theorem exec_vsllVs (f : FmtVS) (s : State) : exec (.vsllVs f) s = execVsllVs f s := rfl
@[simp] theorem exec_vsrlVs (f : FmtVS) (s : State) : exec (.vsrlVs f) s = execVsrlVs f s := rfl
@[simp] theorem exec_vsraVs (f : FmtVS) (s : State) : exec (.vsraVs f) s = execVsraVs f s := rfl
@[simp] theorem exec_vminVs (f : FmtVS) (s : State) : exec (.vminVs f) s = execVminVs f s := rfl
@[simp] theorem exec_vmaxVs (f : FmtVS) (s : State) : exec (.vmaxVs f) s = execVmaxVs f s := rfl
@[simp] theorem exec_vcvtn (f : FmtVS) (s : State) : exec (.vcvtn f) s = execVcvtn f s := rfl
@[simp] theorem exec_vcvtw (f : FmtVS) (s : State) : exec (.vcvtw f) s = execVcvtw f s := rfl
@[simp] theorem exec_vfaddVs (f : FmtVS) (s : State) : exec (.vfaddVs f) s = execVfaddVs f s := rfl
@[simp] theorem exec_vfsubVs (f : FmtVS) (s : State) : exec (.vfsubVs f) s = execVfsubVs f s := rfl
@[simp] theorem exec_vfrsubVs (f : FmtVS) (s : State) : exec (.vfrsubVs f) s = execVfrsubVs f s := rfl
@[simp] theorem exec_vfmulVs (f : FmtVS) (s : State) : exec (.vfmulVs f) s = execVfmulVs f s := rfl
@[simp] theorem exec_vfmaddVs (f : FmtVS) (s : State) : exec (.vfmaddVs f) s = execVfmaddVs f s := rfl
@[simp] theorem exec_vfminVs (f : FmtVS) (s : State) : exec (.vfminVs f) s = execVfminVs f s := rfl
@[simp] theorem exec_vfmaxVs (f : FmtVS) (s : State) : exec (.vfmaxVs f) s = execVfmaxVs f s := rfl
@[simp] theorem exec_vmovVs (f : FmtVS) (s : State) : exec (.vmovVs f) s = execVmovVs f s := rfl
@[simp] theorem exec_vcmpeqVs (f : FmtVS) (s : State) : exec (.vcmpeqVs f) s = execVcmpeqVs f s := rfl
@[simp] theorem exec_vcmpltVs (f : FmtVS) (s : State) : exec (.vcmpltVs f) s = execVcmpltVs f s := rfl
@[simp] theorem exec_vcmpltuVs (f : FmtVS) (s : State) : exec (.vcmpltuVs f) s = execVcmpltuVs f s := rfl
@[simp] theorem exec_vfeqVs (f : FmtVS) (s : State) : exec (.vfeqVs f) s = execVfeqVs f s := rfl
@[simp] theorem exec_vfltVs (f : FmtVS) (s : State) : exec (.vfltVs f) s = execVfltVs f s := rfl
@[simp] theorem exec_vfleVs (f : FmtVS) (s : State) : exec (.vfleVs f) s = execVfleVs f s := rfl
@[simp] theorem exec_vld (f : FmtVM) (s : State) : exec (.vld f) s = execVld f s := rfl
@[simp] theorem exec_vst (f : FmtVM) (s : State) : exec (.vst f) s = execVst f s := rfl
@[simp] theorem exec_vgather (f : FmtVG) (s : State) : exec (.vgather f) s = execVgather f s := rfl
@[simp] theorem exec_vscatter (f : FmtVG) (s : State) : exec (.vscatter f) s = execVscatter f s := rfl
@[simp] theorem exec_vlds (f : FmtVS) (s : State) : exec (.vlds f) s = execVlds f s := rfl
@[simp] theorem exec_vsts (f : FmtVS) (s : State) : exec (.vsts f) s = execVsts f s := rfl
@[simp] theorem exec_vext (f : FmtVS) (s : State) : exec (.vext f) s = execVext f s := rfl
@[simp] theorem exec_kmovs (f : FmtVS) (s : State) : exec (.kmovs f) s = execKmovs f s := rfl
@[simp] theorem exec_kset (f : FmtVS) (s : State) : exec (.kset f) s = execKset f s := rfl
@[simp] theorem exec_vstat (f : FmtVS) (s : State) : exec (.vstat f) s = execVstat f s := rfl
@[simp] theorem exec_vredadd (f : FmtVr) (s : State) : exec (.vredadd f) s = execVredadd f s := rfl
@[simp] theorem exec_vredmin (f : FmtVr) (s : State) : exec (.vredmin f) s = execVredmin f s := rfl
@[simp] theorem exec_vredmax (f : FmtVr) (s : State) : exec (.vredmax f) s = execVredmax f s := rfl
@[simp] theorem exec_vredminu (f : FmtVr) (s : State) : exec (.vredminu f) s = execVredminu f s := rfl
@[simp] theorem exec_vredmaxu (f : FmtVr) (s : State) : exec (.vredmaxu f) s = execVredmaxu f s := rfl
@[simp] theorem exec_vredand (f : FmtVr) (s : State) : exec (.vredand f) s = execVredand f s := rfl
@[simp] theorem exec_vredor (f : FmtVr) (s : State) : exec (.vredor f) s = execVredor f s := rfl
@[simp] theorem exec_vredxor (f : FmtVr) (s : State) : exec (.vredxor f) s = execVredxor f s := rfl
@[simp] theorem exec_vredfadd (f : FmtVr) (s : State) : exec (.vredfadd f) s = execVredfadd f s := rfl
@[simp] theorem exec_vredfmin (f : FmtVr) (s : State) : exec (.vredfmin f) s = execVredfmin f s := rfl
@[simp] theorem exec_vredfmax (f : FmtVr) (s : State) : exec (.vredfmax f) s = execVredfmax f s := rfl
@[simp] theorem exec_vredfamax (f : FmtVr) (s : State) : exec (.vredfamax f) s = execVredfamax f s := rfl
@[simp] theorem exec_vrot (f : FmtVS) (s : State) : exec (.vrot f) s = execVrot f s := rfl
@[simp] theorem exec_vrcp (f : FmtV) (s : State) : exec (.vrcp f) s = execVrcp f s := rfl
@[simp] theorem exec_vrsqrt (f : FmtV) (s : State) : exec (.vrsqrt f) s = execVrsqrt f s := rfl
@[simp] theorem exec_vexp2 (f : FmtV) (s : State) : exec (.vexp2 f) s = execVexp2 f s := rfl
@[simp] theorem exec_vlog2 (f : FmtV) (s : State) : exec (.vlog2 f) s = execVlog2 f s := rfl
@[simp] theorem exec_vtanh (f : FmtV) (s : State) : exec (.vtanh f) s = execVtanh f s := rfl
@[simp] theorem exec_vsigm (f : FmtV) (s : State) : exec (.vsigm f) s = execVsigm f s := rfl
@[simp] theorem exec_vsinpi (f : FmtV) (s : State) : exec (.vsinpi f) s = execVsinpi f s := rfl
@[simp] theorem exec_vcospi (f : FmtV) (s : State) : exec (.vcospi f) s = execVcospi f s := rfl
@[simp] theorem exec_vperm (f : FmtV) (s : State) : exec (.vperm f) s = execVperm f s := rfl
@[simp] theorem exec_vmov (f : FmtV) (s : State) : exec (.vmov f) s = execVmov f s := rfl
@[simp] theorem exec_vcvtSI (f : FmtV) (s : State) : exec (.vcvtSI f) s = execVcvtSI f s := rfl
@[simp] theorem exec_vcvtIS (f : FmtV) (s : State) : exec (.vcvtIS f) s = execVcvtIS f s := rfl
@[simp] theorem exec_vcvtSH (f : FmtV) (s : State) : exec (.vcvtSH f) s = execVcvtSH f s := rfl
@[simp] theorem exec_vcvtHS (f : FmtV) (s : State) : exec (.vcvtHS f) s = execVcvtHS f s := rfl
@[simp] theorem exec_vcvtSBf (f : FmtV) (s : State) : exec (.vcvtSBf f) s = execVcvtSBf f s := rfl
@[simp] theorem exec_vcvtBfS (f : FmtV) (s : State) : exec (.vcvtBfS f) s = execVcvtBfS f s := rfl
@[simp] theorem exec_vcvtSU (f : FmtV) (s : State) : exec (.vcvtSU f) s = execVcvtSU f s := rfl
@[simp] theorem exec_vcvtUS (f : FmtV) (s : State) : exec (.vcvtUS f) s = execVcvtUS f s := rfl
@[simp] theorem exec_kand (f : FmtV) (s : State) : exec (.kand f) s = execKand f s := rfl
@[simp] theorem exec_kor (f : FmtV) (s : State) : exec (.kor f) s = execKor f s := rfl
@[simp] theorem exec_kxor (f : FmtV) (s : State) : exec (.kxor f) s = execKxor f s := rfl
@[simp] theorem exec_kandn (f : FmtV) (s : State) : exec (.kandn f) s = execKandn f s := rfl
@[simp] theorem exec_knot (f : FmtV) (s : State) : exec (.knot f) s = execKnot f s := rfl
@[simp] theorem exec_vfence (f : FmtV) (s : State) : exec (.vfence f) s = execVfence f s := rfl
@[simp] theorem exec_vgmov (f : FmtV) (s : State) : exec (.vgmov f) s = execVgmov f s := rfl
@[simp] theorem exec_vgadd (f : FmtV) (s : State) : exec (.vgadd f) s = execVgadd f s := rfl
@[simp] theorem exec_vgfadd (f : FmtV) (s : State) : exec (.vgfadd f) s = execVgfadd f s := rfl
@[simp] theorem exec_vgfmax (f : FmtV) (s : State) : exec (.vgfmax f) s = execVgfmax f s := rfl
@[simp] theorem exec_mzero (f : FmtCop) (s : State) : exec (.mzero f) s = execMzero f s := rfl
@[simp] theorem exec_mmaN (f : FmtCop) (s : State) : exec (.mmaN f) s = execMmaN f s := rfl
@[simp] theorem exec_mmaH (f : FmtCop) (s : State) : exec (.mmaH f) s = execMmaH f s := rfl
@[simp] theorem exec_mmaBf (f : FmtCop) (s : State) : exec (.mmaBf f) s = execMmaBf f s := rfl
@[simp] theorem exec_mmaS (f : FmtCop) (s : State) : exec (.mmaS f) s = execMmaS f s := rfl
@[simp] theorem exec_mdrain (f : FmtCop) (s : State) : exec (.mdrain f) s = execMdrain f s := rfl
@[simp] theorem exec_mtask (f : FmtCop) (s : State) : exec (.mtask f) s = execMtask f s := rfl
@[simp] theorem exec_cpy (f : FmtCpy) (s : State) : exec (.cpy f) s = execCpy f s := rfl
@[simp] theorem exec_cfill (f : FmtCpy) (s : State) : exec (.cfill f) s = execCfill f s := rfl
@[simp] theorem exec_ssamp (f : FmtCop) (s : State) : exec (.ssamp f) s = execSsamp f s := rfl
@[simp] theorem exec_sdraw (f : FmtCop) (s : State) : exec (.sdraw f) s = execSdraw f s := rfl
@[simp] theorem exec_gstep (f : FmtCop) (s : State) : exec (.gstep f) s = execGstep f s := rfl
@[simp] theorem exec_gmask (f : FmtCop) (s : State) : exec (.gmask f) s = execGmask f s := rfl
@[simp] theorem exec_gflush (f : FmtCop) (s : State) : exec (.gflush f) s = execGflush f s := rfl
@[simp] theorem exec_sin (f : FmtCop) (s : State) : exec (.sin f) s = execSin f s := rfl
@[simp] theorem exec_sadv (f : FmtCop) (s : State) : exec (.sadv f) s = execSadv f s := rfl
@[simp] theorem exec_stok (f : FmtCop) (s : State) : exec (.stok f) s = execStok f s := rfl
@[simp] theorem exec_sopen (f : FmtCop) (s : State) : exec (.sopen f) s = execSopen f s := rfl
@[simp] theorem exec_cpost (f : FmtCop) (s : State) : exec (.cpost f) s = execCpost f s := rfl
@[simp] theorem exec_cpubl (f : FmtCop) (s : State) : exec (.cpubl f) s = execCpubl f s := rfl
@[simp] theorem exec_cread (f : FmtCop) (s : State) : exec (.cread f) s = execCread f s := rfl
@[simp] theorem exec_evput (f : FmtCop) (s : State) : exec (.evput f) s = execEvput f s := rfl
@[simp] theorem exec_csave (f : FmtCop) (s : State) : exec (.csave f) s = execCsave f s := rfl
@[simp] theorem exec_crestore (f : FmtCop) (s : State) : exec (.crestore f) s = execCrestore f s := rfl
@[simp] theorem exec_copw (f : FmtCpw) (s : State) : exec (.copw f) s = execCopw f s := rfl
@[simp] theorem exec_coprd (f : FmtCpw) (s : State) : exec (.coprd f) s = execCoprd f s := rfl
@[simp] theorem exec_esync (f : FmtEsy) (s : State) : exec (.esync f) s = execEsync f s := rfl
@[simp] theorem exec_trap (f : FmtS) (s : State) : exec (.trap f) s = execTrap f s := rfl
@[simp] theorem exec_rett (f : FmtS) (s : State) : exec (.rett f) s = execRett f s := rfl
@[simp] theorem exec_rettRedo (f : FmtS) (s : State) : exec (.rettRedo f) s = execRettRedo f s := rfl
@[simp] theorem exec_rettKill (f : FmtS) (s : State) : exec (.rettKill f) s = execRettKill f s := rfl
@[simp] theorem exec_swin (f : FmtS) (s : State) : exec (.swin f) s = execSwin f s := rfl
@[simp] theorem exec_swinW (f : FmtS) (s : State) : exec (.swinW f) s = execSwinW f s := rfl
@[simp] theorem exec_csfreeze (f : FmtS) (s : State) : exec (.csfreeze f) s = execCsfreeze f s := rfl
@[simp] theorem exec_csthaw (f : FmtS) (s : State) : exec (.csthaw f) s = execCsthaw f s := rfl
@[simp] theorem exec_seize (f : FmtS) (s : State) : exec (.seize f) s = execSeize f s := rfl
@[simp] theorem exec_release (f : FmtS) (s : State) : exec (.release f) s = execRelease f s := rfl
@[simp] theorem exec_registerWrite (core seat bank num : Nat) (v : BitVec 64) (s : State) :
    exec (.registerWrite core seat bank num v) s = execRegisterWrite core seat bank num v s := rfl
@[simp] theorem exec_moduleReset (s : State) : exec (.moduleReset) s = execModuleReset s := rfl
@[simp] theorem exec_bootImageLoad (img : List (BitVec 8)) (wellFormed : Bool) (key : KeyCheck) (s : State) :
    exec (.bootImageLoad img wellFormed key) s = execBootImageLoad img wellFormed key s := rfl
@[simp] theorem exec_takeUp (core seat : Nat) (s : State) : exec (.takeUp core seat) s = execTakeUp core seat s := rfl
@[simp] theorem exec_loadDataArrival (core seat bank k : Nat) (s : State) :
    exec (.loadDataArrival core seat bank k) s = execLoadDataArrival core seat bank k s := rfl
@[simp] theorem exec_ptsTick (core : Nat) (s : State) : exec (.ptsTick core) s = execPtsTick core s := rfl
@[simp] theorem exec_vectorCommandPerform (core : Nat) (s : State) :
    exec (.vectorCommandPerform core) s = execVectorCommandPerform core s := rfl
@[simp] theorem exec_mailArrival (k : Nat) (s : State) : exec (.mailArrival k) s = execMailArrival k s := rfl
@[simp] theorem exec_bounceWordArrival (k : Nat) (s : State) :
    exec (.bounceWordArrival k) s = execBounceWordArrival k s := rfl
@[simp] theorem exec_remoteStoreArrival (k : Nat) (s : State) :
    exec (.remoteStoreArrival k) s = execRemoteStoreArrival k s := rfl
@[simp] theorem exec_stageDoorDelivery (die k : Nat) (s : State) :
    exec (.stageDoorDelivery die k) s = execStageDoorDelivery die k s := rfl
@[simp] theorem exec_reflexStartMessage (k : Nat) (s : State) :
    exec (.reflexStartMessage k) s = execReflexStartMessage k s := rfl
@[simp] theorem exec_xtimerFire (core t : Nat) (s : State) :
    exec (.xtimerFire core t) s = execXtimerFire core t s := rfl
@[simp] theorem exec_launchCueArrival (k : Nat) (s : State) :
    exec (.launchCueArrival k) s = execLaunchCueArrival k s := rfl
@[simp] theorem exec_stealProbe (core : Nat) (s : State) : exec (.stealProbe core) s = execStealProbe core s := rfl
@[simp] theorem exec_stealReplyArrival (k : Nat) (s : State) :
    exec (.stealReplyArrival k) s = execStealReplyArrival k s := rfl
@[simp] theorem exec_terminationWave (slot : Nat) (s : State) :
    exec (.terminationWave slot) s = execTerminationWave slot s := rfl
@[simp] theorem exec_ensembleClaim (slot : Nat) (s : State) :
    exec (.ensembleClaim slot) s = execEnsembleClaim slot s := rfl
@[simp] theorem exec_placementWaitExpiry (slot : Nat) (s : State) :
    exec (.placementWaitExpiry slot) s = execPlacementWaitExpiry slot s := rfl
@[simp] theorem exec_l2LineMigration (line : Nat) (s : State) :
    exec (.l2LineMigration line) s = execL2LineMigration line s := rfl
@[simp] theorem exec_l1ctlInv (core : Nat) (s : State) : exec (.l1ctlInv core) s = execL1ctlInv core s := rfl
@[simp] theorem exec_bfmtWrite (core b : Nat) (v : BitVec 64) (s : State) :
    exec (.bfmtWrite core b v) s = execBfmtWrite core b v s := rfl
@[simp] theorem exec_grhostWrite (core : Nat) (v : BitVec 64) (s : State) :
    exec (.grhostWrite core v) s = execGrhostWrite core v s := rfl
@[simp] theorem exec_greenRoomRecall (core : Nat) (s : State) :
    exec (.greenRoomRecall core) s = execGreenRoomRecall core s := rfl
@[simp] theorem exec_mnqheadWrite (die : Nat) (v : BitVec 64) (s : State) :
    exec (.mnqheadWrite die v) s = execMnqheadWrite die v s := rfl
@[simp] theorem exec_migackWrite (die : Nat) (v : BitVec 64) (s : State) :
    exec (.migackWrite die v) s = execMigackWrite die v s := rfl
@[simp] theorem exec_pmctlGo (die : Nat) (s : State) : exec (.pmctlGo die) s = execPmctlGo die s := rfl
@[simp] theorem exec_pageMoveCopyDone (die : Nat) (s : State) :
    exec (.pageMoveCopyDone die) s = execPageMoveCopyDone die s := rfl
@[simp] theorem exec_pmctlEnd (die : Nat) (s : State) : exec (.pmctlEnd die) s = execPmctlEnd die s := rfl
@[simp] theorem exec_tlbinvWrite (v : BitVec 64) (s : State) : exec (.tlbinvWrite v) s = execTlbinvWrite v s := rfl
@[simp] theorem exec_tlbinvDone (s : State) : exec (.tlbinvDone) s = execTlbinvDone s := rfl
@[simp] theorem exec_pgwakeWrite (v : BitVec 64) (s : State) : exec (.pgwakeWrite v) s = execPgwakeWrite v s := rfl
@[simp] theorem exec_mmaStep (core q : Nat) (s : State) : exec (.mmaStep core q) s = execMmaStep core q s := rfl
@[simp] theorem exec_mzeroStep (core q : Nat) (s : State) : exec (.mzeroStep core q) s = execMzeroStep core q s := rfl
@[simp] theorem exec_mdrainStep (core q : Nat) (s : State) :
    exec (.mdrainStep core q) s = execMdrainStep core q s := rfl
@[simp] theorem exec_mctlResume (core q : Nat) (s : State) :
    exec (.mctlResume core q) s = execMctlResume core q s := rfl
@[simp] theorem exec_mctlAbort (core q : Nat) (s : State) : exec (.mctlAbort core q) s = execMctlAbort core q s := rfl
@[simp] theorem exec_tileTaskPost (cluster : Nat) (s : State) :
    exec (.tileTaskPost cluster) s = execTileTaskPost cluster s := rfl
@[simp] theorem exec_tileTaskIssue (cluster : Nat) (s : State) :
    exec (.tileTaskIssue cluster) s = execTileTaskIssue cluster s := rfl
@[simp] theorem exec_copyStep (core c : Nat) (s : State) : exec (.copyStep core c) s = execCopyStep core c s := rfl
@[simp] theorem exec_ccmdResume (core c : Nat) (s : State) :
    exec (.ccmdResume core c) s = execCcmdResume core c s := rfl
@[simp] theorem exec_ccmdAbort (core c : Nat) (s : State) : exec (.ccmdAbort core c) s = execCcmdAbort core c s := rfl
@[simp] theorem exec_samplerBarrierCheck (core q : Nat) (s : State) :
    exec (.samplerBarrierCheck core q) s = execSamplerBarrierCheck core q s := rfl
@[simp] theorem exec_samplerScanStep (core q : Nat) (s : State) :
    exec (.samplerScanStep core q) s = execSamplerScanStep core q s := rfl
@[simp] theorem exec_winnerMessageArrival (k : Nat) (s : State) :
    exec (.winnerMessageArrival k) s = execWinnerMessageArrival k s := rfl
@[simp] theorem exec_samplerGather (core q : Nat) (s : State) :
    exec (.samplerGather core q) s = execSamplerGather core q s := rfl
@[simp] theorem exec_samplerDeliver (core q : Nat) (s : State) :
    exec (.samplerDeliver core q) s = execSamplerDeliver core q s := rfl
@[simp] theorem exec_sdrawStep (core q : Nat) (s : State) : exec (.sdrawStep core q) s = execSdrawStep core q s := rfl
@[simp] theorem exec_sctlResume (core q : Nat) (s : State) :
    exec (.sctlResume core q) s = execSctlResume core q s := rfl
@[simp] theorem exec_sctlAbort (core q : Nat) (s : State) : exec (.sctlAbort core q) s = execSctlAbort core q s := rfl
@[simp] theorem exec_gstepApply (core q : Nat) (s : State) :
    exec (.gstepApply core q) s = execGstepApply core q s := rfl
@[simp] theorem exec_gmaskStep (core q : Nat) (s : State) : exec (.gmaskStep core q) s = execGmaskStep core q s := rfl
@[simp] theorem exec_gflushApply (core q : Nat) (s : State) :
    exec (.gflushApply core q) s = execGflushApply core q s := rfl
@[simp] theorem exec_gctlResume (core q : Nat) (s : State) :
    exec (.gctlResume core q) s = execGctlResume core q s := rfl
@[simp] theorem exec_gctlAbort (core q : Nat) (s : State) : exec (.gctlAbort core q) s = execGctlAbort core q s := rfl
@[simp] theorem exec_streamEventArrival (core q : Nat) (s : State) :
    exec (.streamEventArrival core q) s = execStreamEventArrival core q s := rfl
@[simp] theorem exec_streamEventApply (die k : Nat) (s : State) :
    exec (.streamEventApply die k) s = execStreamEventApply die k s := rfl
@[simp] theorem exec_cpostStep (core q : Nat) (s : State) : exec (.cpostStep core q) s = execCpostStep core q s := rfl
@[simp] theorem exec_cpublApply (core q : Nat) (s : State) :
    exec (.cpublApply core q) s = execCpublApply core q s := rfl
@[simp] theorem exec_caddyFlip (die mb : Nat) (s : State) : exec (.caddyFlip die mb) s = execCaddyFlip die mb s := rfl
@[simp] theorem exec_creadStep (core q : Nat) (s : State) : exec (.creadStep core q) s = execCreadStep core q s := rfl
@[simp] theorem exec_cxdescWrite (die mb : Nat) (v : BitVec 64) (s : State) :
    exec (.cxdescWrite die mb v) s = execCxdescWrite die mb v s := rfl
@[simp] theorem exec_evputStep (core q : Nat) (s : State) : exec (.evputStep core q) s = execEvputStep core q s := rfl
@[simp] theorem exec_csiEventPacket (die rx vc dt : Nat) (good : Bool) (bytes : List (BitVec 8)) (s : State) :
    exec (.csiEventPacket die rx vc dt good bytes) s = execCsiEventPacket die rx vc dt good bytes s := rfl
@[simp] theorem exec_csiImagePacket (die rx vc dt : Nat) (good : Bool) (bytes : List (BitVec 8)) (s : State) :
    exec (.csiImagePacket die rx vc dt good bytes) s = execCsiImagePacket die rx vc dt good bytes s := rfl
@[simp] theorem exec_csiFrameMark (die rx vc : Nat) (isEnd : Bool) (s : State) :
    exec (.csiFrameMark die rx vc isEnd) s = execCsiFrameMark die rx vc isEnd s := rfl
@[simp] theorem exec_ppsEdge (die : Nat) (s : State) : exec (.ppsEdge die) s = execPpsEdge die s := rfl
@[simp] theorem exec_csaveStep (core : Nat) (s : State) : exec (.csaveStep core) s = execCsaveStep core s := rfl
@[simp] theorem exec_crestoreStep (core : Nat) (s : State) :
    exec (.crestoreStep core) s = execCrestoreStep core s := rfl
@[simp] theorem exec_csctlResume (core : Nat) (s : State) : exec (.csctlResume core) s = execCsctlResume core s := rfl
@[simp] theorem exec_csctlAbort (core : Nat) (s : State) : exec (.csctlAbort core) s = execCsctlAbort core s := rfl
@[simp] theorem exec_preemptReq (core kind : Nat) (s : State) :
    exec (.preemptReq core kind) s = execPreemptReq core kind s := rfl
@[simp] theorem exec_ptimeExpiry (core : Nat) (s : State) : exec (.ptimeExpiry core) s = execPtimeExpiry core s := rfl
@[simp] theorem exec_preemptHandlerEntry (core seat : Nat) (s : State) :
    exec (.preemptHandlerEntry core seat) s = execPreemptHandlerEntry core seat s := rfl
@[simp] theorem exec_preemptResend (core : Nat) (s : State) :
    exec (.preemptResend core) s = execPreemptResend core s := rfl
@[simp] theorem exec_faultMessageArrival (k : Nat) (s : State) :
    exec (.faultMessageArrival k) s = execFaultMessageArrival k s := rfl
@[simp] theorem exec_fheadWrite (core : Nat) (v : BitVec 64) (s : State) :
    exec (.fheadWrite core v) s = execFheadWrite core v s := rfl
@[simp] theorem exec_swcmdResume (core seat bank : Nat) (s : State) :
    exec (.swcmdResume core seat bank) s = execSwcmdResume core seat bank s := rfl
@[simp] theorem exec_swcmdKill (core seat bank : Nat) (s : State) :
    exec (.swcmdKill core seat bank) s = execSwcmdKill core seat bank s := rfl
@[simp] theorem exec_curtainRaise (part : Nat) (s : State) :
    exec (.curtainRaise part) s = execCurtainRaise part s := rfl
@[simp] theorem exec_curtainLower (part : Nat) (s : State) :
    exec (.curtainLower part) s = execCurtainLower part s := rfl
@[simp] theorem exec_curtainHalt (core : Nat) (s : State) : exec (.curtainHalt core) s = execCurtainHalt core s := rfl
@[simp] theorem exec_curtainResume (core : Nat) (s : State) :
    exec (.curtainResume core) s = execCurtainResume core s := rfl
@[simp] theorem exec_curtdevRaise (part : Nat) (s : State) :
    exec (.curtdevRaise part) s = execCurtdevRaise part s := rfl
@[simp] theorem exec_curtdevLower (part : Nat) (s : State) :
    exec (.curtdevLower part) s = execCurtdevLower part s := rfl
@[simp] theorem exec_machineCheck (core : Nat) (s : State) :
    exec (.machineCheck core) s = execMachineCheck core s := rfl
@[simp] theorem exec_szgrpWrite (g : Nat) (v : BitVec 64) (s : State) :
    exec (.szgrpWrite g v) s = execSzgrpWrite g v s := rfl
@[simp] theorem exec_seizeArrival (k : Nat) (s : State) : exec (.seizeArrival k) s = execSeizeArrival k s := rfl
@[simp] theorem exec_seizeTakeUp (core : Nat) (s : State) : exec (.seizeTakeUp core) s = execSeizeTakeUp core s := rfl
@[simp] theorem exec_releaseArrival (k : Nat) (s : State) : exec (.releaseArrival k) s = execReleaseArrival k s := rfl
@[simp] theorem exec_wdogKick (slot : Nat) (s : State) : exec (.wdogKick slot) s = execWdogKick slot s := rfl
@[simp] theorem exec_watchdogPreempt (slot : Nat) (s : State) :
    exec (.watchdogPreempt slot) s = execWatchdogPreempt slot s := rfl
@[simp] theorem exec_watchdogKill (slot : Nat) (s : State) :
    exec (.watchdogKill slot) s = execWatchdogKill slot s := rfl
@[simp] theorem exec_watchdogFence (slot : Nat) (s : State) :
    exec (.watchdogFence slot) s = execWatchdogFence slot s := rfl
@[simp] theorem exec_qdoorWrite (v : BitVec 64) (s : State) : exec (.qdoorWrite v) s = execQdoorWrite v s := rfl
@[simp] theorem exec_commandAccept (slot : Nat) (s : State) :
    exec (.commandAccept slot) s = execCommandAccept slot s := rfl
@[simp] theorem exec_cmdLaunch (slot : Nat) (s : State) : exec (.cmdLaunch slot) s = execCmdLaunch slot s := rfl
@[simp] theorem exec_cmdWait (slot : Nat) (s : State) : exec (.cmdWait slot) s = execCmdWait slot s := rfl
@[simp] theorem exec_waitSatisfied (slot : Nat) (s : State) :
    exec (.waitSatisfied slot) s = execWaitSatisfied slot s := rfl
@[simp] theorem exec_cmdSignal (slot : Nat) (s : State) : exec (.cmdSignal slot) s = execCmdSignal slot s := rfl
@[simp] theorem exec_cmdQuote (slot : Nat) (s : State) : exec (.cmdQuote slot) s = execCmdQuote slot s := rfl
@[simp] theorem exec_slotFree (slot : Nat) (s : State) : exec (.slotFree slot) s = execSlotFree slot s := rfl
@[simp] theorem exec_mirrorAckArrival (seq : BitVec 64) (s : State) :
    exec (.mirrorAckArrival seq) s = execMirrorAckArrival seq s := rfl
@[simp] theorem exec_mirrorEntryArrival (index : BitVec 64) (entry : List (BitVec 8)) (s : State) :
    exec (.mirrorEntryArrival index entry) s = execMirrorEntryArrival index entry s := rfl
@[simp] theorem exec_heartbeatSend (s : State) : exec (.heartbeatSend) s = execHeartbeatSend s := rfl
@[simp] theorem exec_xBankMirror (rows : List (Nat × Nat × List (BitVec 8))) (s : State) :
    exec (.xBankMirror rows) s = execXBankMirror rows s := rfl
@[simp] theorem exec_understudyCheck (word : BitVec 64) (s : State) :
    exec (.understudyCheck word) s = execUnderstudyCheck word s := rfl
@[simp] theorem exec_peerFenceArrival (s : State) : exec (.peerFenceArrival) s = execPeerFenceArrival s := rfl
@[simp] theorem exec_linkLoss (s : State) : exec (.linkLoss) s = execLinkLoss s := rfl
@[simp] theorem exec_loadAveraging (core dir : Nat) (s : State) :
    exec (.loadAveraging core dir) s = execLoadAveraging core dir s := rfl
@[simp] theorem exec_thermalStep (core temp : Nat) (s : State) :
    exec (.thermalStep core temp) s = execThermalStep core temp s := rfl
@[simp] theorem exec_corerstWrite (core : Nat) (s : State) :
    exec (.corerstWrite core) s = execCorerstWrite core s := rfl
@[simp] theorem exec_ptmCorrection (ppm : Int) (s : State) :
    exec (.ptmCorrection ppm) s = execPtmCorrection ppm s := rfl
@[simp] theorem exec_peerHeartbeatArrival  (s : State) :
    exec (.peerHeartbeatArrival) s = execPeerHeartbeatArrival s := rfl
@[simp] theorem exec_powerLimitThrottle (watts16 : Nat) (s : State) :
    exec (.powerLimitThrottle watts16) s = execPowerLimitThrottle watts16 s := rfl

end Sys2Proof.Machine
end

