-- ==== Sys2Proof/Laws/Forms.lean ====
section
/-! SUPPORT. A form runs as the instruction that it stands for: what the step does with a decoded word is `exec` of the
decoded instruction. -/
namespace Sys2Proof.Machine

/-- The meaning of a form is the meaning of its instruction. -/
theorem execForm_eq (f : Form) (s : State) : execForm f s = exec f.toInstr s := by
  cases f <;> first | rfl | (rename_i op _; cases op <;> rfl)

/-- The meaning of a word is the meaning of what it decodes to. -/
theorem execWord_eq (s : State) (w : W32) :
    (match decodeWord w with | .ok f => execForm f s | .error _ => execIllegal w s) = exec (decode w) s := by
  unfold decode decodeForm
  cases decodeWord w with
  | ok f => exact execForm_eq f s
  | error e => exact execForm_eq (.illegal w) s

/-- A word runs as the instruction it decodes to. -/
theorem State.runWord_eq (s : State) (w : W32) : s.runWord w =
    if (stateOr s (exec (decode w) s)).ended = .began
    then (stateOr s (exec (decode w) s)).modBank s.cur fun b => { b with word := w }
    else stateOr s (exec (decode w) s) := by
  rw [← execWord_eq]; rfl

end Sys2Proof.Machine
end

