-- ==== Sys2Proof/Laws/Issue.lean ====
section
/-! SUPPORT. Laws of the issue of an instruction: what `issueWith` answers on a seat that is able to issue, and the cases
of an instruction that has retired. -/
namespace Sys2Proof.Machine

open Sys2Proof.Safety

variable {h : Shape} {hold : BitVec 2} {waits : Waits} {check : Check} {body : Ctx → State → Act} {s s1 s2 : State}
  {vals : List Word}

/-- There is a first cause unless there is none at all. -/
theorem firstStall_none {l : List Stall} (h : firstStall l = none) : l = [] := by
  have key : ∀ (l : List Stall) (c : Stall), ∃ d, l.foldl (fun a c => match a with
      | none => some c | some d => if c.rank < d.rank then some c else a) (some c) = some d := by
    intro l
    induction l with
    | nil => exact fun c => ⟨c, rfl⟩
    | cons x t ih =>
      intro c
      simp only [List.foldl_cons]
      split <;> exact ih _
  cases l with
  | nil => rfl
  | cons x t =>
    obtain ⟨d, hd⟩ := key t x
    exact nomatch hd.symm.trans h

/-- On a ready seat no operand register is pending. -/
theorem ready_not_pending (hr : Issues s h s1 vals) : ((s.bank s.cur).pending.any fun r => h.reads.contains r.code) = false := by
  have hp := firstStall_none hr.2.2.2.2.1
  simp only [List.map_eq_nil_iff, List.filter_eq_nil_iff] at hp
  rw [List.any_eq_false]
  intro r hrp hc
  have hr61 : r.code ≠ 61 := by
    intro e
    rw [e, List.contains_iff_mem] at hc
    simp [Shape.reads] at hc
  refine hp r hrp ?_
  rw [List.contains_iff_mem] at hc
  simp [hr61, hc]

/-- On a ready seat an instruction's own rule is asked for its operand values. -/
theorem ready_ownWait (hr : Issues s h s1 vals) : s.ownWait s.cur h waits = waits (asks s h vals) s := by
  have hp := ready_not_pending hr
  have ho := hr.2.2.2.2.2.2.2.2.2.2
  unfold operandsOf at ho
  unfold State.ownWait State.peek
  rw [hp]
  split at ho
  · rename_i lits hlit
    simp only [Option.some.injEq] at ho
    simp only [hlit, ho]
    rfl
  · cases ho

/-- A ready seat waits for nothing but what the instruction's own rule names. -/
theorem ready_stalled (hr : Issues s h s1 vals) : s.stalled s.cur h waits = waits (asks s h vals) s := by
  have ho := ready_ownWait (waits := waits) hr
  obtain ⟨-, ha, hq, hc, hp, -⟩ := hr
  simp only [State.stalled, ha, hq, hc, hp, ho, ite_self, Bool.false_eq_true, ↓reduceIte, List.nil_append, Option.toList_none]
  cases waits (asks s h vals) s <;> rfl

/-- On a ready seat an instruction that closes no scene makes its own checks and then does its work. -/
theorem issueWith_ready (hr : Issues s h s1 vals) (hw : waits (asks s h vals) s = none) (hc : h.closes = false) :
    issueWith h hold waits check body s =
      s.conclude (ctx s h vals) h hold none ((check (ctx s h vals) s1).getD (body (ctx s h vals) s1)) := by
  have hst := (ready_stalled (waits := waits) hr).trans hw
  obtain ⟨hwip, ha, hq, -, -, hh, hl, hu, he, hf, ho⟩ := hr
  simp only [hc, Bool.false_eq_true, false_or] at hf
  have he' : ¬ (h.popsOf 62 ≠ 0 ∧ (s.seat s.cur.core s.cur.num).evUe ≠ 0) := by
    rintro ⟨h1, h2⟩
    exact he.elim h1 h2
  unfold operandsOf at ho
  split at ho
  · rename_i sf lits hlit
    simp only [Option.some.injEq] at ho
    simp only [issueWith, hwip, Wip.resuming, hst, ha, hq, hh, hl, hu, he', hlit, ho, hc, hf, Bool.or_self,
      Bool.false_eq_true, ↓reduceIte, reduceCtorEq, Bool.not_false, Bool.not_true, Bool.and_false]
    cases hk : check (ctx s h vals) s1 <;> simp [ctx] at hk <;> simp [hk, ctx]
  · cases ho

/-- An instruction that has not begun opens the scene again that it closes. -/
theorem Bank.toOpen_fresh {b : Bank} (h : b.wip = .none) : b.toOpen = b.openScene.map fun sc => (sc.form, sc.mask) := by
  simp only [Bank.toOpen, h]

/-- On a ready seat a scene-closing instruction makes its own checks, the commit, and then its work. -/
theorem issueWith_ready_closing (hr : Issues s h s1 vals) (hw : waits (asks s h vals) s = none) (hc : h.closes = true)
    (hk : check (ctx s h vals) s1 = none) (hcm : committed s h vals s1 = some s2) :
    issueWith h hold waits check body s =
      s.conclude (ctx s h vals) h hold (reopens s h) (body (ctx s h vals) s2) := by
  have hst := (ready_stalled (waits := waits) hr).trans hw
  obtain ⟨hwip, ha, hq, -, -, hh, hl, hu, he, hf, ho⟩ := hr
  have he' : ¬ (h.popsOf 62 ≠ 0 ∧ (s.seat s.cur.core s.cur.num).evUe ≠ 0) := by
    rintro ⟨h1, h2⟩
    exact he.elim h1 h2
  unfold operandsOf at ho
  unfold committed at hcm
  split at hcm
  · cases hcm
  rename_i hpl
  split at hcm
  · rename_i t hclose
    simp only [Option.some.injEq] at hcm
    subst hcm
    split at ho
    · rename_i sf lits hlit
      simp only [Option.some.injEq] at ho
      simp only [ctx] at hk hclose
      simp only [issueWith, hwip, Wip.resuming, hst, ha, hq, hh, hl, hu, he', hlit, ho, hc, Bool.false_and, Bool.or_self,
        Bool.false_eq_true, ↓reduceIte, reduceCtorEq, Bool.not_true, hk, hpl, hclose]
      simp [ctx, reopens, hc, Bank.toOpen_fresh hwip]
    · cases ho
  · cases hcm

/-- An instruction whose work is done has retired. -/
theorem conclude_done {v pc : Option Word} :
    s.conclude (ctx s h vals) h hold (reopens s h) (.done s1 v pc) =
      retired s h vals hold s1 v (pc.getD (succ s h)) := by
  unfold retired State.conclude
  cases reopens s h <;> rfl

/-- An instruction of at most four source fields ends as many words after its PC as it has. -/
theorem ctx_words (hs : h.srcs.length ≤ 4) :
    ((ctx s h vals).next - (ctx s h vals).pc).toNat / 4 = h.words := by
  have hf := List.length_filter_le (fun x : Nat × Lit => x.1 == 63) h.srcs
  have hw : h.words ≤ 5 := by unfold Shape.words; omega
  simp only [ctx]
  generalize (s.bank s.cur).pc = p
  have : p + BitVec.ofNat 64 (4 * h.words) - p = BitVec.ofNat 64 (4 * h.words) := by
    rw [BitVec.add_comm, BitVec.add_sub_cancel]
  rw [this, BitVec.toNat_ofNat, Nat.mod_eq_of_lt (by omega)]
  omega

/-- An instruction that closes no scene opens none. -/
theorem reopens_none (hc : h.closes = false) (ho : h.opens = none) : reopens s h = none := by simp [reopens, hc, ho]

/-- A ready instruction that passes its checks, and whose work is done, has retired. -/
theorem issueWith_done (hr : Issues s h s1 vals) (hw : waits (asks s h vals) s = none) (hc : h.closes = false)
    (ho : h.opens = none) (hk : check (ctx s h vals) s1 = none) {v pc : Option Word}
    (hb : body (ctx s h vals) s1 = .done s2 v pc) :
    issueWith h hold waits check body s = retired s h vals hold s2 v (pc.getD (succ s h)) := by
  rw [issueWith_ready hr hw hc, hk, Option.getD_none, hb, ← reopens_none (s := s) hc ho, conclude_done]

/-- A ready scene-closing instruction whose work is done has retired. -/
theorem issueWith_closing_done (hr : Issues s h s1 vals) (hw : waits (asks s h vals) s = none) (hc : h.closes = true)
    (hk : check (ctx s h vals) s1 = none) {s3 : State} (hcm : committed s h vals s1 = some s2) {v pc : Option Word}
    (hb : body (ctx s h vals) s2 = .done s3 v pc) :
    issueWith h hold waits check body s = retired s h vals hold s3 v (pc.getD (succ s h)) := by
  rw [issueWith_ready_closing hr hw hc hk hcm, hb, conclude_done]

/-- On a ready seat a check that answers something decides how the instruction ends. -/
theorem issueWith_check (hr : Issues s h s1 vals) (hw : waits (asks s h vals) s = none) {a : Act}
    (hk : check (ctx s h vals) s1 = some a) :
    issueWith h hold waits check body s = s.conclude (ctx s h vals) h hold none a := by
  have hst := (ready_stalled (waits := waits) hr).trans hw
  obtain ⟨hwip, ha, hq, -, -, hh, hl, hu, he, hf, ho⟩ := hr
  have he' : ¬ (h.popsOf 62 ≠ 0 ∧ (s.seat s.cur.core s.cur.num).evUe ≠ 0) := by
    rintro ⟨h1, h2⟩
    exact he.elim h1 h2
  unfold operandsOf at ho
  split at ho
  · rename_i sf lits hlit
    simp only [Option.some.injEq] at ho
    simp only [ctx] at hk
    simp only [issueWith, hwip, Wip.resuming, hst, ha, hq, hh, hl, hu, he', hlit, ho, Bool.or_self,
        Bool.false_eq_true, ↓reduceIte, reduceCtorEq, hk]
    rfl
  · cases ho

/-- A ready instruction that fails a check of its own traps. -/
theorem issueWith_trap (hr : Issues s h s1 vals) (hw : waits (asks s h vals) s = none) {c : Cause} {info : Nat}
    {fa : Option Word} (hk : check (ctx s h vals) s1 = some (.trap c info fa)) :
    issueWith h hold waits check body s = trapped s h c info fa := issueWith_check hr hw hk

/-- An instruction with no source fields reads no operands. -/
theorem issues_nil (hr : Issues s h s1 vals) (hs : h.srcs = []) : s1 = s ∧ vals = [] := by
  have ho := hr.2.2.2.2.2.2.2.2.2.2
  simp only [operandsOf, hs, State.literals, State.operands, Option.some.injEq, Prod.mk.injEq] at ho
  exact ⟨ho.1.symm, ho.2.symm⟩

/-- On a ready seat a check that answers a wait leaves the seat waiting. -/
theorem issueWith_wait (hr : Issues s h s1 vals) (hw : waits (asks s h vals) s = none) {c : Stall}
    (hk : check (ctx s h vals) s1 = some (.wait c)) :
    issueWith h hold waits check body s = s.stall c := issueWith_check hr hw hk

/-- A ready seat waits while the instruction's own rule says so. -/
theorem issueWith_own (hr : Issues s h s1 vals) {c : Stall} (hw : waits (asks s h vals) s = some c) :
    issueWith h hold waits check body s = s.stall c := by
  have hst := (ready_stalled (waits := waits) hr).trans hw
  simp only [issueWith, hr.1, Wip.resuming, hst, Bool.false_eq_true, ↓reduceIte]

/-- A ready instruction that closes no scene and whose work traps, traps. -/
theorem issueWith_body_trap (hr : Issues s h s1 vals) (hw : waits (asks s h vals) s = none) (hc : h.closes = false)
    (hk : check (ctx s h vals) s1 = none) {c : Cause} {info : Nat} {fa : Option Word}
    (hb : body (ctx s h vals) s1 = .trap c info fa) :
    issueWith h hold waits check body s = trapped s h c info fa := by
  rw [issueWith_ready hr hw hc, hk, Option.getD_none, hb]
  rfl

/-! The same for `issue`, `issueChk` and `issueWait`, one law for each way an instruction ends. -/

/-- An instruction without checks retires and goes on at its successor. -/
theorem issue_done (hr : Issues s h s1 vals) (hc : h.closes = false) (ho : h.opens = none) {v : Option Word}
    (hb : body (ctx s h vals) s1 = .done s2 v none) :
    issue h hold body s = .next (retired s h vals hold s2 v (succ s h)) :=
  congrArg Host.Outcome.next (issueWith_done (pc := none) hr rfl hc ho rfl hb)

/-- An instruction without checks retires and goes on elsewhere. -/
theorem issue_jump (hr : Issues s h s1 vals) (hc : h.closes = false) (ho : h.opens = none) {v : Option Word} {pc : Word}
    (hb : body (ctx s h vals) s1 = .done s2 v (some pc)) :
    issue h hold body s = .next (retired s h vals hold s2 v pc) :=
  congrArg Host.Outcome.next (issueWith_done (pc := some pc) hr rfl hc ho rfl hb)

/-- An instruction without checks traps in its work. -/
theorem issue_trap (hr : Issues s h s1 vals) (hc : h.closes = false) {c : Cause} {info : Nat} {fa : Option Word}
    (hb : body (ctx s h vals) s1 = .trap c info fa) : issue h hold body s = .next (trapped s h c info fa) :=
  congrArg Host.Outcome.next (issueWith_body_trap hr rfl hc rfl hb)

/-- An instruction without checks waits. -/
theorem issue_wait (hr : Issues s h s1 vals) (hc : h.closes = false) {c : Stall}
    (hb : body (ctx s h vals) s1 = .wait c) : issue h hold body s = .next (s.stall c) := by
  refine congrArg Host.Outcome.next ?_
  rw [issueWith_ready hr rfl hc, Option.getD_none, hb]
  rfl

/-- An instruction without checks begins. -/
theorem issue_begun (hr : Issues s h s1 vals) (hc : h.closes = false) (ho : h.opens = none)
    (hb : body (ctx s h vals) s1 = .begun s2) : issue h hold body s = .next (begun s h vals s2) := by
  refine congrArg Host.Outcome.next ?_
  rw [issueWith_ready hr rfl hc, Option.getD_none, hb, begun, reopens_none hc ho]
  rfl

/-- An instruction that passes its checks retires and goes on at its successor. -/
theorem issueChk_done (hr : Issues s h s1 vals) (hc : h.closes = false) (ho : h.opens = none)
    (hk : check (ctx s h vals) s1 = none) {v : Option Word} (hb : body (ctx s h vals) s1 = .done s2 v none) :
    issueChk h hold check body s = .next (retired s h vals hold s2 v (succ s h)) :=
  congrArg Host.Outcome.next (issueWith_done (pc := none) hr rfl hc ho hk hb)

/-- An instruction that passes its checks retires and goes on elsewhere. -/
theorem issueChk_jump (hr : Issues s h s1 vals) (hc : h.closes = false) (ho : h.opens = none)
    (hk : check (ctx s h vals) s1 = none) {v : Option Word} {pc : Word}
    (hb : body (ctx s h vals) s1 = .done s2 v (some pc)) :
    issueChk h hold check body s = .next (retired s h vals hold s2 v pc) :=
  congrArg Host.Outcome.next (issueWith_done (pc := some pc) hr rfl hc ho hk hb)

/-- An instruction that passes its checks begins. -/
theorem issueChk_begun (hr : Issues s h s1 vals) (hc : h.closes = false) (ho : h.opens = none)
    (hk : check (ctx s h vals) s1 = none) (hb : body (ctx s h vals) s1 = .begun s2) :
    issueChk h hold check body s = .next (begun s h vals s2) := by
  refine congrArg Host.Outcome.next ?_
  rw [issueWith_ready hr rfl hc, hk, Option.getD_none, hb, begun, reopens_none hc ho]
  rfl

/-- An instruction whose check fails traps. -/
theorem issueChk_trap (hr : Issues s h s1 vals) {c : Cause} {info : Nat} {fa : Option Word}
    (hk : check (ctx s h vals) s1 = some (.trap c info fa)) :
    issueChk h hold check body s = .next (trapped s h c info fa) := congrArg Host.Outcome.next (issueWith_trap hr rfl hk)

/-- An instruction whose check answers a wait waits. -/
theorem issueChk_wait (hr : Issues s h s1 vals) {c : Stall} (hk : check (ctx s h vals) s1 = some (.wait c)) :
    issueChk h hold check body s = .next (s.stall c) := congrArg Host.Outcome.next (issueWith_wait hr rfl hk)

/-- An instruction that passes its checks traps in its work. -/
theorem issueChk_body_trap (hr : Issues s h s1 vals) (hc : h.closes = false) (hk : check (ctx s h vals) s1 = none)
    {c : Cause} {info : Nat} {fa : Option Word} (hb : body (ctx s h vals) s1 = .trap c info fa) :
    issueChk h hold check body s = .next (trapped s h c info fa) :=
  congrArg Host.Outcome.next (issueWith_body_trap hr rfl hc hk hb)

/-- A scene-closing instruction passes its checks, commits, retires and goes on at its successor. -/
theorem issueChk_closing {s3 : State} (hr : Issues s h s1 vals) (hc : h.closes = true)
    (hk : check (ctx s h vals) s1 = none) (hcm : committed s h vals s1 = some s2) {v : Option Word}
    (hb : body (ctx s h vals) s2 = .done s3 v none) :
    issueChk h hold check body s = .next (retired s h vals hold s3 v (succ s h)) :=
  congrArg Host.Outcome.next (issueWith_closing_done (pc := none) hr rfl hc hk hcm hb)

/-- An instruction with a rule of its own retires when that lets it, and goes on at its successor. -/
theorem issueWait_done (hr : Issues s h s1 vals) (hw : waits (asks s h vals) s = none) (hc : h.closes = false)
    (ho : h.opens = none) (hk : check (ctx s h vals) s1 = none) {v : Option Word}
    (hb : body (ctx s h vals) s1 = .done s2 v none) :
    issueWait h hold waits check body s = .next (retired s h vals hold s2 v (succ s h)) :=
  congrArg Host.Outcome.next (issueWith_done (pc := none) hr hw hc ho hk hb)

/-- It waits while its rule says so. -/
theorem issueWait_own (hr : Issues s h s1 vals) {c : Stall} (hw : waits (asks s h vals) s = some c) :
    issueWait h hold waits check body s = .next (s.stall c) := congrArg Host.Outcome.next (issueWith_own hr hw)

/-- It traps when a check fails. -/
theorem issueWait_trap (hr : Issues s h s1 vals) (hw : waits (asks s h vals) s = none) {c : Cause} {info : Nat}
    {fa : Option Word} (hk : check (ctx s h vals) s1 = some (.trap c info fa)) :
    issueWait h hold waits check body s = .next (trapped s h c info fa) :=
  congrArg Host.Outcome.next (issueWith_trap hr hw hk)

/-- A scene-closing instruction with a rule of its own commits, retires and goes on at its successor. -/
theorem issueWait_closing {s3 : State} (hr : Issues s h s1 vals) (hw : waits (asks s h vals) s = none)
    (hc : h.closes = true) (hk : check (ctx s h vals) s1 = none) (hcm : committed s h vals s1 = some s2) {v : Option Word}
    (hb : body (ctx s h vals) s2 = .done s3 v none) :
    issueWait h hold waits check body s = .next (retired s h vals hold s3 v (succ s h)) :=
  congrArg Host.Outcome.next (issueWith_closing_done (pc := none) hr hw hc hk hcm hb)

/-- It commits, retires and goes on elsewhere. -/
theorem issueWait_closing_jump {s3 : State} (hr : Issues s h s1 vals) (hw : waits (asks s h vals) s = none)
    (hc : h.closes = true) (hk : check (ctx s h vals) s1 = none) (hcm : committed s h vals s1 = some s2) {v : Option Word}
    {pc : Word} (hb : body (ctx s h vals) s2 = .done s3 v (some pc)) :
    issueWait h hold waits check body s = .next (retired s h vals hold s3 v pc) :=
  congrArg Host.Outcome.next (issueWith_closing_done (pc := some pc) hr hw hc hk hcm hb)

/-- It commits, and its continuation leaves the seat. -/
theorem issueWait_closing_left {s3 : State} (hr : Issues s h s1 vals) (hw : waits (asks s h vals) s = none)
    (hc : h.closes = true) (hk : check (ctx s h vals) s1 = none) (hcm : committed s h vals s1 = some s2)
    (hb : body (ctx s h vals) s2 = .left s3) :
    issueWait h hold waits check body s = .next (departed s s3) := by
  refine congrArg Host.Outcome.next ?_
  rw [issueWith_ready_closing hr hw hc hk hcm, hb]
  rfl

/-! An instruction that began in an earlier turn goes on: its operands were taken then. -/

/-- A resumed instruction does its work again, with no operands. -/
theorem issueWith_resume (hw : (s.bank s.cur).wip.resuming = true) :
    issueWith h hold waits check body s = s.conclude (ctx s h []) h hold none (body (ctx s h []) s) := by
  simp only [issueWith, hw, ↓reduceIte, ctx]

/-- A resumed instruction without checks retires. -/
theorem issue_resume_done (hw : (s.bank s.cur).wip.resuming = true) (hc : h.closes = false) (ho : h.opens = none)
    {v : Option Word} (hb : body (ctx s h []) s = .done s2 v none) :
    issue h hold body s = .next (retired s h [] hold s2 v (succ s h)) := by
  refine congrArg Host.Outcome.next ?_
  rw [issueWith_resume hw, hb, ← reopens_none (s := s) hc ho, conclude_done]
  rfl

/-- A resumed instruction with checks retires; the checks were made when it began. -/
theorem issueChk_resume_done (hw : (s.bank s.cur).wip.resuming = true) (hc : h.closes = false) (ho : h.opens = none)
    {v : Option Word} (hb : body (ctx s h []) s = .done s2 v none) :
    issueChk h hold check body s = .next (retired s h [] hold s2 v (succ s h)) := by
  refine congrArg Host.Outcome.next ?_
  rw [issueWith_resume hw, hb, ← reopens_none (s := s) hc ho, conclude_done]
  rfl

/-- A resumed instruction waits on. -/
theorem issue_resume_wait (hw : (s.bank s.cur).wip.resuming = true) {c : Stall}
    (hb : body (ctx s h []) s = .wait c) : issue h hold body s = .next (s.stall c) := by
  refine congrArg Host.Outcome.next ?_
  rw [issueWith_resume hw, hb]
  rfl

end Sys2Proof.Machine
end

