-- ==== Sys2Proof/Laws/Memory.lean ====
section
/-! SUPPORT. What the operations that write memory do to it: each keeps the canonical form, and messages and leases
leave memory as it was. These are all the operations that write memory. -/
namespace Sys2Proof.Machine

@[simp] theorem State.mem_enter (s : State) (m : Msg) : (s.enter m).mem = s.mem := by
  unfold State.enter
  split <;> rfl

@[simp] theorem State.mem_post (s : State) (src dst : Nat) (v : Option Nat) (cls : Nat) (a : Bool) (i : Nat) (b : Body) :
    (s.post src dst v cls a i b).mem = s.mem := State.mem_enter s _

@[simp] theorem State.mem_faultMsg (s : State) (c i : Nat) (k : Cause) (v : Nat) (w1 w2 : Word) :
    (s.faultMsg c i k v w1 w2).mem = s.mem := State.mem_post s ..

@[simp] theorem State.mem_raisePts (s : State) (c t : Nat) : (s.raisePts c t).mem = s.mem := rfl

@[simp] theorem State.mem_l2Access (s : State) (c l : Nat) : (s.l2Access c l).mem = s.mem := by
  unfold State.l2Access
  split <;> rfl

@[simp] theorem State.mem_serveRead (s : State) (c l : Nat) : (s.serveRead c l).1.mem = s.mem := by
  simp [State.serveRead]

/-- A fold of steps that leave memory alone leaves it alone. -/
theorem mem_foldl {α : Type} (f : State → α → State) (h : ∀ s x, (f s x).mem = s.mem) (l : List α) (s : State) :
    (l.foldl f s).mem = s.mem := by
  induction l generalizing s with
  | nil => rfl
  | cons x t ih => rw [List.foldl_cons, ih, h]

@[simp] theorem State.mem_unitRead (s : State) (c : Nat) (ks : List Nat) : (s.unitRead c ks).1.mem = s.mem :=
  mem_foldl _ (fun s l => State.mem_serveRead s c l) _ s

/-- Bytes written at their homes keep the canonical form. -/
theorem State.poke_wf {s : State} (h : Memory.wf s.mem = true) (c : Nat) (cells : List Host.Cell) :
    Memory.wf (s.poke c cells).mem = true := by
  simp only [State.poke]
  split
  · exact memWrites_wf h _
  · rw [mem_foldl]
    · exact memWrites_wf h _
    · intro s q; exact State.mem_faultMsg ..

/-- Without an uncorrectable sector the bytes are written as they are. -/
theorem State.poke_mem (s : State) (c : Nat) (cells : List Host.Cell) (h : s.ue = []) :
    (s.poke c cells).mem = memWrites s.mem cells := by
  simp [State.poke, h]

theorem State.unitWrite_wf {s : State} (h : Memory.wf s.mem = true) (c lo : Nat) (cells : List Host.Cell) :
    Memory.wf (s.unitWrite c lo cells).1.mem = true := by
  simp only [State.unitWrite, State.mem_raisePts]
  refine State.poke_wf ?_ c cells
  rw [mem_foldl]
  · exact h
  · intro s l; exact State.mem_l2Access s c l

theorem State.devWrite_wf {s : State} (h : Memory.wf s.mem = true) (lo : Nat) (cells : List Host.Cell) :
    Memory.wf (s.devWrite lo cells).mem = true := by
  simp only [State.devWrite]
  refine State.poke_wf ?_ 0 _
  rw [mem_foldl]
  · exact h
  · intro s l; rfl

/-- Posting a migration notice writes its record in the ring (R246). -/
theorem State.mnqPost_wf {s : State} (h : Memory.wf s.mem = true) (d : Nat) (d0 d1 : Word) :
    Memory.wf (s.mnqPost d d0 d1).mem = true := by
  simp only [State.mnqPost, State.setCrGlob]
  exact State.devWrite_wf h _ _

theorem wf_ite {P : Prop} [Decidable P] {x y : State} (hx : Memory.wf x.mem = true) (hy : Memory.wf y.mem = true) :
    Memory.wf (if P then x else y).mem = true := by
  split <;> assumption

/-- Counting an access to a page writes memory only by a notice. -/
theorem State.countPage_wf {s : State} (h : Memory.wf s.mem = true) (cl slot page : Nat) (sub : Bool) (n : Option Nat) :
    Memory.wf (s.countPage cl slot page sub n).mem = true := by
  refine wf_ite h ?_
  cases counterSlot (s.mmu cl).counters slot page sub with
  | none => exact h
  | some i => exact wf_ite (State.mnqPost_wf (s := s.modMmu cl _) h _ _ _) h

theorem State.flushExt_wf {s : State} (h : Memory.wf s.mem = true) (sel : ExtWrite → Bool) :
    Memory.wf (s.flushExt sel).mem = true := by
  have : ∀ (l : List ExtWrite) (t : State), Memory.wf t.mem = true →
      Memory.wf (l.foldl (fun s w => { s with mem := memWrites s.mem ((List.range w.bytes.length).map fun i =>
        (w.addr + i, w.bytes.getD i 0)) }) t).mem = true := by
    intro l
    induction l with
    | nil => exact fun _ h => h
    | cons x r ih => exact fun t ht => ih _ (memWrites_wf ht _)
  exact this _ _ h

theorem State.countOn_wf {s : State} (h : Memory.wf s.mem = true) (c : Nat) (pg : Option (Nat × Nat × Bool)) :
    Memory.wf (s.countOn c pg).mem = true := by
  unfold State.countOn
  split
  · exact wf_ite h (State.countPage_wf h _ _ _ _ _)
  · exact h

theorem State.amoUnit_wf {s : State} (h : Memory.wf s.mem = true) (p : Place) (pg : Option (Nat × Nat × Bool))
    (ks : List Nat) (new : Option Nat) : Memory.wf (s.amoUnit p pg ks new).mem = true := by
  have hc := State.countOn_wf h p.core pg
  simp only [State.amoUnit]
  split
  · exact memWrites_wf hc _
  · split
    · simp only [State.mem_raisePts]
      refine State.poke_wf ?_ _ _
      rw [mem_foldl]
      · exact hc
      · intro s l; exact State.mem_l2Access s p.core l
    · exact State.poke_wf hc _ _

/-- A page that has been copied keeps the canonical form. -/
theorem State.moveCopied_wf {s : State} (h : Memory.wf s.mem = true) (d : Nat) : Memory.wf (s.moveCopied d).mem = true := by
  simp only [State.moveCopied]
  split
  · exact h
  · exact memWrites_wf (memFilter_wf h _) _

theorem State.withFetchWord_wf {s : State} (h : Memory.wf s.mem = true) (n w : Nat) :
    Memory.wf (s.withFetchWord n w).mem = true := by
  generalize hc : (keysFrom (Config.tileKey 0 0) 16).zip (leBytes 16 (w % 2 ^ n)) = cs
  simp only [State.withFetchWord, hc, State.mem_modBank]
  exact memWrites_wf h cs

end Sys2Proof.Machine
end

