-- ==== Sys2Proof/Laws/Next.lean ====
section
/-! SUPPORT. No meaning stops: `exec` answers a next state for every instruction and event in every state, and a step whose
agenda names events answers one. -/
namespace Sys2Proof.Machine

/-- Every meaning answers a next state. -/
theorem exec_next (i : Instr) (s : State) : ∃ t, exec i s = .next t := by
  cases i
  all_goals first
    | exact ⟨_, rfl⟩
    | (simp only [exec, execCrd, execCwr, execCopw, execCoprd]; split <;> exact ⟨_, rfl⟩)

/-- A turn answers a next state, unless it names an encodable instruction as an event. -/
theorem take_next (s : State) (t : Turn) (h : ∀ i, t = .ev i → i.toForm = none) : ∃ u, s.take t = .next u := by
  cases t with
  | clk => exact ⟨_, rfl⟩
  | barrel c => exact ⟨_, rfl⟩
  | upset u => exact ⟨_, rfl⟩
  | mesh c stop => exact ⟨_, rfl⟩
  | ev i => simpa [State.take, h i rfl] using exec_next i s

/-- A step answers a next state when the head of the agenda, if there is one, is a turn or an event. -/
theorem step_next (s : State) (h : ∀ i r, s.agenda = .ev i :: r → i.toForm = none) : ∃ u, step s = .next u := by
  unfold step
  split
  · next t r e => exact take_next _ t fun i ht => h i r (ht ▸ e)
  · refine take_next _ _ ?_
    intro i ht
    unfold State.nextTurn at ht
    split at ht <;> cases ht

end Sys2Proof.Machine
end

