-- ==== Sys2Proof/Laws/PerInstr.lean ====
section
/-! SUPPORT. The per-instruction family Encodable: an instruction that has a form is the instruction its form stands
for, one lemma per constructor. -/
namespace Sys2Proof.Laws.Encodable

/-- An instruction is what its form stands for, and it has a form exactly when it is not an event. -/
def Statement (i : Instr) : Prop := (∀ f, i.toForm = some f → f.toInstr = i) ∧ (i.toForm = none ↔ i.isEvent = true)

theorem of_form {i : Instr} {f : Form} (h : i.toForm = some f) (g : f.toInstr = i) : Statement i := by
  refine ⟨fun f' h' => ?_, ?_⟩
  · cases h.symm.trans h'; exact g
  · simp [Instr.isEvent, h]

theorem of_event {i : Instr} (h : i.toForm = none) : Statement i :=
  ⟨fun _ h' => (nomatch h.symm.trans h'), by simp [Instr.isEvent, h]⟩

theorem illegal (w : BitVec 32) : Statement (.illegal w) := of_form rfl rfl
theorem add (f : FmtR) : Statement (.add f) := of_form rfl rfl
theorem sub (f : FmtR) : Statement (.sub f) := of_form rfl rfl
theorem and (f : FmtR) : Statement (.and f) := of_form rfl rfl
theorem or (f : FmtR) : Statement (.or f) := of_form rfl rfl
theorem xor (f : FmtR) : Statement (.xor f) := of_form rfl rfl
theorem andn (f : FmtR) : Statement (.andn f) := of_form rfl rfl
theorem orn (f : FmtR) : Statement (.orn f) := of_form rfl rfl
theorem sll (f : FmtR) : Statement (.sll f) := of_form rfl rfl
theorem srl (f : FmtR) : Statement (.srl f) := of_form rfl rfl
theorem sra (f : FmtR) : Statement (.sra f) := of_form rfl rfl
theorem rol (f : FmtR) : Statement (.rol f) := of_form rfl rfl
theorem ror (f : FmtR) : Statement (.ror f) := of_form rfl rfl
theorem min (f : FmtR) : Statement (.min f) := of_form rfl rfl
theorem max (f : FmtR) : Statement (.max f) := of_form rfl rfl
theorem minu (f : FmtR) : Statement (.minu f) := of_form rfl rfl
theorem maxu (f : FmtR) : Statement (.maxu f) := of_form rfl rfl
theorem adds (f : FmtR) : Statement (.adds f) := of_form rfl rfl
theorem subs (f : FmtR) : Statement (.subs f) := of_form rfl rfl
theorem addus (f : FmtR) : Statement (.addus f) := of_form rfl rfl
theorem subus (f : FmtR) : Statement (.subus f) := of_form rfl rfl
theorem clz (f : FmtR) : Statement (.clz f) := of_form rfl rfl
theorem ctz (f : FmtR) : Statement (.ctz f) := of_form rfl rfl
theorem popc (f : FmtR) : Statement (.popc f) := of_form rfl rfl
theorem bswap (f : FmtR) : Statement (.bswap f) := of_form rfl rfl
theorem abs (f : FmtR) : Statement (.abs f) := of_form rfl rfl
theorem addi (f : FmtI) : Statement (.addi f) := of_form rfl rfl
theorem andi (f : FmtI) : Statement (.andi f) := of_form rfl rfl
theorem ori (f : FmtI) : Statement (.ori f) := of_form rfl rfl
theorem xori (f : FmtI) : Statement (.xori f) := of_form rfl rfl
theorem slli (f : FmtSh) : Statement (.slli f) := of_form rfl rfl
theorem srli (f : FmtSh) : Statement (.srli f) := of_form rfl rfl
theorem srai (f : FmtSh) : Statement (.srai f) := of_form rfl rfl
theorem rori (f : FmtSh) : Statement (.rori f) := of_form rfl rfl
theorem slti (f : FmtSlt) : Statement (.slti f) := of_form rfl rfl
theorem sltiu (f : FmtSlt) : Statement (.sltiu f) := of_form rfl rfl
theorem seqi (f : FmtSlt) : Statement (.seqi f) := of_form rfl rfl
theorem snei (f : FmtSlt) : Statement (.snei f) := of_form rfl rfl
theorem lik (f : FmtK) : Statement (.lik f) := of_form rfl rfl
theorem bfxu (f : FmtBF) : Statement (.bfxu f) := of_form rfl rfl
theorem bfxs (f : FmtBF) : Statement (.bfxs f) := of_form rfl rfl
theorem bfi (f : FmtBF) : Statement (.bfi f) := of_form rfl rfl
theorem mul (f : FmtR) : Statement (.mul f) := of_form rfl rfl
theorem mulh (f : FmtR) : Statement (.mulh f) := of_form rfl rfl
theorem mulhu (f : FmtR) : Statement (.mulhu f) := of_form rfl rfl
theorem mulhsu (f : FmtR) : Statement (.mulhsu f) := of_form rfl rfl
theorem div (f : FmtR) : Statement (.div f) := of_form rfl rfl
theorem divu (f : FmtR) : Statement (.divu f) := of_form rfl rfl
theorem rem (f : FmtR) : Statement (.rem f) := of_form rfl rfl
theorem remu (f : FmtR) : Statement (.remu f) := of_form rfl rfl
theorem cmpeq (f : FmtR) : Statement (.cmpeq f) := of_form rfl rfl
theorem cmpne (f : FmtR) : Statement (.cmpne f) := of_form rfl rfl
theorem cmplt (f : FmtR) : Statement (.cmplt f) := of_form rfl rfl
theorem cmpge (f : FmtR) : Statement (.cmpge f) := of_form rfl rfl
theorem cmpltu (f : FmtR) : Statement (.cmpltu f) := of_form rfl rfl
theorem cmpgeu (f : FmtR) : Statement (.cmpgeu f) := of_form rfl rfl
theorem csel (f : FmtR) : Statement (.csel f) := of_form rfl rfl
theorem cmovz (f : FmtR) : Statement (.cmovz f) := of_form rfl rfl
theorem cmovnz (f : FmtR) : Statement (.cmovnz f) := of_form rfl rfl
theorem fadd (f : FmtFR) : Statement (.fadd f) := of_form rfl rfl
theorem fsub (f : FmtFR) : Statement (.fsub f) := of_form rfl rfl
theorem fmul (f : FmtFR) : Statement (.fmul f) := of_form rfl rfl
theorem fdiv (f : FmtFR) : Statement (.fdiv f) := of_form rfl rfl
theorem fsqrt (f : FmtFR) : Statement (.fsqrt f) := of_form rfl rfl
theorem fmin (f : FmtFT) : Statement (.fmin f) := of_form rfl rfl
theorem fmax (f : FmtFT) : Statement (.fmax f) := of_form rfl rfl
theorem fsgnj (f : FmtFT) : Statement (.fsgnj f) := of_form rfl rfl
theorem fsgnjn (f : FmtFT) : Statement (.fsgnjn f) := of_form rfl rfl
theorem fsgnjx (f : FmtFT) : Statement (.fsgnjx f) := of_form rfl rfl
theorem fclass (f : FmtFT) : Statement (.fclass f) := of_form rfl rfl
theorem fmadd (f : FmtFR) : Statement (.fmadd f) := of_form rfl rfl
theorem fmsub (f : FmtFR) : Statement (.fmsub f) := of_form rfl rfl
theorem fnmsub (f : FmtFR) : Statement (.fnmsub f) := of_form rfl rfl
theorem fnmadd (f : FmtFR) : Statement (.fnmadd f) := of_form rfl rfl
theorem faddc (f : FmtC) : Statement (.faddc f) := of_form rfl rfl
theorem fsubc (f : FmtC) : Statement (.fsubc f) := of_form rfl rfl
theorem frsubc (f : FmtC) : Statement (.frsubc f) := of_form rfl rfl
theorem fmulc (f : FmtC) : Statement (.fmulc f) := of_form rfl rfl
theorem fmulac (f : FmtC) : Statement (.fmulac f) := of_form rfl rfl
theorem fmacc (f : FmtC) : Statement (.fmacc f) := of_form rfl rfl
theorem fldc (f : FmtC) : Statement (.fldc f) := of_form rfl rfl
theorem fli (f : FmtF20) : Statement (.fli f) := of_form rfl rfl
theorem cvt (f : FmtCvt) : Statement (.cvt f) := of_form rfl rfl
theorem feq (f : FmtFT) : Statement (.feq f) := of_form rfl rfl
theorem fne (f : FmtFT) : Statement (.fne f) := of_form rfl rfl
theorem flt (f : FmtFT) : Statement (.flt f) := of_form rfl rfl
theorem fle (f : FmtFT) : Statement (.fle f) := of_form rfl rfl
theorem funord (f : FmtFT) : Statement (.funord f) := of_form rfl rfl
theorem ld (f : FmtM) : Statement (.ld f) := of_form rfl rfl
theorem st (f : FmtM) : Statement (.st f) := of_form rfl rfl
theorem ldx (f : FmtX) : Statement (.ldx f) := of_form rfl rfl
theorem stx (f : FmtX) : Statement (.stx f) := of_form rfl rfl
theorem ldxSx (f : FmtX) : Statement (.ldxSx f) := of_form rfl rfl
theorem bfxur (f : FmtR) : Statement (.bfxur f) := of_form rfl rfl
theorem bfxsr (f : FmtR) : Statement (.bfxsr f) := of_form rfl rfl
theorem bfir (f : FmtR) : Statement (.bfir f) := of_form rfl rfl
theorem amoswap (f : FmtAmo) : Statement (.amoswap f) := of_form rfl rfl
theorem amoadd (f : FmtAmo) : Statement (.amoadd f) := of_form rfl rfl
theorem amoand (f : FmtAmo) : Statement (.amoand f) := of_form rfl rfl
theorem amoor (f : FmtAmo) : Statement (.amoor f) := of_form rfl rfl
theorem amomax (f : FmtAmo) : Statement (.amomax f) := of_form rfl rfl
theorem amomin (f : FmtAmo) : Statement (.amomin f) := of_form rfl rfl
theorem amomaxu (f : FmtAmo) : Statement (.amomaxu f) := of_form rfl rfl
theorem cas (f : FmtAmo) : Statement (.cas f) := of_form rfl rfl
theorem beqz (f : FmtB) : Statement (.beqz f) := of_form rfl rfl
theorem bnez (f : FmtB) : Statement (.bnez f) := of_form rfl rfl
theorem bltz (f : FmtB) : Statement (.bltz f) := of_form rfl rfl
theorem bgez (f : FmtB) : Statement (.bgez f) := of_form rfl rfl
theorem bgtz (f : FmtB) : Statement (.bgtz f) := of_form rfl rfl
theorem blez (f : FmtB) : Statement (.blez f) := of_form rfl rfl
theorem beven (f : FmtB) : Statement (.beven f) := of_form rfl rfl
theorem bodd (f : FmtB) : Statement (.bodd f) := of_form rfl rfl
theorem j (f : FmtJ) : Statement (.j f) := of_form rfl rfl
theorem jl (f : FmtJ) : Statement (.jl f) := of_form rfl rfl
theorem jr (f : FmtR) : Statement (.jr f) := of_form rfl rfl
theorem jlr (f : FmtR) : Statement (.jlr f) := of_form rfl rfl
theorem ret (f : FmtR) : Statement (.ret f) := of_form rfl rfl
theorem scene (f : FmtSC) : Statement (.scene f) := of_form rfl rfl
theorem sceneChk (f : FmtSC) : Statement (.sceneChk f) := of_form rfl rfl
theorem redo (f : FmtSC) : Statement (.redo f) := of_form rfl rfl
theorem commit (f : FmtSC) : Statement (.commit f) := of_form rfl rfl
theorem nop (f : FmtS) : Statement (.nop f) := of_form rfl rfl
theorem halt (f : FmtS) : Statement (.halt f) := of_form rfl rfl
theorem crd (f : FmtS) : Statement (.crd f) := of_form rfl rfl
theorem cwr (f : FmtS) : Statement (.cwr f) := of_form rfl rfl
theorem cbw (f : FmtS) : Statement (.cbw f) := of_form rfl rfl
theorem cbrd (f : FmtS) : Statement (.cbrd f) := of_form rfl rfl
theorem cbld (f : FmtS) : Statement (.cbld f) := of_form rfl rfl
theorem ldAcq (f : FmtOrd) : Statement (.ldAcq f) := of_form rfl rfl
theorem stRel (f : FmtOrd) : Statement (.stRel f) := of_form rfl rfl
theorem lut4ld (f : FmtS) : Statement (.lut4ld f) := of_form rfl rfl
theorem bfset (f : FmtS) : Statement (.bfset f) := of_form rfl rfl
theorem bfrd (f : FmtS) : Statement (.bfrd f) := of_form rfl rfl
theorem prefL1 (f : FmtS) : Statement (.prefL1 f) := of_form rfl rfl
theorem prefL2 (f : FmtS) : Statement (.prefL2 f) := of_form rfl rfl
theorem mhintNear (f : FmtS) : Statement (.mhintNear f) := of_form rfl rfl
theorem mhintHome (f : FmtS) : Statement (.mhintHome f) := of_form rfl rfl
theorem mhintPage (f : FmtS) : Statement (.mhintPage f) := of_form rfl rfl
theorem spawn (f : FmtR) : Statement (.spawn f) := of_form rfl rfl
theorem join (f : FmtR) : Statement (.join f) := of_form rfl rfl
theorem suspend (f : FmtR) : Statement (.suspend f) := of_form rfl rfl
theorem yield (f : FmtR) : Statement (.yield f) := of_form rfl rfl
theorem exit (f : FmtR) : Statement (.exit f) := of_form rfl rfl
theorem exitJ (f : FmtR) : Statement (.exitJ f) := of_form rfl rfl
theorem wake (f : FmtR) : Statement (.wake f) := of_form rfl rfl
theorem bar (f : FmtR) : Statement (.bar f) := of_form rfl rfl
theorem chain (f : FmtR) : Statement (.chain f) := of_form rfl rfl
theorem widf (f : FmtWid) : Statement (.widf f) := of_form rfl rfl
theorem widfr (f : FmtWid) : Statement (.widfr f) := of_form rfl rfl
theorem send (f : FmtR) : Statement (.send f) := of_form rfl rfl
theorem mclr (f : FmtR) : Statement (.mclr f) := of_form rfl rfl
theorem mwait (f : FmtR) : Statement (.mwait f) := of_form rfl rfl
theorem mwaitAny (f : FmtR) : Statement (.mwaitAny f) := of_form rfl rfl
theorem rst (f : FmtRst) : Statement (.rst f) := of_form rfl rfl
theorem rstA (f : FmtRst) : Statement (.rstA f) := of_form rfl rfl
theorem rstv (f : FmtRsv) : Statement (.rstv f) := of_form rfl rfl
theorem rstvA (f : FmtRsv) : Statement (.rstvA f) := of_form rfl rfl
theorem gang (f : FmtS) : Statement (.gang f) := of_form rfl rfl
theorem ungang (f : FmtS) : Statement (.ungang f) := of_form rfl rfl
theorem fenceAcq (f : FmtFence) : Statement (.fenceAcq f) := of_form rfl rfl
theorem fenceRel (f : FmtFence) : Statement (.fenceRel f) := of_form rfl rfl
theorem fenceFull (f : FmtFence) : Statement (.fenceFull f) := of_form rfl rfl
theorem qfence (f : FmtQf) : Statement (.qfence f) := of_form rfl rfl
theorem qfenceAll (f : FmtS) : Statement (.qfenceAll f) := of_form rfl rfl
theorem vadd (f : FmtV) : Statement (.vadd f) := of_form rfl rfl
theorem vsub (f : FmtV) : Statement (.vsub f) := of_form rfl rfl
theorem vmul (f : FmtV) : Statement (.vmul f) := of_form rfl rfl
theorem vmulh (f : FmtV) : Statement (.vmulh f) := of_form rfl rfl
theorem vmulhu (f : FmtV) : Statement (.vmulhu f) := of_form rfl rfl
theorem vand (f : FmtV) : Statement (.vand f) := of_form rfl rfl
theorem vor (f : FmtV) : Statement (.vor f) := of_form rfl rfl
theorem vxor (f : FmtV) : Statement (.vxor f) := of_form rfl rfl
theorem vsll (f : FmtV) : Statement (.vsll f) := of_form rfl rfl
theorem vsrl (f : FmtV) : Statement (.vsrl f) := of_form rfl rfl
theorem vsra (f : FmtV) : Statement (.vsra f) := of_form rfl rfl
theorem vmin (f : FmtV) : Statement (.vmin f) := of_form rfl rfl
theorem vmax (f : FmtV) : Statement (.vmax f) := of_form rfl rfl
theorem vminu (f : FmtV) : Statement (.vminu f) := of_form rfl rfl
theorem vmaxu (f : FmtV) : Statement (.vmaxu f) := of_form rfl rfl
theorem vadds (f : FmtV) : Statement (.vadds f) := of_form rfl rfl
theorem vsubs (f : FmtV) : Statement (.vsubs f) := of_form rfl rfl
theorem vaddus (f : FmtV) : Statement (.vaddus f) := of_form rfl rfl
theorem vsubus (f : FmtV) : Statement (.vsubus f) := of_form rfl rfl
theorem vabs (f : FmtV) : Statement (.vabs f) := of_form rfl rfl
theorem vsel (f : FmtV) : Statement (.vsel f) := of_form rfl rfl
theorem vcmpeq (f : FmtV) : Statement (.vcmpeq f) := of_form rfl rfl
theorem vcmpne (f : FmtV) : Statement (.vcmpne f) := of_form rfl rfl
theorem vcmplt (f : FmtV) : Statement (.vcmplt f) := of_form rfl rfl
theorem vcmpge (f : FmtV) : Statement (.vcmpge f) := of_form rfl rfl
theorem vcmpltu (f : FmtV) : Statement (.vcmpltu f) := of_form rfl rfl
theorem vcmpgeu (f : FmtV) : Statement (.vcmpgeu f) := of_form rfl rfl
theorem vfadd (f : FmtVF) : Statement (.vfadd f) := of_form rfl rfl
theorem vfsub (f : FmtVF) : Statement (.vfsub f) := of_form rfl rfl
theorem vfmul (f : FmtVF) : Statement (.vfmul f) := of_form rfl rfl
theorem vfdiv (f : FmtVF) : Statement (.vfdiv f) := of_form rfl rfl
theorem vfsqrt (f : FmtVF) : Statement (.vfsqrt f) := of_form rfl rfl
theorem vfmadd (f : FmtVF) : Statement (.vfmadd f) := of_form rfl rfl
theorem vfmsub (f : FmtVF) : Statement (.vfmsub f) := of_form rfl rfl
theorem vfnmsub (f : FmtVF) : Statement (.vfnmsub f) := of_form rfl rfl
theorem vfmin (f : FmtV) : Statement (.vfmin f) := of_form rfl rfl
theorem vfmax (f : FmtV) : Statement (.vfmax f) := of_form rfl rfl
theorem vfabs (f : FmtV) : Statement (.vfabs f) := of_form rfl rfl
theorem vfneg (f : FmtV) : Statement (.vfneg f) := of_form rfl rfl
theorem vfsgnj (f : FmtV) : Statement (.vfsgnj f) := of_form rfl rfl
theorem vfeq (f : FmtV) : Statement (.vfeq f) := of_form rfl rfl
theorem vflt (f : FmtV) : Statement (.vflt f) := of_form rfl rfl
theorem vfle (f : FmtV) : Statement (.vfle f) := of_form rfl rfl
theorem vfun (f : FmtV) : Statement (.vfun f) := of_form rfl rfl
theorem vaddVs (f : FmtVS) : Statement (.vaddVs f) := of_form rfl rfl
theorem vsubVs (f : FmtVS) : Statement (.vsubVs f) := of_form rfl rfl
theorem vrsubVs (f : FmtVS) : Statement (.vrsubVs f) := of_form rfl rfl
theorem vmulVs (f : FmtVS) : Statement (.vmulVs f) := of_form rfl rfl
theorem vandVs (f : FmtVS) : Statement (.vandVs f) := of_form rfl rfl
theorem vorVs (f : FmtVS) : Statement (.vorVs f) := of_form rfl rfl
theorem vxorVs (f : FmtVS) : Statement (.vxorVs f) := of_form rfl rfl
theorem vsllVs (f : FmtVS) : Statement (.vsllVs f) := of_form rfl rfl
theorem vsrlVs (f : FmtVS) : Statement (.vsrlVs f) := of_form rfl rfl
theorem vsraVs (f : FmtVS) : Statement (.vsraVs f) := of_form rfl rfl
theorem vminVs (f : FmtVS) : Statement (.vminVs f) := of_form rfl rfl
theorem vmaxVs (f : FmtVS) : Statement (.vmaxVs f) := of_form rfl rfl
theorem vcvtn (f : FmtVS) : Statement (.vcvtn f) := of_form rfl rfl
theorem vcvtw (f : FmtVS) : Statement (.vcvtw f) := of_form rfl rfl
theorem vfaddVs (f : FmtVS) : Statement (.vfaddVs f) := of_form rfl rfl
theorem vfsubVs (f : FmtVS) : Statement (.vfsubVs f) := of_form rfl rfl
theorem vfrsubVs (f : FmtVS) : Statement (.vfrsubVs f) := of_form rfl rfl
theorem vfmulVs (f : FmtVS) : Statement (.vfmulVs f) := of_form rfl rfl
theorem vfmaddVs (f : FmtVS) : Statement (.vfmaddVs f) := of_form rfl rfl
theorem vfminVs (f : FmtVS) : Statement (.vfminVs f) := of_form rfl rfl
theorem vfmaxVs (f : FmtVS) : Statement (.vfmaxVs f) := of_form rfl rfl
theorem vmovVs (f : FmtVS) : Statement (.vmovVs f) := of_form rfl rfl
theorem vcmpeqVs (f : FmtVS) : Statement (.vcmpeqVs f) := of_form rfl rfl
theorem vcmpltVs (f : FmtVS) : Statement (.vcmpltVs f) := of_form rfl rfl
theorem vcmpltuVs (f : FmtVS) : Statement (.vcmpltuVs f) := of_form rfl rfl
theorem vfeqVs (f : FmtVS) : Statement (.vfeqVs f) := of_form rfl rfl
theorem vfltVs (f : FmtVS) : Statement (.vfltVs f) := of_form rfl rfl
theorem vfleVs (f : FmtVS) : Statement (.vfleVs f) := of_form rfl rfl
theorem vld (f : FmtVM) : Statement (.vld f) := of_form rfl rfl
theorem vst (f : FmtVM) : Statement (.vst f) := of_form rfl rfl
theorem vgather (f : FmtVG) : Statement (.vgather f) := of_form rfl rfl
theorem vscatter (f : FmtVG) : Statement (.vscatter f) := of_form rfl rfl
theorem vlds (f : FmtVS) : Statement (.vlds f) := of_form rfl rfl
theorem vsts (f : FmtVS) : Statement (.vsts f) := of_form rfl rfl
theorem vext (f : FmtVS) : Statement (.vext f) := of_form rfl rfl
theorem kmovs (f : FmtVS) : Statement (.kmovs f) := of_form rfl rfl
theorem kset (f : FmtVS) : Statement (.kset f) := of_form rfl rfl
theorem vstat (f : FmtVS) : Statement (.vstat f) := of_form rfl rfl
theorem vredadd (f : FmtVr) : Statement (.vredadd f) := of_form rfl rfl
theorem vredmin (f : FmtVr) : Statement (.vredmin f) := of_form rfl rfl
theorem vredmax (f : FmtVr) : Statement (.vredmax f) := of_form rfl rfl
theorem vredminu (f : FmtVr) : Statement (.vredminu f) := of_form rfl rfl
theorem vredmaxu (f : FmtVr) : Statement (.vredmaxu f) := of_form rfl rfl
theorem vredand (f : FmtVr) : Statement (.vredand f) := of_form rfl rfl
theorem vredor (f : FmtVr) : Statement (.vredor f) := of_form rfl rfl
theorem vredxor (f : FmtVr) : Statement (.vredxor f) := of_form rfl rfl
theorem vredfadd (f : FmtVr) : Statement (.vredfadd f) := of_form rfl rfl
theorem vredfmin (f : FmtVr) : Statement (.vredfmin f) := of_form rfl rfl
theorem vredfmax (f : FmtVr) : Statement (.vredfmax f) := of_form rfl rfl
theorem vredfamax (f : FmtVr) : Statement (.vredfamax f) := of_form rfl rfl
theorem vrot (f : FmtVS) : Statement (.vrot f) := of_form rfl rfl
theorem vrcp (f : FmtV) : Statement (.vrcp f) := of_form rfl rfl
theorem vrsqrt (f : FmtV) : Statement (.vrsqrt f) := of_form rfl rfl
theorem vexp2 (f : FmtV) : Statement (.vexp2 f) := of_form rfl rfl
theorem vlog2 (f : FmtV) : Statement (.vlog2 f) := of_form rfl rfl
theorem vtanh (f : FmtV) : Statement (.vtanh f) := of_form rfl rfl
theorem vsigm (f : FmtV) : Statement (.vsigm f) := of_form rfl rfl
theorem vsinpi (f : FmtV) : Statement (.vsinpi f) := of_form rfl rfl
theorem vcospi (f : FmtV) : Statement (.vcospi f) := of_form rfl rfl
theorem vperm (f : FmtV) : Statement (.vperm f) := of_form rfl rfl
theorem vmov (f : FmtV) : Statement (.vmov f) := of_form rfl rfl
theorem vcvtSI (f : FmtV) : Statement (.vcvtSI f) := of_form rfl rfl
theorem vcvtIS (f : FmtV) : Statement (.vcvtIS f) := of_form rfl rfl
theorem vcvtSH (f : FmtV) : Statement (.vcvtSH f) := of_form rfl rfl
theorem vcvtHS (f : FmtV) : Statement (.vcvtHS f) := of_form rfl rfl
theorem vcvtSBf (f : FmtV) : Statement (.vcvtSBf f) := of_form rfl rfl
theorem vcvtBfS (f : FmtV) : Statement (.vcvtBfS f) := of_form rfl rfl
theorem vcvtSU (f : FmtV) : Statement (.vcvtSU f) := of_form rfl rfl
theorem vcvtUS (f : FmtV) : Statement (.vcvtUS f) := of_form rfl rfl
theorem kand (f : FmtV) : Statement (.kand f) := of_form rfl rfl
theorem kor (f : FmtV) : Statement (.kor f) := of_form rfl rfl
theorem kxor (f : FmtV) : Statement (.kxor f) := of_form rfl rfl
theorem kandn (f : FmtV) : Statement (.kandn f) := of_form rfl rfl
theorem knot (f : FmtV) : Statement (.knot f) := of_form rfl rfl
theorem vfence (f : FmtV) : Statement (.vfence f) := of_form rfl rfl
theorem vgmov (f : FmtV) : Statement (.vgmov f) := of_form rfl rfl
theorem vgadd (f : FmtV) : Statement (.vgadd f) := of_form rfl rfl
theorem vgfadd (f : FmtV) : Statement (.vgfadd f) := of_form rfl rfl
theorem vgfmax (f : FmtV) : Statement (.vgfmax f) := of_form rfl rfl
theorem mzero (f : FmtCop) : Statement (.mzero f) := of_form rfl rfl
theorem mmaN (f : FmtCop) : Statement (.mmaN f) := of_form rfl rfl
theorem mmaH (f : FmtCop) : Statement (.mmaH f) := of_form rfl rfl
theorem mmaBf (f : FmtCop) : Statement (.mmaBf f) := of_form rfl rfl
theorem mmaS (f : FmtCop) : Statement (.mmaS f) := of_form rfl rfl
theorem mdrain (f : FmtCop) : Statement (.mdrain f) := of_form rfl rfl
theorem mtask (f : FmtCop) : Statement (.mtask f) := of_form rfl rfl
theorem cpy (f : FmtCpy) : Statement (.cpy f) := of_form rfl rfl
theorem cfill (f : FmtCpy) : Statement (.cfill f) := of_form rfl rfl
theorem ssamp (f : FmtCop) : Statement (.ssamp f) := of_form rfl rfl
theorem sdraw (f : FmtCop) : Statement (.sdraw f) := of_form rfl rfl
theorem gstep (f : FmtCop) : Statement (.gstep f) := of_form rfl rfl
theorem gmask (f : FmtCop) : Statement (.gmask f) := of_form rfl rfl
theorem gflush (f : FmtCop) : Statement (.gflush f) := of_form rfl rfl
theorem sin (f : FmtCop) : Statement (.sin f) := of_form rfl rfl
theorem sadv (f : FmtCop) : Statement (.sadv f) := of_form rfl rfl
theorem stok (f : FmtCop) : Statement (.stok f) := of_form rfl rfl
theorem sopen (f : FmtCop) : Statement (.sopen f) := of_form rfl rfl
theorem cpost (f : FmtCop) : Statement (.cpost f) := of_form rfl rfl
theorem cpubl (f : FmtCop) : Statement (.cpubl f) := of_form rfl rfl
theorem cread (f : FmtCop) : Statement (.cread f) := of_form rfl rfl
theorem evput (f : FmtCop) : Statement (.evput f) := of_form rfl rfl
theorem csave (f : FmtCop) : Statement (.csave f) := of_form rfl rfl
theorem crestore (f : FmtCop) : Statement (.crestore f) := of_form rfl rfl
theorem copw (f : FmtCpw) : Statement (.copw f) := of_form rfl rfl
theorem coprd (f : FmtCpw) : Statement (.coprd f) := of_form rfl rfl
theorem esync (f : FmtEsy) : Statement (.esync f) := of_form rfl rfl
theorem trap (f : FmtS) : Statement (.trap f) := of_form rfl rfl
theorem rett (f : FmtS) : Statement (.rett f) := of_form rfl rfl
theorem rettRedo (f : FmtS) : Statement (.rettRedo f) := of_form rfl rfl
theorem rettKill (f : FmtS) : Statement (.rettKill f) := of_form rfl rfl
theorem swin (f : FmtS) : Statement (.swin f) := of_form rfl rfl
theorem swinW (f : FmtS) : Statement (.swinW f) := of_form rfl rfl
theorem csfreeze (f : FmtS) : Statement (.csfreeze f) := of_form rfl rfl
theorem csthaw (f : FmtS) : Statement (.csthaw f) := of_form rfl rfl
theorem seize (f : FmtS) : Statement (.seize f) := of_form rfl rfl
theorem release (f : FmtS) : Statement (.release f) := of_form rfl rfl
theorem registerWrite (core seat bank num : Nat) (v : BitVec 64) :
    Statement (.registerWrite core seat bank num v) := of_event rfl
theorem moduleReset : Statement .moduleReset := of_event rfl
theorem bootImageLoad (img : List (BitVec 8)) (wellFormed : Bool) (key : KeyCheck) :
    Statement (.bootImageLoad img wellFormed key) := of_event rfl
theorem takeUp (core seat : Nat) : Statement (.takeUp core seat) := of_event rfl
theorem loadDataArrival (core seat bank k : Nat) : Statement (.loadDataArrival core seat bank k) := of_event rfl
theorem ptsTick (core : Nat) : Statement (.ptsTick core) := of_event rfl
theorem vectorCommandPerform (core : Nat) : Statement (.vectorCommandPerform core) := of_event rfl
theorem mailArrival (k : Nat) : Statement (.mailArrival k) := of_event rfl
theorem bounceWordArrival (k : Nat) : Statement (.bounceWordArrival k) := of_event rfl
theorem remoteStoreArrival (k : Nat) : Statement (.remoteStoreArrival k) := of_event rfl
theorem stageDoorDelivery (die k : Nat) : Statement (.stageDoorDelivery die k) := of_event rfl
theorem reflexStartMessage (k : Nat) : Statement (.reflexStartMessage k) := of_event rfl
theorem xtimerFire (core t : Nat) : Statement (.xtimerFire core t) := of_event rfl
theorem launchCueArrival (k : Nat) : Statement (.launchCueArrival k) := of_event rfl
theorem stealProbe (core : Nat) : Statement (.stealProbe core) := of_event rfl
theorem stealReplyArrival (k : Nat) : Statement (.stealReplyArrival k) := of_event rfl
theorem terminationWave (slot : Nat) : Statement (.terminationWave slot) := of_event rfl
theorem ensembleClaim (slot : Nat) : Statement (.ensembleClaim slot) := of_event rfl
theorem placementWaitExpiry (slot : Nat) : Statement (.placementWaitExpiry slot) := of_event rfl
theorem l2LineMigration (line : Nat) : Statement (.l2LineMigration line) := of_event rfl
theorem l1ctlInv (core : Nat) : Statement (.l1ctlInv core) := of_event rfl
theorem bfmtWrite (core b : Nat) (v : BitVec 64) : Statement (.bfmtWrite core b v) := of_event rfl
theorem grhostWrite (core : Nat) (v : BitVec 64) : Statement (.grhostWrite core v) := of_event rfl
theorem greenRoomRecall (core : Nat) : Statement (.greenRoomRecall core) := of_event rfl
theorem mnqheadWrite (die : Nat) (v : BitVec 64) : Statement (.mnqheadWrite die v) := of_event rfl
theorem migackWrite (die : Nat) (v : BitVec 64) : Statement (.migackWrite die v) := of_event rfl
theorem pmctlGo (die : Nat) : Statement (.pmctlGo die) := of_event rfl
theorem pageMoveCopyDone (die : Nat) : Statement (.pageMoveCopyDone die) := of_event rfl
theorem pmctlEnd (die : Nat) : Statement (.pmctlEnd die) := of_event rfl
theorem tlbinvWrite (v : BitVec 64) : Statement (.tlbinvWrite v) := of_event rfl
theorem tlbinvDone : Statement .tlbinvDone := of_event rfl
theorem pgwakeWrite (v : BitVec 64) : Statement (.pgwakeWrite v) := of_event rfl
theorem mmaStep (core q : Nat) : Statement (.mmaStep core q) := of_event rfl
theorem mzeroStep (core q : Nat) : Statement (.mzeroStep core q) := of_event rfl
theorem mdrainStep (core q : Nat) : Statement (.mdrainStep core q) := of_event rfl
theorem mctlResume (core q : Nat) : Statement (.mctlResume core q) := of_event rfl
theorem mctlAbort (core q : Nat) : Statement (.mctlAbort core q) := of_event rfl
theorem tileTaskPost (cluster : Nat) : Statement (.tileTaskPost cluster) := of_event rfl
theorem tileTaskIssue (cluster : Nat) : Statement (.tileTaskIssue cluster) := of_event rfl
theorem copyStep (core c : Nat) : Statement (.copyStep core c) := of_event rfl
theorem ccmdResume (core c : Nat) : Statement (.ccmdResume core c) := of_event rfl
theorem ccmdAbort (core c : Nat) : Statement (.ccmdAbort core c) := of_event rfl
theorem samplerBarrierCheck (core q : Nat) : Statement (.samplerBarrierCheck core q) := of_event rfl
theorem samplerScanStep (core q : Nat) : Statement (.samplerScanStep core q) := of_event rfl
theorem winnerMessageArrival (k : Nat) : Statement (.winnerMessageArrival k) := of_event rfl
theorem samplerGather (core q : Nat) : Statement (.samplerGather core q) := of_event rfl
theorem samplerDeliver (core q : Nat) : Statement (.samplerDeliver core q) := of_event rfl
theorem sdrawStep (core q : Nat) : Statement (.sdrawStep core q) := of_event rfl
theorem sctlResume (core q : Nat) : Statement (.sctlResume core q) := of_event rfl
theorem sctlAbort (core q : Nat) : Statement (.sctlAbort core q) := of_event rfl
theorem gstepApply (core q : Nat) : Statement (.gstepApply core q) := of_event rfl
theorem gmaskStep (core q : Nat) : Statement (.gmaskStep core q) := of_event rfl
theorem gflushApply (core q : Nat) : Statement (.gflushApply core q) := of_event rfl
theorem gctlResume (core q : Nat) : Statement (.gctlResume core q) := of_event rfl
theorem gctlAbort (core q : Nat) : Statement (.gctlAbort core q) := of_event rfl
theorem streamEventArrival (core q : Nat) : Statement (.streamEventArrival core q) := of_event rfl
theorem streamEventApply (die k : Nat) : Statement (.streamEventApply die k) := of_event rfl
theorem cpostStep (core q : Nat) : Statement (.cpostStep core q) := of_event rfl
theorem cpublApply (core q : Nat) : Statement (.cpublApply core q) := of_event rfl
theorem caddyFlip (die mb : Nat) : Statement (.caddyFlip die mb) := of_event rfl
theorem creadStep (core q : Nat) : Statement (.creadStep core q) := of_event rfl
theorem cxdescWrite (die mb : Nat) (v : BitVec 64) : Statement (.cxdescWrite die mb v) := of_event rfl
theorem evputStep (core q : Nat) : Statement (.evputStep core q) := of_event rfl
theorem csiEventPacket (die rx vc dt : Nat) (good : Bool) (bytes : List (BitVec 8)) :
    Statement (.csiEventPacket die rx vc dt good bytes) := of_event rfl
theorem csiImagePacket (die rx vc dt : Nat) (good : Bool) (bytes : List (BitVec 8)) :
    Statement (.csiImagePacket die rx vc dt good bytes) := of_event rfl
theorem csiFrameMark (die rx vc : Nat) (isEnd : Bool) : Statement (.csiFrameMark die rx vc isEnd) := of_event rfl
theorem ppsEdge (die : Nat) : Statement (.ppsEdge die) := of_event rfl
theorem csaveStep (core : Nat) : Statement (.csaveStep core) := of_event rfl
theorem crestoreStep (core : Nat) : Statement (.crestoreStep core) := of_event rfl
theorem csctlResume (core : Nat) : Statement (.csctlResume core) := of_event rfl
theorem csctlAbort (core : Nat) : Statement (.csctlAbort core) := of_event rfl
theorem preemptReq (core kind : Nat) : Statement (.preemptReq core kind) := of_event rfl
theorem ptimeExpiry (core : Nat) : Statement (.ptimeExpiry core) := of_event rfl
theorem preemptHandlerEntry (core seat : Nat) : Statement (.preemptHandlerEntry core seat) := of_event rfl
theorem preemptResend (core : Nat) : Statement (.preemptResend core) := of_event rfl
theorem faultMessageArrival (k : Nat) : Statement (.faultMessageArrival k) := of_event rfl
theorem fheadWrite (core : Nat) (v : BitVec 64) : Statement (.fheadWrite core v) := of_event rfl
theorem swcmdResume (core seat bank : Nat) : Statement (.swcmdResume core seat bank) := of_event rfl
theorem swcmdKill (core seat bank : Nat) : Statement (.swcmdKill core seat bank) := of_event rfl
theorem curtainRaise (part : Nat) : Statement (.curtainRaise part) := of_event rfl
theorem curtainLower (part : Nat) : Statement (.curtainLower part) := of_event rfl
theorem curtainHalt (core : Nat) : Statement (.curtainHalt core) := of_event rfl
theorem curtainResume (core : Nat) : Statement (.curtainResume core) := of_event rfl
theorem curtdevRaise (part : Nat) : Statement (.curtdevRaise part) := of_event rfl
theorem curtdevLower (part : Nat) : Statement (.curtdevLower part) := of_event rfl
theorem machineCheck (core : Nat) : Statement (.machineCheck core) := of_event rfl
theorem szgrpWrite (g : Nat) (v : BitVec 64) : Statement (.szgrpWrite g v) := of_event rfl
theorem seizeArrival (k : Nat) : Statement (.seizeArrival k) := of_event rfl
theorem seizeTakeUp (core : Nat) : Statement (.seizeTakeUp core) := of_event rfl
theorem releaseArrival (k : Nat) : Statement (.releaseArrival k) := of_event rfl
theorem wdogKick (slot : Nat) : Statement (.wdogKick slot) := of_event rfl
theorem watchdogPreempt (slot : Nat) : Statement (.watchdogPreempt slot) := of_event rfl
theorem watchdogKill (slot : Nat) : Statement (.watchdogKill slot) := of_event rfl
theorem watchdogFence (slot : Nat) : Statement (.watchdogFence slot) := of_event rfl
theorem qdoorWrite (v : BitVec 64) : Statement (.qdoorWrite v) := of_event rfl
theorem commandAccept (slot : Nat) : Statement (.commandAccept slot) := of_event rfl
theorem cmdLaunch (slot : Nat) : Statement (.cmdLaunch slot) := of_event rfl
theorem cmdWait (slot : Nat) : Statement (.cmdWait slot) := of_event rfl
theorem waitSatisfied (slot : Nat) : Statement (.waitSatisfied slot) := of_event rfl
theorem cmdSignal (slot : Nat) : Statement (.cmdSignal slot) := of_event rfl
theorem cmdQuote (slot : Nat) : Statement (.cmdQuote slot) := of_event rfl
theorem slotFree (slot : Nat) : Statement (.slotFree slot) := of_event rfl
theorem mirrorAckArrival (seq : BitVec 64) : Statement (.mirrorAckArrival seq) := of_event rfl
theorem mirrorEntryArrival (index : BitVec 64) (entry : List (BitVec 8)) :
    Statement (.mirrorEntryArrival index entry) := of_event rfl
theorem heartbeatSend : Statement .heartbeatSend := of_event rfl
theorem xBankMirror (rows : List (Nat × Nat × List (BitVec 8))) : Statement (.xBankMirror rows) := of_event rfl
theorem understudyCheck (word : BitVec 64) : Statement (.understudyCheck word) := of_event rfl
theorem peerFenceArrival : Statement .peerFenceArrival := of_event rfl
theorem linkLoss : Statement .linkLoss := of_event rfl
theorem loadAveraging (core dir : Nat) : Statement (.loadAveraging core dir) := of_event rfl
theorem thermalStep (core temp : Nat) : Statement (.thermalStep core temp) := of_event rfl
theorem corerstWrite (core : Nat) : Statement (.corerstWrite core) := of_event rfl
theorem ptmCorrection (ppm : Int) : Statement (.ptmCorrection ppm) := of_event rfl
theorem peerHeartbeatArrival : Statement .peerHeartbeatArrival := of_event rfl
theorem powerLimitThrottle (watts16 : Nat) : Statement (.powerLimitThrottle watts16) := of_event rfl

end Sys2Proof.Laws.Encodable
end

