-- ==== Sys2Proof/Laws/Retire.lean ====
section
/-! SUPPORT. What the retirement of register writes can do: it changes registers, mail windows and queues, and nothing
else; and what a trap entry does. -/
namespace Sys2Proof.Machine

/-- `t` is `s` with registers and AMAX of the bank `p`, and state of seats, changed. -/
structure RegsOnly (p : Place) (s t : State) : Prop where
  rest : ∃ bs ss, t = { s with banks := bs, seats := ss }
  own : ∃ r a, t.bank p = { s.bank p with regs := r, amax := a }
  other : ∀ q : Place, q.key ≠ p.key → t.bank q = s.bank q

theorem RegsOnly.refl (p : Place) (s : State) : RegsOnly p s s := ⟨⟨_, _, rfl⟩, ⟨_, _, rfl⟩, fun _ _ => rfl⟩

theorem RegsOnly.trans {p : Place} {s t u : State} (a : RegsOnly p s t) (b : RegsOnly p t u) : RegsOnly p s u := by
  obtain ⟨⟨bs, ss, rfl⟩, ⟨r, a, hr⟩, ho⟩ := a
  obtain ⟨⟨bs', ss', rfl⟩, ⟨r', a', hr'⟩, ho'⟩ := b
  exact ⟨⟨bs', ss', rfl⟩, ⟨r', a', by rw [hr', hr]⟩, fun q hq => (ho' q hq).trans (ho q hq)⟩

/-- A change of a seat leaves every bank. -/
theorem RegsOnly.modSeat (p : Place) (s : State) (c i : Nat) (f : Seat → Seat) : RegsOnly p s (s.modSeat c i f) :=
  ⟨⟨_, _, rfl⟩, ⟨_, _, rfl⟩, fun _ _ => rfl⟩

/-- A write of a register changes registers only. -/
theorem RegsOnly.setReg (s : State) (p : Place) (code : Nat) (v : Word) : RegsOnly p s (s.setReg p code v) := by
  unfold State.setReg
  split
  · exact .refl p s
  split
  · exact ⟨⟨_, _, rfl⟩, ⟨_, _, by rw [State.bank_modBank_same]⟩, fun q hq => State.bank_modBank_other s _ hq.symm⟩
  · exact .modSeat ..

theorem RegsOnly.enqueue (s : State) (p : Place) (v : Word) : RegsOnly p s (s.enqueue p v) := by
  unfold State.enqueue
  split
  · exact .modSeat ..
  · exact .refl p s

theorem RegsOnly.retire1 (s : State) (p : Place) (w : PendWrite) : RegsOnly p s (s.retire1 p w) := by
  unfold State.retire1
  split
  · exact (RegsOnly.enqueue s p _).trans (.modSeat ..)
  split
  · exact ⟨⟨_, _, rfl⟩, ⟨_, _, by rw [State.bank_modBank_same]⟩, fun q hq => State.bank_modBank_other s _ hq.symm⟩
  split
  · dsimp only
    split
    · exact .refl p s
    · exact (RegsOnly.setReg s p _ _).trans (.modSeat ..)
  · exact .setReg ..

theorem RegsOnly.land1 (s : State) (p : Place) (code : Nat) (v : Word) : RegsOnly p s (s.land1 p code v) := by
  unfold State.land1
  split
  · exact (RegsOnly.enqueue s p _).trans (.modSeat ..)
  · exact .setReg ..

theorem RegsOnly.landRes (s : State) (p : Place) (r : PendRes) (v : Word) : RegsOnly p s (s.landRes p r v) := by
  unfold State.landRes
  have h : RegsOnly p s (if r.note = 0 then s else s.modBank p fun b => { b with amax := amaxMerge b.amax r.note }) := by
    split
    · exact .refl p s
    · exact ⟨⟨_, _, rfl⟩, ⟨_, _, by rw [State.bank_modBank_same]⟩, fun q hq => State.bank_modBank_other s _ hq.symm⟩
  dsimp only
  split
  · exact h
  · exact h.trans (.land1 ..)

theorem RegsOnly.foldl {α : Type} {p : Place} {f : State → α → State} (hf : ∀ s a, RegsOnly p s (f s a)) (l : List α)
    (s : State) : RegsOnly p s (l.foldl f s) := by
  induction l generalizing s with
  | nil => exact .refl p s
  | cons a l ih => exact (hf s a).trans (ih _)

/-- The writes in flight retire: registers change, and none is in flight after. -/
theorem State.retireAll_regs (s : State) (p : Place) :
    RegsOnly p (s.modBank p fun b => { b with inflight := [] }) (s.retireAll p) :=
  RegsOnly.foldl (fun s w => .retire1 s p w) _ _

/-- The writes that are due retire: registers change, and none that is due is in flight after. -/
theorem State.retireDue_regs (s : State) (p : Place) :
    RegsOnly p (s.modBank p fun b => { b with inflight := b.inflight.filter (b.si < ·.at_) }) (s.retireDue p) :=
  RegsOnly.foldl (fun s w => .retire1 s p w) _ _

end Sys2Proof.Machine
end

