-- ==== Sys2Proof/Laws/Scalar.lean ====
section
/-! SUPPORT. One law for each shared operation of the scalar instructions: on a seat that is able to issue, what it
answers. -/
namespace Sys2Proof.Machine

open Sys2Proof.Safety

/-- An instruction that is `int1` gives its operation's value. -/
theorem gives1_of {j : Instr} {rd ra : BitVec 6} {hold : BitVec 2} {op : Word → Word}
    (h : ∀ s, exec j s = int1 rd ra hold op s) : Gives1 j rd ra hold op := by
  intro s s1 a hr
  rw [h, int1, issue, issueWith_done hr rfl rfl rfl rfl rfl]
  rfl

/-- An instruction that is `int2` gives its operation's value. -/
theorem gives2_of {mk : FmtR → Instr} {l : Nat} {op : Word → Word → Word} (h : ∀ f s, exec (mk f) s = int2 f l op s) :
    Gives2 mk l op := by
  intro f s s1 a b hr
  rw [h, int2, issue, issueWith_done hr rfl rfl rfl rfl rfl]
  rfl

/-- An instruction that is `int3` gives its operation's value. -/
theorem gives3_of {mk : FmtR → Instr} {op : Word → Word → Word → Word} (h : ∀ f s, exec (mk f) s = int3 f op s) :
    Gives3 mk op := by
  intro f s s1 d a b hr
  rw [h, int3, issue, issueWith_done hr rfl rfl rfl rfl rfl]
  rfl

/-- An instruction that is `flt2` gives its operation's value. -/
theorem givesF2_of {mk : FmtFR → Instr} {ld ls : Nat} {op : RM → FV → FV → FV}
    (h : ∀ f s, exec (mk f) s = flt2 f ld ls op s) : GivesF2 mk ld ls op := by
  intro f s s1 a b sh rm hr
  rw [h, flt2, issue, issueWith_done hr rfl rfl rfl rfl rfl]
  rfl

/-- An instruction that is `flt3` gives its operation's value. -/
theorem givesF3_of {mk : FmtFR → Instr} {op : RM → FV → FV → FV → FV}
    (h : ∀ f s, exec (mk f) s = flt3 f op s) : GivesF3 mk op := by
  intro f s s1 d a b sh rm hr
  rw [h, flt3, issue, issueWith_done hr rfl rfl rfl rfl rfl]
  rfl

/-- An instruction that is `fltCode` gives its operation's value. -/
theorem givesCode_of {mk : FmtFT → Instr} {op : Ieee → Nat → Nat → Nat}
    (h : ∀ f s, exec (mk f) s = fltCode f op s) : GivesCode mk op := by
  intro f s s1 a b sh hr
  rw [h, fltCode, issue, issueWith_done hr rfl rfl rfl rfl rfl]
  rfl

/-- An instruction that is `fltC` gives its operation's value. -/
theorem givesC2_of {mk : FmtC → Instr} {op : RM → FV → FV → FV}
    (h : ∀ f s, exec (mk f) s = fltC f op s) : GivesC2 mk op := by
  intro f s s1 a sh rm hr
  rw [h, fltC, issue, issueWith_done hr rfl rfl rfl rfl rfl]
  rfl

/-- An instruction that is `fltC3` gives its operation's value. -/
theorem givesC3_of {mk : FmtC → Instr} {op : RM → FV → FV → FV → FV}
    (h : ∀ f s, exec (mk f) s = fltC3 f op s) : GivesC3 mk op := by
  intro f s s1 d a sh rm hr
  rw [h, fltC3, issue, issueWith_done hr rfl rfl rfl rfl rfl]
  rfl

/-- An instruction that is `branch` branches on its condition. -/
theorem branches_of {mk : FmtB → Instr} {c : Word → Bool} {cond : Word → Prop} (hc : ∀ a, c a = true ↔ cond a)
    (h : ∀ f s, exec (mk f) s = branch f c s) : Branches mk cond := by
  intro f s s1 a sh hr
  constructor
  · intro ha
    rw [h, branch, issue, issueWith_done hr rfl rfl rfl rfl rfl]
    simp [ctx, Ctx.v, (hc a).2 ha, relTarget, sh]
  · intro ha
    have hb : c a = false := by
      cases hk : c a with
      | false => rfl
      | true => exact absurd ((hc a).1 hk) ha
    rw [h, branch, issue, issueWith_done hr rfl rfl rfl rfl rfl]
    simp [ctx, Ctx.v, hb, passed, sh]

end Sys2Proof.Machine
end

