-- ==== Sys2Proof/Tests/Slice0.lean ====
section
/-! SUPPORT. Tests: words written out from the encodings of spec/04 to spec/19, ill-formed instructions, single instructions
with results by hand, and for each obligation states and operands that meet its hypotheses. -/
namespace Sys2Proof.Tests

set_option maxRecDepth 100000
set_option Elab.async false

open Sys2Proof.Machine Sys2Proof.Safety

/-! Words bit by bit: major, then the fields of the format from the top. -/

theorem test_decode_add : decode 0b000001_001000_001001_001010_000000_01#32 = .add ⟨8, 9, 10, 1⟩ := rfl
theorem test_decode_abs : decode 0b000001_000010_000011_000000_011100_00#32 = .abs ⟨2, 3, 0, 0⟩ := rfl
theorem test_decode_addi : decode 0b000010_001000_000000_000001100100_00#32 = .addi ⟨8, 0, 100, 0⟩ := rfl
theorem test_decode_andi : decode 0b000011_000001_000010_100000000001_10#32 = .andi ⟨1, 2, 0x801, 2⟩ := rfl
theorem test_decode_ori : decode 0b000100_001001_000000_000000000000_00#32 = .ori ⟨9, 0, 0, 0⟩ := rfl
theorem test_decode_xori : decode 0b000101_000011_000100_000000000111_00#32 = .xori ⟨3, 4, 7, 0⟩ := rfl
theorem test_decode_srai : decode 0b000110_000101_000110_10_0000_111110_00#32 = .srai ⟨5, 6, 62, 0⟩ := rfl
theorem test_decode_sltiu : decode 0b000111_000101_000110_01_1000000011_11#32 = .sltiu ⟨5, 6, 0x203, 3⟩ := rfl
theorem test_decode_lik : decode 0b001000_000111_11_1000000000000010_00#32 = .lik ⟨7, 3, 0x8002, 0⟩ := rfl
theorem test_decode_bfxu : decode 0b001001_000111_001000_000011_011111_00#32 = .bfxu ⟨7, 8, 3, 31, 0⟩ := rfl
theorem test_decode_bfxs : decode 0b001010_000111_001000_000100_011111_00#32 = .bfxs ⟨7, 8, 4, 31, 0⟩ := rfl
theorem test_decode_bfi : decode 0b001011_000111_001000_000101_011111_00#32 = .bfi ⟨7, 8, 5, 31, 0⟩ := rfl
theorem test_decode_remu : decode 0b001100_000111_001000_001001_000111_00#32 = .remu ⟨7, 8, 9, 0⟩ := rfl
theorem test_decode_csel : decode 0b001101_000111_001000_001001_001000_00#32 = .csel ⟨7, 8, 9, 0⟩ := rfl
theorem test_decode_fsub : decode 0b010010_001000_001001_001010_00111_0_00#32 = .fsub ⟨8, 9, 10, .rtz, 0, 0⟩ := rfl
theorem test_decode_fclass : decode 0b010010_001000_001001_000000_11110_1_00#32 = .fclass ⟨8, 9, 0, 1, 0⟩ := rfl
theorem test_decode_fnmadd : decode 0b010011_001000_001001_001010_10011_1_00#32 = .fnmadd ⟨8, 9, 10, .rdn, 1, 0⟩ := rfl
theorem test_decode_fmacc : decode 0b010100_001000_001001_10000001_101_0_00#32 = .fmacc ⟨8, 9, 0x81, 0, 0⟩ := rfl
theorem test_decode_fli : decode 0b010101_001000_00111111100000000000#32 = .fli ⟨8, 0x3f800⟩ := rfl
theorem test_decode_cvt : decode 0b010110_001000_001001_111111_110_001_00#32 = .cvt ⟨8, 9, 63, 6, 1, 0⟩ := rfl
theorem test_decode_fle : decode 0b010111_001000_001001_001010_00011_1_00#32 = .fle ⟨8, 9, 10, 1, 0⟩ := rfl
theorem test_decode_ld : decode 0b011000_001000_001001_011_10_1_100001_00#32 = .ld ⟨8, 9, 3, 2, 1, 0x21, 0⟩ := rfl
theorem test_decode_st : decode 0b011001_001000_001001_011_11_0_000001_00#32 = .st ⟨8, 9, 3, 3, 0, 1, 0⟩ := rfl
theorem test_decode_stx : decode 0b011010_001000_001001_001010_01_10_11_00#32 = .stx ⟨8, 9, 10, 2, 3, 0⟩ := rfl
theorem test_decode_bfir : decode 0b011010_001000_001001_001010_110010_00#32 = .bfir ⟨8, 9, 10, 0⟩ := rfl
theorem test_decode_amomin : decode 0b011011_001000_001001_001010_101_1_10_00#32 = .amomin ⟨8, 9, 10, 1, 2, 0⟩ := rfl
theorem test_decode_bodd : decode 0b011100_0111_001000_11111111111110_00#32 = .bodd ⟨8, 0x3ffe, 0⟩ := rfl
theorem test_decode_j : decode 0b011101_100000000000000000000001_00#32 = .j ⟨0x800001, 0⟩ := rfl
theorem test_decode_jl : decode 0b011110_000000000000000000000011_01#32 = .jl ⟨3, 1⟩ := rfl
theorem test_decode_jlr : decode 0b011111_000000_001001_000000_000001_00#32 = .jlr ⟨0, 9, 0, 0⟩ := rfl
theorem test_decode_sceneChk : decode 0b100000_000000000000111_001_000000_00#32 = .sceneChk ⟨7, 0⟩ := rfl
theorem test_decode_cwr : decode 0b100001_00000011_001001_0010000001_00#32 = .cwr ⟨9, 0x081, 0⟩ := rfl
theorem test_decode_ldAcq : decode 0b100001_01000_1_10_001001_0011_001000_00#32 = .ldAcq ⟨1, 2, 9, 3, 8, 0⟩ := rfl
theorem test_decode_mhintPage : decode 0b100001_01010100_001001_00000_10_011_00#32 = .mhintPage ⟨9, 0x13, 0⟩ := rfl
theorem test_decode_chain : decode 0b100010_000000_001001_000000_001010_00#32 = .chain ⟨0, 9, 0, 0⟩ := rfl
theorem test_decode_widfr : decode 0b100010_001000_001001_000000_011_101_00#32 = .widfr ⟨8, 9, 5, 0⟩ := rfl
theorem test_decode_mwaitAny : decode 0b100011_001000_001001_001010_000011_00#32 = .mwaitAny ⟨8, 9, 10, 0⟩ := rfl
theorem test_decode_rstvA : decode 0b100011_0_10001_001001_000000_011001_00#32 = .rstvA ⟨17, 9, 0⟩ := rfl
theorem test_decode_gang : decode 0b100100_00000000_000000_0000000100_00#32 = .gang ⟨0, 4, 0⟩ := rfl
theorem test_decode_fenceFull : decode 0b100101_0010_0111_0000000000000000_00#32 = .fenceFull ⟨7, 0⟩ := rfl
theorem test_decode_qfence : decode 0b100101_00110_101_001001_0000000000_00#32 = .qfence ⟨5, 9, 0⟩ := rfl
theorem test_decode_vsubus : decode 0b100110_00001_00010_00011_100_010010_00#32 = .vsubus ⟨1, 2, 3, 4, 0⟩ := rfl
theorem test_decode_vcmpgeu : decode 0b100110_00_111_00010_00011_100_011101_00#32 = .vcmpgeu ⟨7, 2, 3, 4, 0⟩ := rfl
theorem test_decode_vfadd : decode 0b100111_00001_00001_00010_000_000001_00#32 = .vfadd ⟨1, 1, 2, 0, .rne, 0⟩ := rfl
theorem test_decode_vfun : decode 0b100111_00_101_00010_00011_100_110011_00#32 = .vfun ⟨5, 2, 3, 4, 0⟩ := rfl
theorem test_decode_vfmaddVs : decode 0b101000_00001_00010_001001_100_10100_00#32 = .vfmaddVs ⟨1, 2, 9, 4, 0⟩ := rfl
theorem test_decode_vst : decode 0b101001_00001_00000_001001_100_01_110_00#32 = .vst ⟨1, 0, 9, 4, 6, 0⟩ := rfl
theorem test_decode_vredfamax : decode 0b101001_01011_00010_001001_100_11110_00#32 = .vredfamax ⟨2, 9, 4, 0⟩ := rfl
theorem test_decode_vcvtUS : decode 0b101010_00001_00010_00000_100_010111_00#32 = .vcvtUS ⟨1, 2, 0, 4, 0⟩ := rfl
theorem test_decode_kandn : decode 0b101010_00001_00010_00011_000_011011_00#32 = .kandn ⟨1, 2, 3, 0, 0⟩ := rfl
theorem test_decode_mdrain : decode 0b101011_000_001000_001001_10_0_001000_00#32 = .mdrain ⟨8, 9, 2, 0⟩ := rfl
theorem test_decode_cfill : decode 0b101011_001_001000_001001_111_000001_00#32 = .cfill ⟨8, 9, 7, 0⟩ := rfl
theorem test_decode_ssamp : decode 0b101011_010_001000_001001_11_0000000_00#32 = .ssamp ⟨8, 9, 3, 0⟩ := rfl
theorem test_decode_gmask : decode 0b101011_011_001000_001001_01_0000001_00#32 = .gmask ⟨8, 9, 1, 0⟩ := rfl
theorem test_decode_stok : decode 0b101011_100_001000_001001_01_0000010_00#32 = .stok ⟨8, 9, 1, 0⟩ := rfl
theorem test_decode_cread : decode 0b101011_101_001000_001001_00_0000010_00#32 = .cread ⟨8, 9, 0, 0⟩ := rfl
theorem test_decode_evput : decode 0b101011_110_001000_001001_10_0000000_00#32 = .evput ⟨8, 9, 2, 0⟩ := rfl
theorem test_decode_crestore : decode 0b101011_111_001000_001001_00_0000001_00#32 = .crestore ⟨8, 9, 0, 0⟩ := rfl
theorem test_decode_coprd : decode 0b101100_001_001000_000001_100000000_00#32 = .coprd ⟨1, 8, 0x100, 0⟩ := rfl
theorem test_decode_esync : decode 0b101100_001_001000_00001_000000_1111_00#32 = .esync ⟨1, 8, 15, 0⟩ := rfl
theorem test_decode_trap : decode 0b101101_00000000_000000_1111111111_00#32 = .trap ⟨0, 0x3ff, 0⟩ := rfl
theorem test_decode_seize : decode 0b101101_00001000_001001_00000_11111_00#32 = .seize ⟨9, 31, 0⟩ := rfl


/-! Helpers: a small state in which one bank runs. -/

/-- Core 0, seat 0. -/
def seat0 : Machine.Place := ⟨0, 0, 0⟩
/-- The first X-tile, seat 0, bank 0. -/
def xseat : Machine.Place := ⟨768, 0, 0⟩
/-- After reset, but that the bank `p` runs with the changes `f`, and is the current one. -/
def onBank (p : Machine.Place) (f : Bank → Bank) : State :=
  { State.reset with cur := p, banks := [(p.key, f { Bank.reset p.core with run := .running })] }
/-- Registers and a readable, writable and executable local segment 0 and 7. -/
def usual (b : Bank) : Bank := { b with
  regs := [(8, 5), (9, 7), (10, 9), (11, 64), (12, 3), (13, 0x40000)]
  segs := [(0, ⟨0, 0x80000, 7⟩), (7, ⟨0, 0x80000, 7⟩)] }
/-- Seat 0 runs with some registers. -/
def ready : State := onBank seat0 usual
/-- The same in an open scene that writes s4-s7. -/
def inScene : State := onBank seat0 fun b => { usual b with scene := some (Scene.fresh 0 2) }
/-- The same in handler mode. -/
def inHandler : State := onBank seat0 fun b => { usual b with tstat := 1, epc := 0x20, kept := some (⟨0, 1, 1⟩, ⟨64, 1, 4⟩) }
/-- A handler is configured at offset 0x40. -/
def withHandler (s : State) : State := s.setCrCore 0 0x284 0x41
/-- What a next state shows. -/
def after (o : Host.Outcome State Fault Refusal) (P : State → Bool) : Bool :=
  match o with | .next t => P t | _ => false

/-- A header of an ensemble of two cores in a row, root core 0. -/
def rowOf2 : Header := { Header.ofBytes [] with kind := 2, eshape := 1, ex := 2 }
/-- Seat 0 of core 0 is a member of that ensemble, in slot 0. -/
def member (b : Bank) : Bank := { usual b with ctl := 1 <<< 48 }
/-- The machine of that member; the other member is live and has not arrived at a barrier. -/
def inEns (f : Bank → Bank) : State :=
  (onBank seat0 fun b => f (member b)).modSlot 0 fun t => { t with
    hdr := some rowOf2, members := [0, 1], mlive := [(0, 1), (1, 1)], ens := 1 }
/-- A vector command of seat 0. -/
def someCmd : VCmd := ⟨5, 0, 0, .v .vadd ⟨1, 2, 3, 0, 0⟩, 0, 0, 0, [], 0, none, false, 0, false, []⟩
/-- An engine command of seat 0: op of engine eng in queue q. -/
def eng (e q op : Nat) (sa sb : Word) : ECmd := { ready.formCmd seat0 e q op sa sb with id := 0 }
/-- A queue of core 0 holds commands. -/
def withQueue (s : State) (key : Nat) (l : List ECmd) : State := s.modCore 0 fun k => { k with queues := mset k.queues key l }

/-- A message from core 1 to core `c`. -/
def msg (c : Nat) (b : Body) : Msg := ⟨0, 1, c, none, 2, false, 0, 0, b⟩
/-- One message in flight. -/
def sentTo (c : Nat) (b : Body) : State := { State.reset with net := [msg c b] }
/-- A record of slot 0. -/
def someRec : Rec := ⟨0x40, 7, 0, 0, 0, 0, 0, 0⟩
/-- The bytes of a dword at an address. -/
def dwordCells (a v : Nat) : List (Nat × Byte) := (keysFrom a 8).zip (leBytes 8 v)
/-- Slot 0 is mapped to queue 0; its tables map 0x20_0000 to 0, readable and writable; TAIL is 1; the queue holds the command `w`. -/
def device (w : Nat) : State :=
  let s : State := { State.reset with
    mem := memWrites [] (dwordCells 0x1000 0x1001 ++ dwordCells 0x1008 5 ++ dwordCells 0x1_0018 1 ++ dwordCells 0x2000 w)
    crs := [(0x300, 0x1_0001)] }
  s.modSlot 0 fun t => { t with mapped := true, ring := 0x2000, root := 0x1000, log := 1, tail := 1 }
/-- Slot 0 works on the command. -/
def working (s : State) (ph : Phase) (d : List Nat) : State :=
  s.modSlot 0 fun t => { t with phase := ph, cmd := some (Cmd.ofBytes (d.flatMap (leBytes 8))) }
/-- A launch header of a flood over one cluster. -/
def floodBytes : List (Nat × Byte) := dwordCells 0x68 0x100

/-- Queue 0 of the grammar engine of core 0 holds `e`; grammar 0 has an image with the one entry `ent`, and the record of `e` is `r`. -/
def gram (e : ECmd) (ent : Nat) (r : List Byte) : State :=
  let b := withQueue State.reset 48 [e]
  { b with eregs := [(0x700, 0x101)], mem := memWrites [] (dwordCells 0x108 0x40 ++ dwordCells 0x110 0x280 ++
    dwordCells 0x380 ent ++ (b.recKeys e).zip r) }
/-- The record and the image that the command `e` of such a queue meets, and whether it may act at all. -/
def gramMeets (s : State) (e : ECmd) (k : State → List Byte → Image → Nat → Bool) : Bool :=
  let s0 := s.modHead 0 48 fun e => { e with started := true }
  let rk := s0.recKeys { e with started := true }
  let a := s0.engRead 0 e.pts rk
  s.headCmd 0 48 == some e && s.runnable 0 48 e && s0.badSec rk == none && a.1.gvalid 0 (recGid a.2.1) &&
  decide (recDepth a.2.1 ≤ 8) &&
  match a.1.image 0 e.id a.2.2 (recGid a.2.1) with
  | (s2, .ok m t1) => decide (recState a.2.1 ≤ m.nsm1) && k s2 a.2.1 m t1
  | _ => false
/-- What a gstep of the token `tok` finds for it. -/
def gstepMeets (tok ent : Nat) (r : List Byte) (k : List Byte → Image → Look → Bool) : Bool :=
  let e := eng 3 0 0 0 (BitVec.ofNat 64 tok)
  gramMeets (gram e ent r) e fun s r m t => match s.dramRead 0 e.id t (s.lookKeys m (recState r) tok) with
    | (s3, .ok _ _) => k r m (s3.look m (recState r) tok)
    | _ => false

/-- After reset no core is in a seizure group. -/
theorem noGroup (c : Nat) : State.reset.groupOf c = none := by
  have h : ∀ g ∈ List.range 32, grpHas (State.reset.szgrp g) c = false := fun g hg => by
    rw [show State.reset.szgrp g = 0 from (by decide : ∀ g ∈ List.range 32, State.reset.szgrp g = 0) g hg]
    simp [grpHas, Machine.bit]
  unfold State.groupOf
  exact List.find?_eq_none.mpr fun g hg => by simp [h g hg]


/-! One instruction each. Expected results are computed by hand from the rule named. -/

/-- The register `n` of seat 0 after the instruction on two operands in s9 and s10, and after its result is due. -/
def gives (i : Instr) (a b : Word) (n : Nat) : Option Word :=
  let s := onBank seat0 fun k => { usual k with regs := [(8, 5), (9, a), (10, b)] }
  match exec i s with
  | .next t => some (((List.range 24).foldl (fun (u : State) _ => u.spend seat0) t).reg seat0 n)
  | _ => none

/-- R93: addition wraps. -/
theorem test_add_wraps : gives (.add ⟨8, 9, 10, 0⟩) (-1) 2 8 = some 1 := by decide +kernel
/-- R14: a write to s0 is discarded. -/
theorem test_add_zero : gives (.add ⟨0, 9, 10, 0⟩) 1 2 0 = some 0 := by decide +kernel
/-- R93: the shift amount is b[5:0]. -/
theorem test_sra : gives (.sra ⟨8, 9, 10, 0⟩) (-8) 65 8 = some (-4) := by decide +kernel
/-- R93: saturation at the largest signed value. -/
theorem test_adds : gives (.adds ⟨8, 9, 10, 0⟩) 0x7fff_ffff_ffff_ffff 1 8 = some 0x7fff_ffff_ffff_ffff := by decide +kernel
/-- R93: subus stops at 0. -/
theorem test_subus : gives (.subus ⟨8, 9, 10, 0⟩) 3 5 8 = some 0 := by decide +kernel
/-- R93: clz of 0 is 64. -/
theorem test_clz : gives (.clz ⟨8, 9, 0, 0⟩) 0 0 8 = some 64 := by decide +kernel
/-- R93: bswap reverses the eight bytes. -/
theorem test_bswap : gives (.bswap ⟨8, 9, 0, 0⟩) 0x0102030405060708 0 8 = some 0x0807060504030201 := by decide +kernel
/-- R94: the 12-bit immediate is sign-extended. -/
theorem test_addi : gives (.addi ⟨8, 9, 0xfff, 0⟩) 0 0 8 = some (-1) := by decide +kernel
/-- R94: the immediate of a logical instruction is zero-extended. -/
theorem test_andi : gives (.andi ⟨8, 9, 0xfff, 0⟩) (-1) 0 8 = some 0xfff := by decide +kernel
/-- R97: lik with pos 0 clears the other bits, and with pos 1 keeps them. -/
theorem test_lik : gives (.lik ⟨8, 0, 7, 0⟩) 0 0 8 = some 7 ∧ gives (.lik ⟨8, 1, 7, 0⟩) 0 0 8 = some 0x7_0005 := by decide +kernel
/-- R98: division by zero gives all ones, the remainder the dividend. -/
theorem test_div_zero : gives (.div ⟨8, 9, 10, 0⟩) 9 0 8 = some (-1) ∧ gives (.rem ⟨8, 9, 10, 0⟩) 9 0 8 = some 9 := by
  decide +kernel
/-- R98: the quotient is truncated, the remainder has the sign of the dividend. -/
theorem test_div_sign : gives (.div ⟨8, 9, 10, 0⟩) (-7) 2 8 = some (-3) ∧ gives (.rem ⟨8, 9, 10, 0⟩) (-7) 2 8 = some (-1) := by
  decide +kernel
/-- R98: the signed minimum over -1 wraps. -/
theorem test_div_min : gives (.div ⟨8, 9, 10, 0⟩) 0x8000_0000_0000_0000 (-1) 8 = some 0x8000_0000_0000_0000 := by decide +kernel
/-- R98: the upper half of a signed product. -/
theorem test_mulh : gives (.mulh ⟨8, 9, 10, 0⟩) (-1) (-1) 8 = some 0 ∧ gives (.mulhu ⟨8, 9, 10, 0⟩) (-1) (-1) 8 = some (-2) := by
  decide +kernel
/-- R99: csel reads its old rd. -/
theorem test_csel : gives (.csel ⟨8, 9, 10, 0⟩) 1 2 8 = some 1 := by decide +kernel
/-- R101: a field that would pass bit 63 is cut. -/
theorem test_bfxs : gives (.bfxs ⟨8, 9, 60, 7, 0⟩) 0x8000_0000_0000_0000 0 8 = some (-8) := by decide +kernel
/-- R108: a branch that is taken goes to its own offset plus 4 times the displacement, and one that is not to the next. -/
theorem test_beqz : after (exec (.beqz ⟨0, 0x3fff, 0⟩) (onBank seat0 fun b => { usual b with pc := 64 }))
      (fun t => (t.bank seat0).pc == 60) = true ∧
    after (exec (.bnez ⟨0, 0x3fff, 0⟩) (onBank seat0 fun b => { usual b with pc := 64 })) (fun t => (t.bank seat0).pc == 68) = true :=
  ⟨rfl, rfl⟩
/-- R114: 1.5 + 2.25 is 3.75 in FP32. -/
theorem test_fadd : gives (.fadd ⟨8, 9, 10, .rne, 1, 0⟩) 0x3fc0_0000 0x4010_0000 8 = some 0x4070_0000 := by decide +kernel
/-- R66, R114: infinity minus infinity is the canonical NaN of FP64. -/
theorem test_fsub_nan : gives (.fsub ⟨8, 9, 10, .rne, 0, 0⟩) 0x7ff0_0000_0000_0000 0x7ff0_0000_0000_0000 8 =
    some 0x7ff8_0000_0000_0000 := by decide +kernel
/-- R114: division by zero is infinity. -/
theorem test_fdiv : gives (.fdiv ⟨8, 9, 10, .rne, 1, 0⟩) 0x3f80_0000 0 8 = some 0x7f80_0000 := by decide +kernel
/-- R123: a compare with a NaN is false, and fne is its complement of feq. -/
theorem test_feq_nan : gives (.feq ⟨8, 9, 10, 1, 0⟩) 0x7fc0_0000 0 8 = some 0 ∧ gives (.fne ⟨8, 9, 10, 1, 0⟩) 0x7fc0_0000 0 8 = some 1 := by
  decide +kernel
/-- R118: fldc gives the entry of the constant bank. -/
theorem test_fldc : gives (.fldc ⟨8, 0, 3, 1, 0⟩) 0 0 8 = some 0 := by decide +kernel
/-- R9, R103: a byte stored is loaded back, sign-extended. -/
theorem test_store_load : after (exec (.st ⟨9, 11, 0, 0, 0, 1, 0⟩) (onBank seat0 fun b => { usual b with regs := [(9, 0x1ff), (11, 64)] }))
    (fun t => t.mem == [(Config.tileKey 0 65, 0xff)] &&
      after (exec (.ld ⟨8, 11, 0, 0, 1, 1, 0⟩) t) fun u => ((u.bank seat0).pending.map (·.val)) == [some (-1)]) = true := by
  decide +kernel
/-- R18: a load beyond the limit traps, and with no handler halts the seat. -/
theorem test_seg_limit : after (exec (.ld ⟨8, 11, 0, 3, 0, 0, 0⟩) (onBank seat0 fun b => { usual b with segs := [(0, ⟨0, 71, 7⟩)], regs := [(11, 64)] }))
    (fun t => (t.bank seat0).run == .halted && t.mem == []) = true := by decide +kernel
/-- R18: one byte more in the segment, and it loads. -/
theorem test_seg_fits : after (exec (.ld ⟨8, 11, 0, 3, 0, 0, 0⟩) (onBank seat0 fun b => { usual b with segs := [(0, ⟨0, 72, 7⟩)], regs := [(11, 64)] }))
    (fun t => (t.bank seat0).run == .running) = true := by decide +kernel
/-- R273: amoadd gives the old value and stores the sum. -/
theorem test_amoadd : after (exec (.amoadd ⟨8, 11, 9, 1, 0, 0⟩) { ready with mem := [(Config.tileKey 0 64, 5)] })
    (fun t => t.mem == [(Config.tileKey 0 64, 12)] && ((t.bank seat0).pending.map (·.val)) == [] && t.reg seat0 8 == 5) = true := by
  decide +kernel
/-- R125, R126: a store in a scene is buffered; R129: the commit writes it. -/
theorem test_scene : after (exec (.st ⟨9, 11, 0, 0, 0, 0, 0⟩) inScene) (fun t => t.mem == [] &&
    after (exec (.commit ⟨0, 0⟩) t) fun u => u.mem == [(Config.tileKey 0 64, 7)] && (u.bank seat0).scene.isNone) = true := by
  decide +kernel
/-- R394: a trap enters the handler. -/
theorem test_trap : after (exec (.trap ⟨0, 5, 0⟩) (withHandler (onBank seat0 fun b => { usual b with pc := 32 })))
    (fun t => (t.bank seat0).pc == 64 && (t.bank seat0).epc == 32 && (t.bank seat0).cause == 0x5_0003 && (t.bank seat0).handler) =
      true := by decide +kernel
/-- R401: rett goes back to EPC with the segments as they were. -/
theorem test_rett : after (exec (.rett ⟨0, 0, 0⟩) inHandler) (fun t => (t.bank seat0).pc == 0x20 && !(t.bank seat0).handler &&
    (t.bank seat0).seg 7 == ⟨64, 1, 4⟩) = true := by decide +kernel
/-- R399: rett outside a handler traps PRIV_INSN. -/
theorem test_rett_priv : after (exec (.rett ⟨0, 0, 0⟩) (withHandler ready)) (fun t => (t.bank seat0).cause == 4) = true := by
  decide +kernel
/-- R250, R398: only a handler or the supervisor's own core writes TVEC. -/
theorem test_cwr_priv : after (exec (.cwr ⟨8, 0x284, 0⟩) (onBank ⟨1, 0, 0⟩ usual)) (fun t => (t.crCore 1 0x284) == 0) = true ∧
    after (exec (.cwr ⟨8, 0x284, 0⟩) ready) (fun t => (t.crCore 0 0x284) == 5) = true := by decide +kernel
/-- R150: reading an absent mail register waits. -/
theorem test_mail_waits : after (exec (.add ⟨8, 28, 10, 0⟩) ready) (fun t => t.ended == .stall .presence) = true := by decide +kernel
/-- R203, R211: a vector addition in the lanes that the mask names. -/
theorem test_vadd : (let s := ready.modCore 0 fun k => { k with vregs := [(1, 5), (2, 7 * 2 ^ 32 + 2), (3, 9)] }
    after (exec (.vadd ⟨3, 1, 2, 0, 0⟩) s) fun t => after (exec (.vectorCommandPerform 0) t) fun u =>
      u.vreg 0 3 == BitVec.ofNat 2048 (7 * 2 ^ 32 + 7)) = true := by decide +kernel
/-- The first instruction that stands where the fetch looks is the one that runs. -/
theorem test_fetch : after (step (State.reset.withFetchWord 32 0x0880_0190)) (fun t => t.reg seat0 8 == 100) = true := by
  decide +kernel
/-- R51: an illegal word halts its seat. -/
theorem test_illegal : after (step (State.reset.withFetchWord 32 0)) (fun t => (t.bank seat0).run == .halted) = true := by
  decide +kernel

/-! Ill-formed instructions: one for each check, and the words that are refused by name. -/

theorem smoke_w : (Instr.add ⟨60, 1, 2, 0⟩).check = some .registerCode := rfl
theorem smoke_r : (Instr.add ⟨1, 61, 2, 0⟩).check = some .registerCode := rfl
theorem smoke_rd : (Instr.st ⟨61, 1, 0, 0, 0, 0, 0⟩).check = some .registerCode := rfl
theorem smoke_rw : (Instr.csel ⟨61, 1, 2, 0⟩).check = some .registerCode := rfl
theorem smoke_z : (Instr.clz ⟨1, 2, 3, 0⟩).check = some .nonZeroField := rfl
theorem smoke_k3 : (Instr.kand ⟨8, 1, 2, 0, 0⟩).check = some .nonZeroField := rfl
theorem smoke_cvt : (Instr.cvt ⟨1, 2, 3, 6, 6, 0⟩).check = some .functionCode := rfl
theorem smoke_scope : (Instr.fenceRel ⟨12, 0⟩).check = some .functionCode := rfl
theorem smoke_wid : (Instr.widf ⟨1, 0, 6, 0⟩).check = some .functionCode := rfl
theorem smoke_hint : (Instr.mhintNear ⟨1, 8, 0⟩).check = some .functionCode := rfl
theorem smoke_cr : (Instr.crd ⟨1, 0x00f, 0⟩).check = some .unlistedRegister := rfl
theorem smoke_engReg : (Instr.copw ⟨0, 1, 10, 0⟩).check = some .unlistedRegister := rfl
theorem smoke_illegal : (Instr.illegal 1).check = some .reservedMajor := rfl
theorem smoke_notWellFormed : ¬ (Instr.add ⟨60, 1, 2, 0⟩).WellFormed ∧ ¬ (Instr.copw ⟨0, 1, 10, 0⟩).WellFormed ∧
    ¬ (Instr.clz ⟨1, 2, 3, 0⟩).WellFormed ∧ ¬ (Instr.widf ⟨1, 0, 6, 0⟩).WellFormed ∧ ¬ (Instr.illegal 1).WellFormed := by
  refine ⟨?_, ?_, ?_, ?_, ?_⟩ <;> intro h <;> cases h
theorem smoke_decode :
    decodeWord 0b000000_00000000000000000000000001#32 matches .error .reservedMajor ∧
    decodeWord 0b010010_001000_001001_001010_11111_0_00#32 matches .error .functionCode ∧
    decodeWord 0b000001_111100_001001_001010_000000_00#32 matches .error .registerCode ∧
    decodeWord 0b000001_001000_001001_001010_011000_00#32 matches .error .nonZeroField ∧
    decodeWord 0b100001_00000010_001001_0000001111_00#32 matches .error .unlistedRegister := by decide

/-! Witnesses: each obligation with hypotheses, its clauses, and states that meet them. -/

theorem witness_DecodeEncode :
  ∃ (i : Instr) (w : W32), i.WellFormed ∧ encode i = some w :=
  ⟨.add ⟨59, 63, 62, 3⟩, _, rfl, rfl⟩

theorem witness_StepRunsDecoded_turn :
  (ready.agenda = [] ∧ ready.nextCore = some 0) ∧ (State.reset.agenda = [] ∧ State.reset.nextCore = none) ∧
  ({ ready with agenda := [.barrel 0] } : State).agenda = .barrel 0 :: [] :=
  ⟨⟨rfl, rfl⟩, ⟨rfl, rfl⟩, rfl⟩

theorem witness_StepRunsDecoded_first :
  ∃ t, 0 < Config.seats 0 ∧ (ready.core 0).turnClk ≠ ready.clk + 1 ∧ ready.inStep 0 0 = false ∧
  ready.seatTry 0 0 = .go t :=
  ⟨_, by decide, by decide, rfl, rfl⟩

theorem witness_StepRunsDecoded_last :
  let s := onBank ⟨0, 7, 0⟩ usual
  ∃ t, 7 < Config.seats 0 ∧ (s.core 0).turnClk ≠ s.clk + 1 ∧ s.inStep 0 7 = false ∧ s.seatTry 0 7 = .go t ∧
    ∀ k u, k < 7 → s.seatTry 0 (((s.core 0).rr + k) % 8) ≠ .go u :=
  ⟨_, by decide, by decide, rfl, rfl, fun k u hk h => by interval_cases k <;> cases h⟩

theorem witness_StepRunsDecoded_attempt :
  (ready.inStep 0 0 = false ∧ ready.gate (ready.turnPlace 0 0) = some none) ∧
  0 < ((onBank seat0 fun b => { b with owed := 7 }).bank seat0).owed ∧ (ready.bank seat0).owed = 0 ∧
  ((ready.withFetchWord 32 0x0880_0190).attempt seat0).ended = .done ∧
  ∃ s1, (ready.bank seat0).vecLost = none ∧ (ready.bank seat0).wip.afresh = true ∧
    ({ ready.withFetchWord 32 0x0880_0190 with cur := seat0, ended := .done } : State).fetch seat0 0 = (s1, .ok 0x0880_0190#32) :=
  ⟨⟨rfl, rfl⟩, by decide, rfl, rfl, _, rfl, rfl, rfl⟩

theorem witness_StepRunsDecoded_stall :
  let s := onBank seat0 fun b => { usual b with wip := .gang 2, word := 0x9000_0008 }
  let lost := onBank seat0 fun b => { usual b with scene := some { Scene.fresh 0 2 with ueVec := some (4, 64, 2) } }
  (s.attempt seat0).ended = .stall .presence ∧ (s.bank seat0).vecLost = none ∧ (s.bank seat0).wip.afresh = false ∧
  ∃ sc, (lost.bank seat0).vecLost = some (sc, 4, 64, 2) :=
  ⟨rfl, rfl, rfl, _, rfl⟩

theorem witness_MemoryFrames_scene :
  ∃ t s1 vals, (inScene.bank seat0).wip.resuming = false ∧ (inScene.bank seat0).openScene.isSome = true ∧
    operandsOf inScene { srcs := [isrc 8, isrc 11], entries := 1 } = some (s1, vals) ∧
    exec (.st ⟨8, 11, 0, 3, 0, 0, 0⟩) inScene = .next t ∧ t.ended = .done :=
  ⟨_, _, _, rfl, rfl, rfl, rfl, rfl⟩

theorem witness_MemoryForm :
  ∃ t, GoodMemory ready ∧ step ready = .next t :=
  ⟨_, rfl, rfl⟩

theorem witness_Retirement :
  (shape2 8 9 10 24).lat = .fixed 24 ∧ (shape2 8 9 10 24).dst = some 8 ∧
  ({ srcs := [], dst := some 59, lat := .var } : Shape).lat = .var ∧ ({ srcs := [] } : Shape).dst = none :=
  ⟨rfl, rfl, rfl, rfl⟩

theorem witness_IssueChecks :
  let h := shape2 8 30 10 1
  let q : State := ready.modSeat 0 0 fun t => { t with up := some (0, 1) }
  let v := onBank seat0 fun b => { usual b with pending := [⟨1, 10, .memory, none, 0, 0⟩] }
  let k := onBank seat0 fun b => { usual b with schk := true, inflight := [⟨8, 1, 3⟩] }
  let l := onBank seat0 fun b => { usual b with scene := some (Scene.fresh 1 (1 <<< 2)) }
  (ready.absent seat0 h = true ∧ ready.cur.reflex = false) ∧
  (q.absent seat0 (shape2 8 60 10 1) = false ∧ q.queueWait seat0 (shape2 8 60 10 1) = true) ∧
  (v.pendingOn seat0 (shape2 8 9 10 1) = some .memory ∧ v.queueWait seat0 (shape2 8 9 10 1) = false) ∧
  ((k.bank seat0).holdShort (shape2 8 9 10 1) = true ∧ k.pendingOn seat0 (shape2 8 9 10 1) = none) ∧
  ((l.bank seat0).liveIn (shape2 12 9 10 1) = true ∧ (l.bank seat0).holdShort (shape2 12 9 10 1) = false) :=
  ⟨⟨rfl, rfl⟩, ⟨rfl, rfl⟩, ⟨rfl, rfl⟩, ⟨rfl, rfl⟩, ⟨rfl, rfl⟩⟩

theorem witness_RegisterFrames :
  ∀ j ∈ [Instr.add ⟨8, 9, 10, 0⟩, .div ⟨8, 9, 10, 0⟩, .jr ⟨0, 11, 0, 0⟩, .addi ⟨8, 9, 1, 0⟩, .slli ⟨8, 9, 1, 0⟩, .slti ⟨8, 9, 1, 0⟩,
    .lik ⟨8, 1, 1, 0⟩, .bfi ⟨8, 9, 1, 1, 0⟩, .fadd ⟨8, 9, 10, .rne, 1, 0⟩, .fmin ⟨8, 9, 10, 1, 0⟩, .faddc ⟨8, 9, 0, 1, 0⟩,
    .fli ⟨8, 1⟩, .cvt ⟨8, 9, 10, 1, 6, 0⟩, .beqz ⟨8, 1, 0⟩, .j ⟨1, 0⟩, .widf ⟨8, 0, 0, 0⟩, .nop ⟨0, 0, 0⟩, .crd ⟨8, 1, 0⟩,
    .cbrd ⟨8, 0, 0⟩, .bfrd ⟨9, 8, 0⟩, .vstat ⟨0, 0, 8, 0, 0⟩, .vfence ⟨0, 0, 0, 0, 0⟩],
  ∃ t, exec j ready = .next t ∧ t.ended = .done :=
  by
  simp only [List.forall_mem_cons]
  refine ⟨⟨_, rfl, rfl⟩, ⟨_, rfl, rfl⟩, ⟨_, rfl, rfl⟩, ⟨_, rfl, rfl⟩, ⟨_, rfl, rfl⟩, ⟨_, rfl, rfl⟩, ⟨_, rfl, rfl⟩, ⟨_, rfl, rfl⟩,
    ⟨_, rfl, rfl⟩, ⟨_, rfl, rfl⟩, ⟨_, rfl, rfl⟩, ⟨_, rfl, rfl⟩, ⟨_, rfl, rfl⟩, ⟨_, rfl, rfl⟩, ⟨_, rfl, rfl⟩, ⟨_, rfl, rfl⟩,
    ⟨_, rfl, rfl⟩, ⟨_, rfl, rfl⟩, ⟨_, rfl, rfl⟩, ⟨_, rfl, rfl⟩, ⟨_, rfl, rfl⟩, ⟨_, rfl, rfl⟩, by simp⟩

theorem witness_MemoryFrames :
  Memory.wf ready.mem = true ∧
  (∀ j ∈ [Instr.ld ⟨8, 0, 0, 3, 0, 0, 0⟩, .ldAcq ⟨1, 0, 0, 0, 8, 0⟩, .fenceFull ⟨0, 0⟩, .prefL1 ⟨9, 0, 0⟩],
    ∃ t, exec j ready = .next t ∧ t.ended = .done) ∧
  (∃ t s1 vals, (ready.bank seat0).wip.resuming = false ∧ (ready.bank seat0).openScene = none ∧
    operandsOf ready { srcs := [isrc 8, isrc 11], entries := 1 } = some (s1, vals) ∧
    exec (.st ⟨8, 11, 0, 3, 0, 0, 0⟩) ready = .next t ∧ t.ended = .done) ∧
  (∃ t s1 vals, operandsOf ready { srcs := [isrc 11, isrc 8], dst := some 9, lat := .var, closes := true } = some (s1, vals) ∧
    exec (.amoadd ⟨9, 11, 8, 1, 0, 0⟩) ready = .next t ∧ t.ended = .done) :=
  by
  refine ⟨rfl, ?_, ⟨_, _, _, rfl, rfl, rfl, rfl, rfl⟩, ⟨_, _, _, rfl, rfl, rfl⟩⟩
  simp only [List.forall_mem_cons]
  refine ⟨⟨_, rfl, rfl⟩, ⟨_, rfl, rfl⟩, ⟨_, rfl, rfl⟩, ⟨_, rfl, rfl⟩, by simp⟩

theorem witness_CommandFrames :
  (ready.bank seat0).openScene = none ∧
  ∀ j ∈ [Instr.vadd ⟨1, 2, 3, 0, 0⟩, .vfadd ⟨1, 2, 3, 0, .rne, 0⟩, .vaddVs ⟨1, 2, 8, 0, 0⟩, .vext ⟨0, 2, 8, 0, 0⟩,
      .vredadd ⟨2, 8, 0, 0⟩, .vld ⟨1, 0, 11, 0, 0, 0⟩, .mzero ⟨8, 0, 0, 0⟩, .cpubl ⟨8, 9, 0, 0⟩],
    ∃ t, exec j ready = .next t ∧ t.ended = .done :=
  by
  refine ⟨rfl, ?_⟩
  simp only [List.forall_mem_cons]
  refine ⟨⟨_, rfl, rfl⟩, ⟨_, rfl, rfl⟩, ⟨_, rfl, rfl⟩, ⟨_, rfl, rfl⟩, ⟨_, rfl, rfl⟩, ⟨_, rfl, rfl⟩, ⟨_, rfl, rfl⟩, ⟨_, rfl, rfl⟩, by simp⟩

theorem witness_IntegerResults :
  (∃ s1 a b, Issues ready (shape2 59 63 11 1) s1 [a, b]) ∧ ∃ s1 a, Issues ready (shape1 0 9 1) s1 [a] :=
  ⟨⟨_, _, _, ⟨rfl, rfl, rfl, rfl, rfl, rfl, rfl, rfl, .inl rfl, .inr rfl, rfl⟩⟩, _, _, ⟨rfl, rfl, rfl, rfl, rfl, rfl, rfl, rfl, .inl rfl, .inr rfl, rfl⟩⟩

theorem witness_ImmediateResults :
  (∃ s1 a, Issues ready (shape1 8 63 1) s1 [a]) ∧
  (∃ s1 vals, Issues ready { srcs := [], dst := some 8, lat := .fixed 1 } s1 vals) ∧
  (∃ s1 vals, Issues ready { srcs := [isrc 8], dst := some 8, lat := .fixed 1 } s1 vals) ∧
  (∃ s1 d a, Issues ready (shapeRd 8 9 1) s1 [d, a]) ∧ ∃ s1 d a b, Issues ready (shape3 8 9 10 1) s1 [d, a, b] :=
  ⟨⟨_, _, ⟨rfl, rfl, rfl, rfl, rfl, rfl, rfl, rfl, .inl rfl, .inr rfl, rfl⟩⟩, ⟨_, _, ⟨rfl, rfl, rfl, rfl, rfl, rfl, rfl, rfl, .inl rfl, .inr rfl, rfl⟩⟩, ⟨_, _, ⟨rfl, rfl, rfl, rfl, rfl, rfl, rfl, rfl, .inl rfl, .inr rfl, rfl⟩⟩, ⟨_, _, _, ⟨rfl, rfl, rfl, rfl, rfl, rfl, rfl, rfl, .inl rfl, .inr rfl, rfl⟩⟩, _, _, _, _, ⟨rfl, rfl, rfl, rfl, rfl, rfl, rfl, rfl, .inl rfl, .inr rfl, rfl⟩⟩

theorem witness_MultiplyCompareResults :
  (∃ s1 a b, Issues ready (shape2 8 9 0 24) s1 [a, b]) ∧ ∃ s1 d a b, Issues ready (shape3 8 0 10 1) s1 [d, a, b] :=
  ⟨⟨_, _, _, ⟨rfl, rfl, rfl, rfl, rfl, rfl, rfl, rfl, .inl rfl, .inr rfl, rfl⟩⟩, _, _, _, _, ⟨rfl, rfl, rfl, rfl, rfl, rfl, rfl, rfl, .inl rfl, .inr rfl, rfl⟩⟩

theorem witness_BranchTargets :
  (∃ s1 a, Issues ready { srcs := [isrc 0] } s1 [a] ∧ a = 0) ∧ (∃ s1 a, Issues ready { srcs := [isrc 63] } s1 [a] ∧ a = 0) ∧
  (∃ s1 a, Issues ready { srcs := [isrc 9] } s1 [a] ∧ a ≠ 0) ∧ (∃ s1, Issues ready { srcs := [] } s1 []) ∧
  (∃ s1, Issues ready { srcs := [], dst := some 1, lat := .fixed 1 } s1 []) ∧ (4 : Word).toNat % 4 = 0 :=
  ⟨⟨_, _, ⟨rfl, rfl, rfl, rfl, rfl, rfl, rfl, rfl, .inl rfl, .inr rfl, rfl⟩, rfl⟩, ⟨_, _, ⟨rfl, rfl, rfl, rfl, rfl, rfl, rfl, rfl, .inl rfl, .inr rfl, rfl⟩, rfl⟩, ⟨_, 7, ⟨rfl, rfl, rfl, rfl, rfl, rfl, rfl, rfl, .inl rfl, .inr rfl, rfl⟩, by decide⟩, ⟨_, ⟨rfl, rfl, rfl, rfl, rfl, rfl, rfl, rfl, .inl rfl, .inr rfl, rfl⟩⟩, ⟨_, ⟨rfl, rfl, rfl, rfl, rfl, rfl, rfl, rfl, .inl rfl, .inr rfl, rfl⟩⟩, rfl⟩

theorem witness_JumpRegisterResults :
  let g := ready.modCore 0 fun k => { k with gangSize := 2, gangPos := 1 }
  (∃ s1, Issues ready { srcs := [isrc 11] } s1 [64] ∧ (64 : Word).toNat % 4 = 0) ∧
  (∃ s1, Issues ready { srcs := [isrc 9] } s1 [7] ∧ (7 : Word).toNat % 4 ≠ 0 ∧ s1.follower seat0 = false) ∧
  (∃ s1, Issues g { srcs := [isrc 9] } s1 [7] ∧ s1.follower seat0 = true) ∧
  (∃ s1, Issues ready { srcs := [isrc 11], dst := some 1, lat := .fixed 1 } s1 [64]) ∧
  (∃ s1, Issues ready { srcs := [], imp := [1] } s1 [] ∧ (ready.reg seat0 1).toNat % 4 = 0) :=
  ⟨⟨_, ⟨rfl, rfl, rfl, rfl, rfl, rfl, rfl, rfl, .inl rfl, .inr rfl, rfl⟩, rfl⟩, ⟨_, ⟨rfl, rfl, rfl, rfl, rfl, rfl, rfl, rfl, .inl rfl, .inr rfl, rfl⟩, by decide, rfl⟩, ⟨_, ⟨rfl, rfl, rfl, rfl, rfl, rfl, rfl, rfl, .inl rfl, .inr rfl, rfl⟩, rfl⟩, ⟨_, ⟨rfl, rfl, rfl, rfl, rfl, rfl, rfl, rfl, .inl rfl, .inr rfl, rfl⟩⟩, _, ⟨rfl, rfl, rfl, rfl, rfl, rfl, rfl, rfl, .inl rfl, .inr rfl, rfl⟩, rfl⟩

theorem witness_FloatResults :
  (∃ s1 a b, Issues ready { srcs := [fsrc 1 8, fsrc 1 63], dst := some 8, lat := .fixed 3 } s1 [a, b]) ∧
  (∃ s1 a, Issues ready { srcs := [fsrc 0 8], dst := some 8, lat := .fixed 20 } s1 [a]) ∧
  (∃ s1 d a b, Issues ready { srcs := [fsrc 1 8, fsrc 1 9, fsrc 1 10], dst := some 8, lat := .fixed 4 } s1 [d, a, b]) ∧
  (∃ s1 d a, Issues ready { srcs := [fsrc 0 8, fsrc 0 9], dst := some 8, lat := .fixed 4 } s1 [d, a]) ∧
  ∃ s1, Issues ready { srcs := [], dst := some 8, lat := .fixed 1 } s1 [] :=
  ⟨⟨_, _, _, ⟨rfl, rfl, rfl, rfl, rfl, rfl, rfl, rfl, .inl rfl, .inr rfl, rfl⟩⟩, ⟨_, _, ⟨rfl, rfl, rfl, rfl, rfl, rfl, rfl, rfl, .inl rfl, .inr rfl, rfl⟩⟩, ⟨_, _, _, _, ⟨rfl, rfl, rfl, rfl, rfl, rfl, rfl, rfl, .inl rfl, .inr rfl, rfl⟩⟩, ⟨_, _, _, ⟨rfl, rfl, rfl, rfl, rfl, rfl, rfl, rfl, .inl rfl, .inr rfl, rfl⟩⟩, _, ⟨rfl, rfl, rfl, rfl, rfl, rfl, rfl, rfl, .inl rfl, .inr rfl, rfl⟩⟩

theorem witness_FloatCodeResults :
  (∃ s1 a b, Issues ready { srcs := [fsrc 0 63, fsrc 0 8], dst := some 8, lat := .fixed 1 } s1 [a, b]) ∧
  (∃ s1 a, Issues ready { srcs := [fsrc 0 8], dst := some 8, lat := .fixed 1 } s1 [a]) ∧
  ∃ s1 a cc, Issues ready { srcs := [(9, cvtLit 6), isrc 10], dst := some 8, lat := .fixed 2 } s1 [a, cc] :=
  ⟨⟨_, _, _, ⟨rfl, rfl, rfl, rfl, rfl, rfl, rfl, rfl, .inl rfl, .inr rfl, rfl⟩⟩, ⟨_, _, ⟨rfl, rfl, rfl, rfl, rfl, rfl, rfl, rfl, .inl rfl, .inr rfl, rfl⟩⟩, _, _, _, ⟨rfl, rfl, rfl, rfl, rfl, rfl, rfl, rfl, .inl rfl, .inr rfl, rfl⟩⟩

theorem witness_SceneInstructions :
  (∃ s1 s2, let h : Shape := { srcs := [], closes := true, opens := some (some (0, 0x7fff)) }
    Issues inScene h s1 [] ∧ (inScene.bank seat0).handler = false ∧ committed inScene h [] s1 = some s2) ∧
  (∃ s1, Issues inHandler { srcs := [], closes := true, opens := some (some (1, 0)) } s1 [] ∧
    (inHandler.bank seat0).handler = true) ∧
  (∃ s1 s2, let h : Shape := { srcs := [], closes := true, opens := some none }
    Issues ready h s1 [] ∧ committed ready h [] s1 = some s2) ∧
  (∃ s1, Issues ready { srcs := [] } s1 [] ∧ (ready.bank seat0).scene = none) ∧
  ∃ s1 sc, Issues inScene { srcs := [] } s1 [] ∧ (inScene.bank seat0).scene = some sc ∧ s1.sceneVectors seat0 = false ∧
    (∀ r ∈ (inScene.bank seat0).pending, r.val.isSome = true) ∧ (s1.discard seat0 true true false).ended ≠ .trap :=
  by
  obtain ⟨s2, h2⟩ := Option.isSome_iff_exists.mp (show
    (committed inScene { srcs := [], closes := true, opens := some (some (0, 0x7fff)) } [] inScene).isSome = true by decide +kernel)
  exact ⟨⟨_, s2, ⟨rfl, rfl, rfl, rfl, rfl, rfl, rfl, rfl, .inl rfl, .inl rfl, rfl⟩, rfl, h2⟩, ⟨_, ⟨rfl, rfl, rfl, rfl, rfl, rfl, rfl, rfl, .inl rfl, .inl rfl, rfl⟩, rfl⟩, ⟨_, _, ⟨rfl, rfl, rfl, rfl, rfl, rfl, rfl, rfl, .inl rfl, .inl rfl, rfl⟩, rfl⟩, ⟨_, ⟨rfl, rfl, rfl, rfl, rfl, rfl, rfl, rfl, .inl rfl, .inr rfl, rfl⟩, rfl⟩, _, _, ⟨rfl, rfl, rfl, rfl, rfl, rfl, rfl, rfl, .inl rfl, .inr rfl, rfl⟩, rfl, rfl,
    by simp [inScene, onBank, usual, State.bank, Machine.Place.key, seat0, mget, mfind, Bank.reset], by decide⟩

theorem witness_SystemResults :
  (∃ s1, Issues ready { srcs := [] } s1 []) ∧
  (∃ s1 v, Issues ready { srcs := [isrc 8], entries := 1 } s1 [v] ∧ (s1.crCore 0 0x00a).getLsbD 0 = false ∧
    (s1.bank seat0).openScene = none) ∧
  (∃ s1 v, let s := ready.setCrCore 0 0x00a 1
    Issues s { srcs := [isrc 8], entries := 1 } s1 [v] ∧ (s1.crCore 0 0x00a).getLsbD 0 = true) ∧
  (∃ s1 v sc, Issues inScene { srcs := [isrc 8], entries := 1 } s1 [v] ∧ (s1.bank seat0).openScene = some sc) ∧
  (∃ s1, Issues ready { srcs := [], dst := some 8, lat := .fixed 1 } s1 []) ∧
  (∃ s1 s2 vs, Issues ready { srcs := [isrc 11], entries := 8 } s1 [64] ∧ (s1.crCore 0 0x00a).getLsbD 0 = false ∧
    (∀ j, j < 32 → Free ready 0 (64 + BitVec.ofNat 64 (8 * j)) 8 true false) ∧
    s1.checkReads seat0 0 ((List.range 32).map fun j => 64 + BitVec.ofNat 64 (8 * j)) = none ∧
    s1.dwordReads seat0 0 ((List.range 32).map fun j => 64 + BitVec.ofNat 64 (8 * j)) = (s2, .ok vs) ∧
    (s2.bank seat0).openScene = none) ∧
  ∃ s1 s2 vs sc, Issues inScene { srcs := [isrc 11], entries := 8 } s1 [64] ∧ (s1.crCore 0 0x00a).getLsbD 0 = false ∧
    (∀ j, j < 32 → Free inScene 0 (64 + BitVec.ofNat 64 (8 * j)) 8 true false) ∧
    s1.checkReads seat0 0 ((List.range 32).map fun j => 64 + BitVec.ofNat 64 (8 * j)) = none ∧
    s1.dwordReads seat0 0 ((List.range 32).map fun j => 64 + BitVec.ofNat 64 (8 * j)) = (s2, .ok vs) ∧
    (s2.bank seat0).openScene = some sc :=
  ⟨⟨_, ⟨rfl, rfl, rfl, rfl, rfl, rfl, rfl, rfl, .inl rfl, .inr rfl, rfl⟩⟩, ⟨_, _, ⟨rfl, rfl, rfl, rfl, rfl, rfl, rfl, rfl, .inl rfl, .inr rfl, rfl⟩, rfl, rfl⟩, ⟨_, _, ⟨rfl, rfl, rfl, rfl, rfl, rfl, rfl, rfl, .inl rfl, .inr rfl, rfl⟩, rfl⟩, ⟨_, _, _, ⟨rfl, rfl, rfl, rfl, rfl, rfl, rfl, rfl, .inl rfl, .inr rfl, rfl⟩, rfl⟩, ⟨_, ⟨rfl, rfl, rfl, rfl, rfl, rfl, rfl, rfl, .inl rfl, .inr rfl, rfl⟩⟩,
    ⟨_, _, _, ⟨rfl, rfl, rfl, rfl, rfl, rfl, rfl, rfl, .inl rfl, .inr rfl, rfl⟩, rfl, by intro j hj; interval_cases j <;> rfl, rfl, rfl, rfl⟩,
    _, _, _, _, ⟨rfl, rfl, rfl, rfl, rfl, rfl, rfl, rfl, .inl rfl, .inr rfl, rfl⟩, rfl, by intro j hj; interval_cases j <;> rfl, rfl, rfl, rfl⟩

theorem witness_LoadStoreResults :
  (∃ s1 s2 ks page, Issues ready { srcs := [isrc 11], dst := some 59, lat := .var } s1 [64] ∧ Free ready 0 64 8 true false ∧
    s1.locate seat0 0 64 8 8 true false false = (s2, .ok ks page) ∧ s2.heldBack seat0 ks = false ∧ s2.bad ks = false) ∧
  (∃ s1 s2 ks page, Issues ready { srcs := [isrc 11, isrc 12], dst := some 8, lat := .var } s1 [64, 3] ∧
    Free ready 0 (64 + 3) 1 true false ∧
    s1.locate seat0 0 (64 + 3) 1 1 true false false = (s2, .ok ks page) ∧ s2.heldBack seat0 ks = false ∧ s2.bad ks = false) ∧
  (∃ s1 s2 ks page, Issues ready { srcs := [isrc 8, isrc 11], entries := 1 } s1 [5, 64] ∧
    Free ready 7 (64 - 8) 8 false true ∧
    s1.locate seat0 7 (64 - 8) 8 8 false true false = (s2, .ok ks page) ∧ s2.heldBack seat0 ks = false) ∧
  ∃ s1 s2 ks page, Issues inScene { srcs := [isrc 8, isrc 11, isrc 0], entries := 1 } s1 [5, 64, 0] ∧
    Free inScene 0 (64 + 0 * 8) 8 false true ∧
    s1.locate seat0 0 64 8 8 false true false = (s2, .ok ks page) ∧ s2.heldBack seat0 ks = false :=
  ⟨⟨_, _, _, _, ⟨rfl, rfl, rfl, rfl, rfl, rfl, rfl, rfl, .inl rfl, .inr rfl, rfl⟩, rfl, rfl, rfl, rfl⟩, ⟨_, _, _, _, ⟨rfl, rfl, rfl, rfl, rfl, rfl, rfl, rfl, .inl rfl, .inr rfl, rfl⟩, rfl, rfl, rfl, rfl⟩, ⟨_, _, _, _, ⟨rfl, rfl, rfl, rfl, rfl, rfl, rfl, rfl, .inl rfl, .inr rfl, rfl⟩, rfl, rfl, rfl⟩,
    _, _, _, _, ⟨rfl, rfl, rfl, rfl, rfl, rfl, rfl, rfl, .inl rfl, .inr rfl, rfl⟩, rfl, rfl, rfl⟩

theorem witness_PlainAccess :
  Memory.wf ready.mem = true ∧ (ready.bank seat0).openScene = none ∧ ready.ue = [] ∧
  (keysFrom (Config.tileKey 0 0) 8).length = 8 ∧ (keysFrom (Config.tileKey 0 0) 8).Nodup ∧
  (∀ k ∈ keysFrom (Config.tileKey 0 0) 8, isExt k = false ∧ isCoh k = false) ∧
  ([0, 0, 0, 0, 0, 0, 0, 0x80] : List Byte) ≠ [] ∧ ([0, 0, 0, 0, 0, 0, 0, 0x80] : List Byte).length ≤ 8 :=
  by decide +kernel

theorem witness_SegmentChecks :
  let r := fun a => ({ ready with banks := [(seat0.key, { usual (Bank.reset 0) with segs := [(0, ⟨0, 64, a⟩)] })] } : State)
  (∃ s1 a, Issues ready { srcs := [isrc 13], dst := some 8, lat := .var } s1 [a] ∧
    segCheck ((r 1).bank seat0 |>.seg 0) a.toNat 8 8 true false false = some .segLimit) ∧
  (∃ s1 a, Issues (r 2) { srcs := [isrc 0], dst := some 8, lat := .var } s1 [a] ∧
    segCheck ((s1.bank seat0).seg 0) a.toNat 8 8 true false false = some .segRights) ∧
  (∃ s1 a, Issues (r 1) { srcs := [isrc 12], dst := some 8, lat := .var } s1 [a] ∧
    segCheck ((s1.bank seat0).seg 0) a.toNat 8 8 true false false = some .misaligned) ∧
  (∃ s1 v a, Issues (r 1) { srcs := [isrc 8, isrc 0], entries := 1 } s1 [v, a] ∧
    segCheck ((s1.bank seat0).seg 0) a.toNat 8 8 false true false = some .segRights) ∧
  (∃ s1 a b, Issues (r 1) { srcs := [isrc 12, isrc 0], dst := some 8, lat := .var } s1 [a, b] ∧
    segCheck ((s1.bank seat0).seg 0) (a + b * BitVec.ofNat 64 (2 ^ 3)).toNat 8 8 true false false = some .misaligned) ∧
  (∃ s1 v a b, Issues (r 3) { srcs := [isrc 8, isrc 11, isrc 8], entries := 1 } s1 [v, a, b] ∧
    segCheck ((s1.bank seat0).seg 0) (a + b * BitVec.ofNat 64 (2 ^ 3)).toNat 8 8 false true false = some .segLimit) ∧
  segCheck ⟨0, 64, 7⟩ 56 8 8 true false false = none ∧ segCheck ⟨0, 64, 7⟩ 57 8 8 true false false = some .segLimit :=
  ⟨⟨_, _, ⟨rfl, rfl, rfl, rfl, rfl, rfl, rfl, rfl, .inl rfl, .inr rfl, rfl⟩, rfl⟩, ⟨_, _, ⟨rfl, rfl, rfl, rfl, rfl, rfl, rfl, rfl, .inl rfl, .inr rfl, rfl⟩, rfl⟩, ⟨_, _, ⟨rfl, rfl, rfl, rfl, rfl, rfl, rfl, rfl, .inl rfl, .inr rfl, rfl⟩, rfl⟩, ⟨_, _, _, ⟨rfl, rfl, rfl, rfl, rfl, rfl, rfl, rfl, .inl rfl, .inr rfl, rfl⟩, rfl⟩, ⟨_, _, _, ⟨rfl, rfl, rfl, rfl, rfl, rfl, rfl, rfl, .inl rfl, .inr rfl, rfl⟩, rfl⟩, ⟨_, _, _, _, ⟨rfl, rfl, rfl, rfl, rfl, rfl, rfl, rfl, .inl rfl, .inr rfl, rfl⟩, rfl⟩, rfl, rfl⟩

theorem witness_RemoteStoreResults_room :
  let h : Shape := { srcs := [isrc 8, isrc 11], entries := 1 }
  let s : State := { (onBank seat0 fun b => { usual b with regs := [(8, 5), (11, 2 ^ 53)] }) with meshStop := [0] }
  let full := s.modCore 0 fun k => { k with outbox := List.replicate 64 (msg 1 (.start 64)) }
  (Issues s h s [5, 2 ^ 53] ∧ (s.bank seat0).openScene = none ∧ s.rstHeld 0 (2 ^ 53) = false ∧ ¬ meshStops s ∧
    s.rstRoom 0 (2 ^ 53) 8 = true) ∧
  (Issues full h full [5, 2 ^ 53] ∧ (full.bank seat0).openScene = none ∧ full.rstHeld 0 (2 ^ 53) = false ∧ ¬ meshStops full ∧
    full.rstRoom 0 (2 ^ 53) 8 = false) :=
  ⟨⟨⟨rfl, rfl, rfl, rfl, rfl, rfl, rfl, rfl, .inl rfl, .inr rfl, rfl⟩, rfl, rfl, fun h => absurd h.1 (by decide), by decide +kernel⟩, ⟨rfl, rfl, rfl, rfl, rfl, rfl, rfl, rfl, .inl rfl, .inr rfl, rfl⟩, rfl, rfl, fun h => absurd h.1 (by decide), by decide +kernel⟩

theorem witness_SendChainResults_room :
  let h : Shape := { srcs := [isrc 11, isrc 8], closes := true, keep := sendKeep }
  let s := fun (w : Word) => ({ (onBank seat0 fun b => { usual b with regs := [(8, 64), (11, w)] }) with
    routes := [(10, .placed 1)], meshStop := [0] } : State)
  let full := fun w => (s w).modCore 0 fun k => { k with outbox := List.replicate 64 (msg 1 (.start 64)) }
  let sends := fun (s : State) (w : Word) t r => Issues s h s [w, 64] ∧ (s.bank seat0).sendTo = none ∧ s.sendTo 0 w 64 = t ∧
    ¬ meshStops s ∧ ∃ s2, committed s h [w, 64] s = some s2 ∧ (s2.bank seat0).sendTo = some t ∧ s2.outRoom 0 32 = r
  sends (s 10) 10 (.mail 1 (some 10)) true ∧ sends (full 10) 10 (.mail 1 (some 10)) false ∧
  sends (s (768 + 2 ^ 41)) (768 + 2 ^ 41) (.start 768 64) true ∧ sends (full (768 + 2 ^ 41)) (768 + 2 ^ 41) (.start 768 64) false :=
  ⟨⟨⟨rfl, rfl, rfl, rfl, rfl, rfl, rfl, rfl, .inl rfl, .inl rfl, rfl⟩, rfl, rfl, fun h => absurd h.1 (by decide), _, rfl, rfl, rfl⟩, ⟨⟨rfl, rfl, rfl, rfl, rfl, rfl, rfl, rfl, .inl rfl, .inl rfl, rfl⟩, rfl, rfl, fun h => absurd h.1 (by decide), _, rfl, rfl, by decide +kernel⟩,
    ⟨⟨rfl, rfl, rfl, rfl, rfl, rfl, rfl, rfl, .inl rfl, .inl rfl, rfl⟩, rfl, rfl, fun h => absurd h.1 (by decide), _, rfl, rfl, rfl⟩, ⟨rfl, rfl, rfl, rfl, rfl, rfl, rfl, rfl, .inl rfl, .inl rfl, rfl⟩, rfl, rfl, fun h => absurd h.1 (by decide), _, rfl, rfl, by decide +kernel⟩

theorem witness_MailResults_any :
  let h : Shape := { srcs := [isrc 8, isrc 9], dst := some 10, lat := .fixed 1 }
  let got := ready.modSeat 0 0 fun t => { t with mpres := 4 }
  let x := onBank xseat usual
  let g : Shape := { srcs := [isrc 8, isrc 0], dst := some 10, lat := .fixed 1 }
  (Issues got h got [5, 7] ∧ (got.seat 0 0).mpres &&& 5 ≠ 0) ∧
  (Issues ready h ready [5, 7] ∧ (ready.seat 0 0).mpres &&& 5 = 0 ∧ (5 : BitVec 32) ≠ 0 ∧
    ¬ ((7 : Word) ≠ 0 ∧ (7 : Word).toNat ≤ ready.dtime) ∧ ¬ (seat0.reflex = true ∧ (7 : Word) = 0)) ∧
  Issues x g x [5, 0] ∧ (x.seat 768 0).mpres &&& 5 = 0 ∧ ¬ ((0 : Word) ≠ 0 ∧ (0 : Word).toNat ≤ x.dtime) ∧ xseat.reflex = true :=
  ⟨⟨⟨rfl, rfl, rfl, rfl, rfl, rfl, rfl, rfl, .inl rfl, .inr rfl, rfl⟩, by decide⟩, ⟨⟨rfl, rfl, rfl, rfl, rfl, rfl, rfl, rfl, .inl rfl, .inr rfl, rfl⟩, rfl, by decide, by decide, by decide⟩, ⟨rfl, rfl, rfl, rfl, rfl, rfl, rfl, rfl, .inl rfl, .inr rfl, rfl⟩, rfl, by decide, rfl⟩

theorem witness_VectorMemoryCommandsEnter_full :
  let full := fun n => ready.modCore 0 fun k => { k with vq := List.replicate n someCmd }
  let ld : Shape := { srcs := [isrc 11], vr := [32], vd := some 1 }
  let ga : Shape := { srcs := [isrc 11], vr := [3, 32], vd := some 4 }
  let sc : Shape := { srcs := [isrc 11], vr := [3, 4, 32] }
  (Issues (full 16) ld (full 16) [64] ∧ 16 ≤ ((full 16).core 0).vq.length) ∧
  (Issues (full 1) ga (full 1) [64] ∧ 1 ≤ ((full 1).core 0).vq.length) ∧
  Issues (full 1) sc (full 1) [64] ∧ 1 ≤ ((full 1).core 0).vq.length :=
  ⟨⟨⟨rfl, rfl, rfl, rfl, rfl, rfl, rfl, rfl, .inl rfl, .inr rfl, rfl⟩, by decide +kernel⟩, ⟨⟨rfl, rfl, rfl, rfl, rfl, rfl, rfl, rfl, .inl rfl, .inr rfl, rfl⟩, by decide +kernel⟩, ⟨rfl, rfl, rfl, rfl, rfl, rfl, rfl, rfl, .inl rfl, .inr rfl, rfl⟩, by decide +kernel⟩

theorem witness_AtomicResults :
  ∃ s1 s2 s3 s4 b ks page ks' page',
    let h : Shape := { srcs := [isrc 11, isrc 8], dst := some 59, lat := .var, closes := true }
    Issues ready h s1 [64, b] ∧ Free ready 0 64 8 true true ∧ Found s1 seat0 0 64 8 true true s2 ks page ∧
    ks.any isExt = false ∧ amoFull 59 (ctx ready h [64, b]) s2 = false ∧ committed ready h [64, b] s1 = some s3 ∧
    Found s3 seat0 0 64 8 true true s4 ks' page' :=
  ⟨_, _, _, _, _, _, _, _, _, ⟨rfl, rfl, rfl, rfl, rfl, rfl, rfl, rfl, .inl rfl, .inl rfl, rfl⟩, rfl, ⟨rfl, rfl, fun _ => rfl⟩, by decide +kernel, rfl, rfl, ⟨rfl, rfl, fun _ => rfl⟩⟩

theorem witness_AtomicResults_push :
  let s := ready.modSeat 0 0 fun t => { t with down := some (0, 1) }
  ∃ s1 s2 s3 s4 b ks page ks' page',
    let h : Shape := { srcs := [isrc 11, isrc 8], dst := some 61, lat := .var, closes := true }
    Issues s h s1 [64, b] ∧ Free s 0 64 4 true true ∧ Found s1 seat0 0 64 4 true true s2 ks page ∧
    amoFull 61 (ctx s h [64, b]) s2 = false ∧ committed s h [64, b] s1 = some s3 ∧
    Found s3 seat0 0 64 4 true true s4 ks' page' ∧
    ((settled s4 seat0 ks').amoUnit seat0 page' ks' (some 0)).qoutRoom seat0 = true :=
  ⟨_, _, _, _, _, _, _, _, _, ⟨rfl, rfl, rfl, rfl, rfl, rfl, rfl, rfl, .inl rfl, .inl rfl, rfl⟩, rfl, ⟨rfl, rfl, fun _ => rfl⟩, rfl, rfl, ⟨rfl, rfl, fun _ => rfl⟩, by decide +kernel⟩

theorem witness_AtomicResults_wait :
  let s := (onBank seat0 fun b => { usual b with
      scene := some { Scene.fresh 0 2 with entries := [⟨1, .push 0 0⟩] } }).modSeat 0 0 fun t => { t with down := some (0, 1) }
  let s := s.modSeat 0 1 fun t => { t with up := some (0, 0), qin := List.replicate 15 0 }
  let h : Shape := { srcs := [isrc 11, isrc 8], dst := some 61, lat := .var, closes := true }
  let c := (committed s h [64, 5] s).getD s
  let l := c.locate seat0 0 64 4 4 true true false
  let ks := keysFrom (Config.tileKey 0 64) 4
  Issues s h s [64, 5] ∧ Free s 0 64 4 true true ∧ Found s seat0 0 64 4 true true s ks none ∧ amoFull 61 (ctx s h [64, 5]) s = false ∧
  (committed s h [64, 5] s).isSome = true ∧ Found c seat0 0 64 4 true true l.1 ks none ∧
  ((settled l.1 seat0 ks).amoUnit seat0 none ks (some 0)).qoutRoom seat0 = false :=
  ⟨⟨rfl, rfl, rfl, rfl, rfl, rfl, rfl, rfl, .inl rfl, .inl rfl, rfl⟩, rfl, ⟨rfl, rfl, fun _ => rfl⟩, rfl, by decide +kernel, ⟨by decide +kernel, by decide +kernel, fun _ => by decide +kernel⟩,
    by decide +kernel⟩

theorem witness_AtomicResults_cas :
  (∃ s1 s2 s3 s4 d b ks page ks' page',
    let h : Shape := { srcs := [isrc 9, isrc 11, isrc 8], dst := some 9, lat := .var, closes := true }
    Issues ready h s1 [d, 64, b] ∧ Free ready 0 64 8 true true ∧
    Found s1 seat0 0 64 8 true true s2 ks page ∧ committed ready h [d, 64, b] s1 = some s3 ∧
    Found s3 seat0 0 64 8 true true s4 ks' page') ∧ Memory.wf ready.mem = true ∧ ready.ue = [] ∧
  (keysFrom (Config.tileKey 0 64) 8).Nodup :=
  ⟨⟨_, _, _, _, _, _, _, _, _, _, ⟨rfl, rfl, rfl, rfl, rfl, rfl, rfl, rfl, .inl rfl, .inl rfl, rfl⟩, rfl, ⟨rfl, rfl, fun _ => rfl⟩, rfl, ⟨rfl, rfl, fun _ => rfl⟩⟩, rfl, rfl, by decide +kernel⟩

theorem witness_OrderingResults :
  let e : Shape := { srcs := [], entries := 1 }
  let la : Shape := { srcs := [isrc 11], dst := some 8, lat := .var, entries := 1 }
  let sr : Shape := { srcs := [isrc 11, isrc 8], entries := 2 }
  let due := onBank seat0 fun b => { usual b with pending := [⟨1, 20, .memory, none, 0, 0⟩] }
  let sent := ready.post 0 1 none 2 false 0 (.mail 0 0 7)
  (Issues inScene e inScene [] ∧ (inScene.bank seat0).openScene.isSome = true) ∧
  (Issues ready e ready [] ∧ (ready.bank seat0).openScene = none ∧ ready.loadsDue seat0 = false ∧
    ready.relPending seat0 11 = false) ∧
  (Issues due e due [] ∧ (due.bank seat0).openScene = none ∧ due.loadsDue seat0 = true) ∧
  (Issues sent e sent [] ∧ (sent.bank seat0).openScene = none ∧ sent.relPending seat0 11 = true) ∧
  (∃ s2 ks page, Issues ready la ready [64] ∧ Free ready 0 64 8 true false ∧ Found ready seat0 0 64 8 true false s2 ks page ∧
    (ready.bank seat0).openScene = none ∧ ready.loadsDue seat0 = false) ∧
  (∃ s2 ks page sc, Issues inScene la inScene [64] ∧ Free inScene 0 64 4 true false ∧
    Found inScene seat0 0 64 4 true false s2 ks page ∧ (inScene.bank seat0).openScene = some sc) ∧
  (∃ s2 ks page, Issues ready sr ready [64, 5] ∧ Free ready 0 64 8 false true ∧ Found ready seat0 0 64 8 false true s2 ks page ∧
    (ready.bank seat0).openScene = none ∧ ready.relPending seat0 0 = false) ∧
  ∃ s2 ks page s3 ks' page' sc, Issues inScene sr inScene [64, 5] ∧ Free inScene 0 64 8 false true ∧
    Found inScene seat0 0 64 8 false true s2 ks page ∧ (inScene.bank seat0).openScene = some sc ∧
    Found (inScene.modBank seat0 fun b => b.buffer 1 (.release 0)) seat0 0 64 8 false true s3 ks' page' :=
  ⟨⟨⟨rfl, rfl, rfl, rfl, rfl, rfl, rfl, rfl, .inl rfl, .inr rfl, rfl⟩, rfl⟩, ⟨⟨rfl, rfl, rfl, rfl, rfl, rfl, rfl, rfl, .inl rfl, .inr rfl, rfl⟩, rfl, rfl, rfl⟩, ⟨⟨rfl, rfl, rfl, rfl, rfl, rfl, rfl, rfl, .inl rfl, .inr rfl, rfl⟩, rfl, rfl⟩, ⟨⟨rfl, rfl, rfl, rfl, rfl, rfl, rfl, rfl, .inl rfl, .inr rfl, rfl⟩, rfl, rfl⟩,
    ⟨_, _, _, ⟨rfl, rfl, rfl, rfl, rfl, rfl, rfl, rfl, .inl rfl, .inr rfl, rfl⟩, rfl, ⟨rfl, rfl, fun _ => rfl⟩, rfl, rfl⟩, ⟨_, _, _, _, ⟨rfl, rfl, rfl, rfl, rfl, rfl, rfl, rfl, .inl rfl, .inr rfl, rfl⟩, rfl, ⟨rfl, rfl, fun _ => rfl⟩, rfl⟩,
    ⟨_, _, _, ⟨rfl, rfl, rfl, rfl, rfl, rfl, rfl, rfl, .inl rfl, .inr rfl, rfl⟩, rfl, ⟨rfl, rfl, fun h => by cases h⟩, rfl, rfl⟩,
    _, _, _, _, _, _, _, ⟨rfl, rfl, rfl, rfl, rfl, rfl, rfl, rfl, .inl rfl, .inr rfl, rfl⟩, rfl, ⟨rfl, rfl, fun h => by cases h⟩, rfl, ⟨rfl, rfl, fun h => by cases h⟩⟩

theorem witness_RemoteStoreResults :
  let vc : Word := 9 * 2 ^ 21
  let far : Word := 2 ^ 53 + 831 * 2 ^ 21 + 2 ^ 21 - 8
  let f := fun (w : Word) (b : Bank) => { usual b with regs := [(8, 5), (11, w)] }
  let h : Shape := { srcs := [isrc 8, isrc 11], entries := 1 }
  let s := fun w => ({ onBank seat0 (f w) with routes := [(9, .unplaced)] } : State)
  let full : State := { s vc with doorRes := [(0, 4096)] }
  let x := fun (l : List Nat) => ({ onBank xseat (f 0) with meshStop := l } : State)
  let sc := fun w => ({ (onBank seat0 fun b => { f w b with scene := some (Scene.fresh 0 2) }) with routes := [(9, .unplaced)] } : State)
  (Issues (s 7) h (s 7) [5, 7] ∧ (7 : Word).toNat % 2 ^ 21 % 8 ≠ 0) ∧
  (Issues full h full [5, vc] ∧ vc.toNat % 2 ^ 21 % 8 = 0 ∧ full.rstHeld 0 vc = true ∧ full.doorRoom 0 = false) ∧
  (Issues (s vc) h (s vc) [5, vc] ∧ (s vc).rstHeld 0 vc = true ∧ (s vc).doorRoom 0 = true ∧ (s vc).cur.reflex = false ∧
    ((s vc).bank seat0).openScene = none) ∧
  (Issues (x [768]) h (x [768]) [5, 0] ∧ ((x [768]).bank xseat).openScene = none ∧ (x [768]).rstHeld 768 0 = false ∧
    meshStops (x [768])) ∧
  (Issues (x []) h (x []) [5, 0] ∧ ((x []).bank xseat).openScene = none ∧ (x []).rstHeld 768 0 = false ∧ ¬ meshStops (x [])) ∧
  (Issues (sc (far + 2 ^ 21)) h (sc (far + 2 ^ 21)) [5, far + 2 ^ 21] ∧ ((sc (far + 2 ^ 21)).bank seat0).openScene.isSome = true ∧
    (sc (far + 2 ^ 21)).rstHeld 0 (far + 2 ^ 21) = false ∧ (sc (far + 2 ^ 21)).rstOff 0 (far + 2 ^ 21) 8 = true) ∧
  (Issues (sc far) h (sc far) [5, far] ∧ ((sc far).bank seat0).openScene.isSome = true ∧ (sc far).rstHeld 0 far = false ∧
    (sc far).rstOff 0 far 8 = false) ∧
  (Issues (sc vc) h (sc vc) [5, vc] ∧ ((sc vc).bank seat0).openScene.isSome = true ∧ (sc vc).rstHeld 0 vc = true ∧
    (sc vc).doorRoom 0 = true ∧ (sc vc).rstOff 0 vc 8 = false) :=
  ⟨⟨⟨rfl, rfl, rfl, rfl, rfl, rfl, rfl, rfl, .inl rfl, .inr rfl, rfl⟩, by decide⟩, ⟨⟨rfl, rfl, rfl, rfl, rfl, rfl, rfl, rfl, .inl rfl, .inr rfl, rfl⟩, by decide, rfl, rfl⟩, ⟨⟨rfl, rfl, rfl, rfl, rfl, rfl, rfl, rfl, .inl rfl, .inr rfl, rfl⟩, rfl, rfl, rfl, rfl⟩, ⟨⟨rfl, rfl, rfl, rfl, rfl, rfl, rfl, rfl, .inl rfl, .inr rfl, rfl⟩, rfl, rfl, rfl, rfl⟩,
    ⟨⟨rfl, rfl, rfl, rfl, rfl, rfl, rfl, rfl, .inl rfl, .inr rfl, rfl⟩, rfl, rfl, fun h => absurd h.2 (by decide)⟩, ⟨⟨rfl, rfl, rfl, rfl, rfl, rfl, rfl, rfl, .inl rfl, .inr rfl, rfl⟩, rfl, by decide +kernel, by decide +kernel⟩,
    ⟨⟨rfl, rfl, rfl, rfl, rfl, rfl, rfl, rfl, .inl rfl, .inr rfl, rfl⟩, rfl, by decide +kernel, by decide +kernel⟩, ⟨rfl, rfl, rfl, rfl, rfl, rfl, rfl, rfl, .inl rfl, .inr rfl, rfl⟩, rfl, rfl, rfl, by decide +kernel⟩

theorem witness_RemoteStoreResults_vector :
  let vc : Word := 9 * 2 ^ 21
  let off : Word := 2 ^ 53 + 832 * 2 ^ 21
  let f := fun (w : Word) (b : Bank) => { usual b with regs := [(11, w)] }
  let h : Shape := { srcs := [isrc 11], vr := [31], entries := 8 }
  let s := fun w => ({ onBank seat0 (f w) with routes := [(9, .unplaced)] } : State)
  let x := ({ onBank xseat (f 0) with meshStop := [768] } : State)
  let sc := fun w => ({ (onBank seat0 fun b => { f w b with scene := some (Scene.fresh 0 2) }) with routes := [(9, .unplaced)] } : State)
  let v := onBank seat0 fun b => { usual b with wip := .rstv 5 }
  let late := v.modCore 0 fun k => { k with vq := [someCmd] }
  (Issues (s 6) h (s 6) [6] ∧ ((s 6).core 0).vq.length < 16 ∧ (6 : Word).toNat % 2 ^ 21 % 4 ≠ 0) ∧
  (Issues (s vc) h (s vc) [vc] ∧ ((s vc).core 0).vq.length < 16 ∧ vc.toNat % 2 ^ 21 % 4 = 0 ∧ (s vc).rstHeld 0 vc = true ∧
    (s vc).doorRoom 0 = true ∧ ((s vc).bank seat0).openScene = none ∧ (s vc).cur.reflex = false) ∧
  (Issues x h x [0] ∧ (x.core 768).vq.length < 16 ∧ x.rstHeld 768 0 = false ∧ (x.bank xseat).openScene = none ∧ meshStops x) ∧
  (Issues (sc off) h (sc off) [off] ∧ ((sc off).core 0).vq.length < 16 ∧ off.toNat % 2 ^ 21 % 4 = 0 ∧ (sc off).rstHeld 0 off = false ∧
    ((sc off).bank seat0).openScene.isSome = true ∧ (sc off).rstOff 0 off 256 = true) ∧
  (Issues (sc vc) h (sc vc) [vc] ∧ ((sc vc).core 0).vq.length < 16 ∧ (sc vc).rstHeld 0 vc = true ∧ (sc vc).doorRoom 0 = true ∧
    ((sc vc).bank seat0).openScene.isSome = true ∧ (sc vc).rstOff 0 vc 256 = false) ∧
  ((v.bank seat0).wip = .rstv 5 ∧ ((v.core 0).vq.any (·.id == 5) || v.outboxOf seat0) = false) ∧
  ((late.bank seat0).wip = .rstv 5 ∧ ((late.core 0).vq.any (·.id == 5) || late.outboxOf seat0) = true) :=
  ⟨⟨⟨rfl, rfl, rfl, rfl, rfl, rfl, rfl, rfl, .inl rfl, .inr rfl, rfl⟩, by decide, by decide⟩, ⟨⟨rfl, rfl, rfl, rfl, rfl, rfl, rfl, rfl, .inl rfl, .inr rfl, rfl⟩, by decide, by decide, rfl, rfl, rfl, rfl⟩, ⟨⟨rfl, rfl, rfl, rfl, rfl, rfl, rfl, rfl, .inl rfl, .inr rfl, rfl⟩, by decide, rfl, rfl, rfl, rfl⟩,
    ⟨⟨rfl, rfl, rfl, rfl, rfl, rfl, rfl, rfl, .inl rfl, .inr rfl, rfl⟩, by decide, by decide, by decide +kernel, rfl, by decide +kernel⟩, ⟨⟨rfl, rfl, rfl, rfl, rfl, rfl, rfl, rfl, .inl rfl, .inr rfl, rfl⟩, by decide, rfl, rfl, rfl, by decide +kernel⟩,
    ⟨rfl, rfl⟩, rfl, rfl⟩

theorem witness_Lut4HintResults :
  let h : Shape := { srcs := [isrc 11], entries := 1 }
  let v := onBank seat0 fun b => { usual b with wip := .lut4 7 }
  let busy := withQueue v 0 [{ eng 0 0 1 0 0 with started := true }]
  let s := (onBank seat0 fun b => { usual b with segs := [(0, ⟨0, 0x1000, 9⟩)] }).modMmu 0 fun m => { m with
     tlb := [⟨0, 0, none, 1 + 6 + 2 ^ 12⟩] }
  (∃ s2 ks page, Issues ready h ready [64] ∧ ready.accessWait seat0 0 64 16 16 true false = none ∧
    ready.locate seat0 0 64 16 16 true false false = (s2, .ok ks page) ∧ s2.heldBack seat0 ks = false ∧ s2.bad ks = false ∧
    ((s2.seatBytes seat0 page ks).1.bank seat0).openScene = none) ∧
  (∃ s2 ks page sc, Issues inScene h inScene [64] ∧ inScene.accessWait seat0 0 64 16 16 true false = none ∧
    inScene.locate seat0 0 64 16 16 true false false = (s2, .ok ks page) ∧ s2.heldBack seat0 ks = false ∧ s2.bad ks = false ∧
    ((s2.seatBytes seat0 page ks).1.bank seat0).openScene = some sc) ∧
  ((v.bank seat0).wip = .lut4 7 ∧ v.lutBusy 0 = false) ∧ ((busy.bank seat0).wip = .lut4 7 ∧ busy.lutBusy 0 = true) ∧
  (Issues ready { srcs := [isrc 11] } ready [64] ∧ ready.hintAt seat0 0 64 = none) ∧
   ∃ s2 k pg, Issues s { srcs := [isrc 11] } s [64] ∧ s.hintAt seat0 0 64 = some (s2, k, pg) :=
  ⟨⟨_, _, _, ⟨rfl, rfl, rfl, rfl, rfl, rfl, rfl, rfl, .inl rfl, .inr rfl, rfl⟩, rfl, rfl, rfl, rfl, rfl⟩, ⟨_, _, _, _, ⟨rfl, rfl, rfl, rfl, rfl, rfl, rfl, rfl, .inl rfl, .inr rfl, rfl⟩, rfl, rfl, rfl, rfl, rfl⟩, ⟨rfl, rfl⟩, ⟨rfl, rfl⟩, ⟨⟨rfl, rfl, rfl, rfl, rfl, rfl, rfl, rfl, .inl rfl, .inr rfl, rfl⟩, rfl⟩,
    _, _, _, ⟨rfl, rfl, rfl, rfl, rfl, rfl, rfl, rfl, .inl rfl, .inr rfl, rfl⟩, rfl⟩

theorem witness_SpawnJoinResults :
  let h : Shape := { srcs := [isrc 11, isrc 8], imp := [3], closes := true }
  let g : Shape := { srcs := [isrc 9, isrc 8], imp := [3], closes := true }
  let j : Shape := { srcs := [], imp := [3], closes := true }
  let u : Shape := { srcs := [isrc 12], closes := true }
  let full := ready.modCore 0 fun k => { k with deque := List.replicate 32 (ready.recOf seat0 0) }
  let one := { ready with mem := memWrites [] [(Config.tileKey 0 0, 1)] }
  let off := 3 &&& ~~~(63 : Word)
  (Issues ready g ready [7, 5] ∧ MaySuspend ready seat0) ∧
  (∃ s1' ks', Issues full h full [64, 5] ∧ MaySuspend full seat0 ∧ Safety.Block full seat0 (full.joinOff seat0) 8 8 s1' ks' ∧
    full.pushDeque 0 (full.recOf seat0 (succ full h)) = none) ∧
  (∃ s1' ks' s3 s4 ks, Issues ready h ready [64, 5] ∧ MaySuspend ready seat0 ∧
    Safety.Block ready seat0 (ready.joinOff seat0) 8 8 s1' ks' ∧
    (ready.pushDeque 0 (ready.recOf seat0 (succ ready h))).isSome = true ∧ committed ready h [64, 5] ready = some ready ∧
    Safety.Block ready seat0 (ready.joinOff seat0) 8 8 s3 ks ∧ s3.pushDeque 0 (s3.recOf seat0 (succ ready h)) = some s4) ∧
  (∃ s3 ks, Issues ready j ready [] ∧ MaySuspend ready seat0 ∧
    blockChk (ready.joinOff seat0) 8 [joinMore] 8 (ctx ready j []) ready = none ∧ committed ready j [] ready = some ready ∧
    Safety.Block ready seat0 (ready.joinOff seat0) 8 8 s3 ks ∧ s3.blockRead ks 0 = 0) ∧
  (∃ s3 ks s4 kr, Issues one j one [] ∧ MaySuspend one seat0 ∧
    blockChk (one.joinOff seat0) 8 [joinMore] 8 (ctx one j []) one = none ∧ committed one j [] one = some one ∧
    Safety.Block one seat0 (one.joinOff seat0) 8 8 s3 ks ∧ s3.blockRead ks 0 ≠ 0 ∧
    Safety.Block s3 seat0 (s3.joinOff seat0) 8 128 s4 kr) ∧
  (∃ s1' ks' s3 ks, Issues one u one [3] ∧ MaySuspend one seat0 ∧ Safety.Block one seat0 off 128 128 s1' ks' ∧
    committed one u [3] one = some one ∧ Safety.Block one seat0 off 128 128 s3 ks ∧ s3.blockRead ks 0 ≠ 0) ∧
  ∃ s1' ks' s3 ks, Issues ready u ready [3] ∧ MaySuspend ready seat0 ∧ Safety.Block ready seat0 off 128 128 s1' ks' ∧
    committed ready u [3] ready = some ready ∧ Safety.Block ready seat0 off 128 128 s3 ks ∧ s3.blockRead ks 0 = 0 :=
  ⟨⟨⟨rfl, rfl, rfl, rfl, rfl, rfl, rfl, rfl, .inl rfl, .inl rfl, rfl⟩, ⟨rfl, rfl, rfl, fun _ hr => by cases hr⟩⟩, ⟨_, _, ⟨rfl, rfl, rfl, rfl, rfl, rfl, rfl, rfl, .inl rfl, .inl rfl, rfl⟩, ⟨rfl, rfl, rfl, fun _ hr => by cases hr⟩, rfl, rfl⟩,
    ⟨_, _, _, _, _, ⟨rfl, rfl, rfl, rfl, rfl, rfl, rfl, rfl, .inl rfl, .inl rfl, rfl⟩, ⟨rfl, rfl, rfl, fun _ hr => by cases hr⟩, rfl, rfl, rfl, rfl, rfl⟩,
    ⟨_, _, ⟨rfl, rfl, rfl, rfl, rfl, rfl, rfl, rfl, .inl rfl, .inl rfl, rfl⟩, ⟨rfl, rfl, rfl, fun _ hr => by cases hr⟩, by decide +kernel, rfl, rfl, rfl⟩,
    ⟨_, _, _, _, ⟨rfl, rfl, rfl, rfl, rfl, rfl, rfl, rfl, .inl rfl, .inl rfl, rfl⟩, ⟨rfl, rfl, rfl, fun _ hr => by cases hr⟩, by decide +kernel, rfl, rfl, by decide +kernel, rfl⟩,
    ⟨_, _, _, _, ⟨rfl, rfl, rfl, rfl, rfl, rfl, rfl, rfl, .inl rfl, .inl rfl, rfl⟩, ⟨rfl, rfl, rfl, fun _ hr => by cases hr⟩, rfl, rfl, rfl, by decide +kernel⟩,
    _, _, _, _, ⟨rfl, rfl, rfl, rfl, rfl, rfl, rfl, rfl, .inl rfl, .inl rfl, rfl⟩, ⟨rfl, rfl, rfl, fun _ hr => by cases hr⟩, rfl, rfl, rfl, rfl⟩

theorem witness_YieldExitWakeResults :
  let y : Shape := { srcs := [], closes := true }
  let crowd := ready.modCore 0 fun k => { k with
    deque := List.replicate 32 (ready.recOf seat0 0), ready := List.replicate 32 ⟨ready.recOf seat0 0, 0, false⟩ }
  let w : Shape := { srcs := [isrc 12], entries := 1 }
  let off := 3 &&& ~~~(63 : Word)
  let x := onBank xseat usual
  let rec9 := { ready with mem := memWrites [] [(Config.tileKey 0 8, 1), (Config.tileKey 0 120, 9)], routes := [(9, .unplaced)],
                           doorRes := [(0, 4096)] }
  (∃ s3, Issues ready y ready [] ∧ MaySuspend ready seat0 ∧ (ready.pushReady 0 (ready.recOf seat0 (succ ready y))).isSome = true ∧
    committed ready y [] ready = some ready ∧ ready.pushReady 0 (ready.recOf seat0 (succ ready y)) = some s3) ∧
  (Issues crowd y crowd [] ∧ MaySuspend crowd seat0 ∧ crowd.pushReady 0 (crowd.recOf seat0 (succ crowd y)) = none) ∧
  (Issues ready y ready [] ∧ ready.pushDue seat0 = false ∧ (ready.bank seat0).handler = false ∧ ready.ganged seat0 = false ∧
    committed ready y [] ready = some ready) ∧
  (Issues x w x [3] ∧ xseat.reflex = true) ∧
  (∃ s2 ks, Issues ready w ready [3] ∧ seat0.reflex = false ∧ Safety.Block ready seat0 off 128 128 s2 ks ∧
    (s2.bank seat0).openScene = none ∧ s2.blockRead ks 8 ≠ 1) ∧
  (∃ s2 ks, Issues rec9 w rec9 [3] ∧ Safety.Block rec9 seat0 off 128 128 s2 ks ∧ (s2.bank seat0).openScene = none ∧
    s2.blockRead ks 8 = 1 ∧ s2.wakeFull seat0 (s2.blockRec ks) = true) ∧
  ∃ s2 ks sc, Issues inScene w inScene [3] ∧ Safety.Block inScene seat0 off 128 128 s2 ks ∧ (s2.bank seat0).openScene = some sc :=
  ⟨⟨_, ⟨rfl, rfl, rfl, rfl, rfl, rfl, rfl, rfl, .inl rfl, .inl rfl, rfl⟩, ⟨rfl, rfl, rfl, fun _ hr => by cases hr⟩, rfl, rfl, rfl⟩, ⟨⟨rfl, rfl, rfl, rfl, rfl, rfl, rfl, rfl, .inl rfl, .inl rfl, rfl⟩, ⟨rfl, rfl, rfl, fun _ hr => by cases hr⟩, rfl⟩,
    ⟨⟨rfl, rfl, rfl, rfl, rfl, rfl, rfl, rfl, .inl rfl, .inl rfl, rfl⟩, rfl, rfl, rfl, rfl⟩, ⟨⟨rfl, rfl, rfl, rfl, rfl, rfl, rfl, rfl, .inl rfl, .inr rfl, rfl⟩, rfl⟩, ⟨_, _, ⟨rfl, rfl, rfl, rfl, rfl, rfl, rfl, rfl, .inl rfl, .inr rfl, rfl⟩, rfl, rfl, rfl, by decide +kernel⟩,
    ⟨_, _, ⟨rfl, rfl, rfl, rfl, rfl, rfl, rfl, rfl, .inl rfl, .inr rfl, rfl⟩, rfl, rfl, by decide +kernel, by decide +kernel⟩, _, _, _, ⟨rfl, rfl, rfl, rfl, rfl, rfl, rfl, rfl, .inl rfl, .inr rfl, rfl⟩, rfl, rfl⟩

theorem witness_YieldExitWakeResults_count :
  let hx : Shape := { srcs := [isrc 12], closes := true }
  let off := 3 &&& ~~~(63 : Word)
  let cells := fun n w => ({ ready with
    mem := memWrites [] [(Config.tileKey 0 0, BitVec.ofNat 8 n), (Config.tileKey 0 8, BitVec.ofNat 8 w)] } : State)
  let meets := fun (s : State) => Issues s hx s [3] ∧ s.pushDue seat0 = false ∧ (s.bank seat0).handler = false ∧
    seat0.reflex = false ∧ s.ganged seat0 = false ∧ blockChk off 8 exitMore 8 (ctx s hx [3]) s = none ∧
    committed s hx [3] s = some s
  let at_ := fun (s : State) n m => s.blockAt seat0 off n m
  (∃ ks, meets (cells 0 0) ∧ at_ (cells 0 0) 8 8 = (cells 0 0, .ok ks) ∧ (cells 0 0).blockRead ks 0 = 0) ∧
  (∃ ks, meets (cells 2 1) ∧ at_ (cells 2 1) 8 8 = (cells 2 1, .ok ks) ∧ (cells 2 1).blockRead ks 0 = 2) ∧
  (∃ ks k4, meets (cells 1 0) ∧ at_ (cells 1 0) 8 8 = (cells 1 0, .ok ks) ∧ (cells 1 0).blockRead ks 0 = 1 ∧
    at_ (cells 1 0) 8 16 = (cells 1 0, .ok k4) ∧ (cells 1 0).blockRead k4 8 = 0) ∧
  ∃ ks k4 k5, meets (cells 1 1) ∧ at_ (cells 1 1) 8 8 = (cells 1 1, .ok ks) ∧ (cells 1 1).blockRead ks 0 = 1 ∧
    at_ (cells 1 1) 8 16 = (cells 1 1, .ok k4) ∧ (cells 1 1).blockRead k4 8 = 1 ∧ at_ (cells 1 1) 8 128 = (cells 1 1, .ok k5) :=
  ⟨⟨_, ⟨⟨rfl, rfl, rfl, rfl, rfl, rfl, rfl, rfl, .inl rfl, .inl rfl, rfl⟩, rfl, rfl, rfl, rfl, by decide +kernel, rfl⟩, rfl, by decide +kernel⟩,
    ⟨_, ⟨⟨rfl, rfl, rfl, rfl, rfl, rfl, rfl, rfl, .inl rfl, .inl rfl, rfl⟩, rfl, rfl, rfl, rfl, by decide +kernel, rfl⟩, rfl, by decide +kernel⟩,
    ⟨_, _, ⟨⟨rfl, rfl, rfl, rfl, rfl, rfl, rfl, rfl, .inl rfl, .inl rfl, rfl⟩, rfl, rfl, rfl, rfl, by decide +kernel, rfl⟩, rfl, by decide +kernel, rfl, by decide +kernel⟩,
    _, _, _, ⟨⟨rfl, rfl, rfl, rfl, rfl, rfl, rfl, rfl, .inl rfl, .inl rfl, rfl⟩, rfl, rfl, rfl, rfl, by decide +kernel, rfl⟩, rfl, by decide +kernel, rfl, by decide +kernel, rfl⟩

theorem witness_BarGangResults :
  let h : Shape := { srcs := [] }
  let go := fun (s : State) => Issues s h s [] ∧ (s.bank s.cur).handler = false ∧ (s.bank s.cur).openScene = none
  let all := fun (t : Slot) (n : Nat) => ∀ i, i < t.members.length → n ≤ mget t.bars i 0 ∨ mget t.mlive i 0 = 0
  let counted := fun (s : State) => s.modSlot 0 fun t => { t with bars := mset t.bars 0 1 }
  let arrived := (inEns id).modSlot 0 fun t => { t with bars := [(1, 1)] }
  let waits := inEns fun b => { b with wip := .bar 1 }
  let done := waits.modSlot 0 fun t => { t with bars := [(0, 1), (1, 1)] }
  go ready ∧ (ready.bank seat0).ens = 0 ∧
  (go arrived ∧ (arrived.bank seat0).ens ≠ 0 ∧ arrived.ganged seat0 = false ∧ (arrived.slot 0).hdr = some rowOf2 ∧
    (arrived.bank seat0).cslot = 0 ∧ (arrived.bank seat0).vcore.toNat - rowOf2.vbase = 0 ∧ mget (arrived.slot 0).bars 0 0 + 1 = 1 ∧
    all ((counted arrived).slot 0) 1) ∧
  (go (inEns id) ∧ ((inEns id).bank seat0).ens ≠ 0 ∧ (inEns id).ganged seat0 = false ∧ ((inEns id).slot 0).hdr = some rowOf2 ∧
    ¬ all ((counted (inEns id)).slot 0) 1) ∧
  ((done.bank seat0).wip = .bar 1 ∧ (done.bank seat0).cslot = 0 ∧ all (done.slot 0) 1) ∧
  ((waits.bank seat0).wip = .bar 1 ∧ ¬ all (waits.slot 0) 1) :=
  ⟨⟨⟨rfl, rfl, rfl, rfl, rfl, rfl, rfl, rfl, .inl rfl, .inr rfl, rfl⟩, rfl, rfl⟩, rfl, ⟨⟨⟨rfl, rfl, rfl, rfl, rfl, rfl, rfl, rfl, .inl rfl, .inr rfl, rfl⟩, rfl, rfl⟩, by decide, rfl, rfl, rfl, rfl, rfl, by decide +kernel⟩,
    ⟨⟨⟨rfl, rfl, rfl, rfl, rfl, rfl, rfl, rfl, .inl rfl, .inr rfl, rfl⟩, rfl, rfl⟩, by decide, rfl, rfl, by decide +kernel⟩, ⟨rfl, rfl, by decide +kernel⟩, rfl, by decide +kernel⟩

theorem witness_BarGangResults_gang :
  let h : Shape := { srcs := [] }
  let go := fun (s : State) => Issues s h s [] ∧ (s.bank s.cur).handler = false ∧ (s.bank s.cur).openScene = none ∧ s.cur.reflex = false
  let there := fun (s : State) (ms : List Nat) => ∀ c ∈ ms, c = 0 ∨ (s.bank ⟨c, 0, 0⟩).wip = .gang 2
  let both := (inEns id).modBank ⟨1, 0, 0⟩ fun b => { b with wip := .gang 2 }
  let formed := (inEns id).modCore 0 fun k => { k with gangSize := 2 }
  let broken := (inEns id).modSlot 0 fun t => { t with hdr := some { rowOf2 with ex := 3 } }
  let waits := inEns fun b => { b with wip := .gang 2 }
  let stands := waits.modCore 0 fun k => { k with gangSize := 2 }
  let busy := formed.modCore 0 fun k => { k with vq := [{ someCmd with ganged := true }] }
  let x := onBank xseat usual
  (go formed ∧ formed.gangMembers seat0 = some ([0, 1], 2) ∧ formed.ganged seat0 = true) ∧
  (go both ∧ both.gangMembers seat0 = some ([0, 1], 2) ∧ both.ganged seat0 = false ∧ there both [0, 1]) ∧
  (go (inEns id) ∧ (inEns id).gangMembers seat0 = some ([0, 1], 2) ∧ (inEns id).ganged seat0 = false ∧ ¬ there (inEns id) [0, 1]) ∧
  (go broken ∧ broken.gangMembers seat0 = some ([0, 1], 3) ∧ ¬ ((3 : Nat) = 2 ∨ (3 : Nat) = 4 ∨ (3 : Nat) = 8)) ∧
  (go ready ∧ ready.gangMembers seat0 = none) ∧
  ((stands.bank seat0).wip = .gang 2 ∧ (stands.core 0).gangSize ≠ 1) ∧ ((waits.bank seat0).wip = .gang 2 ∧ (waits.core 0).gangSize = 1) ∧
  (go ready ∧ ready.ganged seat0 = false) ∧ (go formed ∧ formed.ganged seat0 = true ∧ formed.gangBusy seat0 = false) ∧
  (go busy ∧ busy.ganged seat0 = true ∧ busy.gangBusy seat0 = true) ∧
  (Issues inHandler h inHandler [] ∧ (inHandler.ganged seat0 && inHandler.gangBusy seat0) = false ∧ (inHandler.bank seat0).handler = true) ∧
  (Issues inScene h inScene [] ∧ (inScene.ganged seat0 && inScene.gangBusy seat0) = false ∧ (inScene.bank seat0).handler = false ∧
    (inScene.bank seat0).openScene.isSome = true) ∧
  Issues x h x [] ∧ (x.ganged xseat && x.gangBusy xseat) = false ∧ (x.bank xseat).handler = false ∧
    (x.bank xseat).openScene = none ∧ xseat.reflex = true :=
  ⟨⟨⟨⟨rfl, rfl, rfl, rfl, rfl, rfl, rfl, rfl, .inl rfl, .inr rfl, rfl⟩, rfl, rfl, rfl⟩, rfl, rfl⟩, ⟨⟨⟨rfl, rfl, rfl, rfl, rfl, rfl, rfl, rfl, .inl rfl, .inr rfl, rfl⟩, rfl, rfl, rfl⟩, rfl, rfl, by decide +kernel⟩, ⟨⟨⟨rfl, rfl, rfl, rfl, rfl, rfl, rfl, rfl, .inl rfl, .inr rfl, rfl⟩, rfl, rfl, rfl⟩, rfl, rfl, by decide +kernel⟩,
    ⟨⟨⟨rfl, rfl, rfl, rfl, rfl, rfl, rfl, rfl, .inl rfl, .inr rfl, rfl⟩, rfl, rfl, rfl⟩, rfl, by decide⟩, ⟨⟨⟨rfl, rfl, rfl, rfl, rfl, rfl, rfl, rfl, .inl rfl, .inr rfl, rfl⟩, rfl, rfl, rfl⟩, rfl⟩, ⟨rfl, by decide +kernel⟩, ⟨rfl, rfl⟩,
    ⟨⟨⟨rfl, rfl, rfl, rfl, rfl, rfl, rfl, rfl, .inl rfl, .inr rfl, rfl⟩, rfl, rfl, rfl⟩, rfl⟩, ⟨⟨⟨rfl, rfl, rfl, rfl, rfl, rfl, rfl, rfl, .inl rfl, .inr rfl, rfl⟩, rfl, rfl, rfl⟩, rfl, rfl⟩, ⟨⟨⟨rfl, rfl, rfl, rfl, rfl, rfl, rfl, rfl, .inl rfl, .inr rfl, rfl⟩, rfl, rfl, rfl⟩, rfl, rfl⟩,
    ⟨⟨rfl, rfl, rfl, rfl, rfl, rfl, rfl, rfl, .inl rfl, .inr rfl, rfl⟩, rfl, rfl⟩, ⟨⟨rfl, rfl, rfl, rfl, rfl, rfl, rfl, rfl, .inl rfl, .inr rfl, rfl⟩, rfl, rfl, rfl⟩, ⟨rfl, rfl, rfl, rfl, rfl, rfl, rfl, rfl, .inl rfl, .inr rfl, rfl⟩, rfl, rfl, rfl, rfl⟩

theorem witness_WorkIdFields :
  (∃ s1, Issues ready { srcs := [], dst := some 8, lat := .fixed 1 } s1 []) ∧
  (∃ s1 a, Issues ready { srcs := [isrc 9], dst := some 8, lat := .fixed 1 } s1 [a]) ∧
  (BitVec.ofNat 42 (4 + 6 * 128)).toNat / 2 ^ (7 * 2) % 128 = 0 ∧ (BitVec.ofNat 42 (4 + 6 * 128)).toNat / 2 ^ (7 * 1) % 128 ≠ 0 :=
  ⟨⟨_, ⟨rfl, rfl, rfl, rfl, rfl, rfl, rfl, rfl, .inl rfl, .inr rfl, rfl⟩⟩, ⟨_, _, ⟨rfl, rfl, rfl, rfl, rfl, rfl, rfl, rfl, .inl rfl, .inr rfl, rfl⟩⟩, by decide, by decide⟩

theorem witness_SendChainResults :
  let to_ := fun (w v : Word) => ({ (onBank seat0 fun b => { usual b with regs := [(8, v), (11, w)] }) with
    routes := [(9, .unplaced), (10, .placed 1)] } : State)
  let h : Shape := { srcs := [isrc 11, isrc 8], closes := true, keep := sendKeep }
  let c : Shape := { srcs := [isrc 8], entries := 1 }
  let full : State := { to_ 9 5 with doorRes := [(0, 4096)] }
  let due := ready.modBank seat0 fun b => { b with pending := [⟨1, 61, .memory, none, 0, 0⟩] }
  let x : State := { onBank xseat usual with meshStop := [768] }
  let w : Word := 768 + 2 ^ 41
  let sends := fun (s : State) w v t => Issues s h s [w, v] ∧ (s.bank seat0).sendTo = none ∧ s.sendTo 0 w v = t ∧ s.cur.reflex = false ∧
    ∃ s2, committed s h [w, v] s = some s2 ∧ (s2.bank seat0).sendTo = some t
  (Issues ready c ready [5] ∧ (ready.bank seat0).openScene = none ∧ ready.pushDue seat0 = false) ∧
  (Issues due c due [5] ∧ (due.bank seat0).openScene = none ∧ due.pushDue seat0 = true) ∧
  (Issues inScene c inScene [5] ∧ (inScene.bank seat0).openScene.isSome = true) ∧
  (Issues full h full [9, 5] ∧ (full.bank seat0).sendTo = none ∧ full.sendTo 0 9 5 = .held 9 ∧ full.doorRoom 0 = false) ∧
  (Issues x h x [64, 5] ∧ (x.bank xseat).sendTo = none ∧ x.sendTo 768 64 5 ≠ .held 64 ∧ meshStops x) ∧
  (sends (to_ 9 5) 9 5 (.held 9) ∧ (to_ 9 5).doorRoom 0 = true) ∧ sends (to_ 10 5) 10 5 (.mail 1 (some 10)) ∧
  sends (to_ w 64) w 64 (.start 768 64) ∧ sends (to_ 11 5) 11 5 .bounce ∧
  (let s := onBank seat0 fun b => { usual b with wip := .posted 0 }
   ((s.bank seat0).wip = .posted 0 ∧ s.inOutbox 0 0 = false) ∧
   (let t := s.modCore 0 fun k => { k with outbox := [msg 1 (.start 64)] }
    (t.bank seat0).wip = .posted 0 ∧ t.inOutbox 0 0 = true)) :=
  ⟨⟨⟨rfl, rfl, rfl, rfl, rfl, rfl, rfl, rfl, .inl rfl, .inr rfl, rfl⟩, rfl, rfl⟩, ⟨⟨rfl, rfl, rfl, rfl, rfl, rfl, rfl, rfl, .inl rfl, .inr rfl, rfl⟩, rfl, by decide⟩, ⟨⟨rfl, rfl, rfl, rfl, rfl, rfl, rfl, rfl, .inl rfl, .inr rfl, rfl⟩, rfl⟩, ⟨⟨rfl, rfl, rfl, rfl, rfl, rfl, rfl, rfl, .inl rfl, .inl rfl, rfl⟩, rfl, rfl, rfl⟩, ⟨⟨rfl, rfl, rfl, rfl, rfl, rfl, rfl, rfl, .inl rfl, .inl rfl, rfl⟩, rfl, by decide, rfl, rfl⟩,
    ⟨⟨⟨rfl, rfl, rfl, rfl, rfl, rfl, rfl, rfl, .inl rfl, .inl rfl, rfl⟩, rfl, rfl, rfl, _, rfl, rfl⟩, rfl⟩, ⟨⟨rfl, rfl, rfl, rfl, rfl, rfl, rfl, rfl, .inl rfl, .inl rfl, rfl⟩, rfl, rfl, rfl, _, rfl, rfl⟩, ⟨⟨rfl, rfl, rfl, rfl, rfl, rfl, rfl, rfl, .inl rfl, .inl rfl, rfl⟩, rfl, rfl, rfl, _, rfl, rfl⟩,
    ⟨⟨rfl, rfl, rfl, rfl, rfl, rfl, rfl, rfl, .inl rfl, .inl rfl, rfl⟩, rfl, rfl, rfl, _, rfl, rfl⟩, ⟨rfl, rfl⟩, rfl, rfl⟩

theorem witness_MailResults :
  let h : Shape := { srcs := [isrc 8, isrc 9], dst := some 10, lat := .fixed 1 }
  let m : Shape := { srcs := [isrc 8], entries := 1 }
  let got := ready.modSeat 0 0 fun t => { t with mpres := 7 }
  let later : State := { ready with dt := 7 * 23 * 10 ^ 6 }
  let x := onBank xseat usual
  let g : Shape := { srcs := [isrc 8, isrc 0], dst := some 10, lat := .fixed 1 }
  (Issues ready m ready [5] ∧ (ready.bank seat0).openScene = none) ∧
  (Issues inScene m inScene [5] ∧ (inScene.bank seat0).openScene.isSome = true) ∧
  (Issues got h got [5, 7] ∧ (got.seat 0 0).mpres &&& 5 = 5) ∧
  (Issues ready h ready [5, 7] ∧ (ready.seat 0 0).mpres &&& 5 ≠ 5 ∧ ¬ ((7 : Word) ≠ 0 ∧ (7 : Word).toNat ≤ ready.dtime) ∧
    ¬ (seat0.reflex = true ∧ (7 : Word) = 0)) ∧
  (Issues later h later [5, 7] ∧ (7 : Word) ≠ 0 ∧ (7 : Word).toNat ≤ later.dtime) ∧
  Issues x g x [5, 0] ∧ (x.seat 768 0).mpres &&& 5 ≠ 5 ∧ ¬ ((0 : Word) ≠ 0 ∧ (0 : Word).toNat ≤ x.dtime) ∧ xseat.reflex = true :=
  ⟨⟨⟨rfl, rfl, rfl, rfl, rfl, rfl, rfl, rfl, .inl rfl, .inr rfl, rfl⟩, rfl⟩, ⟨⟨rfl, rfl, rfl, rfl, rfl, rfl, rfl, rfl, .inl rfl, .inr rfl, rfl⟩, rfl⟩, ⟨⟨rfl, rfl, rfl, rfl, rfl, rfl, rfl, rfl, .inl rfl, .inr rfl, rfl⟩, rfl⟩, ⟨⟨rfl, rfl, rfl, rfl, rfl, rfl, rfl, rfl, .inl rfl, .inr rfl, rfl⟩, by decide, by decide, by decide⟩, ⟨⟨rfl, rfl, rfl, rfl, rfl, rfl, rfl, rfl, .inl rfl, .inr rfl, rfl⟩, by decide, by decide⟩, ⟨rfl, rfl, rfl, rfl, rfl, rfl, rfl, rfl, .inl rfl, .inr rfl, rfl⟩, by decide, by decide, rfl⟩

theorem witness_VectorCommandsEnter :
  let full := ready.modCore 0 fun k => { k with vq := List.replicate 16 someCmd }
  (∃ s1, Issues ready { srcs := [], vr := [31, 0, 39], vd := some 31 } s1 [] ∧ (s1.core 0).vq.length < 16) ∧
  (∃ s1, Issues full { srcs := [], vr := [31, 0, 39], vd := some 31 } s1 [] ∧ 16 ≤ (s1.core 0).vq.length) ∧
  (∃ s1 v, Issues ready { srcs := [(63, .f32)], vr := [1, 32, 2], vd := some 2 } s1 [v]) ∧
  (∃ s1, Issues ready { srcs := [], dst := some 8, lat := .var, vr := [1, 32] } s1 [] ∧ (s1.core 0).vq.length < 16) ∧
  (∃ s1, Issues ready { srcs := [] } s1 [] ∧ (s1.core 0).vq.any (·.num == seat0.num) = false) ∧
  ∃ s1, Issues full { srcs := [] } s1 [] ∧ (s1.core 0).vq.any (·.num == seat0.num) = true :=
  ⟨⟨_, ⟨rfl, rfl, rfl, rfl, rfl, rfl, rfl, rfl, .inl rfl, .inr rfl, rfl⟩, by decide⟩, ⟨_, ⟨rfl, rfl, rfl, rfl, rfl, rfl, rfl, rfl, .inl rfl, .inr rfl, rfl⟩, by decide +kernel⟩, ⟨_, _, ⟨rfl, rfl, rfl, rfl, rfl, rfl, rfl, rfl, .inl rfl, .inr rfl, rfl⟩⟩, ⟨_, ⟨rfl, rfl, rfl, rfl, rfl, rfl, rfl, rfl, .inl rfl, .inr rfl, rfl⟩, by decide⟩, ⟨_, ⟨rfl, rfl, rfl, rfl, rfl, rfl, rfl, rfl, .inl rfl, .inr rfl, rfl⟩, rfl⟩, _, ⟨rfl, rfl, rfl, rfl, rfl, rfl, rfl, rfl, .inl rfl, .inr rfl, rfl⟩, rfl⟩

theorem witness_VectorMemoryCommandsEnter :
  let ld : Shape := { srcs := [isrc 11], vr := [32], vd := some 1 }
  let st : Shape := { srcs := [isrc 11], vr := [1, 32], entries := 8 }
  let ga : Shape := { srcs := [isrc 11], vr := [3, 32], vd := some 1 }
  let sc : Shape := { srcs := [isrc 11], vr := [3, 1, 32] }
  let vg : Shape := { srcs := [], vr := [2], vd := some 1 }
  let g := ready.modCore 0 fun k => { k with gangSize := 2 }
  (∃ l, Issues ready ld ready [64] ∧ (ready.core 0).vq.length < 16 ∧ ready.vspan seat0 0 64 false = .ok l ∧
    ready.halfway seat0 (l.map (·.2)) = false ∧ ready.vbad 64 l = none) ∧
  (∃ l, Issues ready st ready [64] ∧ ready.vspan seat0 0 64 true = .ok l ∧ ready.halfway seat0 (l.map (·.2)) = false ∧
    (ready.bank seat0).openScene = none) ∧
  (∃ l, Issues inScene st inScene [64] ∧ (inScene.core 0).vq.length < 16 ∧ inScene.vspan seat0 0 64 true = .ok l ∧
    inScene.halfway seat0 (l.map (·.2)) = false ∧ (inScene.bank seat0).openScene.isSome = true ∧
    (inScene.bank seat0).fits 8 = true) ∧
  (∃ l, Issues ready ga ready [64] ∧ (ready.core 0).vq.length < 1 ∧ ready.vindexed seat0 0 64 3 0 false = .ok l ∧
    ready.halfway seat0 (l.map (·.2)) = false ∧ ready.vbad 64 l = none) ∧
  (∃ l, Issues ready sc ready [64] ∧ (ready.core 0).vq.length < 1 ∧ ready.vindexed seat0 0 64 3 0 true = .ok l ∧
    ready.halfway seat0 (l.map (·.2)) = false) ∧
  (∃ l, Issues ready ld ready [64] ∧ ready.vslices seat0 64 = .ok l ∧ ready.halfway seat0 (l.map (·.2)) = false ∧
    ready.vbad 64 l = none) ∧
  (Issues g vg g [] ∧ seat0.seat = 0 ∧ (g.core 0).gangSize ≠ 1 ∧ (g.core 0).vq.length < 16) ∧
  Issues ready vg ready [] ∧ (ready.core 0).gangSize = 1 ∧ (ready.core 0).vq.length < 16 :=
  ⟨⟨_, ⟨rfl, rfl, rfl, rfl, rfl, rfl, rfl, rfl, .inl rfl, .inr rfl, rfl⟩, by decide, rfl, rfl, rfl⟩, ⟨_, ⟨rfl, rfl, rfl, rfl, rfl, rfl, rfl, rfl, .inl rfl, .inr rfl, rfl⟩, rfl, rfl, rfl⟩, ⟨_, ⟨rfl, rfl, rfl, rfl, rfl, rfl, rfl, rfl, .inl rfl, .inr rfl, rfl⟩, by decide, rfl, rfl, rfl, rfl⟩,
    ⟨_, ⟨rfl, rfl, rfl, rfl, rfl, rfl, rfl, rfl, .inl rfl, .inr rfl, rfl⟩, by decide, rfl, rfl, rfl⟩, ⟨_, ⟨rfl, rfl, rfl, rfl, rfl, rfl, rfl, rfl, .inl rfl, .inr rfl, rfl⟩, by decide, rfl, rfl⟩, ⟨_, ⟨rfl, rfl, rfl, rfl, rfl, rfl, rfl, rfl, .inl rfl, .inr rfl, rfl⟩, rfl, rfl, rfl⟩, ⟨⟨rfl, rfl, rfl, rfl, rfl, rfl, rfl, rfl, .inl rfl, .inr rfl, rfl⟩, rfl, by decide, by decide⟩,
    ⟨rfl, rfl, rfl, rfl, rfl, rfl, rfl, rfl, .inl rfl, .inr rfl, rfl⟩, rfl, by decide⟩

theorem witness_VectorCommandPerforms :
  let q := fun f => ready.modCore 0 fun k => { k with vq := [{ someCmd with form := f }] }
  let heads := fun f => ((q f).core 0).vq = { someCmd with form := f } :: [] ∧ ({ someCmd with form := f } : VCmd).ganged = false ∧
    (q f).halfway (({ someCmd with form := f } : VCmd).place 0) (({ someCmd with form := f } : VCmd).lanes.map (·.2)) = false ∧ 63 < 64
  (heads (.v .vadd ⟨1, 2, 3, 0, 0⟩) ∧ maskOp .vadd = none ∧ relV .vadd = none ∧ OpV.vadd ≠ .vperm ∧ OpV.vadd ≠ .vsel) ∧
  heads (.v .vsel ⟨31, 31, 0, 7, 0⟩) ∧ heads (.v .vperm ⟨1, 1, 1, 0, 0⟩) ∧
  (heads (.v .vcmpeq ⟨7, 2, 3, 0, 0⟩) ∧ maskOp .vcmpeq = none ∧ (relV .vcmpeq).isSome = true ∧ (7 : BitVec 5).toNat % 8 ≠ 0) ∧
  heads (.vF .vfadd ⟨1, 2, 3, 0, .rne, 0⟩) ∧ heads (.vr .vredadd ⟨2, 8, 0, 0⟩) :=
  ⟨⟨⟨rfl, rfl, rfl, by decide⟩, rfl, rfl, by decide, by decide⟩, ⟨rfl, rfl, rfl, by decide⟩, ⟨rfl, rfl, rfl, by decide⟩,
    ⟨⟨rfl, rfl, rfl, by decide⟩, rfl, rfl, by decide⟩, ⟨rfl, rfl, rfl, by decide⟩, rfl, rfl, rfl, by decide⟩

theorem witness_EngineCommandsEnter :
  let x := onBank xseat usual
  let full := fun (s : State) c key => s.modCore c fun k => { k with queues := [(key, List.replicate 8 (eng (key / 16) 0 0 0 0))] }
  let wide := onBank seat0 fun b => { usual b with regs := [(8, 7 * 2 ^ 45 + 1 * 2 ^ 42), (9, 0)] }
  (∃ s1 a b, Issues x (copShape x 1 0 8 9) s1 [a, b] ∧ engineAbsent x 1 = true) ∧
  (Issues ready (copShape ready 5 3 8 9) ready [5, 7] ∧ engineAbsent ready 5 = false ∧
    ready.queueLoad seat0 (copKey 5 3 false [5, 7]) < 8 ∧ (committed ready (copShape ready 5 3 8 9) [5, 7] ready).isSome = true) ∧
  (Issues (full ready 0 3) (copShape (full ready 0 3) 0 3 8 9) (full ready 0 3) [5, 7] ∧ engineAbsent (full ready 0 3) 0 = false ∧
    (full ready 0 3).accBad seat0 ((full ready 0 3).formCmd seat0 0 3 0 5 7) = false ∧
    8 ≤ (full ready 0 3).queueLoad seat0 (copKey 0 3 false [5, 7]) ∧ seat0.reflex = false) ∧
  (∃ s1 a b, Issues (full x 768 0) (copShape (full x 768 0) 0 0 8 9) s1 [a, b] ∧ engineAbsent x 0 = false ∧
    8 ≤ s1.queueLoad xseat (copKey 0 0 false [a, b]) ∧ xseat.reflex = true) ∧
  (∃ s1 a b, Issues wide (copShape wide 3 0 8 9) s1 [a, b] ∧ engineAbsent wide 3 = false ∧
    s1.recordBad seat0 (s1.formCmd seat0 3 0 0 a b) = true) :=
  ⟨⟨_, _, _, ⟨rfl, rfl, rfl, rfl, rfl, rfl, rfl, rfl, .inl rfl, .inl rfl, rfl⟩, rfl⟩, ⟨⟨rfl, rfl, rfl, rfl, rfl, rfl, rfl, rfl, .inl rfl, .inl rfl, rfl⟩, rfl, by decide +kernel, by decide +kernel⟩, ⟨⟨rfl, rfl, rfl, rfl, rfl, rfl, rfl, rfl, .inl rfl, .inl rfl, rfl⟩, rfl, rfl, by decide +kernel, rfl⟩,
    ⟨_, _, _, ⟨rfl, rfl, rfl, rfl, rfl, rfl, rfl, rfl, .inl rfl, .inl rfl, rfl⟩, rfl, by decide +kernel, rfl⟩, _, _, _, ⟨rfl, rfl, rfl, rfl, rfl, rfl, rfl, rfl, .inl rfl, .inl rfl, rfl⟩, rfl, rfl⟩

theorem witness_EngineCommandsEnter_mtask :
  let h : Shape := { srcs := [isrc 8, isrc 0], closes := true
                     keep := fun x s => s.modBank x.p fun b => { b with copRoom := some (mtaskKey (Config.clusterOf x.p.core)) } }
  let on : State := { ready with eregs := [(0x181, 0x10)] }
  let full := on.modSched 0 fun t => { t with bells := List.replicate 64 ⟨0, 0, 0, 0, 0⟩ }
  (∃ s1 a b, Issues (onBank xseat usual) h s1 [a, b] ∧ (onBank xseat usual).cur.reflex = true) ∧
  (Issues ready h ready [5, 0] ∧ seat0.reflex = false ∧ (ready.eregUnit 0 0 0x181).getLsbD 4 = false) ∧
  (Issues full h full [5, 0] ∧ (full.eregUnit 0 0 0x181).getLsbD 4 = true ∧ 64 ≤ full.bellLoad seat0 0) ∧
  (Issues on h on [5, 0] ∧ (on.eregUnit 0 0 0x181).getLsbD 4 = true ∧ on.bellLoad seat0 0 < 64 ∧
    (committed on h [5, 0] on).isSome = true) :=
  ⟨⟨_, _, _, ⟨rfl, rfl, rfl, rfl, rfl, rfl, rfl, rfl, .inl rfl, .inl rfl, rfl⟩, rfl⟩, ⟨⟨rfl, rfl, rfl, rfl, rfl, rfl, rfl, rfl, .inl rfl, .inl rfl, rfl⟩, rfl, rfl⟩, ⟨⟨rfl, rfl, rfl, rfl, rfl, rfl, rfl, rfl, .inl rfl, .inl rfl, rfl⟩, rfl, by decide +kernel⟩, ⟨rfl, rfl, rfl, rfl, rfl, rfl, rfl, rfl, .inl rfl, .inl rfl, rfl⟩, rfl, by decide +kernel, by decide +kernel⟩

theorem witness_EngineRegisterInstructions :
  let x := onBank xseat usual
  let far := onBank ⟨1, 0, 0⟩ usual
  let h : Shape := { srcs := [isrc 8] }
  let f2 : Shape := { srcs := [], dst := some 8, lat := .fixed 2 }
  let va : Shape := { srcs := [], dst := some 8, lat := .var }
  engUnlisted 768 0 0x180 = true ∧ engUnlisted 767 0 0x180 = false ∧ engUnlisted 768 0 0x17f = false ∧
  (engUnlisted 768 1 0 = false ∧ Issues x h x [5] ∧ engineAbsent x 1 = true) ∧
  (engUnlisted 0 3 0x100 = false ∧ Issues ready h ready [5] ∧ engineAbsent ready 3 = false ∧
    (decide (0x100 ≤ 0x100) && sharedPriv 3 0x100 && !ready.isSuper 0) = false) ∧
  (Issues far h far [5] ∧ engineAbsent far 3 = false ∧ (decide (0x100 ≤ 0x100) && sharedPriv 3 0x100 && !far.isSuper 1) = true) ∧
  (engUnlisted 0 7 0x100 = false ∧ engineAbsent far 7 = false ∧ far.mayPriv ⟨1, 0, 0⟩ = false) ∧
  (Issues x f2 x [] ∧ engineAbsent x 1 = true) ∧ (Issues ready f2 ready [] ∧ engineAbsent ready 0 = false) ∧
  (engUnlisted 0 5 0x100 = false ∧ ¬ ((0x100 : Nat) < 0x100 ∨ sharedUnit 0 5 0x100 = none) ∧ Issues ready va ready [] ∧
    engineAbsent ready 5 = false) ∧ 0xff < 0x100 ∧ 7 < 8 :=
  ⟨rfl, rfl, rfl, ⟨rfl, ⟨rfl, rfl, rfl, rfl, rfl, rfl, rfl, rfl, .inl rfl, .inr rfl, rfl⟩, rfl⟩, ⟨rfl, ⟨rfl, rfl, rfl, rfl, rfl, rfl, rfl, rfl, .inl rfl, .inr rfl, rfl⟩, rfl, rfl⟩, ⟨⟨rfl, rfl, rfl, rfl, rfl, rfl, rfl, rfl, .inl rfl, .inr rfl, rfl⟩, rfl, rfl⟩, ⟨rfl, rfl, rfl⟩, ⟨⟨rfl, rfl, rfl, rfl, rfl, rfl, rfl, rfl, .inl rfl, .inr rfl, rfl⟩, rfl⟩, ⟨⟨rfl, rfl, rfl, rfl, rfl, rfl, rfl, rfl, .inl rfl, .inr rfl, rfl⟩, rfl⟩,
    ⟨rfl, by decide, ⟨rfl, rfl, rfl, rfl, rfl, rfl, rfl, rfl, .inl rfl, .inr rfl, rfl⟩, rfl⟩, by decide, by decide⟩

theorem witness_EngineSynchronisation :
  let h : Shape := { srcs := [], dst := some 8, lat := .fixed 2 }
  let m : Shape := { srcs := [isrc 8] }
  let x := onBank xseat usual
  let q := withQueue ready 16 [eng 1 0 0 0 0]
  let late := q.modCore 0 fun k => { k with ids := 9 }
  let bad := onBank seat0 fun b => { usual b with faults := [(1, 2, 0x40)] }
  let held := onBank seat0 fun b => { usual b with wip := .qf 1 1 4 }
  let heldBusy := withQueue held 16 [eng 1 0 0 0 0]
  (Issues x h x [] ∧ (x.bank xseat).faultPos 1 15 = none ∧ x.esyncBusy xseat 1 15 = false ∧ engineAbsent x 1 = true) ∧
  (Issues q h q [] ∧ (q.bank seat0).faultPos 1 15 = none ∧ q.esyncBusy seat0 1 15 = true) ∧
  (Issues ready h ready [] ∧ engineAbsent ready 1 = false ∧ (ready.bank seat0).faultPos 1 15 = none ∧ ready.esyncBusy seat0 1 15 = false) ∧
  (Issues bad h bad [] ∧ engineAbsent bad 1 = false ∧ (bad.bank seat0).faultPos 1 4 = some 0 ∧
    (bad.bank seat0).faults[0]? = some (1, 2, 0x40)) ∧
  (Issues ready m ready [5] ∧ ready.qfBusy 0 1 5 (ready.core 0).ids = false) ∧
  (Issues late m late [5] ∧ late.qfBusy 0 1 5 (late.core 0).ids = true) ∧
  ((held.bank seat0).wip = .qf 1 1 4 ∧ held.qfBusy 0 1 1 4 = false) ∧ ((heldBusy.bank seat0).wip = .qf 1 1 4 ∧ heldBusy.qfBusy 0 1 1 4 = true) ∧
  (Issues ready { srcs := [] } ready [] ∧ ready.qfBusy 0 8 0 (ready.core 0).ids = false) ∧
  Issues late { srcs := [] } late [] ∧ late.qfBusy 0 8 0 (late.core 0).ids = true :=
  ⟨⟨⟨rfl, rfl, rfl, rfl, rfl, rfl, rfl, rfl, .inl rfl, .inr rfl, rfl⟩, rfl, rfl, rfl⟩, ⟨⟨rfl, rfl, rfl, rfl, rfl, rfl, rfl, rfl, .inl rfl, .inr rfl, rfl⟩, rfl, rfl⟩, ⟨⟨rfl, rfl, rfl, rfl, rfl, rfl, rfl, rfl, .inl rfl, .inr rfl, rfl⟩, rfl, rfl, rfl⟩, ⟨⟨rfl, rfl, rfl, rfl, rfl, rfl, rfl, rfl, .inl rfl, .inr rfl, rfl⟩, rfl, rfl, rfl⟩, ⟨⟨rfl, rfl, rfl, rfl, rfl, rfl, rfl, rfl, .inl rfl, .inr rfl, rfl⟩, rfl⟩, ⟨⟨rfl, rfl, rfl, rfl, rfl, rfl, rfl, rfl, .inl rfl, .inr rfl, rfl⟩, rfl⟩, ⟨rfl, rfl⟩, ⟨rfl, rfl⟩, ⟨⟨rfl, rfl, rfl, rfl, rfl, rfl, rfl, rfl, .inl rfl, .inr rfl, rfl⟩, rfl⟩, ⟨rfl, rfl, rfl, rfl, rfl, rfl, rfl, rfl, .inl rfl, .inr rfl, rfl⟩, rfl⟩

theorem witness_ControlRegisterInstructions :
  let far := onBank ⟨1, 0, 0⟩ usual
  let h : Shape := { srcs := [isrc 8] }
  let held := onBank seat0 fun b => { usual b with wip := .bfmt 3 7 128 0 }
  let later : State := { held with clk := 128 }
  let v : Shape := { srcs := [isrc 8, (9, .int)] }
  let big := onBank seat0 fun b => { usual b with regs := [(8, 24)] }
  let edge := onBank seat0 fun b => { usual b with regs := [(8, 23)] }
  let rd : Shape := { srcs := [isrc 8], dst := some 10, lat := .fixed 2 }
  (crUnlisted 0 0x1d8 = true ∧ crUnlisted 768 0x1d8 = false ∧ crUnlisted 0 0x1d7 = false) ∧
  Issues ready { srcs := [], dst := some 8, lat := .fixed 2 } ready [] ∧
  (∃ s1 x, Issues far h s1 [x] ∧ s1.crDenied ⟨1, 0, 0⟩ 0x284 x = true) ∧
  (∃ s1 x, Issues ready h s1 [x] ∧ s1.crDenied seat0 0x001 x = false) ∧
  (∃ s1 x, Issues ready h s1 [x] ∧ s1.crDenied seat0 0x1c0 x = false) ∧
  ((held.bank seat0).wip = .bfmt 3 7 128 0 ∧ held.clk < 128) ∧
  ((later.bank seat0).wip = .bfmt 3 7 128 0 ∧ 128 ≤ later.clk ∧ later.bfBusy 0 3 0 = false) ∧
  (∃ s1 y, Issues big v s1 [24, y] ∧ Config.isX 0 = false ∧ 24 ≤ (24 : Word).toNat % 64) ∧
  (∃ s1 y, Issues edge v s1 [23, y] ∧ (23 : Word).toNat % 64 < 24) ∧
  (∃ s1, Issues big rd s1 [24]) ∧ ∃ s1, Issues edge rd s1 [23] :=
  ⟨⟨rfl, rfl, rfl⟩, ⟨rfl, rfl, rfl, rfl, rfl, rfl, rfl, rfl, .inl rfl, .inr rfl, rfl⟩, ⟨_, _, ⟨rfl, rfl, rfl, rfl, rfl, rfl, rfl, rfl, .inl rfl, .inr rfl, rfl⟩, rfl⟩, ⟨_, _, ⟨rfl, rfl, rfl, rfl, rfl, rfl, rfl, rfl, .inl rfl, .inr rfl, rfl⟩, rfl⟩, ⟨_, _, ⟨rfl, rfl, rfl, rfl, rfl, rfl, rfl, rfl, .inl rfl, .inr rfl, rfl⟩, rfl⟩, ⟨rfl, by decide⟩, ⟨rfl, by decide, rfl⟩,
    ⟨_, _, ⟨rfl, rfl, rfl, rfl, rfl, rfl, rfl, rfl, .inl rfl, .inr rfl, rfl⟩, rfl, by decide⟩, ⟨_, _, ⟨rfl, rfl, rfl, rfl, rfl, rfl, rfl, rfl, .inl rfl, .inr rfl, rfl⟩, by decide⟩, ⟨_, ⟨rfl, rfl, rfl, rfl, rfl, rfl, rfl, rfl, .inl rfl, .inr rfl, rfl⟩⟩, _, ⟨rfl, rfl, rfl, rfl, rfl, rfl, rfl, rfl, .inl rfl, .inr rfl, rfl⟩⟩

theorem witness_TrapEntry :
  (Cause.swTrap ≠ .illegalEncoding ∧ ((withHandler ready).bank seat0).handler = false ∧ seat0.seat ≠ 8 ∧
    ((withHandler ready).crCore 0 0x284).getLsbD 0 = true) ∧
  ¬ (ready.crCore 0 0x284).getLsbD 0 = true ∧ (ready.withFetchWord 32 0).crCore 0 0x284 = 0 :=
  ⟨⟨by decide, rfl, by decide, rfl⟩, by decide, rfl⟩

theorem witness_TrapInstruction :
  let s := withHandler ready
  Issues s { srcs := [] } s [] ∧ (s.bank s.cur).handler = false ∧ s.cur.seat ≠ 8 ∧ (s.crCore s.cur.core 0x284).getLsbD 0 = true ∧
  (0x40 + 4 : Word).toNat % 4 = 0 :=
  ⟨⟨rfl, rfl, rfl, rfl, rfl, rfl, rfl, rfl, .inl rfl, .inr rfl, rfl⟩, rfl, by decide, rfl, by decide⟩

theorem witness_TrapReturns :
  let h : Shape := { srcs := [] }
  let frozen := onBank seat0 fun b => { usual b with tstat := 3, scene := some (Scene.fresh 0 2) }
  (Issues ready h ready [] ∧ (ready.bank seat0).handler = false) ∧
  (Issues inHandler h inHandler [] ∧ (inHandler.bank seat0).handler = true ∧ (inHandler.bank seat0).tstat.getLsbD 1 = false ∧
    (inHandler.bank seat0).kept = some (⟨0, 1, 1⟩, ⟨64, 1, 4⟩)) ∧
  Issues frozen h frozen [] ∧ (frozen.bank seat0).handler = true ∧ (frozen.bank seat0).tstat.getLsbD 1 = true ∧
  frozen.sceneVectors seat0 = false ∧ (∀ r ∈ (frozen.bank seat0).pending, r.val.isSome = true) ∧
  ((frozen.modBank seat0 Bank.leaveHandler).discard seat0 true true false).ended ≠ .trap :=
  ⟨⟨⟨rfl, rfl, rfl, rfl, rfl, rfl, rfl, rfl, .inl rfl, .inr rfl, rfl⟩, rfl⟩, ⟨⟨rfl, rfl, rfl, rfl, rfl, rfl, rfl, rfl, .inl rfl, .inr rfl, rfl⟩, rfl, rfl, rfl⟩, ⟨rfl, rfl, rfl, rfl, rfl, rfl, rfl, rfl, .inl rfl, .inr rfl, rfl⟩, rfl, rfl, rfl, (fun _ hr => by cases hr), by decide⟩

theorem witness_SupervisorInstructions :
  let h : Shape := { srcs := [] }
  let g := { srcs := [], dst := some 8, lat := .var : Shape }
  let sees := (inHandler.modSeat 0 0 fun t => { t with swsel := 1 <<< 10 }).modBank ⟨0, 1, 0⟩ fun b => { b with run := .halted }
  let x := (onBank xseat usual).setCrCore 768 0x298 1
  let named : State := { x with crs := [(0x2a0, 1 + 2 ^ 48)] }
  let z : Shape := { srcs := [isrc 11], closes := true
                     keep := fun x s => s.modBank x.p fun b => { b with copRoom := some (seizeKey 0) } }
  let r : Shape := { srcs := [], entries := 1 }
  let holder : State := { onBank xseat usual with holds := [(3, xseat)] }
  let holderScene : State := { (onBank xseat fun b => { usual b with scene := some (Scene.fresh 0 0) }) with holds := [(3, xseat)] }
  let may := fun (s : State) => Config.isX 768 = true ∧ s.maySeize 768 0 = true ∧ s.members 0 ≠ [] ∧ mfind s.holds 0 = none ∧
    s.seizing xseat 0 = false
  (Issues ready h ready [] ∧ (ready.bank seat0).handler = false) ∧
  (Issues sees g sees [] ∧ (sees.bank seat0).handler = true ∧
    (sees.swOwn seat0 (sees.swPlace seat0) && sees.swHalted (sees.swPlace seat0)) = true) ∧
  (Issues inHandler g inHandler [] ∧ (inHandler.bank seat0).handler = true ∧
    (inHandler.swOwn seat0 (inHandler.swPlace seat0) && inHandler.swHalted (inHandler.swPlace seat0)) = false) ∧
  (∃ v, Issues sees { srcs := [isrc 8] } sees [v] ∧ (sees.bank seat0).handler = true) ∧ Issues inHandler h inHandler [] ∧
  (∃ a, Issues inHandler z inHandler [a] ∧ (inHandler.bank seat0).handler = true) ∧
  (∃ a, Issues x z x [a] ∧ (x.bank xseat).handler = false ∧ ¬ may x) ∧
  (Issues named z named [64] ∧ (named.bank xseat).handler = false ∧ may named ∧
    named.bad (keysFrom (Config.tileKey 768 64) 64) = false ∧ (committed named z [64] named).isSome = true) ∧
  (Issues ready r ready [] ∧ mfind ready.holds 3 ≠ some seat0) ∧
  (Issues holder r holder [] ∧ mfind holder.holds 3 = some xseat ∧ (holder.bank xseat).openScene = none) ∧
  Issues holderScene r holderScene [] ∧ mfind holderScene.holds 3 = some xseat ∧ (holderScene.bank xseat).openScene.isSome = true :=
  ⟨⟨⟨rfl, rfl, rfl, rfl, rfl, rfl, rfl, rfl, .inl rfl, .inr rfl, rfl⟩, rfl⟩, ⟨⟨rfl, rfl, rfl, rfl, rfl, rfl, rfl, rfl, .inl rfl, .inr rfl, rfl⟩, rfl, rfl⟩, ⟨⟨rfl, rfl, rfl, rfl, rfl, rfl, rfl, rfl, .inl rfl, .inr rfl, rfl⟩, rfl, rfl⟩, ⟨_, ⟨rfl, rfl, rfl, rfl, rfl, rfl, rfl, rfl, .inl rfl, .inr rfl, rfl⟩, rfl⟩, ⟨rfl, rfl, rfl, rfl, rfl, rfl, rfl, rfl, .inl rfl, .inr rfl, rfl⟩, ⟨_, ⟨rfl, rfl, rfl, rfl, rfl, rfl, rfl, rfl, .inl rfl, .inl rfl, rfl⟩, rfl⟩,
    ⟨_, ⟨rfl, rfl, rfl, rfl, rfl, rfl, rfl, rfl, .inl rfl, .inl rfl, rfl⟩, rfl, fun hm => absurd hm.2.2.1 (by decide +kernel)⟩,
    ⟨⟨rfl, rfl, rfl, rfl, rfl, rfl, rfl, rfl, .inl rfl, .inl rfl, rfl⟩, rfl, ⟨rfl, by decide +kernel, by decide +kernel, rfl, by decide +kernel⟩, rfl, by decide +kernel⟩,
    ⟨⟨rfl, rfl, rfl, rfl, rfl, rfl, rfl, rfl, .inl rfl, .inr rfl, rfl⟩, by decide⟩, ⟨⟨rfl, rfl, rfl, rfl, rfl, rfl, rfl, rfl, .inl rfl, .inr rfl, rfl⟩, rfl, rfl⟩, ⟨rfl, rfl, rfl, rfl, rfl, rfl, rfl, rfl, .inl rfl, .inr rfl, rfl⟩, rfl, rfl⟩

theorem witness_MessageArrivals :
  let ok := fun c b => Arrives (sentTo c b) 0 (msg c b) ∧ ((sentTo c b).core c).fenced = false
  let held := fun b => ({ State.reset.setCrCore 0 0x189 1 with net := [msg 0 b] } : State)
  let late := (sentTo 0 (.mail 7 31 5)).modCore 0 fun q => { q with arrClk := 1 }
  (ok 0 (.mail 7 31 5) ∧ 7 < Config.seats 0 ∧ ((sentTo 0 (.mail 7 31 5)).core 0).arrClk ≠ 1) ∧
  (Arrives late 0 (msg 0 (.mail 7 31 5)) ∧ (late.core 0).fenced = false ∧ (late.core 0).arrClk = late.clk + 1) ∧
  (ok 768 (.mail 2 31 5) ∧ Config.seats 768 ≤ 2) ∧
  (ok 0 (.wakeRec someRec) ∧ (sentTo 0 (.wakeRec someRec)).holding 0 = false) ∧
  ok 0 (.bounce 3 0 9) ∧ ok 0 (.bounce 116 0 9) ∧ ok 0 (.bounce 1023 0 9) ∧
  (ok 0 (.store 0x7_dffe [1, 2] 0 0) ∧ rstFits 0 0x7_dffe 2 = true ∧ 0x7_dffe + 2 ≤ 0x7_e000 ∧
    (sentTo 0 (.store 0x7_dffe [1, 2] 0 0)).groupOf 0 = none) ∧
  (ok 768 (.store 0x1f_fffe [1, 2] 0 0) ∧ rstFits 768 0x1f_fffe 2 = true ∧ Config.isX 768 = true) ∧
  (ok 0 (.store 0xb_ffff [1, 2] 0 0) ∧ rstFits 0 0xb_ffff 2 = false) ∧
  ok 768 (.start 64) ∧ (ok 0 (.cue 0 0x40) ∧ (sentTo 0 (.cue 0 0x40)).holding 0 = false) ∧
  (ok 0 (.steal [someRec]) ∧ (sentTo 0 (.steal [someRec])).holding 0 = false) ∧
  (∀ b ∈ [Body.wakeRec someRec, .cue 0 0x40, .steal [someRec]],
    Arrives (held b) 0 (msg 0 b) ∧ ((held b).core 0).fenced = false ∧ (held b).holding 0 = true) ∧
  ok 0 (.winner ⟨0, 0, 1, none, false, false⟩) ∧ ok 0 (.fault 1 2 3 4) ∧ ok 0 (.seize 0 0 someRec) ∧ ok 0 (.release 0) :=
  ⟨⟨⟨⟨rfl, rfl, fun _ => rfl⟩, rfl⟩, by decide, by decide⟩, ⟨⟨rfl, rfl, fun _ => rfl⟩, rfl, rfl⟩, ⟨⟨⟨rfl, rfl, fun _ => rfl⟩, rfl⟩, by decide⟩,
    ⟨⟨⟨rfl, rfl, fun _ => rfl⟩, rfl⟩, rfl⟩, ⟨⟨rfl, rfl, fun _ => rfl⟩, rfl⟩, ⟨⟨rfl, rfl, fun _ => rfl⟩, rfl⟩, ⟨⟨rfl, rfl, fun _ => rfl⟩, rfl⟩,
    ⟨⟨⟨rfl, rfl, fun _ => rfl⟩, rfl⟩, by decide, by decide, rfl⟩, ⟨⟨⟨rfl, rfl, fun _ => rfl⟩, rfl⟩, by decide, by decide⟩,
    ⟨⟨⟨rfl, rfl, fun _ => rfl⟩, rfl⟩, by decide⟩, ⟨⟨rfl, rfl, fun _ => rfl⟩, rfl⟩, ⟨⟨⟨rfl, rfl, fun _ => rfl⟩, rfl⟩, rfl⟩,
    ⟨⟨⟨rfl, rfl, fun _ => rfl⟩, rfl⟩, rfl⟩, by
      simp only [List.forall_mem_cons]
      exact ⟨⟨⟨rfl, rfl, fun _ => rfl⟩, rfl, rfl⟩, ⟨⟨rfl, rfl, fun _ => rfl⟩, rfl, rfl⟩, ⟨⟨rfl, rfl, fun _ => rfl⟩, rfl, rfl⟩, by simp⟩,
    ⟨⟨rfl, rfl, fun _ => rfl⟩, rfl⟩, ⟨⟨rfl, rfl, fun _ => rfl⟩, rfl⟩, ⟨⟨rfl, rfl, fun _ => rfl⟩, rfl⟩, ⟨rfl, rfl, fun _ => rfl⟩, rfl⟩

theorem witness_MessageArrivals_bounds :
  let m : Msg := { msg 0 (.mail 7 31 5) with vdst := some 9 }
  let s : State := { State.reset with stage := [(0, [m])], routes := [(9, .placed 4)] }
  (mget s.stage 0 [])[0]? = some m ∧ ((mget s.stage 0 []).take 0).any (fun o => o.vdst == m.vdst || (o.src == m.src &&
    o.engine == m.engine && o.cls == m.cls && s.dest o.src (o.vdst.getD 0) == s.dest m.src (m.vdst.getD 0))) = false ∧
  s.dest m.src (m.vdst.getD 0) = .to_ 4 ∧ s.crosses m.src 4 = false ∧ s.net.any (fun o => s.holdsBack o { m with dst := 4 }) = false ∧
  (s.core 4).arrClk ≠ s.clk + 1 ∧ (s.core 4).fenced = false ∧ 7 < Config.seats 4 ∧
  rstFits 0 0x8_0000 2 = true ∧ rstFits 0 0xb_fffe 2 = true ∧ 31 < 32 :=
  ⟨rfl, rfl, rfl, rfl, rfl, by decide, rfl, by decide, by decide, by decide, by decide⟩

theorem witness_CoreEvents :
  let due := fun n => onBank seat0 fun b => { usual b with pending := [⟨1, n, .memory, some 9, 0, 0⟩] }
  let push := (due 61).modSeat 0 0 fun t => { t with down := some (0, 1), outRes := 1 }
  let idle := State.reset.modCore 0 fun k => { k with ready := [⟨someRec, 0, false⟩] }
  let x := State.reset.setCrCore 768 0x323 (2 ^ 63 + 2 ^ 24 * 5 + 2 ^ 48)
  let u := x.setCrGlob 0 0x309 (2 ^ 62)
  let fires := fun (x : State) => Config.isX 768 = true ∧ (x.crCore 768 (0x320 + 3)).toNat.testBit 63 = true ∧
    (x.crCore 768 (0x320 + 3)).toNat / 2 ^ 24 % 2 ^ 24 ≠ 0 ∧ mget (x.core 768).xfire 3 0 ≤ x.dtime
  (∀ n ∈ [1, 27, 28, 59], ∃ r v, ((due n).bank ⟨0, 0, 0⟩).pending[0]? = some r ∧ r.val = some v ∧ r.code < 60 ∧ r.code ≠ 0) ∧
  (∃ r v, (push.bank ⟨0, 0, 0⟩).pending[0]? = some r ∧ r.val = some v ∧ r.code = 61 ∧ (push.seat 0 0).down = some (0, 1)) ∧
  (∃ s' r, idle.canTake 0 7 = true ∧ idle.nextWork 0 = some (s', r)) ∧
  (fires x ∧ (x.crGlob 0 0x309).getLsbD 62 = false) ∧ (fires u ∧ (u.crGlob 0 0x309).getLsbD 62 = true) :=
  ⟨by
    simp only [List.forall_mem_cons]
    exact ⟨⟨_, _, rfl, rfl, by decide, by decide⟩, ⟨_, _, rfl, rfl, by decide, by decide⟩, ⟨_, _, rfl, rfl, by decide, by decide⟩,
      ⟨_, _, rfl, rfl, by decide, by decide⟩, by simp⟩, ⟨_, _, rfl, rfl, rfl, rfl⟩, ⟨_, _, rfl, rfl⟩, by decide, by decide⟩

theorem witness_MemoryEvents :
  let e : L2Line := ⟨none, [], some 7, 0, 0, some 7⟩
  let l2 : State := { State.reset with l2 := [(0, e)] }
  let back := fun n cells => ({ (State.reset.modCore 0 fun k => { k with recallTag := some n }) with
    mem := memWrites [] cells } : State)
  let ring := (back 1 []).setCrGlob 0 0x18b 4
  let move := fun n => ({ State.reset with moves := [(0, ⟨0x8000, 0x4000, 0, n, [], false⟩)] } : State)
  (mfind l2.l2 0 = some e ∧ e.due = some 7) ∧
  Config.isX 767 = false ∧
  (((back 896 []).core 0).recallTag = some 896 ∧ 448 ≤ 896 / 2) ∧
  (((back 894 []).core 0).recallTag = some 894 ∧ 894 / 2 < 448 ∧ 894 % 2 = 0 ∧
    (back 894 []).bad [Config.tileKey 0 (0x7_0000 + 16 * 447)] = false ∧
    leNat (memReads (back 894 []).mem (keysFrom (Config.tileKey 0 (0x7_0000 + 16 * 447)) 8)) % 2 = 0) ∧
  (let s := back 0 [(Config.tileKey 0 0x7_0000, 1)]
   let d0 := leNat (memReads s.mem (keysFrom (Config.tileKey 0 0x7_0000) 8))
   let pa := d0 / 2 ^ 10 % 2 ^ 38 * 2 ^ 10
   (s.core 0).recallTag = some 0 ∧ s.bad [Config.tileKey 0 0x7_0000] = false ∧ d0 % 2 = 1 ∧ isDram pa = true ∧
     s.blocked pa = false ∧ ∀ q, q < 32 → s.bad [Config.tileKey 0 0 + 32 * q] = false) ∧
  ((ring.core 0).recallTag = some 1 ∧ 1 / 2 < 448 ∧ ring.mnqRoom (Config.dieOf 0) = true) ∧
  (State.reset.move 0).state = 0 ∧ (((move 1).move 0).state = 1 ∧ Memory.wf (move 1).mem = true) ∧ ((move 2).move 0).state = 2 ∧
  ((move 3).move 0).state = 3 ∧ ({ State.reset with tlbBusy := true } : State).tlbBusy = true :=
  by decide +kernel

theorem witness_MemoryEvents_lines :
  let e := fun n : Nat => (⟨none, [7, 7, 7, 7, 0, 0, 0], some 7, n, 0, none⟩ : L2Line)
  let l2 := fun n : Nat => ({ State.reset with l2 := [(0, e n)] } : State)
  let c := Config.tileOf 7 0
  let waits : State := { onBank seat0 fun b => { b with wip := .home } with moves := [(0, ⟨0x8000, 0x4000, 0, 2, [(.seat seat0, 0)], false⟩)] }
  let late : State := { waits with banks := [] }
  (isDram (0 * 128) = true ∧ Config.isX c = false ∧ Config.clusterOf c / 24 = Machine.bits (0 * 128) 12 12 ∧ Config.clusterOf c = 7) ∧
  (mfind (l2 15).l2 0 = some (e 15) ∧ (e 15).window.length = 7 ∧ 5 ≤ ((e 15).window ++ [7]).count 7 ∧ (e 15).last = some 7 ∧
    (e 15).run = 15 ∧ 7 ≠ (e 15).slice.getD (homeSlice 0) ∧ ((l2 15).crGlob (Machine.bits (0 * 128) 12 12) 0x194).getLsbD 0 = true) ∧
  (mfind (l2 14).l2 0 = some (e 14) ∧ (e 14).run ≠ 15) ∧
  ((waits.move 0).state = 2 ∧ ∃ x ∈ (waits.move 0).queue, waits.atHome x.1 = true) ∧
  ((late.move 0).state = 2 ∧ ∀ x ∈ (late.move 0).queue, late.atHome x.1 = false) :=
  by decide +kernel

theorem witness_RegisterEvents :
  (0x300 ∈ [0x300, 0x31d] ∧ 0x302 ∉ [0x300, 0x301, 0x303] ∧ hostWindow 0x31d = true ∧ hostWindow 0x302 = false) ∧
  placeOk ⟨768, 1, 3⟩ = true ∧ placeOk ⟨0, 7, 0⟩ = true ∧
  (0x001 < 0x400 ∧ crListed 0 0x001 = true ∧ State.reset.crDenied ⟨0, 7, 0⟩ 0x001 5 = false) ∧
  (0x1c0 ≤ 0x1d7 ∧ crListed 0 0x1d7 = true ∧ State.reset.crDenied ⟨0, 7, 0⟩ 0x1d7 5 = false) ∧
  (crListed 768 0x1ff = true ∧ State.reset.crDenied ⟨768, 1, 3⟩ 0x1ff 5 = false) ∧
  (placeOk ⟨1, 0, 0⟩ = true ∧ State.reset.crDenied ⟨1, 0, 0⟩ 0x284 5 = true) ∧
  (okEngReg (BitVec.ofNat 3 1) (BitVec.ofNat 9 8) = true ∧ engUnlisted 0 1 8 = false ∧ State.reset.engDenied ⟨0, 7, 0⟩ 1 8 = false) ∧
  (okEngReg (BitVec.ofNat 3 3) (BitVec.ofNat 9 0x100) = true ∧ engUnlisted 1 3 0x100 = false ∧
    State.reset.engDenied ⟨1, 0, 0⟩ 3 0x100 = true) ∧
  (23 < (if Config.isX 0 then 64 else 24) ∧ State.reset.bfBusy 0 23 (State.reset.core 0).ids = false) ∧
  (let p : Park := ⟨0, 3, false, [seat0], []⟩
   let s : State := { (onBank seat0 fun b => { b with run := .parked }) with mmus := [(0, ⟨[], [], [p]⟩)] }
   (s.bank seat0).run = .parked ∧ wakeTakes 0 (3 * 2 ^ 21) false p = true) :=
  by decide +kernel

theorem witness_MatrixEvents :
  let mma := { eng 0 0 2 0 0 with stg := [] }
  let q := fun e => withQueue State.reset 0 [e]
  let on := { mma with started := true, aux := EAux.mma [] [] }
  let z := eng 0 0 0 128 0
  let d := { eng 0 0 8 (2 ^ 54) 0 with stg := [(7, 128)] }
  ((q mma).headCmd 0 0 = some mma ∧ mma.isMma = true ∧ mma.started = false ∧ mma.task = none ∧ (q mma).matReady 0 0 mma = true) ∧
  (on.op ≠ 1 ∧ 0 < on.geom.nt ∧ 0 < on.geom.mt ∧ on.step < on.mmaSteps) ∧
  ((q z).headCmd 0 0 = some z ∧ z.op = 0 ∧ (q z).matReady 0 0 z = true ∧ z.accs[z.step]? = some 7) ∧
  ((q d).headCmd 0 0 = some d ∧ d.op = 8 ∧ d.task = none ∧ (q d).matReady 0 0 d = true ∧ d.bounced = false ∧
    d.accs[d.step]? = some 7 ∧ Machine.bit d.sa.toNat 54 = true) ∧
  ((q { mma with state := 3 }).headCmd 0 0 = some { mma with state := 3 } ∧ ({ mma with state := 3 } : ECmd).state = 3) :=
  by decide +kernel

theorem witness_MatrixEvents_skip :
  let e := fun n : Nat => ({ eng 0 0 1 0 0 with stg := [], started := true, step := n, aux := EAux.mma [] [] } : ECmd)
  let ba : Block := ⟨[], some (2 ^ 32 + 99), 0, 0, []⟩
  let s := fun (c : Nat) (e : ECmd) => withQueue (State.reset.modCore c id) 0 [e]
  let skips := fun (c : Nat) (e : ECmd) => decide (e.op = 1 ∧ 0 < e.geom.nt ∧ 0 < e.geom.mt) &&
    ((s c e).blockVals e e.opB ba).2 && (!Config.isX c || decide (e.step % 4 = 0)) &&
    ((s c e).blockVals e e.opA ba).1.all (·.isZero)
  skips 0 (e 0) = true ∧ skips 768 (e 4) = true ∧ skips 768 (e 5) = false :=
  by decide +kernel

theorem witness_MatrixEvents_drains :
  let d := { eng 0 0 8 (2 ^ 53 + 2 ^ 21) 0 with stg := [(7, 192)] }
  let far := { eng 0 0 8 (2 ^ 53 + 2 ^ 21 + 2 ^ 21 - 4096) 0 with stg := [(7, 192)], step := 1 }
  let q := fun e => withQueue State.reset 0 [e]
  let on := fun e => (q e).modHead 0 0 fun e => { e with started := true }
  let full := fun (s : State) => ({ s.modCore 0 fun k => { k with outbox := List.replicate 64 (msg 1 (.start 64)) } with meshStop := [0] } : State)
  let drains := fun (s : State) (e : ECmd) n => s.headCmd 0 0 = some e ∧ e.op = 8 ∧ e.task = none ∧ s.matReady 0 0 e = true ∧
    e.bounced = false ∧ e.accs[e.step]? = some n ∧ Machine.bit e.sa.toNat 54 = false
  (drains (q d) d 6 ∧ (on d).outRoom 0 4096 = true ∧ d.sa.toNat % 2 ^ 21 + 0 < 2 ^ 21) ∧
  (drains (full (q d)) d 6 ∧ ((full (q d)).modHead 0 0 fun e => { e with started := true }).outRoom 0 4096 = false) ∧
  (drains (q far) far 7 ∧ 2 ^ 21 ≤ far.sa.toNat % 2 ^ 21 + 1 * tileBytes (far.st 7 / 2 ^ 8 % 8) (far.st 8)) :=
  by decide +kernel

theorem witness_MatrixEvents_drainStore :
  let d := { eng 0 0 8 (2 ^ 53 + 2 ^ 21) 0 with stg := [(7, 192)] }
  let on := (withQueue State.reset 0 [d]).modHead 0 0 fun e => { e with started := true }
  ∃ s2, on.engStore d 0 (BitVec.ofNat 64 (d.sa.toNat / 2 ^ 21 * 2 ^ 21 + 0)) (on.drainTile d 6 (2 ^ 53 + 2 ^ 21)).1 = .ok s2 :=
  ⟨_, rfl⟩

theorem witness_MatrixEvents_blocks :
  let on := { eng 0 0 2 0 0 with stg := [], started := true, aux := EAux.mma [] [] }
  let s := withQueue State.reset 0 [on]
  let d := { eng 0 0 8 (2 ^ 54) 0 with stg := [(7, 128)] }
  (∃ s2 s3 ba bb, s.headCmd 0 0 = some on ∧ on.isMma = true ∧ on.started = true ∧ s.matReady 0 0 on = true ∧ on.step < on.mmaSteps ∧
    on.aux = .mma [] [] ∧ s.findBlock on on.opA [] 0 0 = (s2, .ok ba) ∧ s2.findBlock on on.opB [] 0 0 = (s3, .ok bb) ∧
    s3.badSec (ba.keys ++ ba.scl ++ bb.keys ++ bb.scl) = none) ∧
  ∃ s2 ks, (withQueue State.reset 0 [d]).headCmd 0 0 = some d ∧ d.accs[d.step]? = some 7 ∧
    (let s1 := (withQueue State.reset 0 [d]).modHead 0 0 fun e => { e with started := true }
     s1.spaceKeys d .own 0 (s1.drainTile d 7 0).1.length true true) = (s2, .ok ks) :=
  ⟨⟨_, _, _, _, rfl, rfl, rfl, rfl, by decide +kernel, rfl, rfl, rfl, rfl⟩, _, _, rfl, by decide +kernel, rfl⟩

theorem witness_MatrixEvents_tasks :
  let s : State := { State.reset with
    scheds := [(0, ⟨[⟨3, 0, 5, 0, 1⟩], [3], [(3, (0, 5))]⟩)], eregs := [(0x181, 0x8000_0010)] }
  let early := s.modCore 5 fun k => { k with vq := [{ someCmd with id := 0, form := .vM .vst ⟨1, 0, 9, 0, 0, 0⟩ }] }
  let lost : State := { s with ue := [(s.taskKeys 0 3 0 64).getD 32 0 / 32] }
  ((s.sched 0).bells = ⟨3, 0, 5, 0, 1⟩ :: [] ∧ s.storesBefore 5 0 1 = false) ∧
  ((early.sched 0).bells = ⟨3, 0, 5, 0, 1⟩ :: [] ∧ early.storesBefore 5 0 1 = true) ∧
  (s.taskBad 0 3 = none ∧ s.taskDword 0 3 0 % 2 ^ 16 = 0) ∧ (lost.taskBad 0 3).isSome = true ∧
  (let one : State := { s with mem := memWrites s.mem ((s.taskKeys 0 3 0 8).zip (leBytes 8 (1 + 2 ^ 16))) }
   one.taskBad 0 3 = none ∧ one.taskDword 0 3 0 % 2 ^ 16 = 1 ∧ one.taskDword 0 3 0 / 2 ^ 16 % 8 = 1) ∧
  ((s.sched 0).ready = 3 :: [] ∧ Machine.bit (s.eregUnit 0 0 0x181).toNat 4 = true ∧ s.taskDword 0 3 0 / 2 ^ 19 % 8 < 4 ∧
    (mget (s.sched 0).posted 3 (0, Config.tileOf 0 0)).2 = 5 ∧
    Machine.bit (s.eregUnit 0 0 0x181).toNat (16 + 15) = true ∧ (∀ y, y < 15 → Machine.bit (s.eregUnit 0 0 0x181).toNat (16 + y) = false) ∧
    (s.queue (Config.tileOf 0 15) 3).isEmpty = true ∧
    s.claimed (Config.tileOf 0 15) 3 (s.taskCmd 0 3 5).accs = false ∧ s.groupOf (Config.tileOf 0 15) = none) :=
  by decide +kernel

theorem witness_CopyEvents_away :
  let on := fun sb => ({ { eng 1 0 0 0 sb with stg := [] } with
    started := true, aux := EAux.copy 0 0 0 none, segs := [(0, ⟨0, 0x1000, 11⟩)] } : ECmd)
  let q := fun e => (withQueue State.reset 16 [e]).modMmu 0 fun m => { m with tlb := [⟨0, 0, none, 1 + 6 + 2 ^ 12⟩] }
  let goes := fun e => Runs (q e) 0 16 e ∧ (q e).engOut 0 16 = false ∧ e.bounced = false ∧ e.aux = .copy 0 0 0 none ∧
    0 < e.copyTotal ∧ e.op = 0 ∧ copySpace e.sa.toNat = .own
  let r := on (2 ^ 62 + 2 ^ 21 + 0x40)
  let g := on (2 ^ 63 + 0x40)
  let found := fun (e : ECmd) s1 ks => (q e).spaceKeys e .own (e.srcPos 0).toNat (e.stepLen 0) false false = (s1, .ok ks) ∧
    s1.badSec ks = none
  (∃ s1 s2 ks, goes r ∧ found r s1 ks ∧ copySpace r.sb.toNat = .tile 1 ∧
    (s1.engRead 0 (max r.pts r.ts) ks).1.engStore r 16 (copyRst r.sb.toNat (r.dstPos 0)) (s1.engRead 0 (max r.pts r.ts) ks).2.1 = .ok s2) ∧
  ∃ s1 s2 ks kd, goes g ∧ found g s1 ks ∧ copySpace g.sb.toNat = .glob 0 ∧
    (s1.engRead 0 (max g.pts g.ts) ks).1.spaceKeys g (.glob 0) (g.dstPos 0) (s1.engRead 0 (max g.pts g.ts) ks).2.1.length true false =
      (s2, .ok kd) ∧ ∀ k ∈ kd, isExt k = false :=
  ⟨⟨_, _, _, ⟨⟨rfl, rfl⟩, rfl, rfl, rfl, by decide +kernel, rfl, rfl⟩, ⟨rfl, rfl⟩, rfl, rfl⟩,
    _, _, _, _, ⟨⟨rfl, rfl⟩, rfl, rfl, rfl, by decide +kernel, rfl, rfl⟩, ⟨rfl, rfl⟩, rfl, rfl, by decide +kernel⟩

theorem witness_CopyEvents_wake :
  let end_ := ({ { eng 1 0 0 0 0x40 with stg := [(7, 2 ^ 63 + 10), (8, 5)] } with started := true, aux := EAux.copy 1 0 0 none } : ECmd)
  let q := fun e => ({ withQueue State.reset 16 [e] with routes := [(10, .placed 1), (11, .unplaced)] } : State)
  let held := { end_ with stg := [(7, 2 ^ 63 + 11), (8, 5)] }
  let full : State := { q held with doorRes := [(0, 4096)] }
  let goes := fun (s : State) e => Runs s 0 16 e ∧ s.engOut 0 16 = false ∧ e.bounced = false ∧ e.aux = .copy 1 0 0 none ∧
    e.copyAll ≤ 1 ∧ s.wakeOut 0 16 = false ∧ e.woke = false
  let w := fun (e : ECmd) => BitVec.ofNat 64 (e.st 7)
  (goes (q end_) end_ ∧ (w end_).getLsbD 63 = true ∧
    (q end_).sendTo 0 (w end_ &&& 0x7fff_ffff_ffff_ffff) 5 = .mail 1 (some 10) ∧ (q end_).outRoom 0 32 = true ∧
    ((q end_).engWake end_ 16 (w end_) 5).isSome = true) ∧
  (goes full held ∧ (full.engWake held 16 (w held) 5) = none) :=
  ⟨⟨⟨⟨rfl, rfl⟩, rfl, rfl, rfl, by decide +kernel, rfl, rfl⟩, rfl, rfl, rfl, rfl⟩,
    ⟨⟨rfl, rfl⟩, rfl, rfl, rfl, by decide +kernel, rfl, rfl⟩, by decide +kernel⟩

theorem witness_CopyEvents :
  let e := { eng 1 0 0 0 0x8000 with stg := [] }
  let q := fun e => withQueue State.reset 16 [e]
  let typed := fun e => ((q e).setCrCore 0 0x1c0 (2 ^ 32 + 99)).setCrCore 0 0x1c1 (2 ^ 32 + 106)
  let two := { e with stg := [(1, 1)] }
  let long := { e with sb := 0xb_ffff, stg := [(0, 1)] }
  let held := fun (s : State) (e : ECmd) (w : Word) => w.toNat / 2 ^ 62 = 0 ∧
    s.spanReserved e.place 0 (copyBase w.toNat) (elemBytes (Narrow.of ((s.copyFmt 0 w.toNat) % 2 ^ 32)) (e.cn 0)) = true
  (Runs (q e) 0 16 e ∧ e.aux = .none ∧ (q e).converts e = false ∧ (q e).copySrcBad e.place e = false ∧
    (q e).copyDstBad e.place e = false) ∧
  (Runs (typed e) 0 16 e ∧ e.aux = .none ∧ (typed e).converts e = true ∧
    convBad e ((typed e).copyFmt 0 0) ((typed e).copyFmt 0 0x8000) = false ∧ ¬ held (typed e) e 0 ∧ ¬ held (typed e) e 0x8000) ∧
  (Runs (typed two) 0 16 two ∧ two.aux = .none ∧ (typed two).converts two = true ∧
    convBad two ((typed two).copyFmt 0 0) ((typed two).copyFmt 0 0x8000) = true) ∧
  (Runs (q long) 0 16 long ∧ long.aux = .none ∧ (q long).converts long = false ∧ long.deferred = true ∧
    (q long).copyDstBad long.place long = true) ∧
  ((q { e with state := 3 }).headCmd 0 16 = some { e with state := 3 } ∧ ({ e with state := 3 } : ECmd).state = 3) :=
  ⟨⟨⟨rfl, rfl⟩, rfl, rfl, rfl, rfl⟩, ⟨⟨rfl, rfl⟩, rfl, by decide +kernel, by decide +kernel, by decide +kernel, by decide +kernel⟩,
    ⟨⟨rfl, rfl⟩, rfl, by decide +kernel, by decide +kernel⟩, ⟨⟨rfl, rfl⟩, rfl, rfl, rfl, by decide +kernel⟩, rfl, rfl⟩

theorem witness_CopyEvents_steps :
  let on := fun op sb n => ({ { eng 1 0 op 0 sb with stg := [] } with started := true, aux := EAux.copy 0 n 0 none } : ECmd)
  let q := fun e => withQueue State.reset 16 [e]
  let goes := fun e => Runs (q e) 0 16 e ∧ (q e).engOut 0 16 = false ∧ e.bounced = false
  let m := on 0 0x40 0
  let f := on 1 0x40 0
  let r := on 1 (2 ^ 62 + 2 ^ 21 + 0x40) 0
  let w := on 0 (2 ^ 62 + 2 ^ 21 + 0x40) 1
  let away : State := { q w with net := [{ msg 1 (.store 0 [0] 0 0) with src := 0, seat := 116 }] }
  let cv := { m with aux := EAux.copy 0 0 0 (some (2 ^ 32 + 99, 2 ^ 32 + 106)) }
  let end_ := { m with aux := EAux.copy 1 0 0 none }
  (∃ s1 s2 ks kd, goes m ∧ m.aux = .copy 0 0 0 none ∧ 0 < m.copyTotal ∧ m.op = 0 ∧ copySpace m.sa.toNat = .own ∧
    copySpace m.sb.toNat = .own ∧ (q m).spaceKeys m .own (m.srcPos 0).toNat (m.stepLen 0) false false = (s1, .ok ks) ∧
    s1.badSec ks = none ∧ (s1.engRead 0 (max m.pts m.ts) ks).1.spaceKeys m .own (m.dstPos 0)
      (s1.engRead 0 (max m.pts m.ts) ks).2.1.length true false = (s2, .ok kd)) ∧
  (∃ s1 kd, goes f ∧ 0 < f.copyTotal ∧ f.op = 1 ∧ copySpace f.sb.toNat = .own ∧
    (q f).spaceKeys f .own (f.dstPos 0) (f.stepLen 0) true false = (s1, .ok kd)) ∧
  (∃ s1, goes r ∧ 0 < r.copyTotal ∧ r.op = 1 ∧ copySpace r.sb.toNat = .tile 1 ∧
    (q r).engStore r 16 (copyRst r.sb.toNat (r.dstPos 0)) [0] = .ok s1) ∧
  (Runs away 0 16 w ∧ w.aux = .copy 0 1 0 none ∧ away.engOut 0 16 = true) ∧
  (Runs (q { w with bounced := true }) 0 16 { w with bounced := true } ∧ (q { w with bounced := true }).engOut 0 16 = false) ∧
  (goes w ∧ w.aux = .copy 0 1 0 none ∧ (1 : Nat) ≠ 0) ∧ (goes cv ∧ 0 < cv.copyAll) ∧
  (goes end_ ∧ end_.copyAll ≤ 1 ∧ (q end_).wakeOut 0 16 = false ∧ end_.woke = false ∧ (mget end_.stg 7 0).getLsbD 63 = false) ∧
  (let woken := { end_ with woke := true }
   goes woken ∧ woken.copyAll ≤ 1 ∧ (q woken).wakeOut 0 16 = false ∧ woken.woke = true) :=
  ⟨⟨_, _, _, _, ⟨⟨rfl, rfl⟩, rfl, rfl⟩, rfl, by decide +kernel, rfl, rfl, rfl, rfl, rfl, rfl⟩,
    ⟨_, _, ⟨⟨rfl, rfl⟩, rfl, rfl⟩, by decide +kernel, rfl, rfl, rfl⟩, ⟨_, ⟨⟨rfl, rfl⟩, rfl, rfl⟩, by decide +kernel, rfl, by decide +kernel, rfl⟩,
    ⟨⟨rfl, rfl⟩, rfl, by decide +kernel⟩, ⟨⟨rfl, rfl⟩, rfl⟩, ⟨⟨⟨rfl, rfl⟩, rfl, rfl⟩, rfl, by decide⟩,
    ⟨⟨⟨rfl, rfl⟩, rfl, rfl⟩, by decide +kernel⟩, ⟨⟨⟨rfl, rfl⟩, rfl, rfl⟩, by decide +kernel, rfl, rfl, by decide⟩,
    ⟨⟨rfl, rfl⟩, rfl, rfl⟩, by decide +kernel, rfl, rfl⟩

theorem witness_SamplerEvents :
  let e := { eng 2 0 0 3 4 with stg := [(0, 512 * 2 ^ 32), (4, 2 * 2 ^ 16)] }
  let p := fun n => (⟨n, none, false, false, false, 0, [], none, false⟩ : Samp)
  let ph := fun (e : ECmd) n => { e with started := true, aux := EAux.samp (p n) }
  let q := fun e => withQueue State.reset 32 [e]
  let w : Winner := ⟨3, 4, 1, none, false, false⟩
  let win := (q (ph e 2)).modCore 0 fun k => { k with winners := [w] }
  let got := fun (s : State) => ((s.core 0).winners.foldl (fun (a : List Winner × List Winner) m =>
    if m.tags e = false then (a.1, a.2 ++ [m]) else if m.k ∉ e.children then a
    else if ∃ w ∈ a.1, w.k = m.k then (a.1, a.2 ++ [m]) else (a.1 ++ [m], a.2)) ([], [])).1
  (∃ s1 s2 s3 lk mk, (q (ph e 1)).sampHead 0 0 = some (s1, ph e 1, p 1) ∧ (p 1).phase ≠ 0 ∧ (p 1).phase ≤ (ph e 1).scans ∧
    s1.spaceKeys (ph e 1) .own 0 (512 * (ph e 1).lsize) false false = (s2, .ok lk) ∧
    s1.spaceKeys (ph e 1) .own 16 (if (ph e 1).masked then 64 else 0) false false = (s3, .ok mk) ∧ s1.badSec (lk ++ mk) = none) ∧
  (∃ s1, (q (ph e 2)).sampHead 0 0 = some (s1, ph e 2, p 2) ∧ (p 2).phase = e.scans + 1 ∧ (s1.core 0).winners = [] ∧
    ¬ ∀ k ∈ e.children, ∃ w ∈ got s1, w.k = k) ∧
  (∃ s1, win.sampHead 0 0 = some (s1, ph e 2, p 2) ∧ (p 2).phase = e.scans + 1 ∧ (s1.core 0).winUe = 0 ∧
    ∀ k ∈ e.children, ∃ w ∈ got s1, w.k = k) ∧
  (∃ s1, (q (ph e 3)).sampHead 0 0 = some (s1, ph e 3, p 3) ∧ s1.engOut 0 32 = false ∧ (ph e 3).bounced = false ∧
    (p 3).phase = e.scans + 2 ∧ e.slice = 0) ∧
  (∃ s1, (q (ph e 4)).sampHead 0 0 = some (s1, ph e 4, p 4) ∧ s1.engOut 0 32 = false ∧ (ph e 4).bounced = false ∧
    (p 4).phase = e.scans + 3) :=
  ⟨⟨_, _, _, _, _, rfl, by decide, by decide, rfl, rfl, by decide +kernel⟩, ⟨_, rfl, rfl, rfl, by decide +kernel⟩,
    ⟨_, rfl, rfl, rfl, by decide +kernel⟩, ⟨_, rfl, rfl, rfl, rfl, rfl⟩, _, rfl, rfl, rfl, rfl⟩

theorem witness_SamplerEvents_barrier :
  let p : Samp := ⟨0, none, false, false, false, 0, [], some 0, false⟩
  let e := { eng 2 0 0 3 4 with stg := [(2, 2 ^ 63), (6, 100)], started := true, aux := EAux.samp p }
  let q := fun n d => ({ withQueue State.reset 32 [e] with
    mem := memWrites [] (cellsAt (Config.tileKey 0 0) (leBytes 16 n)), dt := d * 23 * 10 ^ 6, clk := 16 } : State)
  let meets := fun n d (k : State → Nat → Prop) => ∃ s1 s2 ks, (q n d).sampHead 0 0 = some (s1, e, p) ∧ p.phase = 0 ∧
    (∀ k, p.since = some k → k + 16 ≤ s1.clk) ∧
    s1.spaceKeys e .own (e.st 2 % 2 ^ 32) 16 false false = (s2, .ok ks) ∧ s2.badSec ks = none ∧
    k (s2.engRead 0 e.pts ks).1 (leNat (s2.engRead 0 e.pts ks).2.1)
  let ours := fun h => h % 2 ^ 32 = 3 ∧ h / 2 ^ 32 % 2 ^ 32 = 4
  meets (3 + 4 * 2 ^ 32) 0 (fun _ h => ours h ∧ h / 2 ^ 64 % 2 ^ 32 = 0) ∧
  meets (3 + 4 * 2 ^ 32 + 2 ^ 64) 0 (fun _ h => ours h ∧ h / 2 ^ 64 % 2 ^ 32 = 1) ∧
  meets (3 + 4 * 2 ^ 32 + 2 * 2 ^ 64) 0 (fun _ h => ours h ∧ 2 ≤ h / 2 ^ 64 % 2 ^ 32) ∧
  meets 3 100 (fun s h => ¬ ours h ∧ e.st 6 ≠ 0 ∧ e.st 6 ≤ s.dtime) ∧ meets 3 99 (fun s h => ¬ ours h ∧ s.dtime < e.st 6) :=
  ⟨⟨_, _, _, rfl, rfl, by decide, rfl, rfl, by decide +kernel⟩, ⟨_, _, _, rfl, rfl, by decide, rfl, rfl, by decide +kernel⟩,
    ⟨_, _, _, rfl, rfl, by decide, rfl, rfl, by decide +kernel⟩, ⟨_, _, _, rfl, rfl, by decide, rfl, rfl, by decide +kernel⟩,
    _, _, _, rfl, rfl, by decide, rfl, rfl, by decide +kernel⟩

theorem witness_SamplerEvents_ends :
  let p : Samp := ⟨3, none, false, false, false, 0, [], none, false⟩
  let e := { eng 2 0 0 3 4 with stg := [(0, 512 * 2 ^ 32), (7, 2 ^ 54)], started := true, aux := EAux.samp p }
  let f := { eng 2 0 0 3 4 with stg := [(0, 512 * 2 ^ 32), (4, 4 * 2 ^ 32 + 2 * 2 ^ 16 + 1)], started := true, aux := EAux.samp p }
  let d := eng 2 0 1 3 4
  let q := fun e => withQueue State.reset 32 [e]
  let s : State := { q f with routes := [(4, .placed 9)] }
  (∃ s1 s2 ks, (q e).sampHead 0 0 = some (s1, e, p) ∧ s1.engOut 0 32 = false ∧ e.bounced = false ∧ p.phase = e.scans + 2 ∧
    e.slice = 0 ∧ (mget e.stg 7 0).getLsbD 54 = true ∧ s1.spaceKeys e .own (e.st 7 % 2 ^ 21) 16 true false = (s2, .ok ks)) ∧
  (∃ s1 s2 e', s.sampHead 0 0 = some (s1, f, p) ∧ s1.engOut 0 32 = false ∧ f.bounced = false ∧ p.phase = f.scans + 2 ∧ f.slice ≠ 0 ∧
    s1.sendWinner f 0 ⟨f.sa.setWidth 32, f.sb.setWidth 32, f.slice, p.win, p.late, p.forced⟩ = .ok s2 ∧
    (s2.sampGone 0 0 f 0 p).headCmd 0 32 = some e') ∧
  (∃ s1 ks, Runs (q d) 0 32 d ∧ d.op = 1 ∧ (q d).spaceKeys d .own (d.st 0xa % 2 ^ 32) 8 true false = (s1, .ok ks)) ∧
  ((q { d with state := 3 }).headCmd 0 32 = some { d with state := 3 } ∧ ({ d with state := 3 } : ECmd).state = 3 ∧ d.op ≠ 0) ∧
  (q { f with state := 3 }).headCmd 0 32 = some { f with state := 3 } ∧ f.op = 0 ∧ f.slice ≠ 0 :=
  ⟨⟨_, _, _, rfl, rfl, rfl, by decide +kernel, rfl, rfl, rfl⟩, ⟨_, _, _, rfl, rfl, rfl, by decide +kernel, by decide +kernel, rfl, rfl⟩,
    ⟨_, _, ⟨rfl, rfl⟩, rfl, rfl⟩, ⟨rfl, rfl, by decide⟩, rfl, rfl, by decide +kernel⟩

theorem witness_GrammarEvents :
  gstepMeets 0 0 [0, 0, 0, 1] (fun r _ _ => Machine.bit (recByte r 3) 0) = true ∧
  gstepMeets 512 0 [] (fun r _ l => !Machine.bit (recByte r 3) 0 && l == .none) = true ∧
  gstepMeets 0 512 [] (fun r _ l => !Machine.bit (recByte r 3) 0 && l == .entry 512 && !entAllowed (recTop r) 512) = true ∧
  gstepMeets 0 256 [] (fun r m l => !Machine.bit (recByte r 3) 0 && l == .entry 256 && entAllowed (recTop r) 256 &&
    decide (256 % 2 ^ 8 ≤ m.nsm1 ∧ ¬ (256 / 2 ^ 8 % 4 = 1 ∧ recDepth r = 8))) = true ∧
  gstepMeets 0 256 [0, 8] (fun r m l => !Machine.bit (recByte r 3) 0 && l == .entry 256 && entAllowed (recTop r) 256 &&
    decide (256 % 2 ^ 8 ≤ m.nsm1 ∧ 256 / 2 ^ 8 % 4 = 1 ∧ recDepth r = 8)) = true :=
  by decide +kernel

theorem witness_GrammarEvents_start :
  let m := eng 3 0 1 0 0
  let g : GEntry := ⟨0, 0, 64, none, 0, 1, 7, false⟩
  let hit : State := { gram m 0 [] with gcache := [(0, [g])] }
  let fits := fun (e : ECmd) (i : Image) => decide (e.st 0 % 2 ^ 9 + e.st 0 / 2 ^ 16 % 2 ^ 9 ≤ i.num1)
  m.op = 1 ∧ m.aux = .none ∧
  gramMeets (gram m 0 [0, 0, 0, 1]) m (fun _ r i _ => fits m i && Machine.bit (recByte r 3) 0) = true ∧
  gramMeets (gram m 0 []) m (fun s r i _ => fits m i && !Machine.bit (recByte r 3) 0 && s.gcacheGet 0 r none == none) = true ∧
  gramMeets hit m (fun s r i _ => fits m i && !Machine.bit (recByte r 3) 0 && s.gcacheGet 0 r none == some g) = true :=
  by decide +kernel

theorem witness_GrammarEvents_steps :
  let at_ := fun b units => ({ eng 3 0 1 0 (2 ^ 54) with aux := EAux.gmask [] 0 0 0 b units } : ECmd)
  let q := fun e => withQueue State.reset 48 [e]
  let on := fun (s : State) => s.modHead 0 48 fun e => { e with started := true }
  let away : State := { q (at_ true 0) with net := [{ msg 1 (.store 0 [0] 0 0) with src := 0, seat := 148 }] }
  let g : GEntry := ⟨0, 0, 64, some 0, 5, 0, 0, false⟩
  let n := (at_ true 0).st 0 / 2 ^ 16 % 2 ^ 9 + 1
  (Runs away 0 48 (at_ true 0) ∧ (at_ true 0).op = 1 ∧ (on away).engOut 0 48 = true) ∧
  (let e := { at_ true 0 with bounced := true }
   Runs (q e) 0 48 e ∧ (on (q e)).engOut 0 48 = false ∧ e.bounced = true) ∧
  (let e := { at_ true 0 with sent := true }
   Runs (q e) 0 48 e ∧ (on (q e)).engOut 0 48 = false ∧ e.bounced = false ∧ e.sent = true) ∧
  (let e := at_ false 0
   Runs (q e) 0 48 e ∧ (on (q e)).engOut 0 48 = false ∧ e.bounced = false ∧ e.sent = false) ∧
  (let e := at_ true 2
   Runs (q e) 0 48 e ∧ (on (q e)).engOut 0 48 = false ∧ n < 2 ∧ (on (q e)).wakeOut 0 48 = false ∧ e.woke = false ∧
     (mget e.stg 1 0).getLsbD 63 = false) ∧
  (let e := { at_ true 2 with woke := true }
   Runs (q e) 0 48 e ∧ (on (q e)).engOut 0 48 = false ∧ n < 2 ∧ (on (q e)).wakeOut 0 48 = false ∧ e.woke = true) ∧
  (let e := { at_ true 0 with aux := EAux.gmask [0, 0, 0, 1] 0 0 0 true 0 }
   ∃ s1 ks, Runs (q e) 0 48 e ∧ e.sb.getLsbD 54 = true ∧ (on (q e)).engOut 0 48 = false ∧ 0 < n ∧
     (on (q e)).spaceKeys { e with started := true } .own (e.sb.toNat % 2 ^ 21 + (16 + 64 * 0)) 64 true false = (s1, .ok ks) ∧
     Machine.bit (recByte [0, 0, 0, 1] 3) 0 = true) ∧
  (let e := at_ true 0
   let s : State := { q e with gcache := [(0, [g])] }
   ∃ s1 ks, Runs s 0 48 e ∧ e.sb.getLsbD 54 = true ∧ (on s).engOut 0 48 = false ∧ 0 < n ∧
     (on s).spaceKeys { e with started := true } .own (e.sb.toNat % 2 ^ 21 + (16 + 64 * 0)) 64 true false = (s1, .ok ks) ∧
     Machine.bit (recByte [] 3) 0 = false ∧ (on s).gcacheGet 0 [] (some 0) = some g) ∧
  (let e := at_ true 1
   ∃ s1 ks, Runs (q e) 0 48 e ∧ e.sb.getLsbD 54 = true ∧ (on (q e)).engOut 0 48 = false ∧ 1 = n ∧
     (on (q e)).spaceKeys { e with started := true } .own (e.sb.toNat % 2 ^ 21 + 0) 16 true false = (s1, .ok ks)) ∧
  (let f := eng 3 0 2 16 0
   (Runs (q f) 0 48 f ∧ f.op = 2) ∧ (q { f with state := 3 }).headCmd 0 48 = some { f with state := 3 }) :=
  ⟨⟨⟨rfl, rfl⟩, rfl, by decide +kernel⟩, ⟨⟨rfl, rfl⟩, rfl, rfl⟩, ⟨⟨rfl, rfl⟩, rfl, rfl, rfl⟩, ⟨⟨rfl, rfl⟩, rfl, rfl, rfl⟩,
    ⟨⟨rfl, rfl⟩, rfl, by decide +kernel, rfl, rfl, by decide⟩, ⟨⟨rfl, rfl⟩, rfl, by decide +kernel, rfl, rfl⟩,
    ⟨_, _, ⟨rfl, rfl⟩, by decide, rfl, by decide +kernel, rfl, rfl⟩,
    ⟨_, _, ⟨rfl, rfl⟩, by decide, rfl, by decide +kernel, rfl, rfl, by decide +kernel⟩, ⟨_, _, ⟨rfl, rfl⟩, by decide, rfl, by decide +kernel, rfl⟩,
    ⟨⟨rfl, rfl⟩, rfl⟩, rfl⟩

/-- What a mask of the unit past the vocabulary meets on the image of `gram`: its cache does not hold the unit. -/
def unitMeets : Bool :=
  let e := { eng 3 0 1 0 (2 ^ 54) with stg := [(0, 1)], aux := EAux.gmask [] 0 0 0 true 0 }
  let s0 := (gram e 0 []).modHead 0 48 fun e => { e with started := true }
  s0.gcacheGet 0 [] (some 1) == none && decide (0 < e.st 0 / 2 ^ 16 % 2 ^ 9 + 1) &&
  match s0.image 0 e.id e.pts (recGid []) with
  | (s2, .ok m t1) => match s2.dramRead 0 e.id t1 (s2.unitKeys m (recState []) 1) with
    | (s3, .ok _ _) => (s3.unitMask m (recState []) (recTop []) 1).isSome &&
      (match s3.spaceKeys { e with started := true } .own 16 64 true false with | (_, .ok _) => true | _ => false)
    | _ => false
  | _ => false

theorem witness_GrammarEvents_units : unitMeets = true := by decide +kernel

theorem witness_StreamCaddyEvents_streams :
  let e := eng 4 0 1 (5 * 2 ^ 32) 7
  let o := eng 4 0 3 1 0
  let h := { e with aux := EAux.held, started := true }
  let ev : SEvent := ⟨0, 5, 1, false, 7, 0, 0, 64, 0⟩
  let s : State := { withQueue State.reset 64 [h] with sevents := [(0, [ev])], clk := 65536 }
  let opened : State := { s with mem := memWrites [] (cellsAt (s.sxKey 0 0 24) [4]) }
  let reads := fun (s : State) (k : State → Nat → Bool) => match s.dramRead 0 h.id h.pts (keysFrom (s.sxKey 0 0 0) 128) with
    | (s1, .ok _ t0) => k s1 t0
    | _ => false
  let due := fun (s : State) => (s.held 0)[0]? = some ev ∧ s.headCmd 0 64 = some h ∧ s.sxReady 0 0 ev = true ∧
    s.engStopped 0 64 = false
  (Runs (withQueue State.reset 64 [e]) 0 64 e ∧ e.woke = false ∧ e.aux ≠ .held ∧ e.op ≠ 3 ∧
    ((withQueue State.reset 64 [e]).held 0).length < 64) ∧
  (Runs (withQueue State.reset 64 [o]) 0 64 o ∧ o.woke = false ∧ o.aux ≠ .held ∧ o.op = 3 ∧
    ((withQueue State.reset 64 [o]).linkUp = true ∨ 0 / 4 = Config.dieOf 0)) ∧
  (due s ∧ reads s (fun _ _ => true) = true ∧ (s.sxDword 0 0 24).testBit 2 = false) ∧
  (due opened ∧ reads opened (fun s1 t0 => (opened.sxDword 0 0 24).testBit 2 && match opened.sxEffect 0 ev with
    | some f => f.notice.isNone && (opened.sxBlocked 0 h.id (f.cells ++ cellsAt (opened.sxKey 0 0 20) (leBytes 4 ev.stamp) ++
        cellsAt (opened.sxKey 0 0 24) (leBytes 1 (opened.sxDword 0 0 24 % 256 / 4 * 4 + ev.cls)))).isNone &&
        match s1.dramRead 0 h.id t0 f.reads with
        | (s2, .ok _ _) => s2.ue.isEmpty && (s2.redirected (f.cells ++ cellsAt (opened.sxKey 0 0 20) (leBytes 4 ev.stamp) ++
          cellsAt (opened.sxKey 0 0 24) (leBytes 1 (opened.sxDword 0 0 24 % 256 / 4 * 4 + ev.cls)))).all fun x => !isExt x.1
        | _ => false
    | none => false) = true) :=
  ⟨⟨⟨rfl, rfl⟩, rfl, by decide, by decide, by decide⟩, ⟨⟨rfl, rfl⟩, rfl, by decide, rfl, .inl rfl⟩, ⟨⟨rfl, rfl, rfl, rfl⟩, by decide +kernel, by decide +kernel⟩,
    ⟨rfl, rfl, rfl, rfl⟩, by decide +kernel⟩

theorem witness_StreamCaddyEvents_post :
  let m : Mailbox := { Mailbox.reset with desc := 0x83ff_0000_0000_0000 }
  let big : Mailbox := { Mailbox.reset with desc := 0x83ff_0007_0000_0000 }
  let q := fun (m : Mailbox) e => ({ withQueue State.reset 80 [e] with boxes := [(0, m)] } : State)
  let p := eng 5 0 0 (4 * 2 ^ 16) 0
  let on := { p with started := true, aux := EAux.cpost 0 1 }
  let long := { on with sa := 300 * 2 ^ 16 }
  let pub := { p with sa := 4 * 2 ^ 16 + 2 ^ 31 }
  let free := fun (s : State) (m : Mailbox) => (List.range 5).find? fun b => b != m.stg && !s.boxHeld m b
  (Runs (q m p) 0 80 p ∧ (q m p).boxFar 0 p = false ∧ p.op = 0 ∧ p.aux = .none ∧ m.valid = true ∧ m.admits 0 = true ∧
    ((q m p).caddyFlip 0 0 |>.box 0 0).stage ≠ 1) ∧
  (∃ s1 ks, Runs (q big long) 0 80 long ∧ long.op = 0 ∧ long.aux = .cpost 0 1 ∧ (q big long).flipped big = false ∧
    (q big long).spaceKeys long .own 0 256 false false = (s1, .ok ks) ∧ s1.badSec ks = none ∧ s1.ue = [] ∧
    0 + 256 < min (boxLen long.sa) big.bytes) ∧
  (∃ s1 ks, Runs (q m on) 0 80 on ∧ (q m on).flipped m = false ∧
    (q m on).spaceKeys on .own 0 4 false false = (s1, .ok ks) ∧ s1.badSec ks = none ∧ s1.ue = [] ∧
    min (boxLen on.sa) m.bytes ≤ 0 + 4) ∧
  on.sa.getLsbD 31 = false ∧ (pub.sa.getLsbD 31 = true ∧ (q m pub).clk < ({ m with flipClk := 16 } : Mailbox).flipClk) ∧
  (pub.sa.getLsbD 31 = true ∧ m.flipClk ≤ (q m pub).clk ∧ free (q m pub) m = some 0) :=
  ⟨⟨⟨rfl, rfl⟩, rfl, rfl, rfl, rfl, rfl, by decide +kernel⟩, ⟨_, _, ⟨rfl, rfl⟩, rfl, rfl, rfl, rfl, rfl, rfl, by decide +kernel⟩,
    ⟨_, _, ⟨rfl, rfl⟩, rfl, rfl, rfl, rfl, by decide +kernel⟩, by decide, by decide, by decide, by decide, by decide +kernel⟩

theorem witness_StreamCaddyEvents_caddy :
  let m : Mailbox := { Mailbox.reset with desc := 0x83ff_0000_0000_0000 }
  let q := fun (m : Mailbox) e => ({ withQueue State.reset 80 [e] with boxes := [(0, m)] } : State)
  let u := eng 5 0 1 0 0
  let r := eng 5 0 2 (4 * 2 ^ 16) 0
  let read := fun (n : Nat) (b : List Byte) => ({ r with started := true, step := n, aux := EAux.cread 0 1 4 0 b } : ECmd)
  let free := fun (s : State) (m : Mailbox) => (List.range 5).find? fun b => b != m.stg && !s.boxHeld m b
  let filled := { m with stage := 2 }
  let fresh := { filled with flipClk := 16 }
  let out := { m with stage := 3 }
  (Runs (q fresh u) 0 80 u ∧ u.op = 1 ∧ fresh.valid = true ∧ fresh.admits 0 = true ∧ fresh.stage = 2 ∧ (q fresh u).clk < fresh.flipClk) ∧
  (Runs (q filled u) 0 80 u ∧ filled.valid = true ∧ filled.admits 0 = true ∧ filled.stage = 2 ∧ filled.flipClk ≤ (q filled u).clk ∧
    free (q filled u) filled = some 0) ∧
  (out.stage = 3 ∧ out.flipClk ≤ (q out u).clk ∧ free (q out u) out = some 0) ∧
  (Runs (q m r) 0 80 r ∧ r.op = 2 ∧ r.aux = .none ∧ m.valid = true ∧
    (q m r).badSec (keysFrom (m.key 0 ((q m r).sample m).1 0) (min 4 ((q m r).sample m).2.2.2.1)) = none) ∧
  (∃ s1 ks, Runs (q m (read 0 [1])) 0 80 (read 0 [1]) ∧ (read 0 [1]).op = 2 ∧ (read 0 [1]).aux = .cread 0 1 4 0 [1] ∧
    (read 0 [1]).step = 0 ∧ (q m (read 0 [1])).spaceKeys (read 0 [1]) .own 16 1 true false = (s1, .ok ks)) ∧
  (∃ s1 ks, Runs (q m (read 1 [1])) 0 80 (read 1 [1]) ∧ (read 1 [1]).step ≠ 0 ∧
    (q m (read 1 [1])).spaceKeys (read 1 [1]) .own 0 16 true false = (s1, .ok ks)) ∧
  (q m u).boxRefused 0 1 0x83ff_0000_0000_0000 = true ∧ (q m u).boxRefused 0 1 0x83ff_0000_0000_0010 = false :=
  ⟨⟨⟨rfl, rfl⟩, rfl, rfl, rfl, rfl, by decide⟩, ⟨⟨rfl, rfl⟩, rfl, rfl, rfl, by decide, by decide +kernel⟩,
    ⟨rfl, by decide, by decide +kernel⟩, ⟨⟨rfl, rfl⟩, rfl, rfl, rfl, by decide +kernel⟩, ⟨_, _, ⟨rfl, rfl⟩, rfl, rfl, rfl, rfl⟩,
    ⟨_, _, ⟨rfl, rfl⟩, by decide, rfl⟩, by decide +kernel, by decide +kernel⟩

theorem witness_StreamCaddyEvents_frames :
  let ev := fun n t => (⟨0, n, 0, t, 7, 0, 0, 64, 0⟩ : SEvent)
  let s : State := { State.reset with mem := memWrites [] (cellsAt (State.reset.sxKey 0 0 16) [5]) }
  (ev 4 false).cls = 0 ∧ 4 < s.sxDword 0 0 16 % 2 ^ 32 ∧ s.sxDword 0 0 16 % 2 ^ 32 ≤ 5 ∧ (ev 5 true).trunc = true ∧
  (ev 5 false).trunc = false ∧ (s.sxDword 0 0 32).testBit 63 = false :=
  by decide +kernel

theorem witness_StreamCaddyEvents_counts :
  let m : Mailbox := { Mailbox.reset with desc := 0x83ff_0000_0000_0000 }
  let closed : Mailbox := { m with desc := 0x8001_0000_0000_0000 }
  let q := fun (m : Mailbox) e => ({ withQueue State.reset 80 [e] with boxes := [(0, m)] } : State)
  let at_ := fun (op : Nat) (sa : Word) => eng 5 0 op sa 0
  let far := fun (op : Nat) => ({ q m (at_ op 4096) with linkUp := false } : State)
  (∀ op ∈ [0, 1, 2], Runs (far op) 0 80 (at_ op 4096) ∧ (far op).boxFar 0 (at_ op 4096) = true ∧ (at_ op 4096).op = op) ∧
  (∀ op ∈ [0, 1], Runs (q closed (at_ op 0)) 0 80 (at_ op 0) ∧ (q closed (at_ op 0)).boxFar 0 (at_ op 0) = false ∧
    (at_ op 0).op = op ∧ (at_ op 0).aux = .none ∧ closed.admits 0 = false) ∧
  (Runs (q m (at_ 1 0)) 0 80 (at_ 1 0) ∧ m.valid = true ∧ m.admits 0 = true ∧ m.stage ≠ 2) ∧
  (2 ≤ (((q { m with stage := 2 } (at_ 0 0)).caddyFlip 0 0).box 0 0).stage) :=
  by
  refine ⟨?_, ?_, ⟨⟨rfl, rfl⟩, rfl, rfl, by decide⟩, by decide +kernel⟩
  · simp only [List.forall_mem_cons]
    exact ⟨⟨⟨rfl, rfl⟩, rfl, rfl⟩, ⟨⟨rfl, rfl⟩, rfl, rfl⟩, ⟨⟨rfl, rfl⟩, rfl, rfl⟩, by simp⟩
  · simp only [List.forall_mem_cons]
    exact ⟨⟨⟨rfl, rfl⟩, rfl, rfl, rfl, rfl⟩, ⟨⟨rfl, rfl⟩, rfl, rfl, rfl, rfl⟩, by simp⟩

theorem witness_IngressSaveEvents_events :
  let e := eng 6 0 0 5 64
  let s : State := { State.reset with eregs := [(unitDie 0 * 4096 + 6 * 512 + 0x100, 1 + 0x40 * 2 ^ 8 + 4 * 2 ^ 32)] }
  let t := State.reset.modSeat 831 1 fun t => { t with evMark := some 0, evq := List.replicate 31 0 }
  let ev : EvRec := ⟨9, none, none, 0, 6, 0⟩
  Runs (withQueue State.reset 96 [e]) 0 96 e ∧
  (831 < Config.cores ∧ 1 < Config.seats 831 ∧ (t.seat 831 1).evMark = some (BitVec.ofNat 30 (ev.time / 2 ^ 34)) ∧
    (t.seat 831 1).evDrop = 0 ∧ (t.seat 831 1).evq.length < 32) ∧
  (bit (s.eirx 0 0) 0 = true ∧ 0x40 = s.eirx 0 0 / 2 ^ 8 % 2 ^ 8 ∧ evWords [1, 2, 3, 4] = [0x04030201]) ∧
  (bit (s.eirx 0 0) 0 = true ∧ imageType 0x1e = true ∧ s.ue = []) :=
  ⟨⟨rfl, rfl⟩, by decide +kernel, by decide +kernel, rfl, rfl, rfl⟩

theorem witness_IngressSaveEvents_save :
  let e := { eng 7 0 0 0 1 with started := true, step := 2, aux := EAux.save 0 32768 }
  let full := { e with step := 128, aux := EAux.save 0 32512 }
  let r := { e with op := 1 }
  let q := fun e => (withQueue State.reset saveKey [e]).modMmu 0 fun m => { m with tlb := [⟨0, 0, none, 5 + 2 ^ 21⟩] }
  (∃ row s1 s2 bs ks, Runs (q e) 0 saveKey e ∧ e.aux = .save 0 32768 ∧ 2 ≤ e.step ∧
    (saveRows (e.sb.toNat % 2 ^ 27))[e.step - 2]? = some row ∧ e.op = 0 ∧ 256 * (e.step - 1) + 256 ≤ 32768 ∧
    (q e).saveSource 0 e row = (s1, some bs) ∧ bs.length = 256 ∧
    s1.saveFind 0 (0 + 256 * (e.step - 1)) 256 true = (s2, some ks) ∧ s2.ue = []) ∧
  (∃ row, Runs (q full) 0 saveKey full ∧ full.aux = .save 0 32512 ∧ 2 ≤ full.step ∧
    (saveRows (full.sb.toNat % 2 ^ 27))[full.step - 2]? = some row ∧ full.op = 0 ∧ 32512 < 256 * (full.step - 1) + 256) ∧
  (∃ b i s1 bs, Runs (q r) 0 saveKey r ∧ r.aux = .save 0 32768 ∧ 2 ≤ r.step ∧
    (saveRows (r.sb.toNat % 2 ^ 27))[r.step - 2]? = some (.bank b i) ∧ r.op = 1 ∧
    (q r).saveRead 0 (0 + 256 * (r.step - 1)) 256 r = (s1, some bs)) ∧
  ((q { e with state := 3 }).headCmd 0 saveKey = some { e with state := 3 } ∧ ({ e with state := 3 } : ECmd).state = 3) :=
  ⟨⟨_, _, _, _, _, ⟨rfl, rfl⟩, rfl, by decide, rfl, rfl, by decide, rfl, by decide +kernel, rfl, by decide +kernel⟩,
    ⟨_, ⟨rfl, rfl⟩, rfl, by decide, rfl, rfl, by decide⟩, ⟨_, _, _, _, ⟨rfl, rfl⟩, rfl, by decide, rfl, rfl, rfl⟩, rfl, rfl⟩

theorem witness_IngressSaveEvents_rows :
  let r := fun n : Nat => ({ eng 7 0 1 0 (2 ^ 27 - 1) with started := true, step := n, aux := EAux.save 0 (2 ^ 20) } : ECmd)
  let q := fun e => (withQueue State.reset saveKey [e]).modMmu 0 fun m => { m with tlb := [⟨0, 0, none, 5 + 2 ^ 21⟩] }
  let reads := fun (n : Nat) => match (q (r n)).saveRead 0 (0 + 256 * (n - 1)) 256 (r n) with | (_, some _) => true | _ => false
  let row := fun n : Nat => (saveRows ((r n).sb.toNat % 2 ^ 27))[n - 2]?
  let find := fun (f : SaveRow → Bool) => ((saveRows ((r 0).sb.toNat % 2 ^ 27)).findIdx f) + 2
  let a := find fun x => match x with | .acc _ => true | _ => false
  let v := find fun x => match x with | .vreg _ => true | _ => false
  let k := find fun x => match x with | .kregs => true | _ => false
  let b := find fun x => match x with | .cbank _ => true | _ => false
  [a, v, k, b].all (fun n => reads n && (row n).isSome && decide (2 ≤ n) && (q (r n)).headCmd 0 saveKey == some (r n) &&
    (q (r n)).runnable 0 saveKey (r n)) = true :=
  by decide +kernel

theorem witness_PreemptionCurtainEvents :
  let p : Machine.Place := ⟨0, 7, 0⟩
  let s := (onBank p usual).modCore 0 fun k => { k with preState := 1 }
  let t : State := { State.reset.setCrCore 0 0x28d 1 with dt := 23 * 10 ^ 6 }
  let fresh := fun (s : State) => s.modCore 0 fun k => { k with spillFresh := true }
  let enters := fun (s : State) => (s.core 0).preState = 1 ∧ (s.core 0).curtain = false ∧ (s.preTargets 0).contains p = true ∧
    s.preReady p = true ∧ (7 : Nat) ≠ 0
  let m := msg 1 (.mail 2 31 5)
  let sent := State.reset.modCore 0 fun k => { k with outbox := [m], spillFresh := true, spillN := 3 }
  (Config.isX 0 = false ∧ (ready.core 0).fenced = false ∧ ready.preStatus 0 = 0 ∧ (fresh ready).preTargets 0 ≠ []) ∧
  ((State.reset.core 0).fenced = false ∧ State.reset.preStatus 0 = 0 ∧ (fresh State.reset).preTargets 0 = []) ∧
  (Config.isX 768 = true ∧ s.preStatus 0 ≠ 0) ∧
  ((sent.core 0).outbox = [m] ∧ (sent.core 0).spillFresh = true ∧ m.pieces = [m] ∧ m.record.length ≤ 2048) ∧
  ((t.crCore 0 0x28d).toNat ≠ 0 ∧ (t.crCore 0 0x28d).toNat ≤ t.dtime) ∧
  (enters s ∧ (s.crCore 0 0x284).getLsbD 0 = false) ∧
  (enters (withHandler s) ∧ ((withHandler s).crCore 0 0x284).getLsbD 0 = true) :=
  by decide +kernel

theorem witness_PreemptionCurtainEvents_resend :
  let spill := fun (w h : Nat) => (({ State.reset with
    mem := memWrites [] (dwordCells (Config.tileKey 0 0x7_f800) w ++ dwordCells (Config.tileKey 0 0x7_f808) h ++
      dwordCells (Config.tileKey 0 0x7_f810) 5) } : State).modCore 0 fun k => { k with spillN := 1 })
  let bare := fun (s : State) => s.modCore 0 fun k => { k with outbox := [] }
  let h := 1 + 2 ^ 8 + 3 * 2 ^ 24 + 8 * 2 ^ 32
  let mail := 1 + 2 * 2 ^ 32 + 31 * 2 ^ 35 + 2 ^ 40
  let full : State := { spill 9 h with routes := [(9, .unplaced)], doorRes := [(0, 4096)] }
  let far : State := { spill mail h with meshStop := [0] }
  (∃ s2, ((spill mail h).core 0).spillN = 1 ∧ (bare (spill mail h)).resend1 0 0 0 = some s2) ∧
  ((full.core 0).spillN = 1 ∧ (bare full).resend1 0 0 0 = none) ∧
  ((far.core 0).spillN = 1 ∧ far.outRoom 0 (2048 + 32) = false) ∧
  (let s0 := spill mail h
   s0.spillWord 0 8 % 2 ^ 4 = 1 ∧ s0.spillWord 0 8 / 2 ^ 32 % 2 ^ 16 = 8 ∧ s0.spillWord 0 8 / 2 ^ 8 % 2 ^ 8 = 1 ∧
   s0.sendTo 0 (BitVec.ofNat 64 (s0.spillWord 0 0))
     (BitVec.ofNat 64 (leNat (memReads s0.mem (keysFrom (Config.tileKey 0 0x7_f810) 8)))) = .mail 1 none) :=
  ⟨⟨_, rfl, rfl⟩, ⟨rfl, by decide +kernel⟩, ⟨rfl, by decide +kernel⟩, by decide +kernel⟩

theorem witness_PreemptionCurtainEvents_curtain :
  let h := onBank seat0 fun b => { b with run := .halted }
  let up := State.reset.modCore 0 fun k => { k with curtReq := [true] }
  ((h.bank ⟨0, 0, 0⟩).run = .halted ∧ (h.core 0).curtain = false) ∧ (831 < Config.cores ∧ State.reset.part 831 = 0) ∧
  ((up.core 0).curtReq = true :: [] ∧ (up.core 0).curtain = false) ∧
  ((State.reset.modCore 0 fun k => { k with curtReq := [false] }).core 0).curtReq = false :: [] ∧
  767 < 768 ∧ 8 < 9 ∧ (ready.bank ⟨0, 0, 0⟩).run = .running ∧
  ((onBank ⟨767, 8, 0⟩ fun b => { b with run := .parked }).bank ⟨767, 8, 0⟩).run = .parked ∧
  ((ready.bank ⟨0, 7, 0⟩).run = .idle ∧ 7 ≠ 8) :=
  by decide +kernel

theorem witness_SeizureWatchdogEvents :
  let v : Word := 1 + 2 ^ 63
  let sz := State.reset.modCore 0 fun k => { k with szPend := some (1, someRec) }
  let dog := fun step on => ((State.reset.setCrGlob 0 (0x2c0 + 63) (BitVec.ofNat 64 (step * 2 ^ 52 + 2 ^ 32 + 2 ^ 16 + 1))).modSlot 63
    fun t => { t with wdogOn := on, image := [] })
  let late := fun step => ({ dog step true with dt := 1000 * 23 * 10 ^ 6 } : State)
  let held := (late 2).modCore 0 fun k => { k with deque := [{ someRec with ctl := BitVec.ofNat 64 (63 * 2 ^ 42) }] }
  (31 < 32 ∧ mfind State.reset.holds 31 = none ∧ ∀ c ∈ grpTiles v.toNat, (State.reset.core c).fenced = false ∧ State.reset.host c = false ∧
    ∀ h, State.reset.groupOf c = some h → h = 31) ∧
  ((sz.core 0).szPend = some (1, someRec) ∧ ¬ ((sz.bank ⟨0, 7, 0⟩).run = .running ∧ (sz.bank ⟨0, 7, 0⟩).mustEnd = true)) ∧
  63 < 64 ∧ (late 0).wdogDue 63 1 = true ∧ (late 1).wdogDue 63 2 = true ∧
  ((mfind held.cores 0).isSome = true ∧ held.wdogDue 63 3 = true ∧ held.slotOn 63 0 = true) :=
  ⟨⟨by decide, rfl, fun c _ => ⟨rfl, by
      show (!Config.isX c && (crResetCore c 0x189).getLsbD 0) = false
      simp [crResetCore], fun h hh => by
      exact absurd hh (by rw [show State.reset.groupOf c = none from noGroup c]; simp)⟩⟩, ⟨rfl, by decide⟩, by decide,
    by decide +kernel, by decide +kernel, by decide +kernel⟩

theorem witness_CommandEvents_doorbells :
  let on := fun (s : State) => s.setCrGlob 0 0x311 2
  let s := on (device 1)
  let u : State := (on State.reset).setCrGlob 0 0x309 (2 ^ 62)
  let free : State := { State.reset with dt := 100000 * 23 * 10 ^ 6 }
  let mapped := free.modSlot 63 fun t => { t with mapped := true }
  (u.understudy = true ∧ (State.reset.crGlob 0 0x311).toNat % 16 ≠ 2) ∧
  (s.understudy = false ∧ (s.crGlob 0 0x311).toNat % 16 = 2 ∧ (s.crGlob 0 0x300).toNat % 4096 < 2) ∧
  (0 ≤ (s.crGlob 0 0x300).toNat % 4096 ∧ s.slotOf 0 = some 0) ∧
  (1 ≤ (s.crGlob 0 0x300).toNat % 4096 ∧ s.slotOf 1 = none ∧ 1 < 64 ∧ (s.slot 1).mapped = false ∧
    ∀ r, r < 1 → (s.slot r).mapped = true) ∧
  ((mapped.slot 63).mapped = true ∧ (mapped.slot 63).phase = .idle ∧ (mapped.slot 63).again = [] ∧
    (mapped.slot 63).tail ≤ mapped.ringHead (mapped.slot 63) ∧ (mapped.slot 63).doorClk + 100000 ≤ mapped.dtime ∧
    mapped.bells = []) :=
  by decide +kernel

theorem witness_CommandEvents_accept :
  let s := device 2
  let t := s.slot 0
  t.mapped = true ∧ s.stopped = false ∧ s.understudy = false ∧ t.phase = .idle ∧ t.again = [] ∧ s.ringHead t < t.tail ∧
  s.bad (keysFrom (t.ring + 64 * (s.ringHead t % 2 ^ t.log)) 64) = false ∧ s.mirrors = false ∧
  (Cmd.ofBytes (memReads s.mem (keysFrom (t.ring + 64 * (s.ringHead t % 2 ^ t.log)) 64))).bad = false :=
  by decide +kernel

theorem witness_CommandEvents_launch :
  let s := working (device 0) .fetched [1, 0x20_0040]
  let odd := working (device 0) .fetched [1, 0x20_0048]
  let good : State := { s with mem := memWrites s.mem floodBytes }
  let lost : State := { good with ue := [0] }
  let held : State := s.setCrGlob 0 0x309 (2 ^ 62)
  let meets := fun (s : State) (k : Cmd → List Nat → Prop) => ∃ ks c, (s.slot 0).phase = .fetched ∧ (s.slot 0).cmd = some c ∧
    c.op = 1 ∧ s.understudy = false ∧ s.slotFind 0 c.arg.toNat 128 false = .ok ks ∧ k c ks
  meets s (fun _ ks => headerOk (memReads s.mem ks) (Header.ofBytes (memReads s.mem ks)) = false) ∧
  meets odd (fun c _ => c.arg.toNat % 64 ≠ 0) ∧
  meets good (fun c ks => headerOk (memReads good.mem ks) (Header.ofBytes (memReads good.mem ks)) = true ∧ c.arg.toNat % 64 = 0 ∧
    (Header.ofBytes (memReads good.mem ks)).segtab = 0 ∧ good.bad (keysFrom (good.slot 0).segimg 192) = false) ∧
  lost.bad (keysFrom (lost.slot 0).segimg 192) = true ∧
  (held.understudy = true ∧ ∃ c, (held.slot 0).phase = .fetched ∧ (held.slot 0).cmd = some c ∧ c.op = 1) :=
  ⟨⟨_, _, rfl, rfl, rfl, rfl, rfl, by decide +kernel⟩, ⟨_, _, rfl, rfl, rfl, rfl, rfl, by decide⟩,
    ⟨_, _, rfl, rfl, rfl, rfl, rfl, by decide +kernel, by decide, by decide +kernel, by decide +kernel⟩, by decide +kernel,
    rfl, _, rfl, rfl, rfl⟩

theorem witness_CommandEvents_others :
  let w := working (device 0) .fetched [2, 0]
  let met := working ((device 0).setCrGlob 0 0x308 1) .wait [2, 0]
  let g := working (device 0) .fetched [3]
  let q := working (device 0) .fetched [4, 0x20_0040, 0, 0, 0x20_0080]
  let d := working (device 0) .signal [3, 0, 0x20_0040]
  (∃ c, (w.slot 0).phase = .fetched ∧ (w.slot 0).cmd = some c ∧ c.op = 2) ∧
  (∃ c, (g.slot 0).phase = .fetched ∧ (g.slot 0).cmd = some c ∧ c.op = 3) ∧
  (∃ c ks s2, (q.slot 0).phase = .fetched ∧ (q.slot 0).cmd = some c ∧ c.op = 4 ∧ q.slotFind 0 c.arg.toNat 48 false = .ok ks ∧
    q.slotWrite 0 0 c.eaddr (q.quote (memReads q.mem ks)) .fetched = (s2, true)) ∧
  (∃ c, (met.slot 0).phase = .wait ∧ (met.slot 0).cmd = some c ∧ met.waitOver c.arg.toNat = true) ∧
  ∃ c s2, (d.slot 0).phase = .signal ∧ (d.slot 0).cmd = some c ∧ d.launchBusy 0 (d.slot 0) = false ∧ c.saddr ≠ 0 ∧
    d.slotWrite 0 d.lastTs c.saddr (leBytes 8 (d.slot 0).sigval.toNat) .signal = (s2, true) :=
  ⟨⟨_, rfl, rfl, rfl⟩, ⟨_, rfl, rfl, rfl⟩, ⟨_, _, _, rfl, rfl, rfl, rfl, rfl⟩, ⟨_, rfl, rfl, by decide +kernel⟩,
    _, _, rfl, rfl, rfl, by decide, rfl⟩

theorem witness_LaunchEvents :
  let h : Header := { Header.ofBytes [] with clcount := 1, spilln := 32 }
  let s : State := (State.reset.modSlot 0 fun t => { t with hdr := some h, phase := .running, image := [⟨0, 0x80000, 3⟩] }).modCore 0
    fun k => { k with lastSlot := some 0 }
  let v := h.coreSet.getD (victimOf (nextX 1) 0 16) 0
  let rich := s.modCore v fun k => { k with deque := [someRec, someRec] }
  let deep := (rich.modCore v fun k => { k with spill := [(0, 31, 2)] })
  let thief := fun (s : State) => (s.core 0).lastSlot = some 0 ∧ (s.slot 0).hdr = some h ∧ s.indexOf 0 0 = some 0 ∧
    2 ≤ h.coreSet.length ∧ s.stealIdle 0 = true ∧ (s.core 0).probeClk ≤ s.clk
  let p := fun (s : State) r => stealable 0 v 0 r && !s.crosses v 0
  let ring := fun (s : State) => (s.spillRead v 0).getD []
  let d := fun (s : State) => ((s.core v).deque.filter (p s)).length + ((ring s).filter (p s)).length
  let a := fun (s : State) => takeOldest (p s) (min 16 ((d s + 1) / 2)) (ring s).reverse
  (thief s ∧ d s = 0) ∧ (thief rich ∧ d rich ≠ 0 ∧ (a rich).2 = []) ∧
  (thief deep ∧ d deep ≠ 0 ∧ (a deep).2 ≠ [] ∧
    ((deep.modCore 0 fun k => { k with lfsr := some (nextX 1) }).spillKeep v 0 (a deep).1.reverse).isSome = true) :=
  by decide +kernel

theorem witness_LaunchEvents_waves :
  let h : Header := { Header.ofBytes [] with clcount := 1 }
  let s : State := State.reset.modSlot 0 fun t => { t with hdr := some h, phase := .running }
  let w : Nat × Nat × Bool := (0, 0, true)
  let quiet := s.modSlot 0 fun t => { t with wave := some w }
  let now := fun (s : State) => ((h.coreSet.map fun c => mget (s.core c).created 0 0).sum,
    (h.coreSet.map fun c => mget (s.core c).exited 0 0).sum, h.coreSet.all (s.quiet 0))
  ((s.slot 0).phase = .running ∧ (s.slot 0).hdr = some h ∧ (s.slot 0).placing = false ∧ (s.slot 0).wave ≠ some (now s)) ∧
  ((quiet.slot 0).phase = .running ∧ (quiet.slot 0).hdr = some h ∧ (quiet.slot 0).placing = false ∧
    (quiet.slot 0).wave = some (now quiet) ∧ (now quiet).1 = (now quiet).2.1 ∧ (now quiet).2.2 = true) :=
  by decide +kernel

theorem witness_LaunchEvents_ensemble :
  let s : State := State.reset.modSlot 1 fun t => { t with hdr := some { rowOf2 with prio := 3 }, members := [0, 1], placing := true }
  let done := s.modSlot 1 fun t => { t with claimed := [0, 1] }
  let host := s.setCrCore 0 0x189 1
  let busy : State := { (s.modSlot 0 fun t => { t with hdr := some rowOf2, members := [0, 1], placed := true, mlive := [(0, 1), (1, 1)] }) with
    crs := [(0x304, 2 ^ 32)], dt := 1001 * 23 * 10 ^ 6 }
  ((s.slot 1).placing = true ∧ (s.slot 1).yieldTo = none ∧ (s.slot 1).nextClaim = some 0 ∧ s.holding 0 = false ∧ s.claimFree 0 = true ∧
    s.runsMember 1 0 = none ∧ s.claimant 0 = none) ∧
  ((host.slot 1).placing = true ∧ (host.slot 1).yieldTo = none ∧ (host.slot 1).nextClaim = some 0 ∧ host.holding 0 = true ∧
    ∀ m ∈ (host.core 0).heldEv, m.body ≠ .claim 1) ∧
  ((done.slot 1).placing = true ∧ (done.slot 1).yieldTo = none ∧ (done.slot 1).nextClaim = none ∧
    (done.slot 1).hdr = some { rowOf2 with prio := 3 } ∧ (done.slot 1).members.all done.memberReady = true ∧
    (done.displaceAll (done.slot 1).members).isSome = true) ∧
  ((busy.crGlob 0 0x304).toNat / 2 ^ 32 % 2 ^ 16 = 1 ∧ (busy.slot 1).placing = true ∧ (busy.slot 1).pre443 = false ∧
    (busy.slot 1).placedAt + 1 * 1000 < busy.dtime ∧
    (busy.slot 1).nextClaim = some 0 ∧ busy.runsMember 1 0 = some 0 ∧ busy.slotPrio 0 < busy.slotPrio 1) :=
  by decide +kernel

theorem witness_ModuleEvents :
  let u := (State.reset.setCrGlob 0 0x309 (2 ^ 62 + 3 * 2 ^ 8 + 100 * 2 ^ 16)).setCrGlob 0 0x30a (2 ^ 46)
  let m := State.reset.setCrGlob 0 0x309 (2 ^ 63)
  let l := State.reset.setCrGlob 0 0x305 (2 ^ 24)
  let b := State.reset.setCrGlob 0 0x311 1
  (isHost ((u.crGlob 0 0x30a).toNat / 8 * 8) = true ∧ isHost ((m.crGlob 0 0x30a).toNat / 8 * 8) = false) ∧
  (u.understudy = true ∧ u.ue = [] ∧ u.peerUp = false ∧ u.mirrors = false ∧ Memory.wf u.mem = true ∧
    u.dtime ≤ (0 : Word).toNat + u.hbLimit) ∧ m.mirrors = true ∧ m.understudy = false ∧
  ((b.crGlob 0 0x311).toNat % 16 = 1 ∧ (State.reset.crGlob 0 0x311).toNat % 16 ≠ 2) ∧
  (State.reset.understudy = false ∧ 831 < Config.cores) ∧
  (Config.isX 767 = false ∧ (l.crGlob 0 0x305).getLsbD 24 = true ∧ (l.core 767).curtain = false ∧ (l.core 767).fenced = false) ∧
  256 ≤ (List.replicate 256 (0 : Byte)).length ∧ (List.replicate 255 (0 : Byte)).length < 256 ∧
  255 < 256 ∧ 767 < Config.dTiles ∧ 65535 < 2 ^ 16 ∧ (∀ v ∈ (State.reset.core 831).vq, v.ganged = false) :=
  by decide +kernel

theorem witness_ModuleEvents_boot :
  let img := sha384 [] ++ List.replicate 208 (0 : Byte)
  256 ≤ img.length ∧ img.take 48 = sha384 (img.drop 256) ∧ (List.replicate 256 (0 : Byte)).take 48 ≠ sha384 [] :=
  by decide +kernel

end Sys2Proof.Tests
end

namespace Sys2Proof.Machine

/-! # What leaves memory as it is

One rule per operation of the model that writes no memory, in the order of the model's files. -/

/-! ## The operations of Machine/Ops -/

@[simp] theorem State.mem_setReg (s : State) (p : Place) (code : Nat) (v : Word) :
    (s.setReg p code v).mem = s.mem := by
  unfold State.setReg
  (repeat' split) <;> simp

@[simp] theorem State.mem_enqueue (s : State) (p : Place) (v : Word) : (s.enqueue p v).mem = s.mem := by
  unfold State.enqueue
  split <;> simp

@[simp] theorem State.mem_retire1 (s : State) (p : Place) (w : PendWrite) : (s.retire1 p w).mem = s.mem := by
  unfold State.retire1
  dsimp only
  (repeat' split) <;> simp

@[simp] theorem State.mem_retireDue (s : State) (p : Place) : (s.retireDue p).mem = s.mem := by
  simp [State.retireDue, mem_foldl]

@[simp] theorem State.mem_retireAll (s : State) (p : Place) : (s.retireAll p).mem = s.mem := by
  simp [State.retireAll, mem_foldl]

@[simp] theorem State.mem_land1 (s : State) (p : Place) (code : Nat) (v : Word) : (s.land1 p code v).mem = s.mem := by
  unfold State.land1
  split <;> simp

@[simp] theorem State.mem_landRes (s : State) (p : Place) (r : PendRes) (v : Word) :
    (s.landRes p r v).mem = s.mem := by
  unfold State.landRes
  (repeat' split) <;> simp

@[simp] theorem State.mem_landAll (s : State) (p : Place) : (s.landAll p).mem = s.mem := by
  refine (mem_foldl _ (fun s r => ?_) _ _).trans rfl
  split <;> simp

@[simp] theorem State.mem_toMesh (s : State) (m : Msg) : (s.toMesh m).mem = s.mem := rfl

@[simp] theorem State.mem_raiseUE (s : State) (c : Nat) : (s.raiseUE c).mem = s.mem := rfl

@[simp] theorem State.mem_raiseCE (s : State) (c : Nat) : (s.raiseCE c).mem = s.mem := rfl

@[simp] theorem State.mem_reportUE (s : State) (c sec : Nat) : (s.reportUE c sec).mem = s.mem := by
  simp [State.reportUE]

@[simp] theorem State.mem_mailLand (s : State) (c i m : Nat) (v : Word) : (s.mailLand c i m v).mem = s.mem := rfl

@[simp] theorem State.mem_doorRelease (s : State) (d : Nat) : (s.doorRelease d).mem = s.mem := rfl

@[simp] theorem State.mem_unreserve (s : State) (p : Place) : (s.unreserve p).mem = s.mem := by
  unfold State.unreserve
  split <;> simp

@[simp] theorem State.mem_haltBank (s : State) (p : Place) (cause : Cause) (w : W32) :
    (s.haltBank p cause w).mem = s.mem := by
  simp [State.haltBank]

@[simp] theorem State.mem_enterHandler (s : State) (p : Place) (epc : Word) (kind len : Nat) (parked : Bool) :
    (s.enterHandler p epc kind len parked).mem = s.mem := rfl

@[simp] theorem State.mem_trapAt (s : State) (p : Place) (cause : Cause) (info : Nat) (faddr : Option Word)
    (epc : Word) (len : Nat) (w : W32) :
    (s.trapAt p cause info faddr epc len w).mem = s.mem := by
  unfold State.trapAt
  dsimp only
  split <;> simp

/-! ## The operations of Machine/Coherence -/

@[simp] theorem State.mem_readLine (s : State) (c l : Nat) (secs : BitVec 4) :
    (s.readLine c l secs).1.mem = s.mem := by
  unfold State.readLine
  dsimp only
  (repeat' split) <;> simp

@[simp] theorem State.mem_postExt (s : State) (c i addr : Nat) (bytes : List Byte) :
    (s.postExt c i addr bytes).mem = s.mem := rfl

/-! ## The operations of Machine/Address -/

theorem State.mem_of_joinAt {s : State} {who : Who} {pa : Nat} {t : State} (h : s.joinAt who pa = some t) :
    t.mem = s.mem := by
  grind [State.joinAt]

@[simp] theorem State.mem_leaveHome (s : State) (who : Who) : (s.leaveHome who).mem = s.mem := by
  unfold State.leaveHome
  split <;> simp

@[simp] theorem State.mem_modMmu (s : State) (cl : Nat) (f : Mmu → Mmu) : (s.modMmu cl f).mem = s.mem := rfl

@[simp] theorem State.mem_translate (s : State) (who : Option Who) (c slot va : Nat) (w x : Bool) :
    (s.translate who c slot va w x).1.mem = s.mem := by
  unfold State.translate
  dsimp only
  (repeat' split) <;> simp [mem_foldl]

@[simp] theorem State.mem_place (s : State) (p : Place) (g : Seg) (off n : Nat) (w x : Bool) :
    (s.place p g off n w x).1.mem = s.mem := by
  grind [State.place, State.mem_translate]

@[simp] theorem State.mem_locate (s : State) (p : Place) (seg off n al : Nat) (r w x : Bool) :
    (s.locate p seg off n al r w x).1.mem = s.mem := by
  unfold State.locate
  dsimp only
  split <;> simp

/-! ## The operations of Machine/Effects -/

@[simp] theorem State.mem_holdEvent (s : State) (c : Nat) (b : Body) : (s.holdEvent c b).mem = s.mem := rfl

@[simp] theorem State.mem_doorReserve (s : State) (d : Nat) : (s.doorReserve d).mem = s.mem := rfl

@[simp] theorem State.mem_hold (s : State) (d : Nat) (m : Msg) : (s.hold d m).mem = s.mem := rfl

@[simp] theorem State.mem_sendRst (s : State) (p : Place) (w : Word) (bytes : List Byte) (adaptive : Bool) :
    (s.sendRst p w bytes adaptive).mem = s.mem := by
  unfold State.sendRst
  dsimp only
  (repeat' split) <;> simp

@[simp] theorem State.mem_see (s : State) (c : Nat) (ks : List Nat) : (s.see c ks).mem = s.mem := by
  simp [State.see, mem_foldl]

@[simp] theorem State.mem_wakeRec (s : State) (p : Place) (r : Rec) : (s.wakeRec p r).mem = s.mem := by
  unfold State.wakeRec
  split <;> simp

@[simp] theorem State.mem_landPushes (s : State) (p : Place) : (s.landPushes p).mem = s.mem := by
  simp [State.landPushes, mem_foldl]

@[simp] theorem State.mem_dropPushes (s : State) (p : Place) : (s.dropPushes p).mem = s.mem := by
  unfold State.dropPushes
  dsimp only
  split <;> simp

@[simp] theorem State.mem_hangup (s : State) (p : Place) : (s.hangup p).mem = s.mem := by
  unfold State.hangup
  dsimp only
  split <;> simp

@[simp] theorem State.mem_link (s : State) (a c i : Nat) : (s.link a c i).mem = s.mem := rfl

@[simp] theorem State.mem_chainOp (s : State) (p : Place) (w : Word) : (s.chainOp p w).mem = s.mem := by
  unfold State.chainOp
  dsimp only
  (repeat' split) <;> simp

@[simp] theorem State.mem_releaseGroup (s : State) (p : Place) (g : Nat) : (s.releaseGroup p g).mem = s.mem := by
  unfold State.releaseGroup
  (repeat' split) <;> simp [mem_foldl]

@[simp] theorem State.mem_acquire (s : State) (c : Nat) : (s.acquire c).mem = s.mem := rfl

/-! ## The operations of Machine/Scene -/

@[simp] theorem State.mem_dropScene (s : State) (p : Place) : (s.dropScene p).mem = s.mem := by
  unfold State.dropScene
  dsimp only
  split <;> simp

@[simp] theorem State.mem_discard (s : State) (p : Place) (waits livelock ue : Bool) :
    (s.discard p waits livelock ue).mem = s.mem := by
  unfold State.discard
  dsimp only
  (repeat' split) <;> simp

@[simp] theorem State.mem_extend (s : State) (ts : Nat) (l : List LeaseRec) : (s.extend ts l).1.mem = s.mem := by
  induction l generalizing s with
  | nil => rfl
  | cons r t ih =>
    unfold State.extend
    split <;> simp [ih]

theorem State.mem_of_park {s : State} {p : Place} {off : Word} {slot va : Nat} {sub : Bool} {t : State}
    (h : s.park p off slot va sub = some t) :
    t.mem = s.mem := by
  unfold State.park at h
  dsimp only at h
  (repeat' split at h) <;> simp at h <;> subst h <;> simp

/-! ## The operations of Machine/Operands -/

@[simp] theorem State.mem_trapBad (s : State) (p : Place) (off : Word) (sec : Nat) (pc : Word) (len : Nat) (w : W32) :
    (s.trapBad p off sec pc len w).mem = s.mem := by
  simp [State.trapBad]

@[simp] theorem State.mem_sceneBad (s : State) (p : Place) (sc : Scene) (off : Word) (sec : Nat) (pc : Word)
    (len : Nat) (w : W32) :
    (s.sceneBad p sc off sec pc len w).mem = s.mem := by
  unfold State.sceneBad
  split <;> simp

@[simp] theorem State.mem_uncorrectable (s : State) (p : Place) (off : Word) (sec len : Nat) (w : W32) :
    (s.uncorrectable p off sec len w).mem = s.mem := by
  unfold State.uncorrectable
  dsimp only
  (repeat' split) <;> simp

@[simp] theorem State.mem_fetch (s : State) (p : Place) (off : Word) : (s.fetch p off).1.mem = s.mem := by
  grind [State.fetch, State.mem_locate]

@[simp] theorem State.mem_literals (s : State) (p : Place) (l : List (Nat × Lit)) (off : Word) :
    (s.literals p l off).1.mem = s.mem := by
  obtain ⟨m, k, h⟩ := s.literals_only p l off
  rw [h]

@[simp] theorem State.mem_readCode (s : State) (p : Place) (c : Nat) : (s.readCode p c).1.mem = s.mem := by
  unfold State.readCode
  dsimp only
  (repeat' split) <;> simp

@[simp] theorem State.mem_operands (s : State) (p : Place) (l : List (Nat × Lit)) (lits : List Word) :
    (s.operands p l lits).1.mem = s.mem := by
  induction l generalizing s lits with
  | nil => rfl
  | cons x t ih =>
    unfold State.operands
    split <;> simp [ih]

@[simp] theorem State.mem_countInsn (s : State) (p : Place) (slot : Nat) (w : W32) :
    (s.countInsn p slot w).mem = s.mem := rfl

@[simp] theorem State.mem_putVar (s : State) (p : Place) (h : Shape) (d : Nat) (v : Word) (note : BitVec 32) :
    (s.putVar p h d v note).mem = s.mem := by
  unfold State.putVar
  split <;> simp

@[simp] theorem State.mem_putResult (s : State) (p : Place) (h : Shape) (v : Option Word) :
    (s.putResult p h v).mem = s.mem := by
  unfold State.putResult
  dsimp only
  (repeat' split) <;> simp

@[simp] theorem State.mem_finish (s : State) (x : Ctx) (h : Shape) (hold : BitVec 2) (v : Option Word) (pc : Word) :
    (s.finish x h hold v pc).mem = s.mem := by
  simp [State.finish]

@[simp] theorem State.mem_stall (s : State) (c : Stall) : (s.stall c).mem = s.mem := rfl

@[simp] theorem State.mem_joinHome (s : State) (p : Place) (pa : Nat) (w : Wip) :
    (s.joinHome p pa w).mem = s.mem := by
  unfold State.joinHome
  split
  · next heq => split <;> simp [State.mem_of_joinAt heq]
  · rfl

@[simp] theorem State.mem_trapHere (s : State) (p : Place) (h : Shape) (w : W32) (c : Cause) (info : Nat)
    (faddr : Option Word) :
    (s.trapHere p h w c info faddr).mem = s.mem := by
  simp [State.trapHere]

@[simp] theorem State.mem_meshWait (s : State) (p : Place) (h : Shape) (w : W32) :
    (s.meshWait p h w).mem = s.mem := by
  unfold State.meshWait
  (repeat' split) <;> simp

/-! ## The operations of Machine/Atomic -/

@[simp] theorem State.mem_unpop (s : State) (x : Ctx) (cs : List Nat) : (s.unpop x cs).mem = s.mem := rfl

theorem State.mem_of_hintAt {s : State} {p : Place} {seg : Nat} {off : Word} {y} (h : s.hintAt p seg off = some y) :
    y.1.mem = s.mem := by
  grind [State.hintAt, State.mem_locate]

@[simp] theorem State.mem_moveLine (s : State) (l : Nat) (to_ : Option Nat) : (s.moveLine l to_).mem = s.mem := by
  unfold State.moveLine
  dsimp only
  (repeat' split) <;> simp

/-! ## The operations of Machine/Slots -/

@[simp] theorem State.mem_setSpill (s : State) (c q : Nat) (a : Nat × Nat) : (s.setSpill c q a).mem = s.mem := rfl

theorem State.mem_of_spillIn {s t : State} {c : Nat} (h : s.spillIn c = some t) : t.mem = s.mem := by
  unfold State.spillIn at h
  split at h
  · cases h
  · obtain ⟨l, -, rfl⟩ := Option.map_eq_some_iff.mp h
    simp

/-! ## The operations of Machine/Work -/

@[simp] theorem State.mem_vacate (s : State) (p : Place) : (s.vacate p).mem = s.mem := by
  simp [State.vacate]

@[simp] theorem State.mem_countExit (s : State) (p : Place) : (s.countExit p).mem = s.mem := by
  unfold State.countExit
  dsimp only
  (repeat' split) <;> simp

@[simp] theorem State.mem_countBegin (s : State) (c q : Nat) : (s.countBegin c q).mem = s.mem := rfl

@[simp] theorem State.mem_countSpawn (s : State) (p : Place) : (s.countSpawn p).mem = s.mem := by
  unfold State.countSpawn
  dsimp only
  (repeat' split) <;> simp

@[simp] theorem State.mem_releaseHeld (s : State) (p : Place) : (s.releaseHeld p).mem = s.mem := by
  simp [State.releaseHeld, mem_foldl]

@[simp] theorem State.mem_takeUp (s : State) (p : Place) (r : Rec) (segs : List Seg) :
    (s.takeUp p r segs).mem = s.mem := rfl

@[simp] theorem State.mem_takeUpSlot (s : State) (p : Place) (r : Rec) : (s.takeUpSlot p r).mem = s.mem := rfl

@[simp] theorem State.mem_dropStarts (s : State) (c : Nat) : (s.dropStarts c).mem = s.mem := by
  refine mem_foldl _ (fun s e => ?_) _ _
  split <;> simp

@[simp] theorem State.mem_startIn (s : State) (p : Place) (off : Nat) : (s.startIn p off).mem = s.mem := rfl

@[simp] theorem State.mem_xNext (s : State) (p : Place) : (s.xNext p).mem = s.mem := by
  unfold State.xNext
  dsimp only
  (repeat' split) <;> simp

@[simp] theorem State.mem_reflexStart (s : State) (c off : Nat) : (s.reflexStart c off).mem = s.mem := by
  unfold State.reflexStart
  dsimp only
  (repeat' split) <;> simp

@[simp] theorem State.mem_leave (s : State) (p : Place) : (s.leave p).mem = s.mem := by
  unfold State.leave
  split <;> simp

@[simp] theorem State.mem_exitSeat (s : State) (p : Place) : (s.exitSeat p).mem = s.mem := by
  simp [State.exitSeat]

@[simp] theorem State.mem_killSeat (s : State) (p : Place) : (s.killSeat p).mem = s.mem := by
  simp [State.killSeat]

theorem State.mem_of_takeDeque {s : State} {c : Nat} {y : State × Rec} (h : s.takeDeque c = some y) :
    y.1.mem = s.mem := by
  unfold State.takeDeque at h
  split at h
  · split at h <;> cases h
    rfl
  · cases h

theorem State.mem_of_nextDeque {s : State} {c : Nat} {y : State × Rec} (h : s.nextDeque c = some y) :
    y.1.mem = s.mem := by
  unfold State.nextDeque at h
  split at h
  · next heq =>
    cases h
    exact State.mem_of_takeDeque heq
  · split at h
    · cases h
    · obtain ⟨t, ht, h⟩ := Option.bind_eq_some_iff.mp h
      exact (State.mem_of_takeDeque h).trans (State.mem_of_spillIn ht)

theorem State.mem_of_nextWork {s : State} {c : Nat} {y : State × Rec} (h : s.nextWork c = some y) :
    y.1.mem = s.mem := by
  unfold State.nextWork at h
  dsimp only at h
  split at h
  · split at h <;> cases h
    rfl
  · split at h
    · next heq =>
      cases h
      exact State.mem_of_nextDeque heq
    · split at h
      · cases h
      · split at h <;> cases h
        simp

@[simp] theorem State.mem_takeWork (s : State) (c i : Nat) : (s.takeWork c i).mem = s.mem := by
  unfold State.takeWork
  split
  · split
    · next heq => simpa using State.mem_of_nextWork heq
    · rfl
  · rfl

/-! ## The operations of Machine/Parallel -/

@[simp] theorem State.mem_blockPlace (s : State) (p : Place) (g : Seg) (off : Word) (l : List Nat) :
    (s.blockPlace p g off l).1.mem = s.mem := by
  induction l generalizing s with
  | nil => rfl
  | cons i t ih =>
    have h := s.mem_place p g (off.toNat + 8 * i) 8 true false
    unfold State.blockPlace
    split
    · next s' ks page heq =>
      rw [heq] at h
      have h' := ih s'
      split <;> next heq' => rw [heq'] at h'; exact h'.trans h
    · next heq => rwa [heq] at h

@[simp] theorem State.mem_blockAt (s : State) (p : Place) (off : Word) (n m : Nat) :
    (s.blockAt p off n m).1.mem = s.mem := by
  grind [State.blockAt, State.mem_blockPlace]

@[simp] theorem State.mem_breakWaiting (s : State) (ms : List Nat) (n : Nat) : (s.breakWaiting ms n).mem = s.mem := by
  simp [State.breakWaiting, mem_foldl]

/-! ## The operations of Machine/ScalarFloat -/

@[simp] theorem State.mem_cvtPut (s : State) (p : Place) (h : Shape) (d : Nat) (note : BitVec 32) (v : Word) :
    (s.cvtPut p h d note v).1.mem = s.mem := by
  unfold State.cvtPut
  split <;> simp

/-! ## The operations of Machine/Engine -/

@[simp] theorem State.mem_modHead (s : State) (c key : Nat) (f : ECmd → ECmd) : (s.modHead c key f).mem = s.mem := rfl

@[simp] theorem State.mem_chargeStep (s : State) (e : ECmd) (units : Nat) : (s.chargeStep e units).mem = s.mem := by
  unfold State.chargeStep
  split <;> simp

@[simp] theorem State.mem_engCount (s : State) (c eng n k : Nat) : (s.engCount c eng n k).mem = s.mem := rfl

@[simp] theorem State.mem_unitCount (s : State) (u eng n k : Nat) : (s.unitCount u eng n k).mem = s.mem := rfl

@[simp] theorem State.mem_complete (s : State) (c key : Nat) : (s.complete c key).mem = s.mem := by
  unfold State.complete
  split <;> simp

@[simp] theorem State.mem_joinTs (s : State) (c : Nat) (sel : Nat → Nat → Bool) : (s.joinTs c sel).mem = s.mem := rfl

@[simp] theorem State.mem_engFault (s : State) (c key cause : Nat) (faddr : Word) :
    (s.engFault c key cause faddr).mem = s.mem := by
  unfold State.engFault
  split <;> simp

@[simp] theorem State.mem_engReportUE (s : State) (e : ECmd) (sec : Nat) : (s.engReportUE e sec).mem = s.mem := by
  simp [State.engReportUE]

@[simp] theorem State.mem_engBad (s : State) (c key sec : Nat) (faddr : Word) :
    (s.engBad c key sec faddr).mem = s.mem := by
  unfold State.engBad
  (repeat' split) <;> simp

@[simp] theorem State.mem_parkCmd (s : State) (c key slot va : Nat) (sub : Bool) (faddr : Word) :
    (s.parkCmd c key slot va sub faddr).mem = s.mem := by
  unfold State.parkCmd
  dsimp only
  (repeat' split) <;> simp

@[simp] theorem State.mem_engPost (s : State) (e : ECmd) (dst : Nat) (vdst : Option Nat) (tag : Nat) (b : Body) :
    (s.engPost e dst vdst tag b).mem = s.mem := by
  simp [State.engPost]

@[simp] theorem State.mem_engHold (s : State) (e : ECmd) (vdst : Option Nat) (tag : Nat) (b : Body) :
    (s.engHold e vdst tag b).mem = s.mem := rfl

theorem State.mem_of_engStore {s : State} {e : ECmd} {key : Nat} {w : Word} {bytes : List Byte}
    {more : optParam (List (Nat × List Byte)) []} {t : State} (h : s.engStore e key w bytes more = .ok t) :
    t.mem = s.mem := by
  grind [State.engStore, State.mem_engPost, State.mem_engHold]

theorem State.mem_of_engWake {s : State} {e : ECmd} {key : Nat} {w v : Word} {t : State}
    (h : s.engWake e key w v = some t) :
    t.mem = s.mem := by
  grind [State.engWake, State.mem_engPost, State.mem_engHold, State.mem_mailLand]

theorem State.mem_engFinish {s : State} {c key : Nat} {e : ECmd} {w v : Word} {ack room fin : State → State}
    (ha : ∀ s, (ack s).mem = s.mem) (hr : ∀ s, (room s).mem = s.mem) (hf : ∀ s, (fin s).mem = s.mem) :
    (s.engFinish c key e w v ack room fin).mem = s.mem := by
  unfold State.engFinish
  split
  · exact ha s
  split
  · rfl
  split
  · exact hf s
  split
  · exact hr s
  · next heq =>
    dsimp only
    split <;> simp [hf, State.mem_of_engWake heq]

@[simp] theorem State.mem_engJoin (s : State) (c id pa : Nat) : (s.engJoin c id pa).mem = s.mem := by
  unfold State.engJoin
  cases heq : s.joinAt (.eng c id) pa with
  | none => rfl
  | some t => exact State.mem_of_joinAt heq

/-! ## The operations of Machine/Matrix -/

@[simp] theorem State.mem_modSched (s : State) (cl : Nat) (f : Sched → Sched) : (s.modSched cl f).mem = s.mem := rfl

@[simp] theorem State.mem_taskReport (s : State) (c i q : Nat) (faddr : Word) :
    (s.taskReport c i q faddr).mem = s.mem := by
  simp [State.taskReport]

@[simp] theorem State.mem_matCount (s : State) (e : ECmd) (clk energy : Nat) (skip : Bool) :
    (s.matCount e clk energy skip).mem = s.mem := by
  unfold State.matCount
  split <;> simp

@[simp] theorem State.mem_matWait (s : State) (e : ECmd) : (s.matWait e).mem = s.mem := by
  unfold State.matWait
  split <;> simp

@[simp] theorem State.mem_blockWait (s : State) (e : ECmd) (x2 : EFound) : (s.blockWait e x2).mem = s.mem := by
  unfold State.blockWait
  split <;> simp

@[simp] theorem State.mem_accZero (s : State) (c : Nat) (ts : List Nat) : (s.accZero c ts).mem = s.mem := rfl

@[simp] theorem State.mem_mzeroStep (s : State) (c key : Nat) : (s.mzeroStep c key).mem = s.mem := by
  unfold State.mzeroStep
  (repeat' split) <;> simp

@[simp] theorem State.mem_drainStep (s : State) (c key : Nat) (e : ECmd) (t n ts : Nat) (note : BitVec 32) :
    (s.drainStep c key e t n ts note).mem = s.mem := by
  unfold State.drainStep
  split <;> simp

@[simp] theorem State.mem_engResume (s : State) (c key : Nat) : (s.engResume c key).mem = s.mem := rfl

@[simp] theorem State.mem_engAbort (s : State) (c key : Nat) : (s.engAbort c key).mem = s.mem := by
  unfold State.engAbort
  split <;> simp

/-! ## The operations of Machine/Caddy -/

@[simp] theorem State.mem_modBox (s : State) (die mb : Nat) (f : Mailbox → Mailbox) :
    (s.modBox die mb f).mem = s.mem := rfl

@[simp] theorem State.mem_caddyCount (s : State) (die n : Nat) : (s.caddyCount die n).mem = s.mem := rfl

@[simp] theorem State.mem_caddyUE (s : State) (die : Nat) : (s.caddyUE die).mem = s.mem := rfl

@[simp] theorem State.mem_caddyDone (s : State) (c key die : Nat) (e : ECmd) :
    (s.caddyDone c key die e).mem = s.mem := by
  simp [State.caddyDone]

@[simp] theorem State.mem_caddyFlip (s : State) (die mb : Nat) : (s.caddyFlip die mb).mem = s.mem := by
  unfold State.caddyFlip
  dsimp only
  (repeat' split) <;> simp

@[simp] theorem State.mem_supersede (s : State) (die mb : Nat) : (s.supersede die mb).mem = s.mem := by
  unfold State.supersede
  dsimp only
  (repeat' split) <;> simp

@[simp] theorem State.mem_cpostStart (s : State) (c key : Nat) (e : ECmd) : (s.cpostStart c key e).mem = s.mem := by
  unfold State.cpostStart
  dsimp only
  (repeat' split) <;> simp

@[simp] theorem State.mem_cpostEnd (s : State) (c key die mb : Nat) (e : ECmd) (count : Nat) :
    (s.cpostEnd c key die mb e count).mem = s.mem := by
  simp [State.cpostEnd]

@[simp] theorem State.mem_cpublApply (s : State) (c q : Nat) : (s.cpublApply c q).mem = s.mem := by
  unfold State.cpublApply
  dsimp only
  (repeat' split) <;> simp

@[simp] theorem State.mem_creadStart (s : State) (c key : Nat) (e : ECmd) : (s.creadStart c key e).mem = s.mem := by
  unfold State.creadStart
  dsimp only
  (repeat' split) <;> simp

/-! ## The operations of Machine/Supervisor -/

@[simp] theorem State.mem_unpark (s : State) (p : Place) : (s.unpark p).mem = s.mem := rfl

@[simp] theorem State.mem_wakeEntry (s : State) (e : Park) : (s.wakeEntry e).mem = s.mem :=
  (mem_foldl _ (fun _ _ => State.mem_modQueue ..) _ _).trans (mem_foldl _ (fun _ _ => State.mem_modBank ..) _ _)

@[simp] theorem State.mem_pageWake (s : State) (v : Word) : (s.pageWake v).mem = s.mem := by
  simp [State.pageWake, mem_foldl]

@[simp] theorem State.mem_disband (s : State) (c : Nat) : (s.disband c).mem = s.mem := by
  unfold State.disband
  dsimp only
  split
  · rfl
  · refine (mem_foldl _ (fun _ _ => State.mem_trapAt ..) _ _).trans ?_
    exact mem_foldl _ (fun _ _ => State.mem_modCore ..) _ _

@[simp] theorem State.mem_abandon (s : State) (p : Place) : (s.abandon p).mem = s.mem := by
  unfold State.abandon
  dsimp only
  split <;> simp

@[simp] theorem State.mem_preemptSeat (s : State) (p : Place) : (s.preemptSeat p).mem = s.mem := by
  unfold State.preemptSeat
  dsimp only
  split <;> simp

@[simp] theorem State.mem_preDone (s : State) (c : Nat) : (s.preDone c).mem = s.mem := by
  unfold State.preDone
  split <;> simp

@[simp] theorem State.mem_resendEngine (s : State) (c : Nat) (w : Word) (bytes : List Byte) (tag : Nat) :
    (s.resendEngine c w bytes tag).mem = s.mem := by
  unfold State.resendEngine
  (repeat' split) <;> simp

theorem State.mem_of_resend1 {s : State} {c late a : Nat} {t : State}
    (h : s.resend1 c late a = some t) :
    t.mem = s.mem := by
  grind [State.resend1, State.mem_post, State.mem_hold, State.mem_mailLand, State.mem_resendEngine, State.mem_sendRst]

@[simp] theorem State.mem_resendFrom (s : State) (c late n a : Nat) : (s.resendFrom c late n a).1.mem = s.mem := by
  induction n generalizing s a with
  | zero => rfl
  | succ n ih =>
    unfold State.resendFrom
    split
    · next heq => rw [ih, State.mem_of_resend1 heq]
    · rfl

@[simp] theorem State.mem_swResume (s : State) (p : Place) : (s.swResume p).mem = s.mem := by
  unfold State.swResume
  (repeat' split) <;> simp

@[simp] theorem State.mem_swKill (s : State) (p : Place) : (s.swKill p).mem = s.mem := by
  unfold State.swKill
  (repeat' split) <;> simp

@[simp] theorem State.mem_curtSend (s : State) (part : Nat) (up : Bool) : (s.curtSend part up).mem = s.mem :=
  mem_foldl _ (fun _ _ => State.mem_modCore ..) _ _

@[simp] theorem State.mem_curtHalt (s : State) (c : Nat) : (s.curtHalt c).mem = s.mem := by
  unfold State.curtHalt
  dsimp only
  (repeat' split) <;> simp [mem_foldl]

@[simp] theorem State.mem_curtResume (s : State) (c : Nat) : (s.curtResume c).mem = s.mem := by
  unfold State.curtResume
  split <;> simp

@[simp] theorem State.mem_machineCheck (s : State) (c : Nat) : (s.machineCheck c).mem = s.mem := by
  unfold State.machineCheck
  rw [State.mem_curtSend, State.mem_faultMsg]
  refine mem_foldl _ (fun s p => ?_) _ _
  split
  · simp
  · simp
  · split <;> rfl
  · rfl

/-! ## The operations of Machine/Launch -/

@[simp] theorem State.mem_placeV (s : State) (v c : Nat) : (s.placeV v c).mem = s.mem := rfl

@[simp] theorem State.mem_startEnsemble (s : State) (q : Nat) (h : Header) : (s.startEnsemble q h).mem = s.mem := by
  unfold State.startEnsemble
  dsimp only
  split
  · refine (mem_foldl _ (fun s i => ?_) _ _).trans ?_
    · split <;> simp
    · rw [mem_foldl _ fun s i => by simp, State.mem_modSlot]
  · rw [mem_foldl _ fun s i => by simp, State.mem_modSlot]

@[simp] theorem State.mem_claim (s : State) (q c : Nat) : (s.claim q c).mem = s.mem := by
  unfold State.claim
  split <;> simp

@[simp] theorem State.mem_wave (s : State) (q : Nat) : (s.wave q).mem = s.mem := by
  unfold State.wave
  dsimp only
  (repeat' split) <;> simp [mem_foldl]

/-! ## The operations of Machine/Device -/

@[simp] theorem State.mem_devReport (s : State) (c : Cause) (w1 w2 : Nat) : (s.devReport c w1 w2).mem = s.mem := by
  simp [State.devReport]

@[simp] theorem State.mem_slotPark (s : State) (q va : Nat) (sub : Bool) (back : Phase) :
    (s.slotPark q va sub back).mem = s.mem := by
  simp [State.slotPark]

@[simp] theorem State.mem_queueRefuse (s : State) (qidx kind : Nat) : (s.queueRefuse qidx kind).mem = s.mem := by
  simp [State.queueRefuse]

@[simp] theorem State.mem_wdogStep (s : State) (q step : Nat) : (s.wdogStep q step).mem = s.mem := rfl

@[simp] theorem State.mem_mapQueue (s : State) (q qidx : Nat) : (s.mapQueue q qidx).mem = s.mem := by
  unfold State.mapQueue
  extract_lets
  split
  · exact State.mem_queueRefuse ..
  · split <;> rfl

@[simp] theorem State.mem_doorbell (s : State) (v : Word) : (s.doorbell v).mem = s.mem := by
  unfold State.doorbell
  dsimp only
  (repeat' split) <;> simp

@[simp] theorem State.mem_ringWaiting (s : State) : (s.ringWaiting).mem = s.mem := by
  simp [State.ringWaiting, mem_foldl]

@[simp] theorem State.mem_slotFree (s : State) (q : Nat) : (s.slotFree q).mem = s.mem := by
  unfold State.slotFree
  dsimp only
  split <;> simp

/-! ## The operations of Machine/Copy -/

@[simp] theorem State.mem_copyComplete (s : State) (c ch : Nat) : (s.copyComplete c ch).mem = s.mem := by
  unfold State.copyComplete
  split <;> simp

@[simp] theorem State.mem_copyAdvance (s : State) (c ch : Nat) (e : ECmd) (n bytes ts : Nat) (note : BitVec 32) :
    (s.copyAdvance c ch e n bytes ts note).mem = s.mem := by
  unfold State.copyAdvance
  split <;> simp

theorem State.mem_of_copySend {s t : State} {e : ECmd} {key w : Nat} {l : List (Nat × List Byte)}
    (h : s.copySend e key w l = .ok t) : t.mem = s.mem := by
  cases l with
  | nil =>
    cases h
    rfl
  | cons x l => exact State.mem_of_engStore h

@[simp] theorem State.mem_copyEnd (s : State) (c ch : Nat) (e : ECmd) : (s.copyEnd c ch e).mem = s.mem :=
  State.mem_engFinish (by simp) (by simp) (by simp)

@[simp] theorem State.mem_copyStart (s : State) (c ch : Nat) (e : ECmd) : (s.copyStart c ch e).mem = s.mem := by
  unfold State.copyStart
  dsimp only
  (repeat' split) <;> simp

@[simp] theorem State.mem_copyAbort (s : State) (c ch : Nat) : (s.copyAbort c ch).mem = s.mem := by
  unfold State.copyAbort
  split <;> simp

/-! ## The operations of Machine/Grammar -/

theorem State.mem_of_gramHead {s : State} {c q op : Nat} {y} (h : s.gramHead c q op = some y) :
    y.1.mem = s.mem := by
  grind [State.gramHead, State.mem_modHead]

@[simp] theorem State.mem_gramFault (s : State) (c q : Nat) (cause : Cause) (e : ECmd) :
    (s.gramFault c q cause e).mem = s.mem := by
  simp [State.gramFault]

@[simp] theorem State.mem_gramEnergy (s : State) (e : ECmd) (miss : Bool) : (s.gramEnergy e miss).mem = s.mem := by
  simp [State.gramEnergy]

@[simp] theorem State.mem_gcacheAdd (s : State) (cl : Nat) (g : GEntry) : (s.gcacheAdd cl g).mem = s.mem := rfl

@[simp] theorem State.mem_gmaskSet (s : State) (c q t : Nat) (aux : EAux) : (s.gmaskSet c q t aux).mem = s.mem := rfl

@[simp] theorem State.mem_gmaskEnd (s : State) (c q : Nat) (e : ECmd) : (s.gmaskEnd c q e).mem = s.mem :=
  State.mem_engFinish (by simp) (by simp) (by simp)

@[simp] theorem State.mem_gflushApply (s : State) (c q : Nat) : (s.gflushApply c q).mem = s.mem := by
  unfold State.gflushApply
  split
  · rfl
  · next heq => simpa using State.mem_of_gramHead heq

/-! ## The operations of Machine/Sampler -/

@[simp] theorem State.mem_sampEnergy (s : State) (e : ECmd) (scan : Bool) : (s.sampEnergy e scan).mem = s.mem := by
  simp [State.sampEnergy]

@[simp] theorem State.mem_sampSet (s : State) (c key t : Nat) (aux : EAux) :
    (s.sampSet c key t aux).mem = s.mem := rfl

theorem State.mem_of_sampHead {s : State} {c q : Nat} {y} (h : s.sampHead c q = some y) :
    y.1.mem = s.mem := by
  grind [State.sampHead, State.mem_modHead]

@[simp] theorem State.mem_sampWait (s : State) (c q : Nat) (t : Samp) (on : Bool) :
    (s.sampWait c q t on).mem = s.mem := by
  unfold State.sampWait
  split <;> simp

@[simp] theorem State.mem_sampGather (s : State) (c q : Nat) : (s.sampGather c q).mem = s.mem := by
  unfold State.sampGather
  split
  · rfl
  · next heq =>
    have h := State.mem_of_sampHead heq
    dsimp only at h ⊢
    split
    · exact h
    · split
      · simp [h]
      · split <;> simp [h]

theorem State.mem_of_sendWinner {s : State} {e : ECmd} {q : Nat} {w : Winner} {t : State}
    (h : s.sendWinner e q w = .ok t) :
    t.mem = s.mem := by
  grind [State.sendWinner, State.mem_engPost, State.mem_engHold]

@[simp] theorem State.mem_sampEnd (s : State) (c q : Nat) (e : ECmd) : (s.sampEnd c q e).mem = s.mem :=
  State.mem_engFinish (by simp) (by simp) (by simp)

@[simp] theorem State.mem_sampGone (s : State) (c q : Nat) (e : ECmd) (ts : Nat) (t : Samp) :
    (s.sampGone c q e ts t).mem = s.mem := by
  simp [State.sampGone]

@[simp] theorem State.mem_sampDone (s : State) (c q : Nat) (e : ECmd) (ts : Nat) (t : Samp) :
    (s.sampDone c q e ts t).mem = s.mem := by
  unfold State.sampDone
  (repeat' split) <;> simp

@[simp] theorem State.mem_sampResume (s : State) (c q : Nat) : (s.sampResume c q).mem = s.mem := rfl

@[simp] theorem State.mem_sampAbort (s : State) (c q : Nat) : (s.sampAbort c q).mem = s.mem := by
  unfold State.sampAbort
  (repeat' split) <;> simp

/-! ## The operations of Machine/Save -/

@[simp] theorem State.mem_restoreBytes (s : State) (c : Nat) (row : SaveRow) (bs : List Byte) :
    (s.restoreBytes c row bs).mem = s.mem := by
  unfold State.restoreBytes
  split <;> simp

@[simp] theorem State.mem_saveNext (s : State) (c : Nat) (e : ECmd) : (s.saveNext c e).mem = s.mem := by
  simp [State.saveNext]

@[simp] theorem State.mem_saveRow (s : State) (c : Nat) : (s.saveRow c).mem = s.mem := rfl

@[simp] theorem State.mem_saveFull (s : State) (c base : Nat) (e : ECmd) : (s.saveFull c base e).mem = s.mem := by
  simp [State.saveFull]

@[simp] theorem State.mem_restoreHeader (s : State) (c : Nat) (bs : List Byte) :
    (s.restoreHeader c bs).mem = s.mem := by
  unfold State.restoreHeader
  rw [State.mem_modCore, mem_foldl _ fun _ _ => State.mem_setCrCore ..]

/-! ## The operations of Machine/Stream -/

@[simp] theorem State.mem_sxCount (s : State) (die n : Nat) : (s.sxCount die n).mem = s.mem := rfl

@[simp] theorem State.mem_sxDone (s : State) (e : SEvent) : (s.sxDone e).mem = s.mem := by
  unfold State.sxDone
  (repeat' split) <;> simp

@[simp] theorem State.mem_sxEnergy (s : State) (die : Nat) (e : ECmd) : (s.sxEnergy die e).mem = s.mem := by
  simp [State.sxEnergy]

theorem State.mem_sxBad {s : State} {c key sec : Nat} {drop : State → State} (h : ∀ s, (drop s).mem = s.mem) :
    (s.sxBad c key sec drop).mem = s.mem := by
  unfold State.sxBad
  split
  · split <;> simp [h]
  · rfl

/-! ## The operations of Machine/EngineRegs -/

@[simp] theorem State.mem_sharedSet (s : State) (c eng n : Nat) (v : Word) : (s.sharedSet c eng n v).mem = s.mem := by
  unfold State.sharedSet
  split <;> simp

@[simp] theorem State.mem_cwpJoin (s : State) (c ch : Nat) : (s.cwpJoin c ch).mem = s.mem := by
  unfold State.cwpJoin
  dsimp only
  (repeat' split) <;> simp

/-! ## The operations of Machine/Seizure -/

@[simp] theorem State.mem_szgrpWrite (s : State) (g : Nat) (v : Word) : (s.szgrpWrite g v).mem = s.mem := by
  unfold State.szgrpWrite
  dsimp only
  split
  · rfl
  · exact (mem_foldl _ (fun _ _ => State.mem_modCore ..) _ _).trans rfl

@[simp] theorem State.mem_setAside (s : State) (c : Nat) : (s.setAside c).mem = s.mem := by
  unfold State.setAside
  dsimp only
  split
  · rfl
  · rw [State.mem_modCore]
    split
    · rfl
    · split
      · exact (State.mem_discard ..).trans (State.mem_retireAll ..)
      · exact State.mem_retireAll ..

theorem State.mem_of_seizeArrive {s : State} {c g pos : Nat} {r : Rec} {t : State}
    (h : s.seizeArrive c g pos r = some t) :
    t.mem = s.mem := by
  unfold State.seizeArrive at h
  dsimp only at h
  (repeat' split at h) <;> simp at h <;> subst h <;> simp

theorem State.mem_of_asideDone {s t : State} {c : Nat} (h : s.asideDone c = some t) : t.mem = s.mem := by
  unfold State.asideDone at h
  split at h
  · cases h
    rfl
  · split at h <;> cases h
    simp

@[simp] theorem State.mem_seizeTakeUp (s : State) (c : Nat) : (s.seizeTakeUp c).mem = s.mem := by
  unfold State.seizeTakeUp
  split
  · next heq =>
    split
    · rfl
    · simp [State.mem_of_asideDone heq]
  · rfl

theorem State.mem_of_releaseArrive {s t : State} {c g : Nat} (h : s.releaseArrive c g = some t) : t.mem = s.mem := by
  unfold State.releaseArrive at h
  split at h
  · cases h
    rfl
  · obtain ⟨u, hu, rfl⟩ := Option.map_eq_some_iff.mp h
    dsimp only
    split <;> simp [State.mem_of_asideDone hu]

/-! ## The operations of Machine/Vector -/

@[simp] theorem State.mem_setVreg (s : State) (c r : Nat) (v : BitVec 2048) : (s.setVreg c r v).mem = s.mem := rfl

@[simp] theorem State.mem_setKreg (s : State) (c k : Nat) (v : Word) : (s.setKreg c k v).mem = s.mem := by
  unfold State.setKreg
  split <;> simp

@[simp] theorem State.mem_venq (s : State) (x : Ctx) (form : Form) (sb : Word) (lanes : List (Nat × Nat))
    (res ganged resv : Bool) :
    (s.venq x form sb lanes res ganged resv).1.mem = s.mem := rfl

@[simp] theorem State.mem_vresult (s : State) (x : Ctx) (d id : Nat) : (s.vresult x d id).mem = s.mem := by
  unfold State.vresult
  (repeat' split) <;> simp

@[simp] theorem State.mem_vnote (s : State) (p : Place) (sc : Nat) (n : BitVec 32) :
    (s.vnote p sc n).mem = s.mem := by
  unfold State.vnote
  split <;> simp

@[simp] theorem State.mem_vread4 (s : State) (p : Place) (v : VCmd) (k : Nat) : (s.vread4 p v k).1.mem = s.mem := by
  unfold State.vread4
  dsimp only
  (repeat' split) <;> simp

@[simp] theorem State.mem_vecBad (s : State) (p : Place) (v : VCmd) (k : Nat) : (s.vecBad p v k).mem = s.mem := by
  unfold State.vecBad
  split <;> simp

@[simp] theorem State.mem_vreadLanes (s : State) (p : Place) (v : VCmd) (l : List (Nat × Nat)) :
    (s.vreadLanes p v l).1.mem = s.mem := by
  induction l generalizing s with
  | nil => rfl
  | cons x t ih =>
    unfold State.vreadLanes
    split <;> simp [ih]

@[simp] theorem State.mem_vdeliver (s : State) (p : Place) (v : VCmd) (r : Word) :
    (s.vdeliver p v r).mem = s.mem := rfl

@[simp] theorem State.mem_vremote (s : State) (p : Place) (v : VCmd) (adaptive : Bool) (bytes : List Byte) :
    (s.vremote p v adaptive bytes).mem = s.mem := by
  unfold State.vremote
  (repeat' split) <;> simp

@[simp] theorem State.mem_performV (s : State) (p : Place) (v : VCmd) (op : OpV) (f : FmtV) :
    (s.performV p v op f).mem = s.mem := by
  grind [State.performV, mem_foldl, State.mem_setKreg, State.mem_setVreg, State.mem_vnote]

@[simp] theorem State.mem_performGang (s : State) (members : List (Nat × Nat)) :
    (s.performGang members).mem = s.mem :=
  (mem_foldl _ (fun _ _ => State.mem_modCore ..) _ _).trans (mem_foldl _ (fun _ _ => State.mem_setVreg ..) _ _)

/-! ## The operations of Machine/Net -/

@[simp] theorem State.mem_refuse (s : State) (c : Nat) (m : Msg) (word : Word) : (s.refuse c m word).mem = s.mem := by
  simp [State.refuse]

@[simp] theorem State.mem_bounceArrive (s : State) (c seat off : Nat) (word : Word) :
    (s.bounceArrive c seat off word).mem = s.mem := by
  unfold State.bounceArrive
  (repeat' split) <;> simp

theorem State.mem_of_mailArrive {s : State} {c i x : Nat} {v : Word} {t : State}
    (h : s.mailArrive c i x v = some t) :
    t.mem = s.mem := by
  unfold State.mailArrive at h
  split at h <;> simp at h
  subst h
  rfl

@[simp] theorem State.mem_taken (s : State) (c : Nat) (m : Msg) : (s.taken c m).mem = s.mem := rfl

@[simp] theorem State.mem_loadArrive (s : State) (p : Place) (k : Nat) : (s.loadArrive p k).mem = s.mem := by
  unfold State.loadArrive
  (repeat' split) <;> simp

@[simp] theorem State.mem_ptsTick (s : State) (c : Nat) : (s.ptsTick c).mem = s.mem := by
  unfold State.ptsTick
  split <;> simp

@[simp] theorem State.mem_upset (s : State) (x1 : Upset) : (s.upset x1).mem = s.mem := by
  unfold State.upset
  (repeat' split) <;> simp

@[simp] theorem State.mem_meshTurn (s : State) (c : Nat) (stop : Bool) : (s.meshTurn c stop).mem = s.mem := by
  unfold State.meshTurn
  split
  · rfl
  · exact (mem_foldl _ (fun _ _ => State.mem_toMesh ..) _ _).trans rfl

@[simp] theorem State.mem_timerFire (s : State) (c t : Nat) : (s.timerFire c t).mem = s.mem := by
  unfold State.timerFire
  dsimp only
  (repeat' split) <;> simp

/-! ## The operations of Machine/Module -/

@[simp] theorem State.mem_mirrorAck (s : State) (n : Word) : (s.mirrorAck n).mem = s.mem := rfl

@[simp] theorem State.mem_heartbeat (s : State) : (s.heartbeat).mem = s.mem := by
  unfold State.heartbeat
  dsimp only
  (repeat' split) <;> simp

@[simp] theorem State.mem_xMirror (s : State) (rows : List (Nat × Nat × List Byte)) :
    (s.xMirror rows).mem = s.mem := by
  unfold State.xMirror
  (repeat' split) <;> simp

@[simp] theorem State.mem_peerFence (s : State) : s.peerFence.mem = s.mem := by
  unfold State.peerFence
  generalize allCores = cs
  split
  · rfl
  · exact mem_foldl _ (fun _ _ => State.mem_modCore ..) _ _

@[simp] theorem State.mem_peerBeat (s : State) : (s.peerBeat).mem = s.mem := rfl

@[simp] theorem State.mem_linkLoss (s : State) : s.linkLoss.mem = s.mem := by
  unfold State.linkLoss
  rw [State.mem_faultMsg, State.mem_faultMsg, mem_foldl _ fun _ _ => State.mem_curtSend ..]
  refine (mem_foldl _ (fun s m => ?_) _ _).trans rfl
  split
  · simp
  · split
    · split <;> simp
    · rfl

@[simp] theorem State.mem_loadExchange (s : State) (c : Nat) : (s.loadExchange c).mem = s.mem := by
  refine (mem_foldl _ (fun s d => ?_) _ _).trans rfl
  split <;> rfl

@[simp] theorem State.mem_loadSend (s : State) (c dir : Nat) : (s.loadSend c dir).mem = s.mem := by
  unfold State.loadSend
  dsimp only
  (repeat' split) <;> simp

@[simp] theorem State.mem_loadAverage (s : State) (c dir : Nat) : (s.loadAverage c dir).mem = s.mem := by
  unfold State.loadAverage
  dsimp only
  (repeat' split) <;> simp

@[simp] theorem State.mem_powerStep (s : State) (w : Nat) : (s.powerStep w).mem = s.mem := by
  refine (mem_foldl _ (fun s c => ?_) _ _).trans rfl
  split <;> rfl

@[simp] theorem State.mem_ptmCorrect (s : State) (ppm : Int) : (s.ptmCorrect ppm).mem = s.mem := rfl

@[simp] theorem State.mem_setBoot (s : State) (err stage : Nat) : (s.setBoot err stage).mem = s.mem := rfl

@[simp] theorem State.mem_sigReport (s : State) : (s.sigReport).mem = s.mem := by
  unfold State.sigReport
  split <;> simp

@[simp] theorem State.mem_bootImage (s : State) (img : List Byte) (wellFormed : Bool) (key : KeyCheck) :
    (s.bootImage img wellFormed key).mem = s.mem := by
  unfold State.bootImage
  dsimp only
  split
  · simp
  split
  · simp
  · rw [State.mem_setBoot, mem_foldl _ fun s n => State.mem_setCrGlob ..]

@[simp] theorem State.mem_firmwareOn (s : State) (c : Nat) : (s.firmwareOn c).mem = s.mem := rfl

@[simp] theorem State.mem_firmwareStart (s : State) : (s.firmwareStart).mem = s.mem := by
  unfold State.firmwareStart
  dsimp only
  (repeat' split) <;> simp

@[simp] theorem State.mem_moduleReset (s : State) : (s.moduleReset).mem = s.mem := rfl

/-! ## The operations of Machine/Paging -/

@[simp] theorem State.mem_lineMigrate (s : State) (l : Nat) : (s.lineMigrate l).mem = s.mem := by
  unfold State.lineMigrate
  split <;> simp

@[simp] theorem State.mem_l1Inv (s : State) (c : Nat) : (s.l1Inv c).mem = s.mem := rfl

@[simp] theorem State.mem_grhostWrite (s : State) (c : Nat) (v : Word) : (s.grhostWrite c v).mem = s.mem := by
  unfold State.grhostWrite
  split <;> simp

@[simp] theorem State.mem_migAck (s : State) (d : Nat) (v : Word) : (s.migAck d v).mem = s.mem := rfl

@[simp] theorem State.mem_moveGo (s : State) (d : Nat) : (s.moveGo d).mem = s.mem := by
  unfold State.moveGo
  split <;> simp

@[simp] theorem State.mem_moveEnd (s : State) (d : Nat) : (s.moveEnd d).mem = s.mem := by
  unfold State.moveEnd
  dsimp only
  (repeat' split) <;> simp

@[simp] theorem State.mem_tlbDrop (s : State) (v : Nat) : (s.tlbDrop v).mem = s.mem := rfl

@[simp] theorem State.mem_tlbInvWrite (s : State) (v : Word) : (s.tlbInvWrite v).mem = s.mem := by
  unfold State.tlbInvWrite
  split <;> simp

@[simp] theorem State.mem_tlbInvDone (s : State) : (s.tlbInvDone).mem = s.mem := by
  unfold State.tlbInvDone
  split <;> simp

/-! ## The operations of Machine/Watchdog -/

@[simp] theorem State.mem_dropCmds (s : State) (p : ECmd → Bool) : (s.dropCmds p).mem = s.mem := rfl

@[simp] theorem State.mem_wdogTake (s : State) (q step : Nat) : (s.wdogTake q step).mem = s.mem := rfl

@[simp] theorem State.mem_wdogKick (s : State) (q : Nat) : (s.wdogKick q).mem = s.mem := rfl

@[simp] theorem State.mem_exitRecs (s : State) (q c n : Nat) : (s.exitRecs q c n).mem = s.mem := by
  unfold State.exitRecs
  split <;> simp

@[simp] theorem State.mem_dropRecs (s : State) (q c : Nat) : (s.dropRecs q c).mem = s.mem := by
  simp [State.dropRecs]

@[simp] theorem State.mem_dropNet (s : State) (q : Nat) : (s.dropNet q).mem = s.mem := by
  simp [State.dropNet, mem_foldl]

@[simp] theorem State.mem_killAll (s : State) (q : Nat) : (s.killAll q).mem = s.mem := by
  refine mem_foldl _ (fun s p => ?_) _ _
  dsimp only
  split <;> simp

@[simp] theorem State.mem_exitV (s : State) (q : Nat) : (s.exitV q).mem = s.mem := by
  unfold State.exitV
  split <;> simp [mem_foldl]

@[simp] theorem State.mem_fence (s : State) (c : Nat) : (s.fence c).mem = s.mem := rfl

@[simp] theorem State.mem_wdogFence (s : State) (q : Nat) : (s.wdogFence q).mem = s.mem := by
  unfold State.wdogFence
  split <;> simp [mem_foldl]

/-! ## The operations of Machine/ControlRegs -/

@[simp] theorem State.mem_crPlain (s : State) (c n : Nat) (v : Word) : (s.crPlain c n v).mem = s.mem := by
  unfold State.crPlain
  split <;> simp

@[simp] theorem State.mem_swErr (s : State) (p : Place) : (s.swErr p).mem = s.mem := rfl

@[simp] theorem State.mem_swCmd (s : State) (p : Place) (v : Word) : (s.swCmd p v).mem = s.mem := by
  unfold State.swCmd
  dsimp only
  (repeat' split) <;> simp

@[simp] theorem State.mem_timerWrite (s : State) (c n : Nat) (v : Word) : (s.timerWrite c n v).mem = s.mem := by
  simp [State.timerWrite]

@[simp] theorem State.mem_curtWrite (s : State) (c : Nat) (v : Word) : (s.curtWrite c v).mem = s.mem := by
  unfold State.curtWrite
  extract_lets part outside t u
  have hu : u.mem = s.mem := by
    unfold u t
    split <;> simp
  split <;> simp [hu]

@[simp] theorem State.mem_curtDevWrite (s : State) (v : Word) : (s.curtDevWrite v).mem = s.mem := by
  unfold State.curtDevWrite
  (repeat' split) <;> simp

@[simp] theorem State.mem_wdogWrite (s : State) (q : Nat) (v : Word) (priv : Bool) :
    (s.wdogWrite q v priv).mem = s.mem := by
  unfold State.wdogWrite
  (repeat' split) <;> simp

@[simp] theorem State.mem_pmWrite (s : State) (d c : Nat) (v : Word) : (s.pmWrite d c v).mem = s.mem := by
  unfold State.pmWrite
  (repeat' split) <;> simp

@[simp] theorem State.mem_bfPut (s : State) (c b : Nat) (v : Word) : (s.bfPut c b v).mem = s.mem := by
  simp [State.bfPut]

@[simp] theorem State.mem_bfmtWrite (s : State) (c b : Nat) (v : Word) : (s.bfmtWrite c b v).mem = s.mem := by
  unfold State.bfmtWrite
  split <;> simp

/-! ## The operations of Machine/Ingress -/

@[simp] theorem State.mem_evDeliver (s : State) (c i : Nat) (start : Option Nat) (e : EvRec) :
    (s.evDeliver c i start e).mem = s.mem := by
  unfold State.evDeliver
  dsimp only
  (repeat' split) <;> simp

@[simp] theorem State.mem_evRoute (s : State) (die : Nat) (virt : Option (Nat × Nat)) (e : EvRec) :
    (s.evRoute die virt e).mem = s.mem := by
  unfold State.evRoute
  (repeat' split) <;> simp

@[simp] theorem State.mem_evputStep (s : State) (c q : Nat) : (s.evputStep c q).mem = s.mem := by
  unfold State.evputStep
  dsimp only
  (repeat' split) <;> simp

@[simp] theorem State.mem_evErr (s : State) (die rx : Nat) : (s.evErr die rx).mem = s.mem := rfl

/-- So does a fold that carries a value along. -/
theorem mem_foldl_pair {α β : Type} (f : State × β → α → State × β) (h : ∀ a x, (f a x).1.mem = a.1.mem) (l : List α)
    (a : State × β) : (l.foldl f a).1.mem = a.1.mem := by
  induction l generalizing a with
  | nil => rfl
  | cons x t ih => rw [List.foldl_cons, ih, h]

@[simp] theorem State.mem_csiEvents (s : State) (die rx vc dt : Nat) (good : Bool) (bytes : List Byte) :
    (s.csiEvents die rx vc dt good bytes).mem = s.mem := by
  unfold State.csiEvents
  dsimp only
  split
  · rfl
  split
  · simp
  · exact mem_foldl_pair _ (fun _ _ => State.mem_evRoute ..) _ _

@[simp] theorem State.mem_openFrame (s : State) (die rx vc : Nat) : (s.openFrame die rx vc).1.mem = s.mem := by
  unfold State.openFrame
  split <;> simp

@[simp] theorem State.mem_csiMark (s : State) (die rx vc : Nat) (isEnd : Bool) :
    (s.csiMark die rx vc isEnd).mem = s.mem := by
  unfold State.csiMark
  dsimp only
  (repeat' split) <;> simp

@[simp] theorem State.mem_ppsEdge (s : State) (die : Nat) : (s.ppsEdge die).mem = s.mem := by
  unfold State.ppsEdge
  split <;> simp

/-! ## The operations of Machine/Barrel -/

@[simp] theorem State.mem_fetchFail (s : State) (p : Place) (f : Fetch) : (s.fetchFail p f).mem = s.mem := by
  unfold State.fetchFail
  cases f with
  | park slot va sub =>
    dsimp only
    split
    · next heq => exact State.mem_of_park heq
    · rfl
  | _ => simp

@[simp] theorem State.mem_spend (s : State) (p : Place) : (s.spend p).mem = s.mem := by
  simp [State.spend]

@[simp] theorem State.mem_gangEnd (s : State) (ms own : List Nat) (pc : Word) (w : W32) :
    (s.gangEnd ms own pc w).mem = s.mem :=
  (mem_foldl _ (fun _ _ => State.mem_trapAt ..) _ _).trans (mem_foldl _ (fun _ _ => State.mem_modCore ..) _ _)

@[simp] theorem State.mem_gangAlign (s : State) (ms : List Nat) : (s.gangAlign ms).mem = s.mem := by
  unfold State.gangAlign
  dsimp only
  split
  · rfl
  · exact mem_foldl _ (fun _ _ => State.mem_modBank ..) _ _

@[simp] theorem State.mem_countStall (s : State) (cs : List Nat) (i : Nat) (c : Stall) :
    (s.countStall cs i c).mem = s.mem := by
  unfold State.countStall
  split
  · exact mem_foldl _ (fun _ _ => State.mem_modSeat ..) _ _
  · rfl

/-! ## The operations of Machine/Tick -/

@[simp] theorem State.mem_tickTime (s : State) : (s.tickTime).mem = s.mem := rfl

@[simp] theorem State.mem_foldBank (s : State) (c : Nat) : (s.foldBank c).mem = s.mem := by
  unfold State.foldBank
  dsimp only
  split <;> simp

@[simp] theorem State.mem_tickLoads (s : State) : (s.tickLoads).mem = s.mem := by
  simp [State.tickLoads, mem_foldl]

end Sys2Proof.Machine

namespace Sys2Proof.Machine

/-! # What keeps the canonical form of memory

One rule per operation of the model that may write memory, in the order of the model's files. -/

/-! Folds of steps that keep the canonical form, and states taken from a pair. -/

theorem wf_foldl {α : Type} {f : State → α → State} (hf : ∀ s x, Memory.wf s.mem = true → Memory.wf (f s x).mem = true)
    (l : List α) {s : State} (h : Memory.wf s.mem = true) : Memory.wf (l.foldl f s).mem = true := by
  induction l generalizing s with
  | nil => exact h
  | cons x t ih => exact ih (hf s x h)

theorem wf_foldl_pair {α β : Type} {f : State × β → α → State × β}
    (hf : ∀ a x, Memory.wf a.1.mem = true → Memory.wf (f a x).1.mem = true) (l : List α) {a : State × β}
    (h : Memory.wf a.1.mem = true) : Memory.wf (l.foldl f a).1.mem = true := by
  induction l generalizing a with
  | nil => exact h
  | cons x t ih => exact ih (hf a x h)

theorem wf_foldl_bind {α : Type} {f : State → α → Option State}
    (hf : ∀ s x t, Memory.wf s.mem = true → f s x = some t → Memory.wf t.mem = true) (l : List α) {o : Option State}
    (h : ∀ s, o = some s → Memory.wf s.mem = true) {t : State}
    (e : l.foldl (fun o x => o.bind fun s => f s x) o = some t) : Memory.wf t.mem = true := by
  induction l generalizing o with
  | nil => exact h t e
  | cons x l ih =>
    refine ih (fun s hs => ?_) e
    obtain ⟨u, hu, hs⟩ := Option.bind_eq_some_iff.mp hs
    exact hf u x s (h u hu) hs

theorem wf_fst {α : Type} {x : State × α} {t : State} {a : α} (e : x = (t, a)) (h : Memory.wf x.1.mem = true) :
    Memory.wf t.mem = true := by
  rw [e] at h
  exact h

theorem wf_of_mem_eq {s t : State} (e : t.mem = s.mem) (h : Memory.wf s.mem = true) : Memory.wf t.mem = true := by
  rw [e]
  exact h

/-! ## The operations of Machine/Space -/

theorem State.notFound_wf {s : State} {e : ECmd} {key : Nat} {sp : Space} {a : Nat}
    {fault : State → Nat → Word → State} {x : EFound}
    (hf : ∀ {s n w}, Memory.wf s.mem = true → Memory.wf (fault s n w).mem = true) (h : Memory.wf s.mem = true) :
    Memory.wf (s.notFound e key sp a fault x).mem = true := by
  unfold State.notFound
  split <;> simp [h, hf]

/-! ## The operations of Machine/Address -/

@[simp] theorem State.postThresh_wf {s : State} (h : Memory.wf s.mem = true) (cl : Nat) (e : Counter) :
    Memory.wf (s.postThresh cl e).mem = true := by
  simp [State.postThresh, h, State.mnqPost_wf]

/-! ## The operations of Machine/Effects -/

@[simp] theorem State.blockWrite_wf {s : State} (h : Memory.wf s.mem = true) (c : Nat) (ks : List Nat)
    (l : List (Nat × List Byte)) :
    Memory.wf (s.blockWrite c ks l).mem = true := by
  simp [State.blockWrite, h, State.unitWrite_wf]

@[simp] theorem State.wakeBlock_wf {s : State} (h : Memory.wf s.mem = true) (p : Place) (ks : List Nat) :
    Memory.wf (s.wakeBlock p ks).mem = true := by
  unfold State.wakeBlock
  split <;> simp [h, State.unitWrite_wf]

/-! ## The operations of Machine/Scene -/

@[simp] theorem State.cohEntry_wf {s : State} (h : Memory.wf s.mem = true) (c : Nat) (e : Entry) :
    Memory.wf (s.cohEntry c e).1.mem = true := by
  unfold State.cohEntry
  split
  · dsimp only
    split
    · exact h
    · exact State.poke_wf (wf_foldl (fun _ _ h => State.countOn_wf h ..) _ h) ..
  · split
    · exact h
    · exact State.poke_wf h ..
  · exact h

@[simp] theorem State.cohEntries_wf {s : State} (h : Memory.wf s.mem = true) (c : Nat) (l : List Entry) :
    Memory.wf (s.cohEntries c l).1.mem = true := by
  induction l generalizing s with
  | nil => exact h
  | cons e t ih => exact ih (State.cohEntry_wf h c e)

/-- An entry that is performed in its turn keeps the canonical form. -/
theorem State.perform1_wf {s : State} (h : Memory.wf s.mem = true) {p : Place} {op : BufOp} {t : State}
    (e : s.perform1 p op = .ok t) : Memory.wf t.mem = true := by
  have hc : ∀ (l : List (Nat × Nat × Bool)), Memory.wf
      (l.foldl (fun (s : State) g => s.countOn p.core (some g)) s).mem = true := fun l =>
    wf_foldl (fun _ _ h => State.countOn_wf h ..) l h
  cases op <;> simp only [State.perform1] at e <;> (repeat' split at e) <;> cases e
  all_goals simp [h, hc, State.poke_wf]

@[simp] theorem State.drain_wf {s : State} (h : Memory.wf s.mem = true) (p : Place) (l : List Entry) :
    Memory.wf (s.drain p l).1.mem = true := by
  induction l generalizing s with
  | nil => exact h
  | cons x t ih =>
    unfold State.drain
    split
    · exact h
    · next heq => exact ih (State.perform1_wf h heq)

/-! ## The operations of Machine/Access -/

@[simp] theorem State.seatLine_wf {s : State} (h : Memory.wf s.mem = true) (p : Place)
    (page : Option (Nat × Nat × Bool)) (ks : List Nat) (l : Nat) :
    Memory.wf (s.seatLine p page ks l).1.mem = true := by
  unfold State.seatLine
  dsimp only
  (repeat' split) <;> simp [h, State.countOn_wf]

@[simp] theorem State.seatBytes_wf {s : State} (h : Memory.wf s.mem = true) (p : Place)
    (page : Option (Nat × Nat × Bool)) (ks : List Nat) :
    Memory.wf (s.seatBytes p page ks).1.mem = true := by
  unfold State.seatBytes
  extract_lets own t step
  split
  · exact h
  split
  · exact State.flushExt_wf (State.countOn_wf h ..) _
  split
  · exact wf_foldl_pair (f := step) (a := (s, [])) (fun _ _ h => State.seatLine_wf h ..) _ h
  · exact h

@[simp] theorem State.seatRead_wf {s : State} (h : Memory.wf s.mem = true) (p : Place) (seg : Nat) (off : Word)
    (n al : Nat) :
    Memory.wf (s.seatRead p seg off n al).1.mem = true := by
  unfold State.seatRead
  split
  · next heq =>
    have ht := wf_fst heq (by simp [h])
    split
    · exact ht
    split
    · exact ht
    · simp [ht]
  · next heq => exact wf_fst heq (by simp [h])

@[simp] theorem State.seatStore_wf {s : State} (h : Memory.wf s.mem = true) (p : Place)
    (page : Option (Nat × Nat × Bool)) (cells : List Host.Cell) :
    Memory.wf (s.seatStore p page cells).mem = true := by
  unfold State.seatStore
  (repeat' split) <;> simp [h, State.countOn_wf, State.unitWrite_wf, State.poke_wf]

@[simp] theorem State.seatWrite_wf {s : State} (h : Memory.wf s.mem = true) (p : Place) (seg : Nat) (off : Word)
    (n : Nat) (v : Word) :
    Memory.wf (s.seatWrite p seg off n v).1.mem = true := by
  unfold State.seatWrite
  split <;> next heq =>
    have ht := wf_fst heq (by simp [h])
    (repeat' split) <;> simp [ht]

/-! ## The operations of Machine/Slots -/

theorem State.spillWrite_wf {s : State} (h : Memory.wf s.mem = true) {c q i : Nat} {l : List Rec} {t : State}
    (e : s.spillWrite c q i l = some t) : Memory.wf t.mem = true := by
  induction l generalizing s i with
  | nil =>
    cases e
    exact h
  | cons r l ih =>
    unfold State.spillWrite at e
    split at e
    · exact ih (State.unitWrite_wf h ..) e
    · cases e

theorem State.spillKeep_wf {s : State} (h : Memory.wf s.mem = true) {c q : Nat} {l : List Rec} {t : State}
    (e : s.spillKeep c q l = some t) : Memory.wf t.mem = true := by
  obtain ⟨u, hu, rfl⟩ := Option.map_eq_some_iff.mp e
  simp [State.spillWrite_wf h hu]

theorem State.spillOut_wf {s : State} (h : Memory.wf s.mem = true) {c : Nat} {rs : List Rec} {t : State}
    (e : s.spillOut c rs = some t) : Memory.wf t.mem = true := by
  unfold State.spillOut at e
  split at e
  · cases e
  · refine wf_foldl_bind (fun s r t h e => ?_) rs (by simpa using h) e
    obtain ⟨u, hu, rfl⟩ := Option.map_eq_some_iff.mp e
    simp [State.spillWrite_wf h hu]

theorem State.pushDeque_wf {s : State} (h : Memory.wf s.mem = true) {c : Nat} {r : Rec} {t : State}
    (e : s.pushDeque c r = some t) : Memory.wf t.mem = true := by
  unfold State.pushDeque at e
  dsimp only at e
  split at e
  · cases e
    exact h
  · obtain ⟨u, hu, rfl⟩ := Option.map_eq_some_iff.mp e
    exact wf_of_mem_eq (by rfl) (State.spillOut_wf h hu)

theorem State.enterReady_wf {s : State} (h : Memory.wf s.mem = true) {c : Nat} {r : Rec} {t : State}
    (e : s.enterReady c r = some t) : Memory.wf t.mem = true := by
  unfold State.enterReady at e
  split at e
  · cases e
    exact h
  · exact State.pushDeque_wf h e

theorem State.pushReady_wf {s : State} (h : Memory.wf s.mem = true) {c : Nat} {r : Rec} {t : State}
    (e : s.pushReady c r = some t) : Memory.wf t.mem = true := by
  unfold State.pushReady at e
  split at e
  · cases e
    simp [h]
  · exact State.enterReady_wf h e

/-! ## The operations of Machine/SceneSys -/

@[simp] theorem State.dwordReads_wf {s : State} (h : Memory.wf s.mem = true) (p : Place) (seg : Nat) (l : List Word) :
    Memory.wf (s.dwordReads p seg l).1.mem = true := by
  induction l generalizing s with
  | nil => exact h
  | cons off t ih =>
    unfold State.dwordReads
    split
    · next heq => exact wf_fst heq (by simp [h])
    · next heq =>
      have ht := wf_fst heq (by simp [h])
      split <;> next heq => exact wf_fst heq (ih ht)

/-! ## The operations of Machine/Engine -/

@[simp] theorem State.engRead_wf {s : State} (h : Memory.wf s.mem = true) (c lo : Nat) (ks : List Nat) :
    Memory.wf (s.engRead c lo ks).1.mem = true := by
  unfold State.engRead
  refine wf_foldl_pair (fun a l h => ?_) _ ?_
  · simpa using h
  · split
    · exact State.flushExt_wf h _
    · exact h

@[simp] theorem State.engWrite_wf {s : State} (h : Memory.wf s.mem = true) (c lo : Nat) (cells : List Host.Cell) :
    Memory.wf (s.engWrite c lo cells).1.mem = true := by
  unfold State.engWrite
  refine State.poke_wf ?_ c cells
  have hl : ∀ (ls : List Nat) (ts : Nat), Memory.wf (ls.foldl (fun (s : State) l =>
      { s.l2Access c l with lines := mset s.lines l (ts, ts) }) s).mem = true := fun ls ts =>
    wf_foldl (fun s l h => by simpa using h) ls h
  split
  · exact State.flushExt_wf (hl ..) _
  · exact hl ..

@[simp] theorem State.engPieces_wf {s : State} (h : Memory.wf s.mem = true) (who : Who) (c slot : Nat) (w : Bool)
    (l : List (Nat × Nat)) :
    Memory.wf (s.engPieces who c slot w l).1.mem = true := by
  induction l generalizing s with
  | nil => exact h
  | cons x t ih =>
    unfold State.engPieces
    split
    · next heq =>
      have ht := wf_fst heq (by simp [h])
      extract_lets u
      have hu := ih (s := u) (State.countPage_wf ht ..)
      split
      · exact ht
      split
      · next heq => exact wf_fst heq hu
      · exact hu
    all_goals
      next heq => exact wf_fst heq (by simp [h])

@[simp] theorem State.engMap_wf {s : State} (h : Memory.wf s.mem = true) (c id slot : Nat) (w : Bool)
    (l : List (Nat × Nat)) :
    Memory.wf (s.engMap c id slot w l).1.mem = true := by
  have hp := State.engPieces_wf h (.eng c id) c slot w l
  unfold State.engMap
  dsimp only
  split
  · next heq => exact wf_of_mem_eq (State.mem_engJoin ..) (wf_fst heq hp)
  · next heq => simp [wf_fst heq hp]
  · exact hp

@[simp] theorem State.dramRead_wf {s : State} (h : Memory.wf s.mem = true) (c id lo : Nat) (ks : List Nat) :
    Memory.wf (s.dramRead c id lo ks).1.mem = true := by
  unfold State.dramRead
  dsimp only
  (repeat' split) <;> simp [h]

/-! ## The operations of Machine/Space -/

@[simp] theorem State.spaceKeys_wf {s : State} (h : Memory.wf s.mem = true) (e : ECmd) (sp : Space) (a n : Nat)
    (w again : Bool) :
    Memory.wf (s.spaceKeys e sp a n w again).1.mem = true := by
  unfold State.spaceKeys
  dsimp only
  (repeat' split) <;> simp [h]

/-! ## The operations of Machine/Matrix -/

@[simp] theorem State.taskState_wf {s : State} (h : Memory.wf s.mem = true) (cl i c st : Nat) :
    Memory.wf (s.taskState cl i c st).mem = true := by
  unfold State.taskState
  split <;> simp [h]

@[simp] theorem State.taskDec_wf {s : State} (h : Memory.wf s.mem = true) (cl i c : Nat) :
    Memory.wf (s.taskDec cl i c).mem = true := by
  unfold State.taskDec
  dsimp only
  (repeat' split) <;> simp [h]

@[simp] theorem State.taskPost_wf {s : State} (h : Memory.wf s.mem = true) (cl : Nat) :
    Memory.wf (s.taskPost cl).mem = true := by
  unfold State.taskPost
  (repeat' split) <;> simp [h]

@[simp] theorem State.taskIssue_wf {s : State} (h : Memory.wf s.mem = true) (cl : Nat) :
    Memory.wf (s.taskIssue cl).mem = true := by
  unfold State.taskIssue
  dsimp only
  (repeat' split) <;> simp [h]

@[simp] theorem State.taskDone_wf {s : State} (h : Memory.wf s.mem = true) (e : ECmd) (cl i : Nat) :
    Memory.wf (s.taskDone e cl i).mem = true := by
  unfold State.taskDone
  dsimp only
  split
  · simp [h]
  · refine wf_foldl (fun s j h => ?_) _ (by simp [h])
    split
    · exact h
    · exact State.taskDec_wf h ..

@[simp] theorem State.matFault_wf {s : State} (h : Memory.wf s.mem = true) (c key cause : Nat) (faddr : Word) :
    Memory.wf (s.matFault c key cause faddr).mem = true := by
  unfold State.matFault
  (repeat' split) <;> simp [h]

@[simp] theorem State.matBad_wf {s : State} (h : Memory.wf s.mem = true) (c key sec : Nat) (faddr : Word) :
    Memory.wf (s.matBad c key sec faddr).mem = true := by
  unfold State.matBad
  (repeat' split) <;> simp [h]

@[simp] theorem State.findBlock_wf {s : State} (h : Memory.wf s.mem = true) (e : ECmd) (o : Opnd) (bf : List Word)
    (i kk : Nat) :
    Memory.wf (s.findBlock e o bf i kk).1.mem = true := by
  grind [State.findBlock, State.spaceKeys_wf]

@[simp] theorem State.mmaStart_wf {s : State} (h : Memory.wf s.mem = true) (c key : Nat) (e : ECmd) :
    Memory.wf (s.mmaStart c key e).mem = true := by
  unfold State.mmaStart
  dsimp only
  split <;> simp [h]

@[simp] theorem State.mmaApply_wf {s : State} (h : Memory.wf s.mem = true) (c key : Nat) (e : ECmd) (ba bb : Block) :
    Memory.wf (s.mmaApply c key e ba bb).mem = true := by
  unfold State.mmaApply
  extract_lets
  split
  next heq =>
  have h1 := wf_fst heq (by simp [h])
  split
  next heq =>
  have h2 := wf_fst heq (by simp [h1])
  extract_lets u adv
  have hu : Memory.wf u.mem = true := by
    unfold u
    split <;> simp [h2]
  have ha : ∀ s n, (adv s n).mem = s.mem := fun s n => State.mem_modHead ..
  split
  split
  extract_lets skip v
  have hv : v.mem = u.mem := mem_foldl _ (fun s r => mem_foldl _ (fun s k => State.mem_modCore ..) _ _) _ _
  split <;> simp [ha, hu, hv]

@[simp] theorem State.mmaStep_wf {s : State} (h : Memory.wf s.mem = true) (c key : Nat) :
    Memory.wf (s.mmaStep c key).mem = true := by
  unfold State.mmaStep
  split
  · exact h
  split
  · exact h
  split
  · exact State.mmaStart_wf h ..
  split
  · extract_lets g st kk i j fault
    have hf : ∀ {s n w}, Memory.wf s.mem = true → Memory.wf (fault s n w).mem = true := fun h => State.matFault_wf h ..
    split
    · next heq => exact State.notFound_wf hf (by simp [wf_fst heq (by simp [h])])
    · next heq =>
      have h1 := wf_fst heq (by simp [h])
      split
      · next heq => exact State.notFound_wf hf (by simp [wf_fst heq (by simp [h1])])
      · next heq =>
        have h2 := wf_fst heq (by simp [h1])
        split
        · exact State.matBad_wf h2 ..
        · dsimp only
          split
          · split <;> simp [h2]
          · simp [h2]
  · exact h

@[simp] theorem State.drainEnd_wf {s : State} (h : Memory.wf s.mem = true) (c key : Nat) (e : ECmd) :
    Memory.wf (s.drainEnd c key e).mem = true := by
  unfold State.drainEnd
  split
  · exact h
  split
  · exact State.taskDone_wf h ..
  · exact wf_of_mem_eq (State.mem_engFinish (by simp) (by simp) (by simp)) h

@[simp] theorem State.mdrainStep_wf {s : State} (h : Memory.wf s.mem = true) (c key : Nat) :
    Memory.wf (s.mdrainStep c key).mem = true := by
  unfold State.mdrainStep
  split
  · exact h
  · extract_lets n u
    have hu : Memory.wf u.mem = true := h
    split
    · exact h
    split
    · exact State.matFault_wf h ..
    split
    · exact State.drainEnd_wf hu ..
    split
    split
    · split
      · next heq =>
        have h1 := wf_fst heq (by simp [hu])
        dsimp only
        split
        · split <;> simp [h1]
        · simp [h1]
      · next heq => exact State.matFault_wf (wf_fst heq (by simp [hu])) ..
    split
    · exact State.matFault_wf hu ..
    split
    · simp [hu]
    split
    · next heq => simp [State.mem_of_engStore heq, hu]
    · simp [hu]
    · exact State.matFault_wf hu ..

/-! ## The operations of Machine/Caddy -/

@[simp] theorem State.cpostStep_wf {s : State} (h : Memory.wf s.mem = true) (c q : Nat) :
    Memory.wf (s.cpostStep c q).mem = true := by
  unfold State.cpostStep
  extract_lets
  split
  · exact h
  extract_lets
  split
  · exact h
  split
  · extract_lets
    split
    · exact h
    split
    · next heq =>
      have h1 := wf_fst heq (by simp [h])
      split
      · split <;> simp [h1]
      · split
        next heq =>
        have h2 := wf_fst heq (by simp [h1])
        dsimp only
        split <;> simp [State.poke_wf h2]
    · next heq => simp [wf_fst heq (by simp [h])]
  · simp [h]

/-- The bytes of a version that a cread writes. -/
theorem creadWrite_wf {s : State} (h : Memory.wf s.mem = true) (c : Nat) (e : ECmd) (a : Nat) (bs : List Byte) :
    Memory.wf (match s.spaceKeys e .own a bs.length true false with
      | (s, .ok ks) => s.engWrite c (max e.pts e.ts) (ks.zip bs)
      | (s, _) => (s, 0)).1.mem = true := by
  split <;> next heq => simp [wf_fst heq (by simp [h])]

@[simp] theorem State.creadStep_wf {s : State} (h : Memory.wf s.mem = true) (c q : Nat) :
    Memory.wf (s.creadStep c q).mem = true := by
  unfold State.creadStep
  extract_lets
  split
  · exact h
  extract_lets die write
  have hw : ∀ a bs, Memory.wf (write s a bs).1.mem = true := fun a bs => creadWrite_wf h ..
  split
  · exact h
  split
  · split <;> simp [hw]
  · simp [h]

@[simp] theorem State.cxdescWrite_wf {s : State} (h : Memory.wf s.mem = true) (die mb : Nat) (v : Word) :
    Memory.wf (s.cxdescWrite die mb v).mem = true := by
  unfold State.cxdescWrite
  dsimp only
  (repeat' split) <;> simp [h, State.poke_wf]

/-! ## The operations of Machine/Supervisor -/

@[simp] theorem State.netSpill_wf {s : State} (h : Memory.wf s.mem = true) (c : Nat) :
    Memory.wf (s.netSpill c).mem = true := by
  unfold State.netSpill
  split
  · exact h
  · refine wf_foldl (fun s m h => ?_) _ ?_
    · dsimp only
      split
      · exact h
      · exact State.poke_wf h ..
    · split <;> exact h

@[simp] theorem State.preRequest_wf {s : State} (h : Memory.wf s.mem = true) (c kind : Nat) :
    Memory.wf (s.preRequest c kind).mem = true := by
  unfold State.preRequest
  dsimp only
  (repeat' split) <;> simp [h]

@[simp] theorem State.preEntry_wf {s : State} (h : Memory.wf s.mem = true) (c i : Nat) :
    Memory.wf (s.preEntry c i).mem = true := by
  unfold State.preEntry
  dsimp only
  (repeat' split) <;> simp [h]

@[simp] theorem State.ptimeExpiry_wf {s : State} (h : Memory.wf s.mem = true) (c : Nat) :
    Memory.wf (s.ptimeExpiry c).mem = true := by
  unfold State.ptimeExpiry
  dsimp only
  split <;> simp [h]

@[simp] theorem State.preResend_wf {s : State} (h : Memory.wf s.mem = true) (c : Nat) :
    Memory.wf (s.preResend c).mem = true := by
  simp [State.preResend, h, State.poke_wf]

/-! ## The operations of Machine/Launch -/

theorem State.cueArrive_wf {s : State} (h : Memory.wf s.mem = true) {q : Nat} {addr : Word} {c : Nat} {t : State}
    (e : s.cueArrive q addr c = some t) : Memory.wf t.mem = true := by
  unfold State.cueArrive at e
  split at e
  · dsimp only at e
    split at e
    · split at e <;> cases e <;> simp [h]
    · split at e
      · obtain ⟨u, hu, rfl⟩ := Option.map_eq_some_iff.mp e
        simp [State.enterReady_wf (by simpa using h) hu]
      · cases e
        simp [h]
    · cases e
      simp [h]
  · cases e

@[simp] theorem State.stealProbe_wf {s : State} (h : Memory.wf s.mem = true) (c : Nat) :
    Memory.wf (s.stealProbe c).mem = true := by
  unfold State.stealProbe
  extract_lets
  split
  · exact h
  split
  · extract_lets n v kv p ring d u m
    have hu : Memory.wf u.mem = true := h
    split
    · exact h
    split
    · exact h
    split
    split
    split
    · next heq =>
      split at heq
      · cases heq
        simp [hu]
      · simp [State.spillKeep_wf hu heq]
    · exact h
  · exact h

theorem State.displace_wf {s : State} (h : Memory.wf s.mem = true) {c : Nat} {t : State} (e : s.displace c = some t) :
    Memory.wf t.mem = true := by
  unfold State.displace at e
  extract_lets p u at e
  split at e
  · cases e
    exact h
  · have hu : Memory.wf u.mem = true := by simp [u, h]
    obtain ⟨v, hv, rfl⟩ := Option.map_eq_some_iff.mp e
    simp [State.pushReady_wf hu hv]

theorem State.displaceAll_wf {s : State} (h : Memory.wf s.mem = true) {l : List Nat} {t : State}
    (e : s.displaceAll l = some t) : Memory.wf t.mem = true := by
  induction l generalizing s with
  | nil =>
    cases e
    exact h
  | cons c l ih =>
    unfold State.displaceAll at e
    split at e
    · next heq => exact ih (State.displace_wf h heq) e
    · cases e

@[simp] theorem State.ensembleClaim_wf {s : State} (h : Memory.wf s.mem = true) (q : Nat) :
    Memory.wf (s.ensembleClaim q).mem = true := by
  unfold State.ensembleClaim
  extract_lets t yields u
  have hu : Memory.wf u.mem = true := by
    unfold u
    split <;> exact h
  split
  · exact h
  split
  · split
    · split <;> simp [hu]
    split
    · exact hu
    split
    · split <;> simp [hu]
    · simp [hu]
  split
  · split
    · split
      · next heq => simp [State.displaceAll_wf hu heq]
      · exact hu
    · exact hu
  · exact hu

@[simp] theorem State.placementExpiry_wf {s : State} (h : Memory.wf s.mem = true) (q : Nat) :
    Memory.wf (s.placementExpiry q).mem = true := by
  unfold State.placementExpiry
  extract_lets
  split
  · exact h
  split
  · split
    · split
      · exact wf_foldl (fun _ _ h => State.preRequest_wf h ..) _ (by exact h)
      · exact h
    · exact h
  · exact h

/-! ## The operations of Machine/Device -/

@[simp] theorem State.bookPut_wf {s : State} (h : Memory.wf s.mem = true) (n seq slot st : Nat) (bytes : List Byte) :
    Memory.wf (s.bookPut n seq slot st bytes).mem = true := by
  simp [State.bookPut, h, State.devWrite_wf]

@[simp] theorem State.bookAppend_wf {s : State} (h : Memory.wf s.mem = true) (seq slot st rep info : Nat)
    (raw copy : List Byte) :
    Memory.wf (s.bookAppend seq slot st rep info raw copy).mem = true := by
  unfold State.bookAppend
  dsimp only
  split <;> simp [h]

@[simp] theorem State.logCmd_wf {s : State} (h : Memory.wf s.mem = true) (q st info : Nat) :
    Memory.wf (s.logCmd q st info).mem = true := by
  unfold State.logCmd
  dsimp only
  split <;> simp [h]

@[simp] theorem State.devPut_wf {s : State} (h : Memory.wf s.mem = true) (q lo : Nat)
    (l : List (List Nat × List Byte)) :
    Memory.wf (s.devPut q lo l).mem = true := by
  induction l generalizing s with
  | nil => exact h
  | cons x t ih =>
    refine ih ?_
    split
    · exact State.devWrite_wf h ..
    · split <;> simp [h]

@[simp] theorem State.slotWrite_wf {s : State} (h : Memory.wf s.mem = true) (q lo : Nat) (va : Word) (bs : List Byte)
    (back : Phase) :
    Memory.wf (s.slotWrite q lo va bs back).1.mem = true := by
  unfold State.slotWrite
  split <;> simp [h]

@[simp] theorem State.refuseCmd_wf {s : State} (h : Memory.wf s.mem = true) (q info : Nat) :
    Memory.wf (s.refuseCmd q info).mem = true := by
  simp [State.refuseCmd, h]

@[simp] theorem State.acceptEnd_wf {s : State} (h : Memory.wf s.mem = true) (q : Nat) :
    Memory.wf (s.acceptEnd q).mem = true := by
  unfold State.acceptEnd
  dsimp only
  (repeat' split) <;> simp [h, State.devWrite_wf]

@[simp] theorem State.accept_wf {s : State} (h : Memory.wf s.mem = true) (q : Nat) :
    Memory.wf (s.accept q).mem = true := by
  unfold State.accept
  dsimp only
  (repeat' split) <;> simp [h]

@[simp] theorem State.dispatch_wf {s : State} (h : Memory.wf s.mem = true) (q : Nat) (addr : Word) (hd : Header)
    (image : List Seg) :
    Memory.wf (s.dispatch q addr hd image).mem = true := by
  refine State.logCmd_wf ?_ ..
  refine wf_foldl (fun s c h => wf_of_mem_eq (State.mem_toMesh ..) h) _ ?_
  refine wf_foldl (fun s i h => by exact h) _ (wf_foldl (fun s c h => by exact h) _ ?_)
  simp [h]

@[simp] theorem State.cmdLaunch_wf {s : State} (h : Memory.wf s.mem = true) (q : Nat) :
    Memory.wf (s.cmdLaunch q).mem = true := by
  unfold State.cmdLaunch
  dsimp only
  (repeat' split) <;> simp [h]

@[simp] theorem State.waitDone_wf {s : State} (h : Memory.wf s.mem = true) (q : Nat) :
    Memory.wf (s.waitDone q).mem = true := by
  unfold State.waitDone
  dsimp only
  (repeat' split) <;> simp [h]

@[simp] theorem State.cmdWait_wf {s : State} (h : Memory.wf s.mem = true) (q : Nat) :
    Memory.wf (s.cmdWait q).mem = true := by
  unfold State.cmdWait
  dsimp only
  (repeat' split) <;> simp [h]

@[simp] theorem State.signal_wf {s : State} (h : Memory.wf s.mem = true) (q : Nat) :
    Memory.wf (s.signal q).mem = true := by
  unfold State.signal
  dsimp only
  (repeat' split) <;> simp [h]

@[simp] theorem State.launchEnd_wf {s : State} (h : Memory.wf s.mem = true) (q : Nat) :
    Memory.wf (s.launchEnd q).mem = true := by
  unfold State.launchEnd
  dsimp only
  (repeat' split) <;> simp [h]

@[simp] theorem State.cmdSignal_wf {s : State} (h : Memory.wf s.mem = true) (q : Nat) :
    Memory.wf (s.cmdSignal q).mem = true := by
  unfold State.cmdSignal
  dsimp only
  (repeat' split) <;> simp [h]

@[simp] theorem State.cmdQuote_wf {s : State} (h : Memory.wf s.mem = true) (q : Nat) :
    Memory.wf (s.cmdQuote q).mem = true := by
  unfold State.cmdQuote
  dsimp only
  (repeat' split) <;> simp [h]

/-! ## The operations of Machine/Copy -/

@[simp] theorem State.copyPut_wf {s : State} (h : Memory.wf s.mem = true) (c ch : Nat) (e : ECmd) (n : Nat)
    (parts : List (Nat × List Byte)) (bytes rts : Nat) (note : BitVec 32) :
    Memory.wf (s.copyPut c ch e n parts bytes rts note).mem = true := by
  unfold State.copyPut
  extract_lets key faultAt
  split
  · split
    · next heq => simp [State.mem_of_copySend heq, h]
    · simp [h]
    · simp [h]
  · extract_lets put
    have hp : Memory.wf put.1.mem = true := by
      refine wf_foldl_pair (fun a x h => ?_) parts h
      split
      · split <;> next heq => exact wf_fst heq (by simp [h])
      · exact h
    clear_value put
    obtain ⟨u, r⟩ := put
    cases r with
    | ok cells => exact wf_of_mem_eq (State.mem_copyAdvance ..) (State.engWrite_wf hp ..)
    | error x => exact State.notFound_wf (fun h => by simp [h]) hp

@[simp] theorem State.copyBytes_wf {s : State} (h : Memory.wf s.mem = true) (c ch : Nat) (e : ECmd) :
    Memory.wf (s.copyBytes c ch e).mem = true := by
  unfold State.copyBytes
  extract_lets
  split
  · exact State.copyPut_wf h ..
  split
  · next heq =>
    have h1 := wf_fst heq (by simp [h])
    split <;> simp [h1]
  · next heq => exact State.notFound_wf (fun h => by simp [h]) (wf_fst heq (by simp [h]))

@[simp] theorem State.copyConv_wf {s : State} (h : Memory.wf s.mem = true) (c ch : Nat) (e : ECmd) (fa fb : Nat) :
    Memory.wf (s.copyConv c ch e fa fb).mem = true := by
  unfold State.copyConv
  dsimp only
  split <;> simp [h]

@[simp] theorem State.copyStep_wf {s : State} (h : Memory.wf s.mem = true) (c ch : Nat) :
    Memory.wf (s.copyStep c ch).mem = true := by
  unfold State.copyStep
  dsimp only
  (repeat' split) <;> simp [h]

/-! ## The operations of Machine/Grammar -/

@[simp] theorem State.image_wf {s : State} (h : Memory.wf s.mem = true) (c id lo g : Nat) :
    Memory.wf (s.image c id lo g).1.mem = true := by
  grind [State.image, State.dramRead_wf]

@[simp] theorem State.gstepApply_wf {s : State} (h : Memory.wf s.mem = true) (c q : Nat) :
    Memory.wf (s.gstepApply c q).mem = true := by
  unfold State.gstepApply
  split
  · exact h
  next heq =>
  have h0 := wf_of_mem_eq (State.mem_of_gramHead heq) h
  extract_lets key cl rk done
  have hd : ∀ s t, (done s t).mem = s.mem := fun s t => by simp [done]
  split
  · simp [h0]
  split
  next heq =>
  have h1 := wf_fst heq (by simp [h0])
  extract_lets write
  have hw : ∀ {s}, Memory.wf s.mem = true → ∀ r, Memory.wf (write s r).1.mem = true := fun h r => State.engWrite_wf h ..
  split
  · simp [hd, h1]
  split
  · simp [h1]
  split
  · simp [h0]
  · next heq => simp [wf_fst heq (by simp [h1])]
  · next heq => simp [wf_fst heq (by simp [h1])]
  next heq =>
  have h2 := wf_fst heq (by simp [h1])
  split
  · simp [h2]
  split
  · simp [h0]
  · next heq => simp [wf_fst heq (by simp [h2])]
  next heq =>
  have h3 := wf_fst heq (by simp [h2])
  extract_lets reject
  have hr : ∀ {s}, Memory.wf s.mem = true → Memory.wf (reject s).mem = true := fun h => by simp [reject, hd, hw h]
  split
  · simp [h3]
  · exact hr h3
  split
  · exact hr h3
  split
  · simp [h3]
  split
  · simp [hw h3]
  · simp [hd, hw h3]

@[simp] theorem State.gmaskStart_wf {s : State} (h : Memory.wf s.mem = true) (c q : Nat) (e : ECmd) :
    Memory.wf (s.gmaskStart c q e).mem = true := by
  unfold State.gmaskStart
  extract_lets
  split
  · simp [h]
  split
  next heq =>
  have h1 := wf_fst heq (by simp [h])
  split
  · simp [h]
  · next heq => simp [wf_fst heq (by simp [h1])]
  · next heq => simp [wf_fst heq (by simp [h1])]
  next heq =>
  have h2 := wf_fst heq (by simp [h1])
  split
  · simp [h2]
  split
  · simp [h2]
  split <;> simp [h2]

theorem State.gmaskCalc_wf {s : State} (h : Memory.wf s.mem = true) {c q : Nat} {e : ECmd} {r : List Byte} {u : Nat}
    {use : State → Image → BitVec 512 → Nat → State}
    (hu : ∀ {s m b t}, Memory.wf s.mem = true → Memory.wf (use s m b t).mem = true) :
    Memory.wf (s.gmaskCalc c q e r u use).mem = true := by
  unfold State.gmaskCalc
  split
  · simp [h]
  · next heq => simp [wf_fst heq (by simp [h])]
  · next heq => simp [wf_fst heq (by simp [h])]
  next heq =>
  have h1 := wf_fst heq (by simp [h])
  split
  · simp [h]
  · next heq => simp [wf_fst heq (by simp [h1])]
  next heq =>
  have h2 := wf_fst heq (by simp [h1])
  split
  · simp [h2]
  · exact hu h2

@[simp] theorem State.gmaskSum_wf {s : State} (h : Memory.wf s.mem = true) (c q : Nat) (e : ECmd) (r : List Byte)
    (scan cnt : Nat) (ftok : W32) :
    Memory.wf (s.gmaskSum c q e r scan cnt ftok).mem = true := by
  unfold State.gmaskSum
  extract_lets cl
  refine State.gmaskCalc_wf h fun {s m b t} h => ?_
  split
  extract_lets f u
  have hu : Memory.wf u.mem = true := by simp [u, h]
  split
  · simp [hu]
  · simp [hu]

theorem State.gmaskPut_wf {s : State} (h : Memory.wf s.mem = true) {c q : Nat} {e : ECmd} {o : Nat} {bs : List Byte}
    {did : State → State} {go : State → Nat → State} (hd : ∀ {s}, Memory.wf s.mem = true → Memory.wf (did s).mem = true)
    (hg : ∀ {s t}, Memory.wf s.mem = true → Memory.wf (go s t).mem = true) :
    Memory.wf (s.gmaskPut c q e o bs did go).mem = true := by
  unfold State.gmaskPut
  extract_lets w off
  split
  · split
    · next heq => exact hg (hd (State.engWrite_wf (wf_fst heq (by simp [h])) ..))
    · next heq => simp [wf_fst heq (by simp [h])]
  split
  · simp [h]
  split
  · next heq => simp [hd (wf_of_mem_eq (State.mem_of_engStore heq) h)]
  · exact h
  · simp [h]

theorem State.gmaskUnit_wf {s : State} (h : Memory.wf s.mem = true) {c q : Nat} {e : ECmd} {r : List Byte} {units : Nat}
    {go : State → Nat → State} (hg : ∀ {s t}, Memory.wf s.mem = true → Memory.wf (go s t).mem = true) :
    Memory.wf (s.gmaskUnit c q e r units go).mem = true := by
  unfold State.gmaskUnit
  extract_lets cl u put
  have hp : ∀ {s b t} {did : State → State}, Memory.wf s.mem = true →
      (∀ {s}, Memory.wf s.mem = true → Memory.wf (did s).mem = true) → Memory.wf (put s b t did).mem = true :=
    fun h hd => State.gmaskPut_wf h hd fun h => hg h
  split
  · exact hp h fun h => by simpa using h
  split
  · exact hp h fun h => by simpa using h
  · exact State.gmaskCalc_wf h fun h => hp h fun h => by simpa using h

@[simp] theorem State.gmaskStep_wf {s : State} (h : Memory.wf s.mem = true) (c q : Nat) :
    Memory.wf (s.gmaskStep c q).mem = true := by
  unfold State.gmaskStep
  split
  · exact h
  next heq =>
  have h0 := wf_of_mem_eq (State.mem_of_gramHead heq) h
  split
  · extract_lets n next
    have hn : ∀ {s t}, Memory.wf s.mem = true → Memory.wf (next s t).mem = true := fun h => by simpa [next] using h
    split
    · exact h0
    split
    · simp [h0]
    split
    · exact hn h0
    split
    · exact State.gmaskSum_wf h0 ..
    split
    · exact State.gmaskUnit_wf h0 hn
    split
    · refine State.gmaskPut_wf h0 (fun h => by simpa using h) fun {s t} h => ?_
      extract_lets u
      have hu : Memory.wf u.mem = true := hn h
      split <;> simp [hu]
    · simp [h0]
  · exact State.gmaskStart_wf h0 ..

/-! ## The operations of Machine/Sampler -/

@[simp] theorem State.sampBarrier_wf {s : State} (h : Memory.wf s.mem = true) (c q : Nat) :
    Memory.wf (s.sampBarrier c q).mem = true := by
  unfold State.sampBarrier
  split
  · exact h
  next heq =>
  have h0 := wf_of_mem_eq (State.mem_of_sampHead heq) h
  refine wf_ite h0 ?_
  split
  · next heq =>
    have h1 := wf_fst heq (by simp [h0])
    split
    · simp [h1]
    split
    next heq =>
    have h2 := wf_fst heq (by simp [h1])
    extract_lets hw go
    have hg : ∀ {s t}, Memory.wf s.mem = true → Memory.wf (go s t).mem = true := fun h => by simpa [go] using h
    split
    · split <;> exact hg h2
    split
    · exact hg h2
    · simp [h2]
  · next heq => exact wf_fst heq (by simp [h0])

@[simp] theorem State.sampScan_wf {s : State} (h : Memory.wf s.mem = true) (c q : Nat) :
    Memory.wf (s.sampScan c q).mem = true := by
  unfold State.sampScan
  split
  · exact h
  next heq =>
  have h0 := wf_of_mem_eq (State.mem_of_sampHead heq) h
  split
  · exact h0
  extract_lets
  split
  · split
    · simp [h0]
    · simp [h0]
  · exact h0

@[simp] theorem State.sampResult_wf {s : State} (h : Memory.wf s.mem = true) (c q : Nat) (e : ECmd) (t : Samp) :
    Memory.wf (s.sampResult c q e t).mem = true := by
  unfold State.sampResult
  extract_lets
  split
  · split
    · next heq =>
      have h1 := wf_fst heq (by simp [h])
      dsimp only
      split <;> simp [h1]
    · next heq => simp [wf_fst heq (by simp [h])]
  split
  · simp [h]
  split
  · next heq => simp [State.mem_of_engStore heq, h]
  · exact h
  · simp [h]

@[simp] theorem State.sampDeliver_wf {s : State} (h : Memory.wf s.mem = true) (c q : Nat) :
    Memory.wf (s.sampDeliver c q).mem = true := by
  unfold State.sampDeliver
  extract_lets key
  split
  · exact h
  next heq =>
  have h0 := wf_of_mem_eq (State.mem_of_sampHead heq) h
  split
  · exact h0
  split
  · split <;> simp [h0]
  split
  · simp [h0]
  split
  · simp [h0]
  split
  · next heq =>
    have h1 := wf_of_mem_eq (State.mem_of_sendWinner heq) h0
    extract_lets u
    have hu : Memory.wf u.mem = true := by simp [u, h1]
    split <;> simp [hu]
  · exact h0
  · split <;> simp [h0]

@[simp] theorem State.sdrawStep_wf {s : State} (h : Memory.wf s.mem = true) (c q : Nat) :
    Memory.wf (s.sdrawStep c q).mem = true := by
  unfold State.sdrawStep
  extract_lets
  split
  · exact h
  extract_lets
  split
  · exact h
  split
  · next heq =>
    have h1 := wf_fst heq (by simp [h])
    dsimp only
    split <;> simp [h1]
  · next heq => simp [wf_fst heq (by simp [h])]

/-! ## The operations of Machine/Save -/

@[simp] theorem State.saveFind_wf {s : State} (h : Memory.wf s.mem = true) (c va n : Nat) (w : Bool) :
    Memory.wf (s.saveFind c va n w).1.mem = true := by
  unfold State.saveFind
  split
  · next heq =>
    have h1 := wf_fst heq (by simp [h])
    split <;> simp [h1]
  all_goals next heq => simp [wf_fst heq (by simp [h])]

@[simp] theorem State.saveRead_wf {s : State} (h : Memory.wf s.mem = true) (c va n : Nat) (e : ECmd) :
    Memory.wf (s.saveRead c va n e).1.mem = true := by
  unfold State.saveRead
  split <;> next heq => simp [wf_fst heq (by simp [h])]

@[simp] theorem State.saveWrite_wf {s : State} (h : Memory.wf s.mem = true) (c va : Nat) (bs : List Byte) (e : ECmd) :
    Memory.wf (s.saveWrite c va bs e).1.mem = true := by
  unfold State.saveWrite
  split <;> next heq => simp [wf_fst heq (by simp [h])]

@[simp] theorem State.saveStart_wf {s : State} (h : Memory.wf s.mem = true) (c : Nat) (e : ECmd) :
    Memory.wf (s.saveStart c e).mem = true := by
  unfold State.saveStart
  split
  · simp [h]
  split
  · next heq =>
    have h1 := wf_fst heq (by simp [h])
    dsimp only
    split <;> simp [h1]
  · next heq => exact wf_fst heq (by simp [h])

/-- The bytes of a space that a save reads. -/
theorem saveSpace_wf {s : State} (h : Memory.wf s.mem = true) (c key : Nat) (e : ECmd) (ks : List Nat) (w : Word) :
    Memory.wf ((match s.badSec ks with
      | some sec => (s.engBad c key sec w, none)
      | none => let (s, bs, t) := s.engRead c (max e.pts e.ts) ks
                (s.modHead c key fun e => { e with ts := max e.ts t }, some bs)) : State × Option (List Byte)).1.mem = true := by
  split <;> simp [h]

@[simp] theorem State.saveSource_wf {s : State} (h : Memory.wf s.mem = true) (c : Nat) (e : ECmd) (row : SaveRow) :
    Memory.wf (s.saveSource c e row).1.mem = true := by
  cases row with
  | bank b r => exact saveSpace_wf h c saveKey e (saveKeys c b r) _
  | _ => exact h

@[simp] theorem State.csaveStep_wf {s : State} (h : Memory.wf s.mem = true) (c : Nat) :
    Memory.wf (s.csaveStep c).mem = true := by
  unfold State.csaveStep
  split
  · exact h
  split
  · exact h
  split
  · extract_lets rows put
    have hp : ∀ {s off bs}, Memory.wf s.mem = true → Memory.wf (put s off bs).1.mem = true := fun h => State.saveWrite_wf h ..
    split
    · split
      · simp [h]
      split <;> next heq => simp [wf_fst heq (hp h)]
    split
    · split
      · simp [h]
      split
      · next heq =>
        have h1 := wf_fst heq (by simp [h])
        split <;> next heq => simp [wf_fst heq (hp h1)]
      · next heq => exact wf_fst heq (by simp [h])
    · split
      · next heq =>
        have h1 := wf_fst heq (hp h)
        split <;> next heq => simp [wf_fst heq (hp h1)]
      · next heq => exact wf_fst heq (hp h)
  · simp [h]

@[simp] theorem State.crestoreStep_wf {s : State} (h : Memory.wf s.mem = true) (c : Nat) :
    Memory.wf (s.crestoreStep c).mem = true := by
  unfold State.crestoreStep
  split
  · exact h
  split
  · exact h
  split
  · extract_lets m rows
    split
    · split
      · next heq =>
        have h1 := wf_fst heq (by simp [h])
        dsimp only
        split <;> simp [h1]
      · next heq => exact wf_fst heq (by simp [h])
    split
    · split
      · next heq =>
        have h1 := wf_fst heq (by simp [h])
        extract_lets u
        have hu : Memory.wf u.mem = true := by
          unfold u
          split <;> simp [h1]
        simp [hu]
      · next heq => exact wf_fst heq (by simp [h])
    split
    · exact h
    split <;> next heq => simp [wf_fst heq (by simp [h])]
  · simp [h]

/-! ## The operations of Machine/Stream -/

@[simp] theorem State.sxWrite_wf {s : State} (h : Memory.wf s.mem = true) (c lo : Nat) (cells : List Host.Cell) :
    Memory.wf (s.sxWrite c lo cells).1.mem = true := by
  simp [State.sxWrite, h]

@[simp] theorem State.sxOpen_wf {s : State} (h : Memory.wf s.mem = true) (die : Nat) (e : ECmd) (key : Nat) :
    Memory.wf (s.sxOpen die e key).mem = true := by
  unfold State.sxOpen
  extract_lets st stamp cells
  split
  · simp [h]
  split
  · simp [h]
  · simp [State.mem_sxBad, h]
  · next heq =>
    have h1 := wf_fst heq (by simp [h])
    extract_lets drop u v
    have hv : Memory.wf v.mem = true := wf_foldl (fun _ _ h => by simpa using h) _ (by exact h1)
    simp [hv]

@[simp] theorem State.streamArrive_wf {s : State} (h : Memory.wf s.mem = true) (c q : Nat) :
    Memory.wf (s.streamArrive c q).mem = true := by
  unfold State.streamArrive
  dsimp only
  (repeat' split) <;> simp [h]

@[simp] theorem State.streamApply_wf {s : State} (h : Memory.wf s.mem = true) (die k : Nat) :
    Memory.wf (s.streamApply die k).mem = true := by
  unfold State.streamApply
  split
  · exact h
  split
  · exact h
  split
  · exact h
  extract_lets st drop rk
  have hd : ∀ s, (drop s).mem = s.mem := fun _ => rfl
  split
  · simp [h]
  · simp [State.mem_sxBad, hd, h]
  next heq =>
  have h1 := wf_fst heq (by simp [h])
  split
  · simp [hd, h1]
  split
  · simp [hd, h1]
  extract_lets cells
  split
  · simp [h]
  split
  · simp [h]
  · simp [State.mem_sxBad, hd, h]
  next heq =>
  have h2 := wf_fst heq (by simp [h1])
  split
  next heq =>
  have h3 := wf_fst heq (by simp [hd, h2])
  extract_lets s4 s5 s6
  have h6 : Memory.wf s6.mem = true := by
    have h4 : Memory.wf s4.mem = true := by
      refine wf_foldl (fun _ _ h => by simpa using h) _ ?_
      split <;> simp [h3]
    simpa [s6, s5] using h4
  split
  · simp [h6]
  split
  · next heq =>
    have h7 := wf_of_mem_eq (State.mem_of_engWake heq) h6
    split <;> simp [h7]
  · exact h

/-- A write of a control register of a queue: resume, then abort. -/
theorem ctlWrite_wf {v : Word} {s : State} {resume abort : State → State} (h : Memory.wf s.mem = true)
    (hr : ∀ {s}, Memory.wf s.mem = true → Memory.wf (resume s).mem = true)
    (ha : ∀ {s}, Memory.wf s.mem = true → Memory.wf (abort s).mem = true) :
    Memory.wf (ctlWrite v s resume abort).mem = true := by
  unfold ctlWrite
  exact wf_ite (ha h) (wf_ite (hr h) h)

/-! ## The operations of Machine/EngineRegs -/

@[simp] theorem State.sharedWrite_wf {s : State} (h : Memory.wf s.mem = true) (c eng n : Nat) (v : Word) :
    Memory.wf (s.sharedWrite c eng n v).mem = true := by
  unfold State.sharedWrite
  extract_lets plain k
  have hp : Memory.wf plain.mem = true := by simp [plain, h]
  have hc {r a : State → State} (hr : ∀ {s}, Memory.wf s.mem = true → Memory.wf (r s).mem = true)
      (ha : ∀ {s}, Memory.wf s.mem = true → Memory.wf (a s).mem = true) : Memory.wf (ctlWrite v s r a).mem = true :=
    ctlWrite_wf h hr ha
  split
  · refine wf_ite (hc (fun h => by simpa using h) fun h => by simpa using h) hp
  · refine wf_ite (hc (fun h => by simpa using h) fun h => by simpa using h) hp
  · refine wf_ite (hc (fun h => by simpa using h) fun h => by simpa using h) hp
  · refine wf_ite (hc (fun h => by simpa using h) fun h => by simpa using h) hp
  · refine wf_ite (by simp [h]) (wf_ite (by simp [h]) hp)
  · exact wf_ite h hp
  · refine wf_ite (hc (fun h => by simpa using h) fun h => by simpa using h) hp
  · exact hp

@[simp] theorem State.engRegWrite_wf {s : State} (h : Memory.wf s.mem = true) (p : Place) (eng n : Nat) (v : Word) :
    Memory.wf (s.engRegWrite p eng n v).mem = true := by
  unfold State.engRegWrite
  split <;> simp [h]

/-! ## The operations of Machine/Vector -/

@[simp] theorem State.vstore_wf {s : State} (h : Memory.wf s.mem = true) (p : Place) (v : VCmd)
    (lanes : List (Nat × Nat × W32)) :
    Memory.wf (s.vstore p v lanes).mem = true := by
  unfold State.vstore
  extract_lets cells
  split
  · refine wf_foldl (fun s x h => ?_) _ h
    dsimp only
    split
    · exact State.unitWrite_wf h ..
    · exact State.poke_wf h ..
  · simp [h]
  · simp [h]

@[simp] theorem State.performVS_wf {s : State} (h : Memory.wf s.mem = true) (p : Place) (v : VCmd) (op : OpVS)
    (f : FmtVS) :
    Memory.wf (s.performVS p v op f).mem = true := by
  unfold State.performVS
  extract_lets c k a old b rm
  split
  · simp [h]
  split
  · refine wf_foldl (fun s i h => ?_) _ (by exact h)
    split <;> simp [h]
  · split
    · refine wf_foldl (fun s i h => ?_) _ (by exact h)
      split <;> simp [h]
    · exact h
  · split
    next heq => simp [wf_fst heq (by simp [h])]
  all_goals simp [h]

@[simp] theorem State.performCmd_wf {s : State} (h : Memory.wf s.mem = true) (c : Nat) (v : VCmd) :
    Memory.wf (s.performCmd c v).mem = true := by
  unfold State.performCmd
  (repeat' split) <;> simp [h]

@[simp] theorem State.vectorStep_wf {s : State} (h : Memory.wf s.mem = true) (c : Nat) :
    Memory.wf (s.vectorStep c).mem = true := by
  unfold State.vectorStep
  (repeat' split) <;> simp [h]

/-! ## The operations of Machine/Net -/

@[simp] theorem State.fringPut_wf {s : State} (h : Memory.wf s.mem = true) (c : Nat) (ws : List Word) :
    Memory.wf (s.fringPut c ws).mem = true := by
  unfold State.fringPut
  dsimp only
  split <;> simp [h]

@[simp] theorem State.storeArrive_wf {s : State} (h : Memory.wf s.mem = true) (c : Nat)
    (parts : List (Nat × List Byte)) (m : Msg) :
    Memory.wf (s.storeArrive c parts m).mem = true := by
  unfold State.storeArrive
  dsimp only
  (repeat' split) <;> simp [h]

@[simp] theorem State.stealEnter_wf {s : State} (h : Memory.wf s.mem = true) (c : Nat) (l : List Rec) :
    Memory.wf (s.stealEnter c l).1.mem = true := by
  induction l generalizing s with
  | nil => exact h
  | cons r t ih =>
    unfold State.stealEnter
    split
    · next heq => exact ih (State.enterReady_wf h heq)
    · exact h

theorem State.workEnter_wf {s : State} (h : Memory.wf s.mem = true) {c : Nat} {b : Body} {t : State}
    (e : s.workEnter c b = some t) : Memory.wf t.mem = true := by
  unfold State.workEnter at e
  split at e
  · exact State.enterReady_wf h e
  · exact State.cueArrive_wf h e
  · split at e
    · next heq =>
      cases e
      exact wf_fst heq (by simp [h])
    · cases e
  · cases e
    simp [h]
  · cases e
    exact h

theorem State.workArrive_wf {s : State} (h : Memory.wf s.mem = true) {c : Nat} {b : Body} {t : State}
    (e : s.workArrive c b = some t) : Memory.wf t.mem = true := by
  unfold State.workArrive at e
  split at e
  · cases e
    simp [h]
  · exact State.workEnter_wf h e

theorem State.deliver_wf {s : State} (h : Memory.wf s.mem = true) {c : Nat} {m : Msg} {t : State}
    (e : s.deliver c m = some t) : Memory.wf t.mem = true := by
  unfold State.deliver at e
  split at e
  · cases e
    simp [h]
  split at e
  · split at e
    · simp [State.mem_of_mailArrive e, h]
    · cases e
      simp [h]
  · cases e
    simp [h]
  · cases e
    simp [h]
  · cases e
    simp [h]
  · cases e
    simp [h]
  · exact State.workArrive_wf h e
  · exact State.workArrive_wf h e
  · exact State.workArrive_wf h e
  · exact State.workArrive_wf h e
  · split at e <;> cases e
    simp [h]
  · split at e <;> cases e
    simp [h]
  · simp [State.mem_of_seizeArrive e, h]
  · simp [State.mem_of_releaseArrive e, h]

theorem State.arriveOpt_wf {s : State} (h : Memory.wf s.mem = true) {k : Nat} {want : Body → Bool} {t : State}
    (e : s.arriveOpt k want = some t) : Memory.wf t.mem = true := by
  unfold State.arriveOpt at e
  split at e
  · cases e
  split at e
  · cases e
  · exact State.deliver_wf (by simpa using h) e

@[simp] theorem State.arrive_wf {s : State} (h : Memory.wf s.mem = true) (k : Nat) (want : Body → Bool) :
    Memory.wf (s.arrive k want).mem = true := by
  unfold State.arrive
  cases heq : s.arriveOpt k want with
  | none => exact h
  | some t => exact State.arriveOpt_wf h heq

@[simp] theorem State.doorDeliver_wf {s : State} (h : Memory.wf s.mem = true) (die k : Nat) :
    Memory.wf (s.doorDeliver die k).mem = true := by
  unfold State.doorDeliver
  extract_lets l
  split
  · exact h
  split
  · exact h
  split
  · exact h
  · split
    · exact wf_of_mem_eq (State.mem_bounceArrive ..) h
    split
    · exact h
    split
    · next heq => exact State.deliver_wf (by exact wf_of_mem_eq (State.mem_taken ..) h) heq
    · exact h
  · exact wf_of_mem_eq (State.mem_bounceArrive ..) h

/-! ## The operations of Machine/Module -/

@[simp] theorem State.mirrorEntry_wf {s : State} (h : Memory.wf s.mem = true) (n : Word) (e : List Byte) :
    Memory.wf (s.mirrorEntry n e).mem = true := by
  unfold State.mirrorEntry
  split <;> simp [h]

@[simp] theorem State.replay1_wf {s : State} (h : Memory.wf s.mem = true) (x : Nat × Nat × Nat × List Byte) :
    Memory.wf (s.replay1 x).mem = true := by
  unfold State.replay1
  dsimp only
  (repeat' split) <;> simp [h]

@[simp] theorem State.takeover_wf {s : State} (h : Memory.wf s.mem = true) : Memory.wf s.takeover.mem = true := by
  unfold State.takeover
  obtain ⟨units, hu⟩ : ∃ l, l = List.range 64 := ⟨_, rfl⟩
  obtain ⟨timers, ht⟩ : ∃ l, l = List.range 4 := ⟨_, rfl⟩
  rw [← hu, ← ht]
  extract_lets a b todo d e f g i
  have hd : Memory.wf d.mem = true := by simp [d, b, a, h]
  have he : Memory.wf e.mem = true := State.poke_wf hd ..
  have hf : Memory.wf f.mem = true := by
    refine wf_foldl (fun s i h => ?_) units he
    refine wf_foldl (fun s t h => ?_) timers h
    dsimp only
    split
    · exact h
    · exact h
  have hg : Memory.wf g.mem = true := wf_foldl (fun s x h => by simp [h]) _ hf
  exact wf_of_mem_eq (State.mem_ringWaiting ..) hg

@[simp] theorem State.understudyCheck_wf {s : State} (h : Memory.wf s.mem = true)  :
    Memory.wf (s.understudyCheck).mem = true := by
  unfold State.understudyCheck
  (repeat' split) <;> simp [h]

@[simp] theorem State.understudyEvent_wf {s : State} (h : Memory.wf s.mem = true) (word : Word) :
    Memory.wf (s.understudyEvent word).mem = true := by
  unfold State.understudyEvent
  dsimp only
  split <;> simp [h, State.poke_wf]

@[simp] theorem State.displaceTo_wf {s : State} (h : Memory.wf s.mem = true) (c : Nat) (r : Rec) :
    Memory.wf (s.displaceTo c r).mem = true := by
  unfold State.displaceTo
  extract_lets v tab
  split
  · simp [h]
  split
  · next heq => exact State.pushReady_wf h heq
  · simp [h]

@[simp] theorem State.thermalOut_wf {s : State} (h : Memory.wf s.mem = true) (c i : Nat) :
    Memory.wf (s.thermalOut c i).mem = true := by
  unfold State.thermalOut
  dsimp only
  split <;> simp [h]

@[simp] theorem State.thermalStep_wf {s : State} (h : Memory.wf s.mem = true) (c temp : Nat) :
    Memory.wf (s.thermalStep c temp).mem = true := by
  unfold State.thermalStep
  dsimp only
  (repeat' split) <;> simp [h]

/-! ## The operations of Machine/Paging -/

@[simp] theorem State.takeHeld_wf {s : State} (h : Memory.wf s.mem = true) (c : Nat) (l : List Msg) :
    Memory.wf (s.takeHeld c l).mem = true := by
  induction l generalizing s with
  | nil => exact h
  | cons m t ih =>
    unfold State.takeHeld
    split
    · next heq => exact ih (State.workEnter_wf h heq)
    · exact h

@[simp] theorem State.releaseHeldEv_wf {s : State} (h : Memory.wf s.mem = true) (c : Nat) :
    Memory.wf (s.releaseHeldEv c).mem = true := by
  unfold State.releaseHeldEv
  dsimp only
  (repeat' split) <;> simp [h]

@[simp] theorem State.recallStep_wf {s : State} (h : Memory.wf s.mem = true) (c : Nat) :
    Memory.wf (s.recallStep c).mem = true := by
  unfold State.recallStep
  split
  · simp [h]
  refine wf_ite (by simp [h]) ?_
  obtain ⟨qs, hqs⟩ : ∃ qs, qs = List.range 32 := ⟨_, rfl⟩
  rw [← hqs]
  extract_lets tag d0 d1 pa goto at_ u v
  have hg : ∀ s t, (goto s t).mem = s.mem := fun _ _ => rfl
  have hu : Memory.wf u.mem = true := wf_ite (State.engWrite_wf h ..) h
  have hv : Memory.wf v.mem = true := wf_foldl (fun _ _ h => by simpa using h) _ hu
  split
  · split
    · simp [hg, h]
    split
    · simp [hg, h]
    split
    · exact h
    · rw [hg]
      exact State.poke_wf hv ..
  split
  · rw [hg]
    exact State.mnqPost_wf h ..
  · exact h

@[simp] theorem State.mnqRescan_wf {s : State} (h : Memory.wf s.mem = true) (d : Nat) :
    Memory.wf (s.mnqRescan d).mem = true := by
  unfold State.mnqRescan
  refine wf_foldl (fun s k h => ?_) _ h
  refine wf_foldl (fun s i h => ?_) _ h
  split
  · split
    · simp [h]
    · exact h
  · exact h

@[simp] theorem State.mnqHeadWrite_wf {s : State} (h : Memory.wf s.mem = true) (d : Nat) (v : Word) :
    Memory.wf (s.mnqHeadWrite d v).mem = true := by
  simp [State.mnqHeadWrite, h]

/-! ## The operations of Machine/Watchdog -/

@[simp] theorem State.wdogPreempt_wf {s : State} (h : Memory.wf s.mem = true) (q : Nat) :
    Memory.wf (s.wdogPreempt q).mem = true := by
  unfold State.wdogPreempt
  split
  · exact h
  · simp [wf_foldl (fun s c (h : Memory.wf s.mem = true) => State.preRequest_wf h c 2) _ h]

@[simp] theorem State.afterKill_wf {s : State} (h : Memory.wf s.mem = true) (q : Nat) :
    Memory.wf (s.afterKill q).mem = true := by
  unfold State.afterKill
  dsimp only
  (repeat' split) <;> simp [h]

@[simp] theorem State.wdogKill_wf {s : State} (h : Memory.wf s.mem = true) (q : Nat) :
    Memory.wf (s.wdogKill q).mem = true := by
  unfold State.wdogKill
  split <;> simp [h, wf_foldl]

@[simp] theorem State.gangDrain_wf {s : State} (h : Memory.wf s.mem = true) (c : Nat) :
    Memory.wf (s.gangDrain c).mem = true := by
  unfold State.gangDrain
  extract_lets first u
  have hu : Memory.wf u.mem = true := by
    refine wf_foldl (fun s _ h => ?_) _ h
    split
    · exact wf_foldl (fun _ _ h => State.vectorStep_wf h _) _ h
    · exact h
  split
  · exact wf_foldl (fun _ _ h => by exact h) _ hu
  · exact hu

@[simp] theorem State.coreReset_wf {s : State} (h : Memory.wf s.mem = true) (c : Nat) :
    Memory.wf (s.coreReset c).mem = true := by
  unfold State.coreReset
  split
  · exact h
  extract_lets u pts ticks v w x y
  have hu : Memory.wf u.mem = true := State.gangDrain_wf h c
  have hw : Memory.wf w.mem = true := wf_foldl (fun _ _ h => by simpa using h) _ (by simpa [v] using hu)
  have hx : Memory.wf x.mem = true := by
    refine wf_foldl (fun s i h => ?_) _ hw
    dsimp only
    (repeat' split) <;> simp [h]
  simpa [y] using hx

/-! ## The operations of Machine/ControlRegs -/

@[simp] theorem State.crWrite_wf {s : State} (h : Memory.wf s.mem = true) (p : Place) (n : Nat) (v : Word)
    (priv : Bool) :
    Memory.wf (s.crWrite p n v priv).mem = true := by
  unfold State.crWrite
  dsimp only
  (repeat' split) <;> simp [h]

@[simp] theorem State.swWrite_wf {s : State} (h : Memory.wf s.mem = true) (q : Place) (crn n : Nat) (v : Word) :
    Memory.wf (s.swWrite q crn n v).mem = true := by
  unfold State.swWrite
  (repeat' split) <;> simp [h]

@[simp] theorem State.regWrite_wf {s : State} (h : Memory.wf s.mem = true) (p : Place) (n : Nat) (v : Word) :
    Memory.wf (s.regWrite p n v).mem = true := by
  unfold State.regWrite
  dsimp only
  (repeat' split) <;> simp [h]

/-! ## The operations of Machine/Ingress -/

@[simp] theorem State.csiImage_wf {s : State} (h : Memory.wf s.mem = true) (die rx vc dt : Nat) (good : Bool)
    (bytes : List Byte) :
    Memory.wf (s.csiImage die rx vc dt good bytes).mem = true := by
  unfold State.csiImage
  dsimp only
  (repeat' split) <;> simp [h, State.devWrite_wf]

/-! ## The operations of Machine/Barrel -/

@[simp] theorem State.countFetch_wf {s : State} (h : Memory.wf s.mem = true) (p : Place) (n : Nat) :
    Memory.wf (s.countFetch p n).mem = true := by
  unfold State.countFetch
  split
  · exact h
  · refine wf_foldl (fun s i h => ?_) _ h
    split
    · next heq => exact wf_of_mem_eq (State.mem_l2Access ..) (State.countOn_wf (wf_fst heq (by simp [h])) ..)
    · exact h

/-! ## The operations of Machine/Tick -/

@[simp] theorem State.tickNet_wf {s : State} (h : Memory.wf s.mem = true)  :
    Memory.wf s.tickNet.mem = true := by
  unfold State.tickNet
  refine wf_foldl (fun s d h => ?_) _ h
  cases heq : (s.bound d).findSome? fun k => s.arriveOpt k fun _ => true with
  | none => exact h
  | some t =>
    obtain ⟨k, -, hk⟩ := List.exists_of_findSome?_eq_some heq
    exact State.arriveOpt_wf h hk

@[simp] theorem State.tickDoors_wf {s : State} (h : Memory.wf s.mem = true)  :
    Memory.wf s.tickDoors.mem = true := by
  unfold State.tickDoors
  refine wf_foldl (fun s d h => wf_foldl (fun s m h => ?_) _ h) _ h
  split
  · exact State.doorDeliver_wf h ..
  · exact h

@[simp] theorem State.engineStep_wf {s : State} (h : Memory.wf s.mem = true) (c key : Nat) :
    Memory.wf (s.engineStep c key).mem = true := by
  unfold State.engineStep
  dsimp only
  (repeat' split) <;> simp [h]

@[simp] theorem State.tickEngines_wf {s : State} (h : Memory.wf s.mem = true) (c : Nat) :
    Memory.wf (s.tickEngines c).mem = true := by
  unfold State.tickEngines
  extract_lets u v parked w
  have hv : Memory.wf v.mem = true := wf_foldl (fun _ _ h => State.engineStep_wf h ..) _ (State.vectorStep_wf h c)
  have hw : Memory.wf w.mem = true := wf_ite (by simpa using hv) hv
  exact wf_ite (by simpa using hw) hw

@[simp] theorem State.tickUnits_wf {s : State} (h : Memory.wf s.mem = true)  :
    Memory.wf s.tickUnits.mem = true := by
  unfold State.tickUnits
  extract_lets u v
  have hu : Memory.wf u.mem = true := wf_foldl (fun _ _ h => by simp [h]) _ h
  have hv : Memory.wf v.mem = true :=
    wf_foldl (fun s d h => wf_foldl (fun _ _ h => State.streamApply_wf h ..) _ h) _ hu
  exact wf_foldl (fun _ _ h => by simp [h]) _ hv

@[simp] theorem State.tickCore_wf {s : State} (h : Memory.wf s.mem = true) (c : Nat) :
    Memory.wf (s.tickCore c).mem = true := by
  unfold State.tickCore
  extract_lets s1 s2 s3 s4 s5 s6
  have h1 : Memory.wf s1.mem = true := wf_ite h (by simp [h])
  have h2 : Memory.wf s2.mem = true := wf_ite h1 (by simp [h1])
  have h3 : Memory.wf s3.mem = true :=
    wf_ite (by simp [wf_foldl (fun s i (h : Memory.wf s.mem = true) => State.preEntry_wf h c i) _ h2]) h2
  have h5 : Memory.wf s5.mem = true := by simp [s5, s4, h3]
  have h6 : Memory.wf s6.mem = true :=
    wf_ite (wf_foldl (fun _ _ h => by simp [h]) _ h5) (wf_foldl (fun _ _ h => by simp [h]) _ h5)
  exact State.stealProbe_wf h6 c

@[simp] theorem State.tickSlot_wf {s : State} (h : Memory.wf s.mem = true) (q : Nat) :
    Memory.wf (s.tickSlot q).mem = true := by
  unfold State.tickSlot
  extract_lets u v
  have hu : Memory.wf u.mem = true := by simp [u, h]
  have hv : Memory.wf v.mem = true := by
    unfold v
    split
    case h_3 => exact State.cmdQuote_wf (State.cmdSignal_wf (State.cmdWait_wf (State.cmdLaunch_wf h q) q) q) q
    case h_4 => exact wf_ite (by simp [hu]) hu
    all_goals simp [h]
  exact wf_ite (by simp [hv]) hv

@[simp] theorem State.tickPeriods_wf {s : State} (h : Memory.wf s.mem = true) (t : Nat) :
    Memory.wf (s.tickPeriods t).mem = true := by
  unfold State.tickPeriods
  obtain ⟨cs, hcs⟩ : ∃ cs, cs = List.range Config.dTiles := ⟨_, rfl⟩
  rw [← hcs]
  extract_lets lb u v m w x
  have hl : ∀ (l : List Nat) d {s : State}, Memory.wf s.mem = true →
      Memory.wf (l.foldl (fun s c => s.loadAverage c d) s).mem = true := fun l d _ h =>
    wf_foldl (fun _ _ h => by simp [h]) l h
  have hu : Memory.wf u.mem = true := hl _ 4 h
  have hv : Memory.wf v.mem = true := wf_ite (wf_foldl (fun s d h => hl _ d h) _ hu) h
  have hw : Memory.wf w.mem = true := wf_ite (by simp [hv]) hv
  have hx : Memory.wf x.mem = true := wf_ite (by simp [hw]) hw
  simp [hx]

@[simp] theorem State.tickMemory_wf {s : State} (h : Memory.wf s.mem = true)  :
    Memory.wf s.tickMemory.mem = true := by
  unfold State.tickMemory
  extract_lets u v w
  have hu : Memory.wf u.mem = true := State.flushExt_wf h _
  have hv : Memory.wf v.mem = true := wf_foldl (fun _ _ h => by simp [h]) _ hu
  have hw : Memory.wf w.mem = true := by
    refine wf_foldl (fun s d h => ?_) _ hv
    have hm : Memory.wf (s.moveCopied d).mem = true := State.moveCopied_wf h d
    exact wf_ite (by simp [hm]) hm
  simp [hw]

/-- A step of every core that keeps the canonical form keeps it. -/
theorem State.eachCore_wf {s : State} (h : Memory.wf s.mem = true) {f : State → Nat → State}
    (hf : ∀ {s} c, Memory.wf s.mem = true → Memory.wf (f s c).mem = true) : Memory.wf (s.eachCore f).mem = true := by
  unfold State.eachCore
  exact wf_foldl (fun _ _ h => hf _ h) _ h

@[simp] theorem State.tick_wf {s : State} (h : Memory.wf s.mem = true) : Memory.wf s.tick.mem = true := by
  unfold State.tick
  extract_lets t s1 s2 s3 s4 s5 s6 s7 s8 s9 s10
  have h2 : Memory.wf s2.mem = true := State.eachCore_wf (by simp [s1, h]) fun c h => by simp [h]
  have h3 : Memory.wf s3.mem = true := wf_ite (State.eachCore_wf h2 fun c h => by simp [h]) h2
  have h6 : Memory.wf s6.mem = true := State.tickNet_wf (State.tickDoors_wf (by simp [s5, s4, h3]))
  have h7 : Memory.wf s7.mem = true := State.eachCore_wf h6 fun c h => State.tickEngines_wf h c
  have h8 : Memory.wf s8.mem = true := State.tickUnits_wf h7
  have h9 : Memory.wf s9.mem = true := State.eachCore_wf h8 fun c h => State.tickCore_wf h c
  have h10 : Memory.wf s10.mem = true := wf_foldl (fun _ _ h => State.tickSlot_wf h _) _ h9
  exact State.tickPeriods_wf h10 t

end Sys2Proof.Machine

namespace Sys2Proof.Machine

/-! # What an instruction does with memory -/

/-! Commits. -/

/-- Every state that the coherent part of a commit can leave has memory in its canonical form. -/
def Coh.Sound : Coh → Prop
  | .done s _ => Memory.wf s.mem = true
  | .conflict s => Memory.wf s.mem = true

/-- Every state that a commit can leave has memory in its canonical form. -/
def Commit.Sound : Commit → Prop
  | .done s => Memory.wf s.mem = true
  | .wait _ s _ => Memory.wf s.mem = true
  | .conflict s => Memory.wf s.mem = true

theorem State.commitCoherent_sound {s : State} (h : Memory.wf s.mem = true) (c : Nat) (sc : Scene) :
    (s.commitCoherent c sc).Sound := by
  unfold State.commitCoherent
  extract_lets wr seen ts1 ts2 ts
  split
  · exact h
  split
  · next heq => exact wf_fst heq (by simp [h])
  · next heq =>
    have h1 := wf_fst heq (by simp [h])
    extract_lets u v
    have hu : Memory.wf u.mem = true := wf_foldl (fun _ _ h => by exact h) _ h1
    have hv : Memory.wf v.mem = true := wf_foldl (fun _ _ h => by simpa using h) _ hu
    exact State.cohEntries_wf hv c sc.entries

theorem State.commitWait_sound {s : State} (h : Memory.wf s.mem = true) (p : Place) (c : Stall) :
    (s.commitWait p c).Sound := by
  unfold State.commitWait
  split <;> exact h

theorem State.commitHome_sound {s : State} (h : Memory.wf s.mem = true) (p : Place) (pas : List Nat) :
    (s.commitHome p pas).Sound := by
  refine State.commitWait_sound (wf_foldl (fun s pa h => ?_) pas h) p _
  cases hj : s.joinAt (.seat p) pa with
  | none => exact h
  | some t => exact wf_of_mem_eq (State.mem_of_joinAt hj) h

theorem State.commitRest_sound {s : State} (h : Memory.wf s.mem = true) (p : Place) (sc : Scene) (l : List Entry) :
    (s.commitRest p sc l).Sound := by
  unfold State.commitRest
  split <;> next heq =>
    have h1 := wf_fst heq (State.drain_wf h p l)
    exact h1

theorem State.commit_sound {s : State} (h : Memory.wf s.mem = true) (p : Place) : (s.commit p).Sound := by
  unfold State.commit
  split
  · exact h
  next sc _ =>
  split
  · exact State.commitRest_sound h p sc _
  split
  · exact State.commitWait_sound h p _
  split
  · exact State.commitHome_sound h p _
  extract_lets now
  split
  · exact State.commitWait_sound h p _
  have hc := State.commitCoherent_sound h p.core now
  split
  · next heq =>
    rw [heq] at hc
    split
    · exact State.commitWait_sound h p _
    · exact wf_of_mem_eq (State.mem_discard ..) hc
  · next heq =>
    rw [heq] at hc
    exact State.commitRest_sound hc p now _

theorem State.closeScene_sound {s0 s : State} (h0 : Memory.wf s0.mem = true) (h : Memory.wf s.mem = true) (p : Place) :
    (s0.closeScene s p).Sound := by
  have hc := State.commit_sound h p
  unfold State.closeScene
  split
  · next heq =>
    rw [heq] at hc
    split <;> exact hc
  · exact h0
  · exact hc

/-! What an act leaves. -/

/-- Every state that an act leaves has memory in its canonical form. -/
def Act.Sound : Act → Prop
  | .done s _ _ => Memory.wf s.mem = true
  | .begun s => Memory.wf s.mem = true
  | .left s => Memory.wf s.mem = true
  | .final s => Memory.wf s.mem = true
  | _ => True

/-- A check that fails ends the instruction with such an act. -/
def ChkSound : Option Act → Prop
  | some a => a.Sound
  | none => True

@[simp] theorem Act.sound_done (s : State) (v pc : Option Word) :
    (Act.done s v pc).Sound ↔ Memory.wf s.mem = true := Iff.rfl
@[simp] theorem Act.sound_begun (s : State) : (Act.begun s).Sound ↔ Memory.wf s.mem = true := Iff.rfl
@[simp] theorem Act.sound_left (s : State) : (Act.left s).Sound ↔ Memory.wf s.mem = true := Iff.rfl
@[simp] theorem Act.sound_final (s : State) : (Act.final s).Sound ↔ Memory.wf s.mem = true := Iff.rfl
@[simp] theorem Act.sound_bad (off : Word) (sec : Nat) : (Act.bad off sec).Sound := trivial
@[simp] theorem Acc.sound_act (off : Word) (a : Acc) : (a.act off).Sound := by
  cases a <;> trivial

@[simp] theorem chkSound_some (a : Act) : ChkSound (some a) ↔ a.Sound := Iff.rfl

theorem chkSound_or {a b : Option Act} (ha : ChkSound a) (hb : ChkSound b) : ChkSound (a.or b) := by
  cases a with
  | none => exact hb
  | some a => exact ha

theorem chkSound_chks {l : List (Ctx → State → Option Act)} {x : Ctx} {s : State}
    (hl : ∀ c ∈ l, ChkSound (c x s)) : ChkSound (chks l x s) := by
  unfold chks
  cases hc : l.findSome? fun c => c x s with
  | none => trivial
  | some a =>
    obtain ⟨c, hm, ha⟩ := List.exists_of_findSome?_eq_some hc
    simpa [ha] using hl c hm

theorem State.conclude_wf {s0 : State} (h0 : Memory.wf s0.mem = true) {x : Ctx} {h : Shape} {hold : BitVec 2}
    {reopen : Option (Nat × BitVec 15)} {a : Act} (ha : a.Sound) :
    Memory.wf (s0.conclude x h hold reopen a).mem = true := by
  cases a with
  | done s v pc =>
    unfold State.conclude
    dsimp only
    split <;> simpa using ha
  | park off slot va sub =>
    unfold State.conclude
    dsimp only
    split
    · next hp => exact wf_of_mem_eq (State.mem_of_park hp) h0
    · exact h0
  | begun s => exact ha
  | left s => simpa [State.conclude] using ha
  | final s => exact ha
  | wait c => exact h0
  | trap c info fa => simpa [State.conclude] using h0
  | bad off sec => simpa [State.conclude] using h0
  | atHome pa => simpa [State.conclude] using h0
  | atMesh => simpa [State.conclude] using h0

/-- Issuing an instruction keeps the canonical form when its check and its work do. -/
theorem issueWith_wf {h : Shape} {hold : BitVec 2} {waits : Waits} {check : Check} {body : Ctx → State → Act} {s0 : State}
    (h0 : Memory.wf s0.mem = true) (hk : ∀ x s, (h.keep x s).mem = s.mem)
    (hc : ∀ x {s}, Memory.wf s.mem = true → ChkSound (check x s))
    (hb : ∀ x {s}, Memory.wf s.mem = true → (body x s).Sound) :
    Memory.wf (issueWith h hold waits check body s0).mem = true := by
  unfold issueWith
  extract_lets p b word next reopen x
  refine wf_ite (State.conclude_wf h0 (hb x h0)) ?_
  cases s0.stalled p h waits with
  | some c => exact h0
  | none =>
  refine wf_ite (by simp [h0]) (wf_ite (by simp [h0]) ?_)
  split
  · next heq =>
    have h1 := wf_fst heq (by simp [h0])
    split
    · simp [h0]
    · exact State.conclude_wf h0 trivial
    · exact State.conclude_wf h0 trivial
    · exact State.conclude_wf h0 trivial
    · exact h1
  next heq =>
  have h1 := wf_fst heq (by simp [h0])
  refine wf_ite (by simp [h0]) (wf_ite (by simp [h0]) (wf_ite ?_ ?_))
  · refine State.conclude_wf ?_ (Act.sound_bad ..)
    exact h0
  split
  next s _ heq =>
  have h2 := wf_fst heq (by simp [h1])
  extract_lets x
  have hck : ChkSound (if b.wip = .commit then none else check x s) := by
    split
    · trivial
    · exact hc x h2
  split
  · next heq =>
    rw [heq] at hck
    exact State.conclude_wf h0 hck
  refine wf_ite (by simp [h0]) (wf_ite (wf_ite (by simp [h0]) ?_) (State.conclude_wf h0 (hb x h2)))
  have hs := State.closeScene_sound h0 (wf_of_mem_eq (hk x s) h2) p
  split
  · next heq =>
    rw [heq] at hs
    exact State.conclude_wf h0 (hb x hs)
  · next heq =>
    rw [heq] at hs
    split <;> exact hs
  · next heq =>
    rw [heq] at hs
    exact hs

end Sys2Proof.Machine

namespace Sys2Proof.Machine

/-! Checks at issue. -/

/-- The answer of an access that was not made. -/
theorem State.sound_of_seatRead {s t : State} {p : Place} {seg : Nat} {off : Word} {n al : Nat} {a : Act}
    (e : s.seatRead p seg off n al = (t, .error a)) : a.Sound := by
  unfold State.seatRead at e
  split at e
  · split at e
    · cases e
      trivial
    · split at e <;> cases e
      trivial
  · cases e
    simp

theorem State.sound_of_seatWrite {s t : State} {p : Place} {seg : Nat} {off : Word} {n : Nat} {v : Word} {a : Act}
    (e : s.seatWrite p seg off n v = (t, some a)) : a.Sound := by
  unfold State.seatWrite at e
  split at e
  · split at e <;> cases e
    trivial
  · cases e
    simp

theorem State.sound_of_blockPlace {s t : State} {p : Place} {g : Seg} {off : Word} {l : List Nat} {a : Act}
    (e : s.blockPlace p g off l = (t, .error a)) : a.Sound := by
  induction l generalizing s t a with
  | nil => cases e
  | cons i l ih =>
    unfold State.blockPlace at e
    split at e
    · split at e <;> cases e
      next heq => exact ih heq
    · cases e
      simp

theorem State.sound_of_blockAt {s t : State} {p : Place} {off : Word} {n m : Nat} {a : Act}
    (e : s.blockAt p off n m = (t, .error a)) : a.Sound := by
  unfold State.blockAt at e
  dsimp only at e
  split at e
  · cases e
    trivial
  split at e
  · next heq =>
    cases e
    exact State.sound_of_blockPlace heq
  · split at e
    · cases e
      trivial
    · split at e <;> cases e
      trivial

theorem chkSound_storeChk (seg : Nat) (off : Word) (sz : Nat) (x : Ctx) (s : State) :
    ChkSound (storeChk seg off sz x s) := by
  unfold storeChk
  split
  · split <;> trivial
  · simp

theorem chkSound_loadChk (s : State) (p : Place) (seg : Nat) (off : Word) (n : Nat) :
    ChkSound (s.loadChk p seg off n) := by
  unfold State.loadChk
  split
  · split <;> trivial
  · simp

theorem chkSound_amoChk (op seg rd n ia : Nat) (x : Ctx) (s : State) : ChkSound (amoChk op seg rd n ia x s) := by
  unfold amoChk
  dsimp only
  split
  · (repeat' split) <;> trivial
  · simp

theorem chkSound_ldAcqChk (f : FmtOrd) (x : Ctx) (s : State) : ChkSound (ldAcqChk f x s) := by
  have hl := chkSound_loadChk s x.p f.seg.toNat (x.v 0) (4 * (1 + f.d.toNat))
  unfold ldAcqChk
  split
  · next heq =>
    rw [heq] at hl
    exact hl
  · split <;> trivial

theorem chkSound_rstChk (al : Nat) (w : Word) (x : Ctx) (s : State) : ChkSound (rstChk al w x s) := by
  unfold rstChk
  dsimp only
  (repeat' split) <;> trivial

theorem chkSound_meshChk (x : Ctx) (s : State) : ChkSound (meshChk x s) := by
  unfold meshChk
  split <;> trivial

theorem chkSound_rstMesh (x : Ctx) (s : State) : ChkSound (rstMesh x s) := by
  unfold rstMesh
  split
  · trivial
  · exact chkSound_meshChk x s

theorem chkSound_suspChk (x : Ctx) (s : State) : ChkSound (suspChk x s) := by
  unfold suspChk
  (repeat' split) <;> trivial

theorem chkSound_syncChk (x : Ctx) (s : State) : ChkSound (syncChk x s) := by
  unfold syncChk
  (repeat' split) <;> trivial

theorem chkSound_exitChk (x : Ctx) (s : State) : ChkSound (exitChk x s) := by
  unfold exitChk
  (repeat' split) <;> trivial

theorem chkSound_blockChk (off : Word) (n : Nat) (more : List (State → List Nat → Option Nat)) (m : Nat) (x : Ctx)
    (s : State) : ChkSound (blockChk off n more m x s) := by
  induction more generalizing m s with
  | nil =>
    unfold blockChk
    generalize hb : s.blockAt x.p off n m = y
    obtain ⟨t, a | ks⟩ := y
    · exact State.sound_of_blockAt hb
    · trivial
  | cons f l ih =>
    unfold blockChk
    generalize hb : s.blockAt x.p off n m = y
    obtain ⟨t, a | ks⟩ := y
    · exact State.sound_of_blockAt hb
    · dsimp only
      split
      · exact ih ..
      · trivial

theorem chkSound_yieldRoom {s : State} (h : Memory.wf s.mem = true) (x : Ctx) : ChkSound (yieldRoom x s) := by
  unfold yieldRoom
  split
  · exact h
  · trivial

theorem chkSound_spawnChk (x : Ctx) (s : State) : ChkSound (spawnChk x s) := by
  refine chkSound_chks fun c hc => ?_
  simp only [List.mem_cons, List.not_mem_nil, or_false] at hc
  obtain rfl | rfl | rfl | rfl := hc
  · exact chkSound_suspChk x s
  · dsimp only
    split <;> trivial
  · exact chkSound_blockChk ..
  · dsimp only
    split <;> trivial

theorem chkSound_sendChk (x : Ctx) (s : State) : ChkSound (sendChk x s) := by
  unfold sendChk
  (repeat' split) <;> trivial

theorem chkSound_gangX (x : Ctx) (s : State) : ChkSound (gangX x s) := by
  unfold gangX
  split <;> trivial

theorem chkSound_noHandler (x : Ctx) (s : State) : ChkSound (noHandler x s) := by
  unfold noHandler
  split <;> trivial

theorem chkSound_needHandler (x : Ctx) (s : State) : ChkSound (needHandler x s) := by
  unfold needHandler
  split <;> trivial

theorem chkSound_cbChk (x : Ctx) (s : State) : ChkSound (cbChk x s) := by
  unfold cbChk
  split <;> trivial

theorem chkSound_checkOffs (b : Bank) (seg : Nat) (l : List Word) : ChkSound (b.checkOffs seg l) := by
  induction l with
  | nil => trivial
  | cons off t ih =>
    unfold Bank.checkOffs
    split
    · trivial
    · exact ih

theorem chkSound_locateOffs (s : State) (p : Place) (seg : Nat) (l : List Word) :
    ChkSound (s.locateOffs p seg l) := by
  induction l generalizing s with
  | nil => trivial
  | cons off t ih =>
    unfold State.locateOffs
    split
    · exact ih _
    · simp

theorem chkSound_engChk (eng : Nat) (x : Ctx) (s : State) : ChkSound (engChk eng x s) := by
  unfold engChk
  split <;> trivial

theorem chkSound_copRoomChk (key : List Word → Nat) (x : Ctx) (s : State) : ChkSound (copRoomChk key x s) := by
  unfold copRoomChk
  (repeat' split) <;> trivial

theorem chkSound_descChk (f : Ctx → State → Bool) (x : Ctx) (s : State) : ChkSound (descChk f x s) := by
  unfold descChk
  split <;> trivial

theorem chkSound_mtaskChk (x : Ctx) (s : State) : ChkSound (mtaskChk x s) := by
  unfold mtaskChk
  dsimp only
  (repeat' split) <;> trivial

theorem chkSound_engPrivChk (eng n : Nat) (x : Ctx) (s : State) : ChkSound (engPrivChk eng n x s) := by
  unfold engPrivChk
  split <;> trivial

theorem chkSound_seizeChk (g : Nat) (x : Ctx) (s : State) : ChkSound (seizeChk g x s) := by
  unfold seizeChk
  dsimp only
  (repeat' split) <;> trivial

theorem chkSound_releaseChk (g : Nat) (x : Ctx) (s : State) : ChkSound (releaseChk g x s) := by
  unfold releaseChk
  split <;> trivial

theorem chkSound_vgChk (x : Ctx) (s : State) : ChkSound (vgChk x s) := by
  unfold vgChk
  split <;> trivial

theorem chkSound_crPrivChk (n : Nat) (x : Ctx) (s : State) : ChkSound (crPrivChk n x s) := by
  unfold crPrivChk
  split <;> trivial

theorem chkSound_bfChk (x : Ctx) (s : State) : ChkSound (bfChk x s) := by
  unfold bfChk
  split <;> trivial

theorem chkSound_rstvChk (x : Ctx) (s : State) : ChkSound (rstvChk x s) :=
  chkSound_or (chkSound_rstChk ..) (chkSound_rstMesh x s)

/-! Where the lanes of a vector access are. -/

theorem State.sound_of_vspan {s : State} {p : Place} {seg : Nat} {off : Word} {w : Bool} {a : Act}
    (e : s.vspan p seg off w = .error a) : a.Sound := by
  unfold State.vspan at e
  dsimp only at e
  split at e
  · cases e
    trivial
  split at e
  · cases e
    trivial
  split at e <;> cases e
  trivial

theorem State.sound_of_vlanesAt {s : State} {p : Place} {g : Seg} {base : Word} {v : BitVec 2048} {w : Bool} {l : List Nat}
    {a : Act} (e : s.vlanesAt p g base v w l = .error a) : a.Sound := by
  induction l generalizing a with
  | nil => cases e
  | cons i t ih =>
    unfold State.vlanesAt at e
    dsimp only at e
    split at e
    · cases e
      trivial
    split at e
    · cases e
      trivial
    split at e
    · next heq =>
      cases e
      exact ih heq
    · cases e

theorem State.sound_of_vindexed {s : State} {p : Place} {seg : Nat} {base : Word} {va km : Nat} {w : Bool} {a : Act}
    (e : s.vindexed p seg base va km w = .error a) : a.Sound := by
  unfold State.vindexed at e
  dsimp only at e
  split at e
  · cases e
    trivial
  · exact State.sound_of_vlanesAt e

theorem State.sound_of_vslices {s : State} {p : Place} {off : Word} {a : Act} (e : s.vslices p off = .error a) :
    a.Sound := by
  unfold State.vslices at e
  split at e
  · cases e
    trivial
  split at e
  · cases e
    trivial
  split at e <;> cases e
  trivial

section VectorAccess
variable {at_ : Ctx → State → Except Act (List (Nat × Nat))} (ha : ∀ {x s a}, at_ x s = .error a → a.Sound)
include ha

theorem chkSound_vmemChk (load : Bool) (x : Ctx) (s : State) : ChkSound (vmemChk at_ load x s) := by
  unfold vmemChk
  split
  · next heq => exact ha heq
  · split
    · trivial
    · split
      · unfold State.vbad
        cases List.find? _ _ <;> trivial
      · trivial

theorem vmemAct_sound {s : State} (h : Memory.wf s.mem = true) (form : Form) (store : Bool) (n : List (Nat × Nat) → Nat)
    (x : Ctx) : (vmemAct at_ form store n x s).Sound := by
  unfold vmemAct
  split
  · next heq => exact ha heq
  · dsimp only
    split <;> simpa using h

end VectorAccess

end Sys2Proof.Machine

namespace Sys2Proof.Machine

/-! What instructions do. -/

theorem loadAct_sound {s : State} (h : Memory.wf s.mem = true) (seg : Nat) (off : Word) (sz : Nat) (sx : Bool)
    (x : Ctx) :
    (loadAct seg off sz sx x s).Sound := by
  unfold loadAct
  split
  · next heq => exact State.sound_of_seatRead heq
  · next heq => exact wf_fst heq (by simp [h])

theorem storeAct_sound {s : State} (h : Memory.wf s.mem = true) (seg : Nat) (off : Word) (sz : Nat) (v : Word)
    (x : Ctx) :
    (storeAct seg off sz v x s).Sound := by
  unfold storeAct
  split
  · next heq => exact State.sound_of_seatWrite heq
  · next heq => exact wf_fst heq (by simp [h])

theorem amoBad_sound {s : State} (h : Memory.wf s.mem = true) (cs : List Nat) (off : Word) (sec : Nat) (x : Ctx) :
    (amoBad cs off sec x s).Sound := by
  unfold amoBad
  dsimp only
  split <;> simp [h]

theorem amoRd_sound {s : State} (h : Memory.wf s.mem = true) (rd : Nat) (v : Word) (x : Ctx) :
    (amoRd rd v x s).Sound := by
  unfold amoRd
  (repeat' split) <;> simp [h]

theorem amoPush_sound {s : State} (h : Memory.wf s.mem = true) (v : Word) (reopen : Option (Nat × BitVec 15))
    (x : Ctx) :
    (amoPush v reopen x s).Sound := by
  unfold amoPush
  split
  · trivial
  · dsimp only
    split <;> simp [h]

theorem amoAbort_wf {s t : State} (h : Memory.wf s.mem = true) (ht : Memory.wf t.mem = true) (cs : List Nat) (off : Word)
    (x : Ctx) : Memory.wf (amoAbort cs off x s t).mem = true := by
  unfold amoAbort
  split <;> simp [h, ht]

theorem amoDo_sound {s : State} (h : Memory.wf s.mem = true) (op seg rd n : Nat) (cs : List Nat) (ia : Nat) (x : Ctx) :
    (amoDo op seg rd n cs ia x s).Sound := by
  unfold amoDo
  extract_lets off b
  split
  · next heq =>
    have h1 := wf_fst heq (by simp [h])
    split
    · exact amoBad_sound h1 ..
    extract_lets u old new t
    have hu : Memory.wf u.mem = true := wf_ite (State.flushExt_wf h1 _) h1
    have ht : Memory.wf t.mem = true := State.amoUnit_wf hu ..
    split
    · exact amoAbort_wf hu ht ..
    · exact amoRd_sound ht ..
  · simp

theorem amoAct_sound {s : State} (h : Memory.wf s.mem = true) (op seg rd n : Nat) (cs : List Nat) (ia : Nat) (x : Ctx) :
    (amoAct op seg rd n cs ia x s).Sound := by
  unfold amoAct
  split
  · exact amoPush_sound h ..
  · exact amoDo_sound h ..

theorem fenceAct_sound {s : State} (h : Memory.wf s.mem = true) (acq rel : Bool) (sc : Nat) (op : BufOp) (x : Ctx) :
    (fenceAct acq rel sc op x s).Sound := by
  unfold fenceAct
  split
  · simp [h]
  split
  · trivial
  · dsimp only
    (repeat' split) <;> simp [h]

theorem ldAcqAct_sound {s : State} (h : Memory.wf s.mem = true) (f : FmtOrd) (x : Ctx) : (ldAcqAct f x s).Sound := by
  have hl := loadAct_sound h f.seg.toNat (x.v 0) (2 + f.d.toNat) false x
  unfold ldAcqAct
  dsimp only
  split
  · next heq =>
    rw [heq] at hl
    split
    · exact hl
    · exact hl
  · exact hl

theorem stRelAct_sound {s : State} (h : Memory.wf s.mem = true) (f : FmtOrd) (x : Ctx) : (stRelAct f x s).Sound := by
  unfold stRelAct
  split
  · refine storeAct_sound ?_ ..
    exact h
  split
  · trivial
  · exact storeAct_sound h ..

theorem posted_sound {s : State} (h : Memory.wf s.mem = true) (x : Ctx) (no : Nat) : (posted x no s).Sound := by
  unfold posted
  split <;> exact h

theorem postedAct_sound {s : State} (h : Memory.wf s.mem = true) (no : Nat) (x : Ctx) : (postedAct no x s).Sound := by
  unfold postedAct
  split
  · trivial
  · exact h

theorem rstAct_sound {s : State} (h : Memory.wf s.mem = true) (sz : Nat) (adaptive : Bool) (x : Ctx) :
    (rstAct sz adaptive x s).Sound := by
  unfold rstAct
  extract_lets bytes held u
  have hu : Memory.wf u.mem = true := wf_ite (by simp [h]) h
  split
  · exact postedAct_sound h ..
  split
  · split
    · simp [h]
    · exact hu
  split
  · exact posted_sound (by simp [h]) ..
  · trivial

theorem lut4Act_sound {s : State} (h : Memory.wf s.mem = true) (seg : Nat) (x : Ctx) : (lut4Act seg x s).Sound := by
  unfold lut4Act
  split
  · split
    · trivial
    · exact h
  split
  · next heq => exact State.sound_of_seatRead heq
  · next heq =>
    have h1 := wf_fst heq (by simp [h])
    dsimp only
    split <;> exact h1

theorem withBlock_sound {s : State} (h : Memory.wf s.mem = true) (off : Word) (n m : Nat) (x : Ctx)
    {f : State → List Nat → Act} (hf : ∀ {s ks}, Memory.wf s.mem = true → (f s ks).Sound) :
    (withBlock off n m x s f).Sound := by
  unfold withBlock
  split
  · next heq => exact State.sound_of_blockAt heq
  · next heq => exact hf (wf_fst heq (by simp [h]))

theorem spawnAct_sound {s : State} (h : Memory.wf s.mem = true) (x : Ctx) : (spawnAct x s).Sound := by
  refine withBlock_sound h _ 8 8 x fun {s ks} h => ?_
  split
  · trivial
  · next heq =>
    have h1 := State.pushDeque_wf h heq
    simp [h1]

theorem joinAct_sound {s : State} (h : Memory.wf s.mem = true) (x : Ctx) : (joinAct x s).Sound := by
  refine withBlock_sound h _ 8 8 x fun {s ks} h => ?_
  split
  · simp [h]
  · exact withBlock_sound h _ 8 128 x fun h => by simp [h]

theorem suspendAct_sound {s : State} (h : Memory.wf s.mem = true) (x : Ctx) : (suspendAct x s).Sound := by
  refine withBlock_sound h _ 128 128 x fun {s ks} h => ?_
  dsimp only
  split <;> simp [h]

theorem yieldAct_sound {s : State} (h : Memory.wf s.mem = true) (x : Ctx) : (yieldAct x s).Sound := by
  unfold yieldAct
  split
  · next heq => simp [State.pushReady_wf h heq]
  · trivial

theorem exitJAct_sound {s : State} (h : Memory.wf s.mem = true) (x : Ctx) : (exitJAct x s).Sound := by
  refine withBlock_sound h _ 8 8 x fun {s ks} h => ?_
  dsimp only
  split
  · simp [h]
  split
  · refine withBlock_sound h _ 8 16 x fun {s ks} h => ?_
    split
    · refine withBlock_sound h _ 8 128 x fun {s ks} h => ?_
      have hw : ∀ a l, Memory.wf ((s.see x.p.core a).blockWrite x.p.core ks l).mem = true := fun a l => by simp [h]
      split
      · next heq => simp [State.pushReady_wf (hw _ _) heq]
      · simp [hw]
    · simp [h]
  · simp [h]

theorem wakeAct_sound {s : State} (h : Memory.wf s.mem = true) (x : Ctx) : (wakeAct x s).Sound := by
  refine withBlock_sound h _ 128 128 x fun {s ks} h => ?_
  split
  · exact h
  split
  · split
    · trivial
    · simp [h]
  · simp [h]

theorem barAct_sound {s : State} (h : Memory.wf s.mem = true) (x : Ctx) : (barAct x s).Sound := by
  unfold barAct
  dsimp only
  split
  · split
    · exact h
    · trivial
  split
  · exact h
  split
  · exact h
  · split <;> exact h

theorem chainAct_sound {s : State} (h : Memory.wf s.mem = true) (x : Ctx) : (chainAct x s).Sound := by
  unfold chainAct
  split <;> simp [h]

theorem sendGo_sound {s : State} (h : Memory.wf s.mem = true) (x : Ctx) : (sendGo x s).Sound := by
  unfold sendGo
  dsimp only
  split
  · split
    · exact posted_sound (by simp [h]) ..
    · trivial
  · split
    · exact posted_sound (by simp [h]) ..
    · trivial
  · simp [h]
  · simp [h]

theorem sendAct_sound {s : State} (h : Memory.wf s.mem = true) (x : Ctx) : (sendAct x s).Sound := by
  unfold sendAct
  split
  · exact postedAct_sound h ..
  · exact sendGo_sound h x

theorem mclrAct_sound {s : State} (h : Memory.wf s.mem = true) (x : Ctx) : (mclrAct x s).Sound := by
  unfold mclrAct
  dsimp only
  split <;> exact h

theorem mwaitAct_sound {s : State} (h : Memory.wf s.mem = true) (any : Bool) (x : Ctx) :
    (mwaitAct any x s).Sound := by
  unfold mwaitAct
  split
  · exact h
  split <;> trivial

theorem gangAct_sound {s : State} (h : Memory.wf s.mem = true) (n : Nat) (x : Ctx) : (gangAct n x s).Sound := by
  unfold gangAct
  split
  · split
    · trivial
    · exact h
  split
  · trivial
  split
  · simp [h]
  split
  · exact h
  split
  · exact wf_foldl (fun _ _ h => by exact h) _ h
  · exact h

theorem redoAct_sound {s : State} (h : Memory.wf s.mem = true) (x : Ctx) : (redoAct x s).Sound := by
  unfold redoAct
  dsimp only
  split
  · exact h
  split
  · trivial
  · split <;> simp [h]

theorem rettRedoAct_sound {s : State} (h : Memory.wf s.mem = true) (x : Ctx) : (rettRedoAct x s).Sound := by
  unfold rettRedoAct
  dsimp only
  split
  · exact h
  split
  · trivial
  · split <;> simp [h]

theorem cbwAct_sound {s : State} (h : Memory.wf s.mem = true) (i : Nat) (x : Ctx) : (cbwAct i x s).Sound := by
  unfold cbwAct
  split <;> exact h

theorem State.sound_of_dwordReads {s t : State} {p : Place} {seg : Nat} {l : List Word} {a : Act}
    (e : s.dwordReads p seg l = (t, .error a)) : a.Sound := by
  induction l generalizing s t a with
  | nil => cases e
  | cons off l ih =>
    unfold State.dwordReads at e
    split at e
    · next heq =>
      cases e
      exact State.sound_of_seatRead heq
    · split at e <;> cases e
      next heq => exact ih heq

theorem cbldAct_sound {s : State} (h : Memory.wf s.mem = true) (seg b : Nat) (x : Ctx) :
    (cbldAct seg b x s).Sound := by
  unfold cbldAct
  split
  · next heq => exact State.sound_of_dwordReads heq
  · next heq =>
    have h1 := wf_fst heq (by simp [h])
    split <;> exact h1

theorem qfAct_sound {s : State} (h : Memory.wf s.mem = true) (eng : Nat) (mask : Ctx → Nat) (x : Ctx) :
    (qfAct eng mask x s).Sound := by
  unfold qfAct
  dsimp only
  split
  · split
    · trivial
    · exact h
  · split <;> exact h

theorem esyncAct_sound {s : State} (h : Memory.wf s.mem = true) (eng mask words : Nat) (x : Ctx) :
    (esyncAct eng mask words x s).Sound := by
  unfold esyncAct
  dsimp only
  split <;> simp [h]

theorem jumpReg_sound {s : State} (h : Memory.wf s.mem = true) (t : Word) (link : Option Word) (x : Ctx) :
    (jumpReg t link x s).Sound := by
  unfold jumpReg
  split
  · trivial
  · exact h

theorem seizeAct_sound {s : State} (h : Memory.wf s.mem = true) (cs : List Nat) (g : Nat) (x : Ctx) :
    (seizeAct cs g x s).Sound := by
  unfold seizeAct
  extract_lets off ks r ms u
  split
  · exact amoBad_sound h ..
  · exact wf_foldl (fun _ _ h => by simp [h]) _ h

theorem rstvAct_sound {s : State} (h : Memory.wf s.mem = true) (adaptive : Bool) (form : Form) (x : Ctx) :
    (rstvAct adaptive form x s).Sound := by
  unfold rstvAct
  split
  · split
    · trivial
    · exact h
  split
  · exact h
  extract_lets held u
  have hu : Memory.wf u.mem = true := wf_ite h h
  split <;> exact hu

theorem bfAct_sound {s : State} (h : Memory.wf s.mem = true) (b : Ctx → Nat) (v : Ctx → Word) (x : Ctx) :
    (bfAct b v x s).Sound := by
  unfold bfAct
  dsimp only
  split
  · split
    · trivial
    · simp [h]
  · exact h

theorem sendKeep_mem (x : Ctx) (s : State) : (sendKeep x s).mem = s.mem := by
  unfold sendKeep
  split
  · rfl
  · dsimp only
    split <;> rfl

end Sys2Proof.Machine

namespace Sys2Proof.Machine

/-! Families of instructions. -/

/-- Every next state of an outcome has memory in its canonical form. -/
structure KeepsForm (o : Out) : Prop where
  wf : ∀ t, o = .next t → Memory.wf t.mem = true

theorem keepsForm_next {s : State} : KeepsForm (.next s) ↔ Memory.wf s.mem = true :=
  ⟨fun h => h.wf s rfl, fun h => ⟨fun t e => by cases e; exact h⟩⟩

theorem chkSound_pair {c d : Ctx → State → Option Act} {x : Ctx} {s : State} (hc : ChkSound (c x s))
    (hd : ChkSound (d x s)) :
    ChkSound (chks [c, d] x s) :=
  chkSound_chks fun e he => by
    simp only [List.mem_cons, List.not_mem_nil, or_false] at he
    obtain rfl | rfl := he
    · exact hc
    · exact hd

section Issue
variable {h : Shape} {hold : BitVec 2} {waits : Waits} {check : Check} {body : Ctx → State → Act} {s : State}
  (hs : Memory.wf s.mem = true) (hk : ∀ x s, (h.keep x s).mem = s.mem)
  (hb : ∀ x s, Memory.wf s.mem = true → (body x s).Sound)
include hs hk hb

theorem issueWait_keepsForm (hc : ∀ x s, Memory.wf s.mem = true → ChkSound (check x s)) :
    KeepsForm (issueWait h hold waits check body s) :=
  keepsForm_next.mpr (issueWith_wf hs hk (fun x s h => hc x s h) fun x s h => hb x s h)

theorem issueChk_keepsForm (hc : ∀ x s, Memory.wf s.mem = true → ChkSound (check x s)) :
    KeepsForm (issueChk h hold check body s) :=
  issueWait_keepsForm hs hk hb hc

theorem issue_keepsForm : KeepsForm (issue h hold body s) :=
  issueWait_keepsForm hs hk hb fun _ _ _ => trivial

end Issue

section Families
variable {s : State} (hs : Memory.wf s.mem = true)
include hs

theorem int2_keepsForm (f : FmtR) (l : Nat) (op : Word → Word → Word) : KeepsForm (int2 f l op s) :=
  issue_keepsForm hs (fun _ _ => rfl) fun _ _ h => h

theorem int1_keepsForm (rd ra : BitVec 6) (hold : BitVec 2) (op : Word → Word) : KeepsForm (int1 rd ra hold op s) :=
  issue_keepsForm hs (fun _ _ => rfl) fun _ _ h => h

theorem int3_keepsForm (f : FmtR) (op : Word → Word → Word → Word) : KeepsForm (int3 f op s) :=
  issue_keepsForm hs (fun _ _ => rfl) fun _ _ h => h

theorem flt2_keepsForm (f : FmtFR) (ld ls : Nat) (op : RM → FV → FV → FV) : KeepsForm (flt2 f ld ls op s) :=
  issue_keepsForm hs (fun _ _ => rfl) fun _ _ h => h

theorem flt3_keepsForm (f : FmtFR) (op : RM → FV → FV → FV → FV) : KeepsForm (flt3 f op s) :=
  issue_keepsForm hs (fun _ _ => rfl) fun _ _ h => h

theorem fltCode_keepsForm (f : FmtFT) (op : Ieee → Nat → Nat → Nat) : KeepsForm (fltCode f op s) :=
  issue_keepsForm hs (fun _ _ => rfl) fun _ _ h => h

theorem fltCmp_keepsForm (f : FmtFT) (rel : FV → FV → Bool) : KeepsForm (fltCmp f rel s) :=
  fltCode_keepsForm hs ..

theorem fltC_keepsForm (f : FmtC) (op : RM → FV → FV → FV) : KeepsForm (fltC f op s) :=
  issue_keepsForm hs (fun _ _ => rfl) fun _ _ h => h

theorem fltC3_keepsForm (f : FmtC) (op : RM → FV → FV → FV → FV) : KeepsForm (fltC3 f op s) :=
  issue_keepsForm hs (fun _ _ => rfl) fun _ _ h => h

theorem branch_keepsForm (f : FmtB) (cond : Word → Bool) : KeepsForm (branch f cond s) :=
  issue_keepsForm hs (fun _ _ => rfl) fun _ _ h => h

theorem amo_keepsForm (op : Nat) (f : FmtAmo) : KeepsForm (amo op f s) :=
  issueWait_keepsForm hs (fun _ _ => rfl) (fun _ _ h => amoAct_sound h ..) fun _ _ _ => chkSound_amoChk ..

theorem hint_keepsForm (f : FmtS) {act : Place → Nat → Nat × Nat × Bool → State → State}
    (ha : ∀ p k g {s}, Memory.wf s.mem = true → Memory.wf (act p k g s).mem = true) : KeepsForm (hint f act s) := by
  refine issue_keepsForm hs (fun _ _ => rfl) fun x s h => ?_
  split
  · next heq => exact ha _ _ _ (wf_of_mem_eq (State.mem_of_hintAt heq) h)
  · exact h

theorem vcmd_keepsForm (srcs : List (Nat × Lit)) (vr : List Nat) (vd : Option Nat) (hold : BitVec 2) (form : Form) :
    KeepsForm (vcmd srcs vr vd hold form s) :=
  issueWait_keepsForm hs (fun _ _ => rfl) (fun _ _ h => h) fun _ _ _ => trivial

theorem vv2_keepsForm (op : OpV) (f : FmtV) : KeepsForm (vv2 op f s) := vcmd_keepsForm hs ..
theorem vv1_keepsForm (op : OpV) (f : FmtV) : KeepsForm (vv1 op f s) := vcmd_keepsForm hs ..
theorem vvk_keepsForm (op : OpV) (f : FmtV) : KeepsForm (vvk op f s) := vcmd_keepsForm hs ..
theorem vkk_keepsForm (op : OpV) (f : FmtV) : KeepsForm (vkk op f s) := vcmd_keepsForm hs ..
theorem vvf_keepsForm (op : OpVF) (f : FmtVF) : KeepsForm (vvf op f s) := vcmd_keepsForm hs ..
theorem vvs_keepsForm (op : OpVS) (l : Lit) (f : FmtVS) : KeepsForm (vvs op l f s) := vcmd_keepsForm hs ..
theorem vvsk_keepsForm (op : OpVS) (l : Lit) (f : FmtVS) : KeepsForm (vvsk op l f s) := vcmd_keepsForm hs ..

theorem vgang_keepsForm (op : OpV) (reads : List Nat) (f : FmtV) : KeepsForm (vgang op reads f s) :=
  issueWait_keepsForm hs (fun _ _ => rfl) (fun _ _ h => h) fun _ _ _ => chkSound_vgChk ..

theorem vscalar_keepsForm (sb : BitVec 6) (vr : List Nat) (hold : BitVec 2) (form : Form) :
    KeepsForm (vscalar sb vr hold form s) :=
  issueWait_keepsForm hs (fun _ _ => rfl) (fun _ _ h => by simpa using h) fun _ _ _ => trivial

/-- A vector access at the lanes that `at_` names. -/
theorem vmem_keepsForm {at_ : Ctx → State → Except Act (List (Nat × Nat))} (ha : ∀ {x s a}, at_ x s = .error a → a.Sound)
    {h : Shape} {hold : BitVec 2} {waits : Waits} {load store : Bool} {form : Form} {n : List (Nat × Nat) → Nat}
    (hk : ∀ x s, (h.keep x s).mem = s.mem) :
    KeepsForm (issueWait h hold waits (vmemChk at_ load) (vmemAct at_ form store n) s) :=
  issueWait_keepsForm hs hk (fun _ _ h => vmemAct_sound ha h ..) fun _ _ _ => chkSound_vmemChk ha ..

theorem cop_keepsForm {eng q op : Nat} {sa sb : BitVec 6} {hold : BitVec 2} {chk : ECmd → Ctx → State → Option Act}
    (hc : ∀ e x s, ChkSound (chk e x s)) : KeepsForm (cop eng q op sa sb hold chk s) := by
  refine issueChk_keepsForm hs (fun _ _ => rfl) (fun _ _ h => h) fun x s _ => chkSound_chks fun c hm => ?_
  simp only [List.mem_cons, List.not_mem_nil, or_false] at hm
  obtain rfl | rfl | rfl := hm
  · exact chkSound_engChk ..
  · exact hc ..
  · exact chkSound_copRoomChk ..

theorem illegalHere_keepsForm : KeepsForm (illegalHere s) := keepsForm_next.mpr (by simpa using hs)

theorem cvt_keepsForm (f : FmtCvt) : KeepsForm (execCvt f s) := by
  refine issue_keepsForm hs (fun _ _ => rfl) fun x s h => ?_
  extract_lets cc F t v rm r
  split
  next heq =>
  split at heq
  · exact wf_fst heq (by simp [h])
  · exact wf_fst heq h

theorem cbld_keepsForm (f : FmtS) : KeepsForm (execCbld f s) := by
  refine issueWait_keepsForm hs (fun _ _ => rfl) (fun _ _ h => cbldAct_sound h ..) fun x s _ => ?_
  have hc := chkSound_cbChk x s
  split
  · next heq =>
    rw [heq] at hc
    exact hc
  · exact chkSound_or (chkSound_checkOffs ..) (chkSound_locateOffs ..)

theorem crd_keepsForm (f : FmtS) : KeepsForm (execCrd f s) := by
  unfold execCrd
  dsimp only
  split
  · exact illegalHere_keepsForm hs
  · exact issue_keepsForm hs (fun _ _ => rfl) fun _ _ h => h

theorem cwr_keepsForm (f : FmtS) : KeepsForm (execCwr f s) := by
  unfold execCwr
  dsimp only
  split
  · exact illegalHere_keepsForm hs
  refine issueChk_keepsForm hs (fun _ _ => rfl) (fun _ _ h => ?_) fun _ _ _ => chkSound_crPrivChk ..
  split
  · exact bfAct_sound h ..
  · simp [h]

theorem copw_keepsForm (f : FmtCpw) : KeepsForm (execCopw f s) := by
  unfold execCopw
  dsimp only
  split
  · exact illegalHere_keepsForm hs
  · exact issueChk_keepsForm hs (fun _ _ => rfl) (fun _ _ h => by simp [h])
      fun _ _ _ => chkSound_pair (chkSound_engChk ..) (chkSound_engPrivChk ..)

theorem coprd_keepsForm (f : FmtCpw) : KeepsForm (execCoprd f s) := by
  unfold execCoprd
  dsimp only
  split
  · exact illegalHere_keepsForm hs
  · exact issueChk_keepsForm hs (fun _ _ => rfl) (fun _ _ h => wf_ite (by simpa using h) h) fun _ _ _ => chkSound_engChk ..

theorem vscatter_keepsForm (f : FmtVG) : KeepsForm (execVscatter f s) := by
  refine issueWait_keepsForm hs (fun _ _ => rfl) (fun _ _ h => vmemAct_sound State.sound_of_vindexed h ..) fun x s _ => ?_
  have hc := chkSound_vmemChk (at_ := fun (x : Ctx) (s : State) =>
    s.vindexed x.p f.seg.toNat (x.v 0) f.va.toNat f.km.toNat true) State.sound_of_vindexed false x s
  dsimp only
  split
  · next heq =>
    rw [heq] at hc
    exact hc
  · split <;> trivial
  · next heq => exact State.sound_of_vindexed heq

theorem prefL1_keepsForm (f : FmtS) : KeepsForm (execPrefL1 f s) := by
  refine hint_keepsForm hs f fun p k _ s h => ?_
  have hr : Memory.wf (s.readLine p.core (lineOf k) 0xf).1.mem = true := by simp [h]
  exact wf_ite (wf_ite (State.countOn_wf hr ..) hr) h

theorem mhintNear_keepsForm (f : FmtS) : KeepsForm (execMhintNear f s) := by
  refine hint_keepsForm hs f fun _ _ _ _ h => ?_
  exact wf_ite (by simp [h]) h

theorem mhintHome_keepsForm (f : FmtS) : KeepsForm (execMhintHome f s) :=
  hint_keepsForm hs f fun _ _ _ _ h => wf_ite (by simp [h]) h

theorem mhintPage_keepsForm (f : FmtS) : KeepsForm (execMhintPage f s) :=
  hint_keepsForm hs f fun _ _ _ _ h => State.countPage_wf h ..

end Families

end Sys2Proof.Machine

namespace Sys2Proof.Machine

/-! # Every instruction keeps the canonical form of memory

One lemma per format of the encoding, by the families of `KeepsForm` lemmas. -/

theorem runR_keepsForm {s : State} (h : Memory.wf s.mem = true) (op : OpR) (f : FmtR) : KeepsForm (runR op f s) := by
  cases op <;> dsimp only [runR]
  case add | sub | and | or | xor | andn | orn | sll | srl | sra | rol | ror | min | max | minu | maxu | adds |
      subs | addus | subus | mul | mulh | mulhu | mulhsu | div | divu | rem | remu | cmpeq | cmpne | cmplt |
      cmpge | cmpltu | cmpgeu | bfxur | bfxsr =>
    exact int2_keepsForm h ..
  case clz | ctz | popc | bswap | abs => exact int1_keepsForm h ..
  case csel | cmovz | cmovnz | bfir => exact int3_keepsForm h ..
  case jr | jlr | ret => exact issue_keepsForm h (fun _ _ => rfl) fun _ _ h => jumpReg_sound h ..
  case spawn =>
    exact issueWait_keepsForm h (fun _ _ => rfl) (fun _ _ h => spawnAct_sound h _) fun _ _ _ => chkSound_spawnChk ..
  case join =>
    exact issueWait_keepsForm h (fun _ _ => rfl) (fun _ _ h => joinAct_sound h _)
      fun _ _ _ => chkSound_pair (chkSound_suspChk ..) (chkSound_blockChk ..)
  case suspend =>
    exact issueWait_keepsForm h (fun _ _ => rfl) (fun _ _ h => suspendAct_sound h _)
      fun _ _ _ => chkSound_pair (chkSound_suspChk ..) (chkSound_blockChk ..)
  case yield =>
    exact issueWait_keepsForm h (fun _ _ => rfl) (fun _ _ h => yieldAct_sound h _)
      fun _ _ h => chkSound_pair (chkSound_suspChk ..) (chkSound_yieldRoom h _)
  case exit => exact issueWait_keepsForm h (fun _ _ => rfl) (fun _ _ h => by simp [h]) fun _ _ _ => chkSound_exitChk ..
  case exitJ =>
    exact issueWait_keepsForm h (fun _ _ => rfl) (fun _ _ h => exitJAct_sound h _)
      fun _ _ _ => chkSound_pair (chkSound_suspChk ..) (chkSound_blockChk ..)
  case wake =>
    exact issueChk_keepsForm h (fun _ _ => rfl) (fun _ _ h => wakeAct_sound h _)
      fun _ _ _ => chkSound_pair (by split <;> trivial) (chkSound_blockChk ..)
  case bar =>
    exact issueChk_keepsForm h (fun _ _ => rfl) (fun _ _ h => barAct_sound h _) fun _ _ _ => chkSound_syncChk ..
  case chain => exact issueWait_keepsForm h (fun _ _ => rfl) (fun _ _ h => chainAct_sound h _) fun _ _ _ => trivial
  case send =>
    exact issueChk_keepsForm h sendKeep_mem (fun _ _ h => sendAct_sound h _)
      fun _ _ _ => chkSound_pair (chkSound_sendChk ..) (chkSound_meshChk ..)
  case mclr => exact issue_keepsForm h (fun _ _ => rfl) fun _ _ h => mclrAct_sound h _
  case mwait | mwaitAny =>
    exact issueWait_keepsForm h (fun _ _ => rfl) (fun _ _ h => mwaitAct_sound h ..) fun _ _ _ => trivial

theorem runI_keepsForm {s : State} (h : Memory.wf s.mem = true) (op : OpI) (f : FmtI) : KeepsForm (runI op f s) := by
  cases op <;> dsimp only [runI]
  case addi | andi | ori | xori => exact int1_keepsForm h ..

theorem runSh_keepsForm {s : State} (h : Memory.wf s.mem = true) (op : OpSh) (f : FmtSh) :
    KeepsForm (runSh op f s) := by
  cases op <;> dsimp only [runSh]
  case slli | srli | srai | rori => exact int1_keepsForm h ..

theorem runSlt_keepsForm {s : State} (h : Memory.wf s.mem = true) (op : OpSlt) (f : FmtSlt) :
    KeepsForm (runSlt op f s) := by
  cases op <;> dsimp only [runSlt]
  case slti | sltiu | seqi | snei => exact int1_keepsForm h ..

theorem runBF_keepsForm {s : State} (h : Memory.wf s.mem = true) (op : OpBF) (f : FmtBF) :
    KeepsForm (runBF op f s) := by
  cases op <;> dsimp only [runBF]
  case bfxu | bfxs => exact int1_keepsForm h ..
  case bfi => exact issue_keepsForm h (fun _ _ => rfl) fun _ _ h => h

theorem runFR_keepsForm {s : State} (h : Memory.wf s.mem = true) (op : OpFR) (f : FmtFR) :
    KeepsForm (runFR op f s) := by
  cases op <;> dsimp only [runFR]
  case fadd | fsub | fmul | fdiv => exact flt2_keepsForm h ..
  case fsqrt => exact issue_keepsForm h (fun _ _ => rfl) fun _ _ h => h
  case fmadd | fmsub | fnmsub | fnmadd => exact flt3_keepsForm h ..

theorem runFT_keepsForm {s : State} (h : Memory.wf s.mem = true) (op : OpFT) (f : FmtFT) :
    KeepsForm (runFT op f s) := by
  cases op <;> dsimp only [runFT]
  case fmin | fmax | fsgnj | fsgnjn | fsgnjx => exact fltCode_keepsForm h ..
  case fclass => exact issue_keepsForm h (fun _ _ => rfl) fun _ _ h => h
  case feq | fne | flt | fle | funord => exact fltCmp_keepsForm h ..

theorem runC_keepsForm {s : State} (h : Memory.wf s.mem = true) (op : OpC) (f : FmtC) : KeepsForm (runC op f s) := by
  cases op <;> dsimp only [runC]
  case faddc | fsubc | frsubc | fmulc => exact fltC_keepsForm h ..
  case fmulac | fmacc => exact fltC3_keepsForm h ..
  case fldc => exact issue_keepsForm h (fun _ _ => rfl) fun _ _ h => h

theorem runM_keepsForm {s : State} (h : Memory.wf s.mem = true) (op : OpM) (f : FmtM) : KeepsForm (runM op f s) := by
  cases op <;> dsimp only [runM]
  case ld => exact issueWait_keepsForm h (fun _ _ => rfl) (fun _ _ h => loadAct_sound h ..) fun _ _ _ => trivial
  case st =>
    exact issueWait_keepsForm h (fun _ _ => rfl) (fun _ _ h => storeAct_sound h ..) fun _ _ _ => chkSound_storeChk ..

theorem runX_keepsForm {s : State} (h : Memory.wf s.mem = true) (op : OpX) (f : FmtX) : KeepsForm (runX op f s) := by
  cases op <;> dsimp only [runX]
  case ldx | ldxSx =>
    exact issueWait_keepsForm h (fun _ _ => rfl) (fun _ _ h => loadAct_sound h ..) fun _ _ _ => trivial
  case stx =>
    exact issueWait_keepsForm h (fun _ _ => rfl) (fun _ _ h => storeAct_sound h ..) fun _ _ _ => chkSound_storeChk ..

theorem runAmo_keepsForm {s : State} (h : Memory.wf s.mem = true) (op : OpAmo) (f : FmtAmo) :
    KeepsForm (runAmo op f s) := by
  cases op <;> dsimp only [runAmo]
  case amoswap | amoadd | amoand | amoor | amomax | amomin | amomaxu => exact amo_keepsForm h ..
  case cas =>
    exact issueWait_keepsForm h (fun _ _ => rfl) (fun _ _ h => amoAct_sound h ..) fun _ _ _ => chkSound_amoChk ..

theorem runB_keepsForm {s : State} (h : Memory.wf s.mem = true) (op : OpB) (f : FmtB) : KeepsForm (runB op f s) := by
  cases op <;> dsimp only [runB]
  case beqz | bnez | bltz | bgez | bgtz | blez | beven | bodd => exact branch_keepsForm h ..

theorem runJ_keepsForm {s : State} (h : Memory.wf s.mem = true) (op : OpJ) (f : FmtJ) : KeepsForm (runJ op f s) := by
  cases op <;> dsimp only [runJ]
  case j | jl => exact issue_keepsForm h (fun _ _ => rfl) fun _ _ h => h

theorem runSC_keepsForm {s : State} (h : Memory.wf s.mem = true) (op : OpSC) (f : FmtSC) :
    KeepsForm (runSC op f s) := by
  cases op <;> dsimp only [runSC]
  case scene | sceneChk | commit =>
    exact issueChk_keepsForm h (fun _ _ => rfl) (fun _ _ h => h) fun _ _ _ => chkSound_noHandler ..
  case redo =>
    exact issueChk_keepsForm h (fun _ _ => rfl) (fun _ _ h => redoAct_sound h _) fun _ _ _ => chkSound_noHandler ..

theorem runS_keepsForm {s : State} (h : Memory.wf s.mem = true) (op : OpS) (f : FmtS) : KeepsForm (runS op f s) := by
  cases op <;> dsimp only [runS]
  case nop | halt | cbrd => exact issue_keepsForm h (fun _ _ => rfl) fun _ _ h => h
  case crd => exact crd_keepsForm h _
  case cwr => exact cwr_keepsForm h _
  case cbw =>
    exact issueChk_keepsForm h (fun _ _ => rfl) (fun _ _ h => cbwAct_sound h ..) fun _ _ _ => chkSound_cbChk ..
  case cbld => exact cbld_keepsForm h _
  case lut4ld => exact issueWait_keepsForm h (fun _ _ => rfl) (fun _ _ h => lut4Act_sound h ..) fun _ _ _ => trivial
  case bfset =>
    exact issueChk_keepsForm h (fun _ _ => rfl) (fun _ _ h => bfAct_sound h ..) fun _ _ _ => chkSound_bfChk ..
  case bfrd => exact issueChk_keepsForm h (fun _ _ => rfl) (fun _ _ h => h) fun _ _ _ => chkSound_bfChk ..
  case prefL1 => exact prefL1_keepsForm h _
  case prefL2 => exact hint_keepsForm h _ fun _ _ _ _ h => h
  case mhintNear => exact mhintNear_keepsForm h _
  case mhintHome => exact mhintHome_keepsForm h _
  case mhintPage => exact mhintPage_keepsForm h _
  case gang =>
    exact issueChk_keepsForm h (fun _ _ => rfl) (fun _ _ h => gangAct_sound h ..)
      fun _ _ _ => chkSound_pair (chkSound_syncChk ..) (chkSound_gangX ..)
  case ungang =>
    exact issueWait_keepsForm h (fun _ _ => rfl) (fun _ _ h => wf_ite h h)
      fun _ _ _ => chkSound_pair (chkSound_syncChk ..) (chkSound_gangX ..)
  case qfenceAll => exact issue_keepsForm h (fun _ _ => rfl) fun _ _ h => qfAct_sound h ..
  case trap => exact issueChk_keepsForm h (fun _ _ => rfl) (fun _ _ h => h) fun _ _ _ => trivial
  case rett | csfreeze | csthaw =>
    exact issueChk_keepsForm h (fun _ _ => rfl) (fun _ _ h => h) fun _ _ _ => chkSound_needHandler ..
  case rettRedo =>
    exact issueChk_keepsForm h (fun _ _ => rfl) (fun _ _ h => rettRedoAct_sound h _)
      fun _ _ _ => chkSound_needHandler ..
  case rettKill =>
    exact issueChk_keepsForm h (fun _ _ => rfl) (fun _ _ h => by simp [h]) fun _ _ _ => chkSound_needHandler ..
  case swin | swinW =>
    exact issueChk_keepsForm h (fun _ _ => rfl) (fun _ _ h => by
      dsimp only
      split <;> simp [h]) fun _ _ _ => chkSound_needHandler ..
  case seize =>
    exact issueChk_keepsForm h (fun _ _ => rfl) (fun _ _ h => seizeAct_sound h ..) fun _ _ _ => chkSound_seizeChk ..
  case release =>
    exact issueChk_keepsForm h (fun _ _ => rfl) (fun _ _ h => by
      split <;> simp [h]) fun _ _ _ => chkSound_releaseChk ..

theorem runOrd_keepsForm {s : State} (h : Memory.wf s.mem = true) (op : OpOrd) (f : FmtOrd) :
    KeepsForm (runOrd op f s) := by
  cases op <;> dsimp only [runOrd]
  case ldAcq =>
    exact issueWait_keepsForm h (fun _ _ => rfl) (fun _ _ h => ldAcqAct_sound h ..) fun _ _ _ => chkSound_ldAcqChk ..
  case stRel =>
    exact issueWait_keepsForm h (fun _ _ => rfl) (fun _ _ h => stRelAct_sound h ..) fun _ _ _ => chkSound_storeChk ..

theorem runFence_keepsForm {s : State} (h : Memory.wf s.mem = true) (op : OpFence) (f : FmtFence) :
    KeepsForm (runFence op f s) := by
  cases op <;> dsimp only [runFence]
  case fenceAcq | fenceRel | fenceFull => exact issue_keepsForm h (fun _ _ => rfl) fun _ _ h => fenceAct_sound h ..

theorem runWid_keepsForm {s : State} (h : Memory.wf s.mem = true) (op : OpWid) (f : FmtWid) :
    KeepsForm (runWid op f s) := by
  cases op <;> dsimp only [runWid]
  case widf | widfr => exact issue_keepsForm h (fun _ _ => rfl) fun _ _ h => h

theorem runRst_keepsForm {s : State} (h : Memory.wf s.mem = true) (op : OpRst) (f : FmtRst) :
    KeepsForm (runRst op f s) := by
  cases op <;> dsimp only [runRst]
  case rst | rstA =>
    exact issueChk_keepsForm h (fun _ _ => rfl) (fun _ _ h => rstAct_sound h ..)
      fun _ _ _ => chkSound_or (chkSound_rstChk ..) (chkSound_rstMesh ..)

theorem runRsv_keepsForm {s : State} (h : Memory.wf s.mem = true) (op : OpRsv) (f : FmtRsv) :
    KeepsForm (runRsv op f s) := by
  cases op <;> dsimp only [runRsv]
  case rstv | rstvA =>
    exact issueWait_keepsForm h (fun _ _ => rfl) (fun _ _ h => rstvAct_sound h ..) fun _ _ _ => chkSound_rstvChk ..

theorem runV_keepsForm {s : State} (h : Memory.wf s.mem = true) (op : OpV) (f : FmtV) : KeepsForm (runV op f s) := by
  cases op <;> dsimp only [runV]
  case vadd | vsub | vmul | vmulh | vmulhu | vand | vor | vxor | vsll | vsrl | vsra | vmin | vmax | vminu | vmaxu |
      vadds | vsubs | vaddus | vsubus | vsel | vfmin | vfmax | vfsgnj | vperm =>
    exact vv2_keepsForm h ..
  case vabs | vfabs | vfneg | vrcp | vrsqrt | vexp2 | vlog2 | vtanh | vsigm | vsinpi | vcospi | vmov | vcvtSI |
      vcvtIS | vcvtSH | vcvtHS | vcvtSBf | vcvtBfS | vcvtSU | vcvtUS =>
    exact vv1_keepsForm h ..
  case vcmpeq | vcmpne | vcmplt | vcmpge | vcmpltu | vcmpgeu | vfeq | vflt | vfle | vfun => exact vvk_keepsForm h ..
  case kand | kor | kxor | kandn | knot => exact vkk_keepsForm h ..
  case vfence => exact issueWait_keepsForm h (fun _ _ => rfl) (fun _ _ h => h) fun _ _ _ => trivial
  case vgmov | vgadd | vgfadd | vgfmax => exact vgang_keepsForm h ..

theorem runVF_keepsForm {s : State} (h : Memory.wf s.mem = true) (op : OpVF) (f : FmtVF) :
    KeepsForm (runVF op f s) := by
  cases op <;> dsimp only [runVF]
  case vfadd | vfsub | vfmul | vfdiv | vfsqrt | vfmadd | vfmsub | vfnmsub => exact vvf_keepsForm h ..

theorem runVS_keepsForm {s : State} (h : Memory.wf s.mem = true) (op : OpVS) (f : FmtVS) :
    KeepsForm (runVS op f s) := by
  cases op <;> dsimp only [runVS]
  case vaddVs | vsubVs | vrsubVs | vmulVs | vandVs | vorVs | vxorVs | vsllVs | vsrlVs | vsraVs | vminVs | vmaxVs |
      vcvtn | vcvtw | vfaddVs | vfsubVs | vfrsubVs | vfmulVs | vfmaddVs | vfminVs | vfmaxVs | vmovVs | vrot =>
    exact vvs_keepsForm h ..
  case vcmpeqVs | vcmpltVs | vcmpltuVs | vfeqVs | vfltVs | vfleVs => exact vvsk_keepsForm h ..
  case vlds | vsts => exact vmem_keepsForm h State.sound_of_vslices fun _ _ => rfl
  case vext | kmovs => exact vscalar_keepsForm h ..
  case kset => exact vcmd_keepsForm h ..
  case vstat => exact issue_keepsForm h (fun _ _ => rfl) fun _ _ h => h

theorem runVM_keepsForm {s : State} (h : Memory.wf s.mem = true) (op : OpVM) (f : FmtVM) :
    KeepsForm (runVM op f s) := by
  cases op <;> dsimp only [runVM]
  case vld | vst => exact vmem_keepsForm h State.sound_of_vspan fun _ _ => rfl

theorem runVG_keepsForm {s : State} (h : Memory.wf s.mem = true) (op : OpVG) (f : FmtVG) :
    KeepsForm (runVG op f s) := by
  cases op <;> dsimp only [runVG]
  case vgather => exact vmem_keepsForm h State.sound_of_vindexed fun _ _ => rfl
  case vscatter => exact vscatter_keepsForm h _

theorem runVr_keepsForm {s : State} (h : Memory.wf s.mem = true) (op : OpVr) (f : FmtVr) :
    KeepsForm (runVr op f s) := by
  cases op <;> dsimp only [runVr]
  case vredadd | vredmin | vredmax | vredminu | vredmaxu | vredand | vredor | vredxor | vredfadd | vredfmin |
      vredfmax | vredfamax =>
    exact vscalar_keepsForm h ..

theorem runCop_keepsForm {s : State} (h : Memory.wf s.mem = true) (op : OpCop) (f : FmtCop) :
    KeepsForm (runCop op f s) := by
  cases op <;> dsimp only [runCop]
  case mzero | mmaN | mmaH | mmaBf | mmaS | mdrain | ssamp | sdraw | gstep | gmask | cpost | cread =>
    exact cop_keepsForm h fun _ _ _ => chkSound_descChk ..
  case mtask => exact issueChk_keepsForm h (fun _ _ => rfl) (fun _ _ h => h) fun _ _ _ => chkSound_mtaskChk ..
  case gflush | sin | sadv | stok | sopen | cpubl | evput | csave | crestore =>
    exact cop_keepsForm h fun _ _ _ => trivial

theorem runCpy_keepsForm {s : State} (h : Memory.wf s.mem = true) (op : OpCpy) (f : FmtCpy) :
    KeepsForm (runCpy op f s) := by
  cases op <;> dsimp only [runCpy]
  case cpy | cfill => exact cop_keepsForm h fun _ _ _ => chkSound_descChk ..

theorem runCpw_keepsForm {s : State} (h : Memory.wf s.mem = true) (op : OpCpw) (f : FmtCpw) :
    KeepsForm (runCpw op f s) := by
  cases op <;> dsimp only [runCpw]
  case copw => exact copw_keepsForm h _
  case coprd => exact coprd_keepsForm h _

theorem execForm_keepsForm {s : State} (h : Memory.wf s.mem = true) (i : Form) : KeepsForm (execForm i s) := by
  cases i with
  | r op f => exact runR_keepsForm h op f
  | i op f => exact runI_keepsForm h op f
  | sh op f => exact runSh_keepsForm h op f
  | slt op f => exact runSlt_keepsForm h op f
  | k f =>
    dsimp only [execForm]
    exact issue_keepsForm h (fun _ _ => rfl) fun _ _ h => h
  | bF op f => exact runBF_keepsForm h op f
  | fR op f => exact runFR_keepsForm h op f
  | fT op f => exact runFT_keepsForm h op f
  | c op f => exact runC_keepsForm h op f
  | f20 f =>
    dsimp only [execForm]
    exact issue_keepsForm h (fun _ _ => rfl) fun _ _ h => h
  | cvt f =>
    dsimp only [execForm]
    exact cvt_keepsForm h _
  | m op f => exact runM_keepsForm h op f
  | x op f => exact runX_keepsForm h op f
  | amo op f => exact runAmo_keepsForm h op f
  | b op f => exact runB_keepsForm h op f
  | j op f => exact runJ_keepsForm h op f
  | sC op f => exact runSC_keepsForm h op f
  | s op f => exact runS_keepsForm h op f
  | ord op f => exact runOrd_keepsForm h op f
  | fence op f => exact runFence_keepsForm h op f
  | qf f =>
    dsimp only [execForm]
    exact issue_keepsForm h (fun _ _ => rfl) fun _ _ h => qfAct_sound h ..
  | wid op f => exact runWid_keepsForm h op f
  | rst op f => exact runRst_keepsForm h op f
  | rsv op f => exact runRsv_keepsForm h op f
  | v op f => exact runV_keepsForm h op f
  | vF op f => exact runVF_keepsForm h op f
  | vS op f => exact runVS_keepsForm h op f
  | vM op f => exact runVM_keepsForm h op f
  | vG op f => exact runVG_keepsForm h op f
  | vr op f => exact runVr_keepsForm h op f
  | cop op f => exact runCop_keepsForm h op f
  | cpy op f => exact runCpy_keepsForm h op f
  | cpw op f => exact runCpw_keepsForm h op f
  | esy f =>
    dsimp only [execForm]
    exact issueWait_keepsForm h (fun _ _ => rfl) (fun _ _ h => esyncAct_sound h ..) fun _ _ _ => chkSound_engChk ..
  | illegal f =>
    dsimp only [execForm]
    exact keepsForm_next.mpr (by simp [h])

/-! Events. -/

theorem event_keepsForm {s : State} (h : Memory.wf s.mem = true) {i : Instr} (hi : i.toForm = none) :
    KeepsForm (exec i s) := by
  cases i
  case pageMoveCopyDone => exact keepsForm_next.mpr (State.moveCopied_wf h _)
  case registerWrite | moduleReset | bootImageLoad | takeUp | loadDataArrival | ptsTick | vectorCommandPerform |
      mailArrival | bounceWordArrival | remoteStoreArrival | stageDoorDelivery | reflexStartMessage | xtimerFire |
      launchCueArrival | stealProbe | stealReplyArrival | terminationWave | ensembleClaim | placementWaitExpiry |
      l2LineMigration | l1ctlInv | bfmtWrite | grhostWrite | greenRoomRecall | mnqheadWrite | migackWrite |
      pmctlGo | pmctlEnd | tlbinvWrite | tlbinvDone | pgwakeWrite | mmaStep | mzeroStep | mdrainStep | mctlResume |
      mctlAbort | tileTaskPost | tileTaskIssue | copyStep | ccmdResume | ccmdAbort | samplerBarrierCheck |
      samplerScanStep | winnerMessageArrival | samplerGather | samplerDeliver | sdrawStep | sctlResume |
      sctlAbort | gstepApply | gmaskStep | gflushApply | gctlResume | gctlAbort | streamEventArrival |
      streamEventApply | cpostStep | cpublApply | caddyFlip | creadStep | cxdescWrite | evputStep |
      csiEventPacket | csiImagePacket | csiFrameMark | ppsEdge | csaveStep | crestoreStep | csctlResume |
      csctlAbort | preemptReq | ptimeExpiry | preemptHandlerEntry | preemptResend | faultMessageArrival |
      fheadWrite | swcmdResume | swcmdKill | curtainRaise | curtainLower | curtainHalt | curtainResume |
      curtdevRaise | curtdevLower | machineCheck | szgrpWrite | seizeArrival | seizeTakeUp | releaseArrival |
      wdogKick | watchdogPreempt | watchdogKill | watchdogFence | qdoorWrite | commandAccept | cmdLaunch |
      cmdWait | waitSatisfied | cmdSignal | cmdQuote | slotFree | mirrorAckArrival | mirrorEntryArrival |
      heartbeatSend | xBankMirror | understudyCheck | peerFenceArrival | linkLoss | loadAveraging | thermalStep |
      corerstWrite | ptmCorrection | peerHeartbeatArrival | powerLimitThrottle =>
    exact keepsForm_next.mpr (by simp [h])
  all_goals cases hi

end Sys2Proof.Machine

namespace Sys2Proof.Machine
open Sys2Proof.Safety

/-! # A turn of a seat, a clk, a step -/

theorem stateOr_wf {s : State} (h : Memory.wf s.mem = true) {o : Out} (ho : KeepsForm o) :
    Memory.wf (stateOr s o).mem = true := by
  unfold stateOr
  split
  · exact ho.wf _ rfl
  · exact h

theorem State.runWord_wf {s : State} (h : Memory.wf s.mem = true) (w : W32) : Memory.wf (s.runWord w).mem = true := by
  have hr : Memory.wf (stateOr s (match decodeWord w with
      | .ok f => execForm f s
      | .error _ => execIllegal w s)).mem = true := by
    refine stateOr_wf h ?_
    split
    · exact execForm_keepsForm h _
    · exact execForm_keepsForm h (.illegal w)
  unfold State.runWord
  exact wf_ite hr hr

theorem State.attempt_wf {s : State} (h : Memory.wf s.mem = true) (p : Place) :
    Memory.wf (s.attempt p).mem = true := by
  unfold State.attempt
  extract_lets u b
  have hu : Memory.wf u.mem = true := h
  split
  · exact wf_ite hu (by simpa using hu)
  refine wf_ite (State.runWord_wf hu _) ?_
  split
  · next heq => exact State.runWord_wf (State.countFetch_wf (wf_fst heq (by simpa using hu)) ..) _
  · next heq => exact wf_of_mem_eq (State.mem_fetchFail ..) (wf_fst heq (by simpa using hu))

/-- The state of a turn that was taken has memory in its canonical form. -/
def Tried.Sound : Tried → Prop
  | .go s => Memory.wf s.mem = true
  | _ => True

theorem State.tryOwn_sound {s : State} (h : Memory.wf s.mem = true) (p : Place) : (s.tryOwn p).Sound := by
  unfold State.tryOwn
  split
  · trivial
  · trivial
  split
  · exact wf_of_mem_eq (State.mem_spend ..) h
  dsimp only
  split
  · trivial
  · exact State.attempt_wf h p

theorem State.gangDiscard_sound {s : State} (ms at_ : List Nat) (livelock : Bool)
    {go : State → State} (hg : Memory.wf (go s).mem = true) : (s.gangDiscard ms at_ livelock go).Sound := by
  unfold State.gangDiscard
  extract_lets rest dis bad u
  have hu : Memory.wf u.mem = true := wf_foldl (fun _ _ h => wf_of_mem_eq (State.mem_discard ..) h) _ hg
  split
  · trivial
  split
  · trivial
  · exact wf_ite hu (by simp [hu])

theorem State.wf_of_gangIssue {s t : State} (h : Memory.wf s.mem = true) {l : List Nat} (e : s.gangIssue l = .ok t) :
    Memory.wf t.mem = true := by
  induction l generalizing s with
  | nil =>
    cases e
    exact h
  | cons c l ih =>
    unfold State.gangIssue at e
    dsimp only at e
    split at e
    · exact ih (State.attempt_wf h _) e
    · cases e

theorem State.sound_of_gangUneven {s : State} (h : Memory.wf s.mem = true) {ms : List Nat} {rs : List (Nat × State)}
    {t : Tried} (e : s.gangUneven ms rs = some t) : t.Sound := by
  have hgo : ∀ (l : List Nat) {s : State}, Memory.wf s.mem = true →
      Memory.wf (l.foldl (fun (s : State) c => s.attempt (seat0 c)) s).mem = true := fun l _ h =>
    wf_foldl (fun _ _ h => State.attempt_wf h _) l h
  unfold State.gangUneven at e
  extract_lets those go held at e
  split at e
  · cases e
    trivial
  split at e
  · cases e
    split
    · trivial
    · exact wf_of_mem_eq (State.mem_gangEnd ..) (hgo _ h)
  split at e
  · cases e
    exact State.gangDiscard_sound _ _ _ (hgo _ h)
  split at e
  · cases e
    exact State.gangDiscard_sound _ _ _ (hgo _ h)
  split at e <;> cases e
  exact hgo _ h

theorem State.tryGang_sound {s : State} (h : Memory.wf s.mem = true) (ms : List Nat) : (s.tryGang ms).Sound := by
  unfold State.tryGang
  extract_lets lead gates late who u
  have hu : Memory.wf u.mem = true := wf_ite (by simpa using h) h
  split
  · trivial
  split
  · trivial
  split
  · trivial
  split
  · trivial
  split
  · exact wf_foldl (fun _ _ h => wf_of_mem_eq (State.mem_spend ..) h) _ h
  split
  · next heq => exact State.sound_of_gangUneven hu heq
  split
  · next heq => exact wf_of_mem_eq (State.mem_gangAlign ..) (State.wf_of_gangIssue hu heq)
  · exact State.gangDiscard_sound _ _ _ hu
  · trivial
  · trivial

theorem State.seatTry_sound {s : State} (h : Memory.wf s.mem = true) (c i : Nat) : (s.seatTry c i).Sound := by
  unfold State.seatTry
  split
  · trivial
  split
  · split
    · exact State.tryGang_sound h _
    · trivial
  · exact State.tryOwn_sound h _

theorem State.barrel_wf {s : State} (h : Memory.wf s.mem = true) (c : Nat) : Memory.wf (s.barrel c).mem = true := by
  unfold State.barrel
  extract_lets n rr tried pick s1 s2
  have wf_of_pick {i : Nat} {t : State} (e : pick = some (i, t)) : Memory.wf t.mem = true := by
    have e : tried.findSome? _ = some (i, t) := (ite_eq_iff.mp e).resolve_left (fun hn => by cases hn.2) |>.2
    obtain ⟨x, hx, hx'⟩ := List.exists_of_findSome?_eq_some e
    obtain ⟨j, -, rfl⟩ := List.mem_map.mp hx
    have hs := State.seatTry_sound h c ((rr + j) % n)
    dsimp only at hx'
    split at hx'
    · next ht =>
      cases hx'
      exact (ht ▸ hs :)
    · cases hx'
  have h1 : Memory.wf s1.mem = true := by
    unfold s1
    clear_value pick
    split
    · next i t =>
      exact wf_foldl (fun _ _ h => wf_of_mem_eq (State.mem_modCore ..) h) _ (wf_of_pick rfl)
    · exact h
  exact wf_of_mem_eq (mem_foldl _ (fun a x => by split <;> simp) _ _) h1

theorem State.take_keepsForm {s : State} (h : Memory.wf s.mem = true) (t : Turn) : KeepsForm (s.take t) := by
  cases t with
  | clk => exact keepsForm_next.mpr (State.tick_wf h)
  | barrel c => exact keepsForm_next.mpr (State.barrel_wf h c)
  | upset u => exact keepsForm_next.mpr (by simp [h])
  | mesh c stop => exact keepsForm_next.mpr (by simp [h])
  | ev i =>
    unfold State.take
    dsimp only
    split
    · exact ⟨fun _ e => by cases e⟩
    · next hi => exact event_keepsForm h (by simpa using hi)

theorem step_keepsForm {s : State} (h : Memory.wf s.mem = true) : KeepsForm (step s) := by
  unfold step
  split
  · refine State.take_keepsForm ?_ _
    exact h
  · exact State.take_keepsForm h _

/-- Settles O5: every turn of a seat, every event and every clk keeps the canonical form of memory. -/
theorem memoryForm : Obligations.MemoryForm :=
  fun _ t h e => (step_keepsForm h).wf t e

end Sys2Proof.Machine

namespace Sys2Proof.Machine
open Sys2Proof.Safety

/-! # A plain store and a plain load -/

theorem leBytes_length (n v : Nat) : (leBytes n v).length = n := by
  induction n generalizing v with
  | zero => rfl
  | succ n ih => simp [leBytes, ih]

theorem leBytes_getElem (n v i : Nat) (h : i < (leBytes n v).length) :
    (leBytes n v)[i] = BitVec.ofNat 8 (v / 256 ^ i) := by
  induction n generalizing v i with
  | zero => simp [leBytes] at h
  | succ n ih =>
    cases i with
    | zero => simp [leBytes]
    | succ i => simp [leBytes, ih, Nat.div_div_eq_div_mul, Nat.pow_succ']

theorem leNat_lt (bs : List Byte) : leNat bs < 2 ^ (8 * bs.length) := by
  induction bs with
  | nil => simp [leNat]
  | cons b t ih =>
    have hb : b.toNat < 256 := b.isLt
    rw [leNat, List.length_cons, Nat.mul_succ, Nat.pow_add]
    omega

/-- Bytes written at distinct keys read back as they were written; every other byte stays. -/
theorem memRead_memWrites_zip {m : List Host.Cell} (h : Memory.wf m = true) (ks : List Nat) (bs : List Byte)
    (hlen : ks.length = bs.length) (hnd : ks.Nodup) (a : Nat) :
    memRead (memWrites m (ks.zip bs)) a =
      match ks.findIdx? (· == a) with
      | some i => bs.getD i 0
      | none => memRead m a := by
  induction ks generalizing m bs with
  | nil => rfl
  | cons k ks ih =>
    obtain _ | ⟨b, bs⟩ := bs
    · simp at hlen
    obtain ⟨hk, hnd⟩ := List.nodup_cons.mp hnd
    have hstep : memWrites m ((k :: ks).zip (b :: bs)) = memWrites (memWrite m k b) (ks.zip bs) := rfl
    rw [hstep, List.findIdx?_cons]
    by_cases hka : k = a
    · subst hka
      have hother : ∀ c ∈ ks.zip bs, c.1 ≠ k := fun c hc e => hk (e ▸ (List.of_mem_zip hc).1)
      rw [memRead_memWrites_other (memWrite_wf h k b) _ _ hother, memRead_memWrite h]
      simp
    · rw [ih (memWrite_wf h k b) bs (by simpa using hlen) hnd, memRead_memWrite h]
      cases ks.findIdx? (· == a) <;> simp [hka]

@[simp] theorem State.ue_l2Access (s : State) (c l : Nat) : (s.l2Access c l).ue = s.ue := by
  unfold State.l2Access
  split <;> rfl

/-- Serving lines leaves memory and the uncorrectable sectors alone. -/
theorem mem_ue_foldl_l2Access (c : Nat) (ts : Nat) (ls : List Nat) (s : State) :
    let t := ls.foldl (fun (s : State) l => { s.l2Access c l with lines := mset s.lines l (ts, ts) }) s
    t.mem = s.mem ∧ t.ue = s.ue := by
  induction ls generalizing s with
  | nil => exact ⟨rfl, rfl⟩
  | cons l ls ih =>
    obtain ⟨hm, hu⟩ := ih { s.l2Access c l with lines := mset s.lines l (ts, ts) }
    exact ⟨hm.trans (State.mem_l2Access s c l), hu.trans (State.ue_l2Access s c l)⟩

/-- A write at its home without an uncorrectable sector writes its bytes as they are. -/
theorem State.unitWrite_mem (s : State) (c lo : Nat) (cells : List Host.Cell) (h : s.ue = []) :
    (s.unitWrite c lo cells).1.mem = memWrites s.mem cells := by
  simp only [State.unitWrite, State.mem_raisePts]
  generalize (linesOf (cells.map (·.1))).foldl (fun a l => max a ((s.lts l).2 + 1)) (max (s.core c).pts lo) = ts
  obtain ⟨hm, hu⟩ := mem_ue_foldl_l2Access c ts (linesOf (cells.map (·.1))) s
  rw [State.poke_mem _ _ _ (hu.trans h), hm]

/-- A store outside a scene to the on-chip path, without an uncorrectable sector, writes its bytes as they are. -/
theorem State.seatStore_mem (s : State) (p : Machine.Place) (cells : List Host.Cell)
    (ho : (s.bank p).openScene = none) (hu : s.ue = []) (hx : ∀ c ∈ cells, isExt c.1 = false) :
    (s.seatStore p none cells).mem = memWrites s.mem cells := by
  cases cells with
  | nil => simp [State.seatStore, ho, memWrites]
  | cons c t =>
    simp only [State.seatStore, ho, State.countOn, hx c (List.mem_cons_self ..), Bool.false_eq_true, if_false]
    split
    · exact State.unitWrite_mem s _ _ _ hu
    · exact State.poke_mem s _ _ hu

/-- Outside a scene no byte is the seat's own. -/
theorem State.ownByte_eq_none {s : State} {p : Machine.Place} (ho : (s.bank p).openScene = none) (k : Nat) :
    s.ownByte p k = none := by
  simp [State.ownByte, ho]

theorem State.seatBytes_plain {s : State} {p : Machine.Place} (page) {ks : List Nat}
    (ho : (s.bank p).openScene = none) (hk : ∀ k ∈ ks, isExt k = false ∧ isCoh k = false) :
    s.seatBytes p page ks = (s, ks.map (memRead s.mem)) := by
  have hx : ks.any isExt = false := List.any_eq_false.mpr fun k h => by simp [hk k h]
  have hc : ks.any isCoh = false := List.any_eq_false.mpr fun k h => by simp [hk k h]
  cases ks with
  | nil => rfl
  | cons k t => simp [State.seatBytes, State.ownByte_eq_none ho, hx, hc]

/-- An unsigned load extends by zeros. -/
theorem loadVal_false (bs : List Byte) : loadVal false bs = BitVec.ofNat 64 (leNat bs) := rfl

/-- A signed load extends by its sign. -/
theorem loadVal_true {bs : List Byte} (h : bs ≠ []) :
    loadVal true bs = (BitVec.ofNat (8 * bs.length) (leNat bs)).signExtend 64 := by
  have hlt := leNat_lt bs
  have hpos : 0 < 8 * bs.length := by have := List.length_pos_iff.mpr h; omega
  have hpow : 2 ^ (8 * bs.length) = 2 * 2 ^ (8 * bs.length - 1) := by rw [← Nat.pow_succ']; congr 1; omega
  rw [BitVec.signExtend, BitVec.toInt_eq_toNat_cond, BitVec.toNat_ofNat, Nat.mod_eq_of_lt hlt]
  simp only [loadVal, Bool.true_and, decide_eq_true_eq]
  split
  · rw [if_neg (by omega), wi64]; norm_cast
  · rw [if_pos (by omega), BitVec.ofInt_natCast]; rfl

/-- Settles O21: the cells of the store reach memory as they are, and its bytes are read back in little-endian order. -/
theorem plainAccess : Obligations.PlainAccess := by
  refine ⟨fun s p ks n v a hwf ho hu hlen hnd hx => ?_, fun s p ks page ho hk => State.seatBytes_plain page ho hk,
    fun bs hne _ => ⟨loadVal_false bs, loadVal_true hne⟩⟩
  have hlb : ks.length = (leBytes n v.toNat).length := by rw [leBytes_length, hlen]
  rw [State.seatStore_mem s p _ ho hu fun c hc => hx c.1 (List.of_mem_zip hc).1,
    memRead_memWrites_zip hwf ks _ hlb hnd]
  cases hi : ks.findIdx? (· == a) with
  | none => rfl
  | some i =>
    have hlt : i < (leBytes n v.toNat).length := hlb ▸ (List.findIdx?_eq_some_iff_findIdx_eq.mp hi).1
    simp only [List.getD_eq_getElem _ _ hlt, leBytes_getElem]

end Sys2Proof.Machine

namespace Sys2Proof.Machine
open Sys2Proof.Safety

/-! # Control registers: what a write leaves to be read -/

/-- Only the registers 0x180 to 0x189 read as zero on an X-tile (R250). -/
theorem crXZero_eq_false {n : Nat} (c : Nat) (h : n < 0x180 ∨ 0x189 < n) : crXZero c n = false := by
  simp only [crXZero, Bool.and_eq_false_iff, decide_eq_false_iff_not]
  omega

/-! Segment registers (R38). -/

theorem State.crRead_segment (s : State) (p : Machine.Place) {n : Nat} (h : 0x080 ≤ n ∧ n ≤ 0x097) :
    s.crRead p n = s.crSeat p n := by
  have hx := crXZero_eq_false p.core (n := n) (by omega)
  have hd : (crModule n || crDie n) = false := by
    simp [crModule, crDie]; omega
  simp only [State.crRead, hx, hd]
  rw [if_neg (by simp), if_neg (by omega)]
  split
  any_goals omega
  rw [if_neg (by simp), if_neg (by omega)]

theorem State.crWrite_segment (s : State) (p : Machine.Place) {n : Nat} (v : Word) (priv : Bool)
    (h : 0x080 ≤ n ∧ n ≤ 0x097) : s.crWrite p n v priv = s.modBank p fun b => b.setSeg p.core n v := by
  simp only [State.crWrite, crXZero_eq_false p.core (n := n) (by omega), if_pos h]
  simp

/-- The three registers of a segment, as they read: BASE, LIMIT and ACC. -/
def Seg.field (g : Seg) : Nat → Word
  | 0 => g.base
  | 1 => g.limit
  | _ => g.acc.setWidth 64

/-- The writable bits of the three registers of a segment. -/
def segWritable (c : Nat) (v : Word) : Nat → Word
  | 0 => v &&& ~~~(0x3f : Word)
  | 1 => v
  | _ => v &&& (if Config.isX c then 7 else 15)

theorem State.crSeat_segment (s : State) (p : Machine.Place) {n i : Nat} (hn : n < 8) (hi : i < 3) :
    s.crSeat p (0x080 + 3 * n + i) = ((s.bank p).seg n).field i := by
  have hdiv : (0x080 + 3 * n + i - 0x080) / 3 = n := by omega
  have hmod : (0x080 + 3 * n + i - 0x080) % 3 = i := by omega
  simp only [State.crSeat]
  rw [if_pos (by omega), hdiv, hmod]
  rfl

/-- The low bits of a word, as an intersection. -/
theorem setWidth_setWidth_eq_and (v : Word) {w : Nat} (h : w ≤ 64) :
    (v.setWidth w).setWidth 64 = v &&& BitVec.ofNat 64 (2 ^ w - 1) := by
  have hle : 2 ^ w ≤ 2 ^ 64 := Nat.pow_le_pow_right (by decide) h
  have hpos := Nat.two_pow_pos w
  have hmod : v.toNat % 2 ^ w ≤ v.toNat := Nat.mod_le _ _
  apply BitVec.eq_of_toNat_eq
  rw [BitVec.toNat_setWidth, BitVec.toNat_setWidth, BitVec.toNat_and, BitVec.toNat_ofNat,
    Nat.mod_eq_of_lt (a := 2 ^ w - 1) (by omega), Nat.and_two_pow_sub_one_eq_mod]
  exact Nat.mod_eq_of_lt (Nat.lt_of_le_of_lt hmod v.isLt)

/-- The bits of ACC that a tile reads back. -/
theorem setWidth_and_acc (c : Nat) (v : Word) :
    (v.setWidth 4 &&& (if Config.isX c then 7 else 15)).setWidth 64 = v &&& (if Config.isX c then 7 else 15) := by
  rw [BitVec.setWidth_and, setWidth_setWidth_eq_and v (by decide), BitVec.and_assoc]
  split <;> rfl

theorem Bank.field_seg_setSeg (b : Bank) (c : Nat) (v : Word) (n : Nat) {i : Nat} (hi : i < 3) :
    ((b.setSeg c (0x080 + 3 * n + i) v).seg n).field i = segWritable c v i := by
  have hdiv : (0x080 + 3 * n + i - 0x080) / 3 = n := by omega
  have hmod : (0x080 + 3 * n + i - 0x080) % 3 = i := by omega
  simp only [Bank.setSeg, hdiv, hmod, Bank.seg, mget_mset_same]
  clear hdiv hmod
  match i with
  | 0 => rfl
  | 1 => rfl
  | 2 => exact setWidth_and_acc c v

/-- A segment register reads what was written to it, in its writable bits. -/
theorem State.crRead_crWrite_segment (s : State) (p : Machine.Place) (v : Word) (priv : Bool) {n i : Nat}
    (hn : n < 8) (hi : i < 3) :
    (s.crWrite p (0x080 + 3 * n + i) v priv).crRead p (0x080 + 3 * n + i) = segWritable p.core v i := by
  have hr : 0x080 ≤ 0x080 + 3 * n + i ∧ 0x080 + 3 * n + i ≤ 0x097 := by omega
  rw [State.crWrite_segment s p v priv hr, State.crRead_segment _ p hr, State.crSeat_segment _ p hn hi,
    State.bank_modBank_same, Bank.field_seg_setSeg _ _ _ _ hi]

/-! Registers of the seat's bank (R30, R32, R153, R397). -/

theorem State.crRead_crWrite_frm (s : State) (p : Machine.Place) (v : Word) (priv : Bool) :
    (s.crWrite p 0x001 v priv).crRead p 0x001 = v &&& 3 := by
  have hv : (v.setWidth 2).setWidth 64 = v &&& 3 := setWidth_setWidth_eq_and v (w := 2) (by decide)
  rw [← hv]
  simp [State.crWrite, State.crRead, State.crSeat, crXZero, crModule, crDie]

theorem State.crRead_crWrite_amax (s : State) (p : Machine.Place) (v : Word) (priv : Bool) :
    (s.crWrite p 0x002 v priv).crRead p 0x002 = v &&& 0xffff_ffff := by
  have hv : (v.setWidth 32).setWidth 64 = v &&& 0xffff_ffff := setWidth_setWidth_eq_and v (w := 32) (by decide)
  rw [← hv]
  simp [State.crWrite, State.crRead, State.crSeat, crXZero, crModule, crDie]

theorem State.crRead_crWrite_joinc (s : State) (p : Machine.Place) (v : Word) (priv : Bool) :
    (s.crWrite p 0x103 v priv).crRead p 0x103 = v &&& 0x7_ffff := by
  have hv : (v.setWidth 19).setWidth 64 = v &&& 0x7_ffff := setWidth_setWidth_eq_and v (w := 19) (by decide)
  rw [← hv]
  simp [State.crWrite, State.crRead, State.crSeat, crXZero, crModule, crDie]

theorem State.crRead_crWrite_epc (s : State) (p : Machine.Place) (v : Word) (priv : Bool) :
    (s.crWrite p 0x282 v priv).crRead p 0x282 = v &&& ~~~(3 : Word) := by
  have hv : v >>> 2 <<< 2 = v &&& ~~~(3 : Word) := BitVec.shiftLeft_ushiftRight
  rw [← hv]
  simp [State.crWrite, State.crRead, crXZero]

/-! Registers of the core that hold what is written to them (R397). -/

theorem handler_cases {n : Nat} (h : 0x284 ≤ n ∧ n ≤ 0x28a) :
    n = 0x284 ∨ n = 0x285 ∨ n = 0x286 ∨ n = 0x287 ∨ n = 0x288 ∨ n = 0x289 ∨ n = 0x28a := by
  omega

/-- The registers of the handler: the trap vector and the two handler segments. -/
theorem State.crRead_handler (s : State) (p : Machine.Place) {n : Nat} (h : 0x284 ≤ n ∧ n ≤ 0x28a) :
    s.crRead p n = s.crCore p.core n := by
  obtain rfl | rfl | rfl | rfl | rfl | rfl | rfl := handler_cases h
  all_goals simp [State.crRead, crXZero, crModule, crDie]

/-- The writable bits of the trap vector and of the two handler segments. -/
theorem crMask_handler (c : Nat) :
    crMask c 0x284 = ones64 - 2 ∧ crMask c 0x285 = ones64 - 63 ∧ crMask c 0x286 = ones64 ∧
    crMask c 0x287 = (if Config.isX c then 7 else 15) ∧ crMask c 0x288 = ones64 - 63 ∧ crMask c 0x289 = ones64 ∧
    crMask c 0x28a = (if Config.isX c then 7 else 15) :=
  ⟨rfl, rfl, rfl, rfl, rfl, rfl, rfl⟩

theorem crMask_handler_ne_zero (c : Nat) {n : Nat} (h : 0x284 ≤ n ∧ n ≤ 0x28a) : crMask c n ≠ 0 := by
  have hr : (if Config.isX c then 7 else 15) ≠ 0 := by split <;> decide
  obtain ⟨h4, h5, h6, h7, h8, h9, ha⟩ := crMask_handler c
  obtain rfl | rfl | rfl | rfl | rfl | rfl | rfl := handler_cases h
  · rw [h4]; decide
  · rw [h5]; decide
  · rw [h6]; decide
  · rw [h7]; exact hr
  · rw [h8]; decide
  · rw [h9]; decide
  · rw [ha]; exact hr

theorem State.crWrite_handler (s : State) (p : Machine.Place) (v : Word) (priv : Bool) {n : Nat}
    (h : 0x284 ≤ n ∧ n ≤ 0x28a) :
    s.crWrite p n v priv = s.setCrCore p.core n (maskedW (crMask p.core n) (s.crCore p.core n) v) := by
  have hm := crMask_handler_ne_zero p.core h
  obtain rfl | rfl | rfl | rfl | rfl | rfl | rfl := handler_cases h
  all_goals simp [State.crWrite, crXZero, hm, State.crPlain, crModule, crDie]

theorem State.crRead_crWrite_handler (s : State) (p : Machine.Place) (v : Word) (priv : Bool) {n : Nat}
    (h : 0x284 ≤ n ∧ n ≤ 0x28a) :
    (s.crWrite p n v priv).crRead p n = maskedW (crMask p.core n) (s.crRead p n) v := by
  rw [State.crWrite_handler s p v priv h, State.crRead_handler _ p h, State.crCore_setCrCore_same,
    State.crRead_handler s p h]

/-- The seat's registers that are read only (R10). -/
def crReadOnly : List Nat :=
  [0x003, 0x005, 0x006, 0x007, 0x008, 0x009, 0x00b, 0x00c, 0x00d, 0x00e, 0x100, 0x101, 0x102, 0x104, 0x105,
    0x106, 0x107, 0x210, 0x280, 0x281, 0x283, 0x292, 0x294, 0x295, 0x296]

theorem crMask_readOnly (c : Nat) : ∀ n ∈ crReadOnly, crMask c n = 0 := by
  simp only [crReadOnly, List.forall_mem_cons, List.not_mem_nil, false_imp_iff, implies_true, and_true]
  exact ⟨rfl, rfl, rfl, rfl, rfl, rfl, rfl, rfl, rfl, rfl, rfl, rfl, rfl, rfl, rfl, rfl, rfl, rfl, rfl, rfl, rfl, rfl, rfl,
    rfl, rfl⟩

/-- A read-only register keeps its value, and its write does nothing else. -/
theorem State.crWrite_readOnly (s : State) (p : Machine.Place) (v : Word) (priv : Bool) {n : Nat} (h : n ∈ crReadOnly) :
    s.crWrite p n v priv = s := by
  have hm := crMask_readOnly p.core n h
  simp only [crReadOnly, List.mem_cons, List.not_mem_nil, or_false] at h
  have hx := crXZero_eq_false p.core (n := n) (by omega)
  simp only [State.crWrite, hx, hm, Bool.false_eq_true, if_false, if_true]
  rw [if_neg (by omega), if_neg (by omega), if_neg (by omega), if_neg (by omega), if_neg (by omega)]
  split
  any_goals omega
  all_goals rfl

/-- A masked write, by the word of the bits it keeps. -/
theorem maskedW_eq {mask : Nat} {keep : Word} (h : w64 mask = ~~~keep) (old v : Word) :
    maskedW mask old v = (old &&& keep) ||| (v &&& ~~~keep) := by
  rw [maskedW, h, BitVec.not_not]

/-- A masked write, by the word of the bits it writes. -/
theorem maskedW_eq_of_writes {mask : Nat} {bits : Word} (h : w64 mask = bits) (old v : Word) :
    maskedW mask old v = (old &&& ~~~bits) ||| (v &&& bits) := by
  rw [maskedW, h]

/-- A masked write of all bits. -/
theorem maskedW_ones64 (old v : Word) : maskedW ones64 old v = v := by
  have h : w64 ones64 = BitVec.allOnes 64 := rfl
  rw [maskedW, h, BitVec.not_allOnes, BitVec.and_zero, BitVec.zero_or, BitVec.and_allOnes]

/-- Settles O41: each register reads back by the rule of its own write. -/
theorem controlRegisterValues : Obligations.ControlRegisterValues := by
  intro s p v priv
  obtain ⟨h4, h5, h6, h7, h8, h9, ha⟩ := crMask_handler p.core
  refine ⟨fun n hn => ⟨?_, ?_, ?_⟩, s.crRead_crWrite_frm p v priv, s.crRead_crWrite_amax p v priv,
    s.crRead_crWrite_joinc p v priv, s.crRead_crWrite_epc p v priv, ?_, ?_, ?_, ?_, fun n h => s.crWrite_readOnly p v priv h⟩
  · exact s.crRead_crWrite_segment p v priv hn (i := 0) (by decide)
  · rw [show 0x081 + 3 * n = 0x080 + 3 * n + 1 by omega]
    exact s.crRead_crWrite_segment p v priv hn (i := 1) (by decide)
  · rw [show 0x082 + 3 * n = 0x080 + 3 * n + 2 by omega]
    exact s.crRead_crWrite_segment p v priv hn (i := 2) (by decide)
  · simp only [List.forall_mem_cons, List.not_mem_nil, false_imp_iff, implies_true, and_true]
    rw [s.crRead_crWrite_handler p v priv (by decide), s.crRead_crWrite_handler p v priv (by decide), h5, h8]
    exact ⟨maskedW_eq rfl _ v, maskedW_eq rfl _ v⟩
  · simp only [List.forall_mem_cons, List.not_mem_nil, false_imp_iff, implies_true, and_true]
    rw [s.crRead_crWrite_handler p v priv (by decide), s.crRead_crWrite_handler p v priv (by decide), h6, h9]
    exact ⟨maskedW_ones64 _ v, maskedW_ones64 _ v⟩
  · rw [s.crRead_crWrite_handler p v priv (by decide), h4]
    exact maskedW_eq rfl _ v
  · have hr : w64 (if Config.isX p.core then 7 else 15) = if Config.isX p.core then 7 else 15 := by split <;> rfl
    simp only [List.forall_mem_cons, List.not_mem_nil, false_imp_iff, implies_true, and_true]
    rw [s.crRead_crWrite_handler p v priv (by decide), s.crRead_crWrite_handler p v priv (by decide), h7, ha]
    exact ⟨maskedW_eq_of_writes hr _ v, maskedW_eq_of_writes hr _ v⟩

end Sys2Proof.Machine

namespace Sys2Proof.Machine
open Sys2Proof.Safety

/-! # Writes of registers that are events -/

/-! Who writes, and what (R10, R450; log 64). -/

theorem hostWindow_iff (n : Nat) : hostWindow n = true ↔
    n ∈ [0x300, 0x301, 0x303, 0x304, 0x305, 0x306, 0x307, 0x308, 0x309, 0x30a, 0x30b, 0x30f, 0x310, 0x311, 0x312,
      0x313, 0x314, 0x318, 0x319, 0x31a, 0x31b, 0x31c, 0x31d] := by
  by_cases h : 0x300 ≤ n ∧ n < 0x320
  · obtain ⟨k, hk⟩ : ∃ k : Fin 0x20, n = 0x300 + k := ⟨⟨n - 0x300, by omega⟩, by simp; omega⟩
    subst hk
    revert k
    decide
  · have hw : hostWindow n = false := by
      simp only [hostWindow, Bool.and_eq_false_iff, decide_eq_false_iff_not]
      omega
    simp only [hw, Bool.false_eq_true, false_iff, List.mem_cons, List.not_mem_nil, or_false]
    omega

theorem State.regWrite_host (s : State) (i b n : Nat) (v : Word) :
    s.regWrite ⟨1024, i, b⟩ n v = if hostWindow n then s.crWrite ⟨0, 0, 0⟩ n v true else s := by
  simp [State.regWrite, hostCore]

/-- A core of the module is not the host's number. -/
theorem core_ne_hostCore {p : Machine.Place} (h : placeOk p = true) : p.core ≠ hostCore := by
  simp only [placeOk, Bool.and_eq_true, decide_eq_true_eq] at h
  obtain ⟨⟨hc, -⟩, -⟩ := h
  exact Nat.ne_of_lt (Nat.lt_of_lt_of_le hc (by decide))

theorem State.regWrite_cr (s : State) {p : Machine.Place} {n : Nat} (v : Word) (h : placeOk p = true) (hn : n < 0x400) :
    s.regWrite p n v =
      if !crListed p.core n || s.crDenied p n v then s
      else if 0x1c0 ≤ n ∧ n ≤ 0x1ff then s.bfPut p.core (n - 0x1c0) v
      else s.crWrite p n v (s.isSuper p.core) := by
  simp [State.regWrite, core_ne_hostCore h, h, hn]

theorem State.regWrite_engine (s : State) {p : Machine.Place} {eng k : Nat} (v : Word) (h : placeOk p = true)
    (he : eng < 8) (hk : k < 0x200) (hok : okEngReg (BitVec.ofNat 3 eng) (BitVec.ofNat 9 k) = true)
    (hl : engUnlisted p.core eng k = false) :
    s.regWrite p (0x400 + eng * 0x200 + k) v = if s.engDenied p eng k then s else s.engRegWrite p eng k v := by
  have hdiv : (0x400 + eng * 0x200 + k - 0x400) / 0x200 = eng := by omega
  have hmod : (0x400 + eng * 0x200 + k - 0x400) % 0x200 = k := by omega
  have hn : ¬ 0x400 + eng * 0x200 + k < 0x400 := by omega
  simp only [State.regWrite, core_ne_hostCore h, h, hn, hdiv, hmod, he, hok, hl]
  cases s.engDenied p eng k <;> simp

/-! Format registers and the head of the fault ring (R233, R410). -/

/-- A register of core scope that holds what is written to it. -/
theorem State.crCore_crPlain (s : State) (c n : Nat) (v : Word) (h : (crModule n || crDie n) = false) :
    (s.crPlain c n v).crCore c n = maskedW (crMask c n) (s.crCore c n) v := by
  simp [State.crPlain, h]

theorem bank_lt {c b : Nat} (h : b < if Config.isX c then 64 else 24) : b < 64 :=
  Nat.lt_of_lt_of_le h (by split <;> decide)

theorem okCr_bfmt {b : Nat} (h : b < 64) : okCr (BitVec.ofNat 10 (0x1c0 + b)) = true := by
  have hk : (BitVec.ofNat 10 (0x1c0 + b)).toNat = 0x1c0 + b := by rw [BitVec.toNat_ofNat]; omega
  simp only [okCr, hk, Bool.or_eq_true, Bool.and_eq_true, decide_eq_true_eq, beq_iff_eq]
  omega

theorem crUnlisted_bfmt {c b : Nat} (h : b < if Config.isX c then 64 else 24) : crUnlisted c (0x1c0 + b) = false := by
  cases hx : Config.isX c with
  | true => simp [crUnlisted, hx]
  | false =>
    rw [hx, if_neg (by simp)] at h
    simp only [crUnlisted, hx, Bool.not_false, Bool.true_and, Bool.or_eq_false_iff, Bool.and_eq_false_iff,
      decide_eq_false_iff_not]
    omega

theorem crListed_bfmt {c b : Nat} (h : b < if Config.isX c then 64 else 24) : crListed c (0x1c0 + b) = true := by
  have hb := bank_lt h
  have hlt : decide (0x1c0 + b < 1024) = true := decide_eq_true (by omega)
  rw [crListed, okCr_bfmt hb, hlt, crUnlisted_bfmt h]
  rfl

theorem crMask_bfmt (c : Nat) {n : Nat} (h : 0x1c0 ≤ n ∧ n ≤ 0x1ff) : crMask c n = bfmtMask := by
  unfold crMask
  rw [if_neg (by omega), if_pos h]

theorem State.crCore_bfPut (s : State) {c b : Nat} (v : Word) (hb : b < 64) :
    (s.bfPut c b v).crCore c (0x1c0 + b) =
      maskedW (0x7f * 2 ^ 40 + 2 ^ 33 - 1) (s.crCore c (0x1c0 + b)) v := by
  have hs : (crModule (0x1c0 + b) || crDie (0x1c0 + b)) = false := by
    simp [crModule, crDie]; omega
  have hm : bfmtMask = 0x7f * 2 ^ 40 + 2 ^ 33 - 1 := rfl
  rw [State.bfPut, State.crCore_crPlain s c _ v hs, crMask_bfmt c (by omega), hm]

theorem State.bfmtWrite_eq (s : State) {c b : Nat} (v : Word) (h : b < if Config.isX c then 64 else 24)
    (hbusy : s.bfBusy c b (s.core c).ids = false) : s.bfmtWrite c b v = s.bfPut c b v := by
  have hb := bank_lt h
  simp [State.bfmtWrite, hbusy, Nat.mod_eq_of_lt hb, crListed_bfmt h]

/-! A page wake (R404). -/

/-- A bank that is parked goes on. -/
def Bank.awake (b : Bank) : Bank := if b.run = .parked then { b with run := .running } else b

/-- The running state of a bank that was woken. -/
def Run.awake (r : Run) : Run := if r = .parked then .running else r

@[simp] theorem Run.awake_awake (r : Run) : r.awake.awake = r.awake := by cases r <;> rfl

@[simp] theorem Bank.run_awake (b : Bank) : b.awake.run = b.run.awake := by
  by_cases h : b.run = .parked <;> simp [Bank.awake, Run.awake, h]

/-- The running state of a bank depends on its key alone: one that no record holds is idle. -/
theorem State.run_bank_of_key (s : State) {p q : Machine.Place} (h : p.key = q.key) : (s.bank p).run = (s.bank q).run := by
  simp only [State.bank, mget, h]
  cases mfind s.banks q.key <;> rfl

/-- A seat whose bank is among `ps`. -/
def keyIn (p : Machine.Place) (ps : List Machine.Place) : Bool := ps.any fun q => q.key == p.key

/-- The seats of `ps` that are parked go on. -/
def State.wakeSeats (s : State) (ps : List Machine.Place) : State :=
  ps.foldl (fun (s : State) p => s.modBank p Bank.awake) s

theorem State.run_wakeSeats (s : State) (ps : List Machine.Place) (p : Machine.Place) :
    ((s.wakeSeats ps).bank p).run = if keyIn p ps then (s.bank p).run.awake else (s.bank p).run := by
  induction ps generalizing s with
  | nil => rfl
  | cons q ps ih =>
    rw [show s.wakeSeats (q :: ps) = (s.modBank q Bank.awake).wakeSeats ps from rfl, ih]
    by_cases hk : q.key = p.key
    · rw [State.run_bank_of_key _ hk.symm, State.run_bank_of_key s hk.symm, State.bank_modBank_same]
      simp [keyIn, hk]
    · rw [State.bank_modBank_other _ _ hk]
      simp [keyIn, hk]

theorem State.mmus_wakeSeats (s : State) (ps : List Machine.Place) : (s.wakeSeats ps).mmus = s.mmus := by
  induction ps generalizing s with
  | nil => rfl
  | cons q ps ih => exact ih (s.modBank q Bank.awake)

/-- Freed commands change no seat and no park list. -/
theorem banks_mmus_foldl_modQueue (f : List ECmd → List ECmd) (cs : List (Nat × Nat)) (s : State) :
    let t := cs.foldl (fun (s : State) c => s.modQueue c.1 c.2 f) s
    t.banks = s.banks ∧ t.mmus = s.mmus := by
  induction cs generalizing s with
  | nil => exact ⟨rfl, rfl⟩
  | cons c cs ih => exact ih (s.modQueue c.1 c.2 f)

/-- A freed entry of a park list changes no park list, and wakes its seats. -/
theorem State.mmus_wakeEntry (s : State) (e : Park) : (s.wakeEntry e).mmus = s.mmus := by
  obtain ⟨-, hm⟩ := banks_mmus_foldl_modQueue _ e.cmds (s.wakeSeats e.seats)
  exact hm.trans (s.mmus_wakeSeats e.seats)

theorem State.run_wakeEntry (s : State) (e : Park) (p : Machine.Place) :
    ((s.wakeEntry e).bank p).run = if keyIn p e.seats then (s.bank p).run.awake else (s.bank p).run := by
  obtain ⟨hb, -⟩ := banks_mmus_foldl_modQueue _ e.cmds (s.wakeSeats e.seats)
  rw [← State.run_wakeSeats]
  exact congrArg (fun m => (mget m p.key (Bank.reset p.core)).run) hb

theorem State.mmus_foldl_wakeEntry (es : List Park) (s : State) :
    (es.foldl (fun s e => s.wakeEntry e) s).mmus = s.mmus := by
  induction es generalizing s with
  | nil => rfl
  | cons e es ih => exact (ih (s.wakeEntry e)).trans (s.mmus_wakeEntry e)

theorem State.run_foldl_wakeEntry (es : List Park) (s : State) (p : Machine.Place) :
    ((es.foldl (fun s e => s.wakeEntry e) s).bank p).run =
      if es.any fun e => keyIn p e.seats then (s.bank p).run.awake else (s.bank p).run := by
  induction es generalizing s with
  | nil => rfl
  | cons e es ih =>
    rw [List.foldl_cons, ih, State.run_wakeEntry, List.any_cons]
    cases keyIn p e.seats <;> simp

/-- The park entries that a write of PGWAKE frees. -/
def pgwakeHit (v : Word) : Park → Bool := wakeTakes (v.toNat % 64) (v.toNat / 2 ^ 10 * 2 ^ 10) (v.getLsbD 9)

/-- The fields of a write of PGWAKE. -/
theorem pgwakeHit_eq (v : Word) : wakeTakes (bits v.toNat 5 0) (bits v.toNat 63 10 * 2 ^ 10) (bit v.toNat 9) = pgwakeHit v := by
  have hslot : bits v.toNat 5 0 = v.toNat % 64 := by simp [bits]
  have hva : bits v.toNat 63 10 = v.toNat / 2 ^ 10 := by
    have := v.isLt
    exact Nat.mod_eq_of_lt (by omega)
  rw [hslot, hva]; rfl

theorem State.parks_pageWake (s : State) (v : Word) :
    ∀ m ∈ (s.pageWake v).mmus, ∀ e ∈ m.2.parks, pgwakeHit v e = false := by
  intro m hm e he
  simp only [State.pageWake, pgwakeHit_eq] at hm
  have hmmus (t : State) (q : Nat) (f : Slot → Slot) : (t.modSlot q f).mmus = t.mmus := rfl
  rw [hmmus, State.mmus_foldl_wakeEntry] at hm
  obtain ⟨m', -, rfl⟩ := List.mem_map.mp hm
  simpa using (List.mem_filter.mp he).2

/-- Every parked seat of an entry that the wake takes goes on. -/
theorem State.run_pageWake (s : State) (v : Word) {m : Nat × Mmu} (hm : m ∈ s.mmus) {e : Park} (he : e ∈ m.2.parks)
    (hhit : pgwakeHit v e = true) {p : Machine.Place} (hp : p ∈ e.seats) (hrun : (s.bank p).run = .parked) :
    ((s.pageWake v).bank p).run = .running := by
  have hany : (s.mmus.flatMap fun m => m.2.parks.filter (pgwakeHit v)).any (fun e => keyIn p e.seats) = true :=
    List.any_eq_true.mpr ⟨e, List.mem_flatMap.mpr ⟨m, hm, List.mem_filter.mpr ⟨he, hhit⟩⟩,
      List.any_eq_true.mpr ⟨p, hp, beq_self_eq_true _⟩⟩
  simp only [State.pageWake, pgwakeHit_eq, State.bank_modSlot]
  rw [State.run_foldl_wakeEntry, hany, if_pos rfl]
  exact congrArg Run.awake hrun

/-- A write of a seat outside its program. -/
theorem State.registerWrite_seat (s : State) {p : Machine.Place} {n : Nat} (v : Word) (hp : placeOk p = true) :
    (n < 0x400 → crListed p.core n = true → s.crDenied p n v = false →
      (¬ (0x1c0 ≤ n ∧ n ≤ 0x1ff) → s.regWrite p n v = s.crWrite p n v (s.isSuper p.core)) ∧
      (0x1c0 ≤ n ∧ n ≤ 0x1ff → s.regWrite p n v = s.bfPut p.core (n - 0x1c0) v)) ∧
    (n < 0x400 → s.crDenied p n v = true → s.regWrite p n v = s) := by
  refine ⟨fun hn hl hd => ?_, fun hn hd => ?_⟩
  · rw [State.regWrite_cr s v hp hn, hl, hd]
    exact ⟨fun h => by simp [h], fun h => by simp [h]⟩
  · rw [State.regWrite_cr s v hp hn, hd]
    simp

/-- Settles O49: the writer and the number decide what a write of a register does. -/
theorem registerEvents : Obligations.RegisterEvents := by
  refine ⟨fun s i b n v => ⟨fun h => ?_, fun h => ?_⟩, fun s c i b n v => ?_, fun s c b v hb hbusy => ?_,
    fun s c v => ⟨s.crPlain c 0x291 v, rfl, State.crCore_crPlain s c 0x291 v rfl, rfl⟩,
    fun s v => ⟨s.pageWake v, rfl, s.parks_pageWake v, fun m hm e he hhit p hp => s.run_pageWake v hm he hhit hp⟩⟩
  · rw [exec_registerWrite, execRegisterWrite, State.regWrite_host, if_pos ((hostWindow_iff n).mpr h)]
  · rw [exec_registerWrite, execRegisterWrite, State.regWrite_host, if_neg fun hw => h ((hostWindow_iff n).mp hw)]
  · intro p hp
    obtain ⟨hmay, hdenied⟩ := s.registerWrite_seat (n := n) v hp
    refine ⟨fun hn hl hd => ?_, fun hn hd => congrArg Host.Outcome.next (hdenied hn hd), ?_⟩
    · obtain ⟨hcr, hbf⟩ := hmay hn hl hd
      exact ⟨fun h => congrArg Host.Outcome.next (hcr h), fun h => congrArg Host.Outcome.next (hbf h)⟩
    · rintro eng k he hk rfl hok hl
      exact congrArg Host.Outcome.next (State.regWrite_engine s v hp he hk hok hl)
  · refine ⟨s.bfmtWrite c b v, rfl, ?_⟩
    rw [State.bfmtWrite_eq s v hb hbusy, State.crCore_bfPut s v (bank_lt hb)]

end Sys2Proof.Machine

namespace Sys2Proof

open BitVec (extractLsb'_append_eq_of_le extractLsb'_append_eq_of_add_le extractLsb'_eq_self)

/-! # Encoding and decoding -/

/-! ## Bits of a word -/

/-- Neighbouring bit ranges of a word join. -/
theorem bits_append_bits (w : W32) {hi lo m n : Nat} (h : hi = lo + n) :
    bits w hi m ++ bits w lo n = bits w lo (m + n) :=
  BitVec.extractLsb'_append_extractLsb'_eq_extractLsb' h

theorem toNat_bits (w : W32) (lo n : Nat) : (bits w lo n).toNat = w.toNat / 2 ^ lo % 2 ^ n := by
  rw [bits, BitVec.extractLsb'_toNat, Nat.shiftRight_eq_div_pow]

/-- The upper bits of a bit range, as a number. -/
theorem toNat_bits_high (w : W32) (lo m n : Nat) : (bits w (lo + n) m).toNat = (bits w lo (m + n)).toNat / 2 ^ n := by
  rw [toNat_bits, toNat_bits, Nat.pow_add 2 m n, Nat.mul_comm, Nat.mod_mul_right_div_self, Nat.div_div_eq_div_mul,
    Nat.pow_add]

/-- The lower bits of a bit range, as a number. -/
theorem toNat_bits_low (w : W32) (lo m n : Nat) : (bits w lo n).toNat = (bits w lo (m + n)).toNat % 2 ^ n := by
  rw [toNat_bits, toNat_bits, Nat.mod_mod_of_dvd _ (Nat.pow_dvd_pow 2 (Nat.le_add_left n m))]

/-- Bits that a mask covers are zero when the masked word is. -/
theorem bits_eq_zero {w mask : W32} (lo n : Nat) (h : w &&& mask = 0#32) (hm : bits mask lo n = BitVec.allOnes n) :
    bits w lo n = 0#n := by
  have e : bits (w &&& mask) lo n = bits w lo n &&& bits mask lo n := BitVec.extractLsb'_and
  rw [hm, BitVec.and_allOnes, h] at e
  rw [← e, bits, BitVec.extractLsb'_zero]

/-! ## The formats: each field is read where it was put, and a word is made again of the fields read from it -/

theorem FmtR.fields_pack (maj : BitVec 6) (fn : BitVec 6) (f : FmtR) :
    bits (f.pack maj fn) 26 6 = maj ∧ bits (f.pack maj fn) 2 6 = fn ∧ FmtR.unpack (f.pack maj fn) = f := by
  simp (disch := decide) only [FmtR.pack, FmtR.unpack, bits, extractLsb'_append_eq_of_le,
    extractLsb'_append_eq_of_add_le, extractLsb'_eq_self, Nat.reduceSub, and_self]

theorem FmtR.pack_unpack {w : W32} {maj : BitVec 6} {fn : BitVec 6} (hm : (bits w 26 6).toNat = maj.toNat)
    (hf : (bits w 2 6).toNat = fn.toNat) :
    (FmtR.unpack w).pack maj fn = w := by
  obtain rfl := BitVec.eq_of_toNat_eq hm
  obtain rfl := BitVec.eq_of_toNat_eq hf
  simp (disch := decide) only [FmtR.pack, FmtR.unpack, bits_append_bits]
  exact extractLsb'_eq_self

theorem FmtI.fields_pack (maj : BitVec 6) (f : FmtI) :
    bits (f.pack maj) 26 6 = maj ∧ FmtI.unpack (f.pack maj) = f := by
  simp (disch := decide) only [FmtI.pack, FmtI.unpack, bits, extractLsb'_append_eq_of_le,
    extractLsb'_append_eq_of_add_le, extractLsb'_eq_self, Nat.reduceSub, and_self]

theorem FmtI.pack_unpack {w : W32} {maj : BitVec 6} (hm : (bits w 26 6).toNat = maj.toNat) :
    (FmtI.unpack w).pack maj = w := by
  obtain rfl := BitVec.eq_of_toNat_eq hm
  simp (disch := decide) only [FmtI.pack, FmtI.unpack, bits_append_bits]
  exact extractLsb'_eq_self

theorem FmtSh.fields_pack (maj : BitVec 6) (kind : BitVec 2) (f : FmtSh) :
    bits (f.pack maj kind) 26 6 = maj ∧ bits (f.pack maj kind) 12 2 = kind ∧ bits (f.pack maj kind) 8 4 = 0#4 ∧
      FmtSh.unpack (f.pack maj kind) = f := by
  simp (disch := decide) only [FmtSh.pack, FmtSh.unpack, bits, extractLsb'_append_eq_of_le,
    extractLsb'_append_eq_of_add_le, extractLsb'_eq_self, Nat.reduceSub, and_true]

theorem FmtSh.pack_unpack {w : W32} {maj : BitVec 6} {kind : BitVec 2} (hm : (bits w 26 6).toNat = maj.toNat)
    (hf : (bits w 12 2).toNat = kind.toNat) (hz : w &&& 0xf00#32 = 0#32) :
    (FmtSh.unpack w).pack maj kind = w := by
  obtain rfl := BitVec.eq_of_toNat_eq hm
  obtain rfl := BitVec.eq_of_toNat_eq hf
  rw [FmtSh.pack, ← bits_eq_zero 8 4 hz rfl]
  simp (disch := decide) only [FmtSh.unpack, bits_append_bits]
  exact extractLsb'_eq_self

theorem FmtSlt.fields_pack (maj : BitVec 6) (kind : BitVec 2) (f : FmtSlt) :
    bits (f.pack maj kind) 26 6 = maj ∧ bits (f.pack maj kind) 12 2 = kind ∧ FmtSlt.unpack (f.pack maj kind) = f := by
  simp (disch := decide) only [FmtSlt.pack, FmtSlt.unpack, bits, extractLsb'_append_eq_of_le,
    extractLsb'_append_eq_of_add_le, extractLsb'_eq_self, Nat.reduceSub, and_self]

theorem FmtSlt.pack_unpack {w : W32} {maj : BitVec 6} {kind : BitVec 2} (hm : (bits w 26 6).toNat = maj.toNat)
    (hf : (bits w 12 2).toNat = kind.toNat) :
    (FmtSlt.unpack w).pack maj kind = w := by
  obtain rfl := BitVec.eq_of_toNat_eq hm
  obtain rfl := BitVec.eq_of_toNat_eq hf
  simp (disch := decide) only [FmtSlt.pack, FmtSlt.unpack, bits_append_bits]
  exact extractLsb'_eq_self

theorem FmtK.fields_pack (maj : BitVec 6) (f : FmtK) :
    bits (f.pack maj) 26 6 = maj ∧ FmtK.unpack (f.pack maj) = f := by
  simp (disch := decide) only [FmtK.pack, FmtK.unpack, bits, extractLsb'_append_eq_of_le,
    extractLsb'_append_eq_of_add_le, extractLsb'_eq_self, Nat.reduceSub, and_self]

theorem FmtK.pack_unpack {w : W32} {maj : BitVec 6} (hm : (bits w 26 6).toNat = maj.toNat) :
    (FmtK.unpack w).pack maj = w := by
  obtain rfl := BitVec.eq_of_toNat_eq hm
  simp (disch := decide) only [FmtK.pack, FmtK.unpack, bits_append_bits]
  exact extractLsb'_eq_self

theorem FmtBF.fields_pack (maj : BitVec 6) (f : FmtBF) :
    bits (f.pack maj) 26 6 = maj ∧ FmtBF.unpack (f.pack maj) = f := by
  simp (disch := decide) only [FmtBF.pack, FmtBF.unpack, bits, extractLsb'_append_eq_of_le,
    extractLsb'_append_eq_of_add_le, extractLsb'_eq_self, Nat.reduceSub, and_self]

theorem FmtBF.pack_unpack {w : W32} {maj : BitVec 6} (hm : (bits w 26 6).toNat = maj.toNat) :
    (FmtBF.unpack w).pack maj = w := by
  obtain rfl := BitVec.eq_of_toNat_eq hm
  simp (disch := decide) only [FmtBF.pack, FmtBF.unpack, bits_append_bits]
  exact extractLsb'_eq_self

theorem FmtFT.fields_pack (maj : BitVec 6) (code : BitVec 5) (f : FmtFT) :
    bits (f.pack maj code) 26 6 = maj ∧ bits (f.pack maj code) 3 5 = code ∧ FmtFT.unpack (f.pack maj code) = f := by
  simp (disch := decide) only [FmtFT.pack, FmtFT.unpack, bits, extractLsb'_append_eq_of_le,
    extractLsb'_append_eq_of_add_le, extractLsb'_eq_self, Nat.reduceSub, and_self]

theorem FmtFT.pack_unpack {w : W32} {maj : BitVec 6} {code : BitVec 5} (hm : (bits w 26 6).toNat = maj.toNat)
    (hf : (bits w 3 5).toNat = code.toNat) :
    (FmtFT.unpack w).pack maj code = w := by
  obtain rfl := BitVec.eq_of_toNat_eq hm
  obtain rfl := BitVec.eq_of_toNat_eq hf
  simp (disch := decide) only [FmtFT.pack, FmtFT.unpack, bits_append_bits]
  exact extractLsb'_eq_self

theorem FmtC.fields_pack (maj : BitVec 6) (op : BitVec 3) (f : FmtC) :
    bits (f.pack maj op) 26 6 = maj ∧ bits (f.pack maj op) 3 3 = op ∧ FmtC.unpack (f.pack maj op) = f := by
  simp (disch := decide) only [FmtC.pack, FmtC.unpack, bits, extractLsb'_append_eq_of_le,
    extractLsb'_append_eq_of_add_le, extractLsb'_eq_self, Nat.reduceSub, and_self]

theorem FmtC.pack_unpack {w : W32} {maj : BitVec 6} {op : BitVec 3} (hm : (bits w 26 6).toNat = maj.toNat)
    (hf : (bits w 3 3).toNat = op.toNat) :
    (FmtC.unpack w).pack maj op = w := by
  obtain rfl := BitVec.eq_of_toNat_eq hm
  obtain rfl := BitVec.eq_of_toNat_eq hf
  simp (disch := decide) only [FmtC.pack, FmtC.unpack, bits_append_bits]
  exact extractLsb'_eq_self

theorem FmtF20.fields_pack (maj : BitVec 6) (f : FmtF20) :
    bits (f.pack maj) 26 6 = maj ∧ FmtF20.unpack (f.pack maj) = f := by
  simp (disch := decide) only [FmtF20.pack, FmtF20.unpack, bits, extractLsb'_append_eq_of_le,
    extractLsb'_append_eq_of_add_le, extractLsb'_eq_self, Nat.reduceSub, and_self]

theorem FmtF20.pack_unpack {w : W32} {maj : BitVec 6} (hm : (bits w 26 6).toNat = maj.toNat) :
    (FmtF20.unpack w).pack maj = w := by
  obtain rfl := BitVec.eq_of_toNat_eq hm
  simp (disch := decide) only [FmtF20.pack, FmtF20.unpack, bits_append_bits]
  exact extractLsb'_eq_self

theorem FmtCvt.fields_pack (maj : BitVec 6) (f : FmtCvt) :
    bits (f.pack maj) 26 6 = maj ∧ FmtCvt.unpack (f.pack maj) = f := by
  simp (disch := decide) only [FmtCvt.pack, FmtCvt.unpack, bits, extractLsb'_append_eq_of_le,
    extractLsb'_append_eq_of_add_le, extractLsb'_eq_self, Nat.reduceSub, and_self]

theorem FmtCvt.pack_unpack {w : W32} {maj : BitVec 6} (hm : (bits w 26 6).toNat = maj.toNat) :
    (FmtCvt.unpack w).pack maj = w := by
  obtain rfl := BitVec.eq_of_toNat_eq hm
  simp (disch := decide) only [FmtCvt.pack, FmtCvt.unpack, bits_append_bits]
  exact extractLsb'_eq_self

theorem FmtM.fields_pack (maj : BitVec 6) (f : FmtM) :
    bits (f.pack maj) 26 6 = maj ∧ FmtM.unpack (f.pack maj) = f := by
  simp (disch := decide) only [FmtM.pack, FmtM.unpack, bits, extractLsb'_append_eq_of_le,
    extractLsb'_append_eq_of_add_le, extractLsb'_eq_self, Nat.reduceSub, and_self]

theorem FmtM.pack_unpack {w : W32} {maj : BitVec 6} (hm : (bits w 26 6).toNat = maj.toNat) :
    (FmtM.unpack w).pack maj = w := by
  obtain rfl := BitVec.eq_of_toNat_eq hm
  simp (disch := decide) only [FmtM.pack, FmtM.unpack, bits_append_bits]
  exact extractLsb'_eq_self

theorem FmtAmo.fields_pack (maj : BitVec 6) (op : BitVec 3) (f : FmtAmo) :
    bits (f.pack maj op) 26 6 = maj ∧ bits (f.pack maj op) 5 3 = op ∧ FmtAmo.unpack (f.pack maj op) = f := by
  simp (disch := decide) only [FmtAmo.pack, FmtAmo.unpack, bits, extractLsb'_append_eq_of_le,
    extractLsb'_append_eq_of_add_le, extractLsb'_eq_self, Nat.reduceSub, and_self]

theorem FmtAmo.pack_unpack {w : W32} {maj : BitVec 6} {op : BitVec 3} (hm : (bits w 26 6).toNat = maj.toNat)
    (hf : (bits w 5 3).toNat = op.toNat) :
    (FmtAmo.unpack w).pack maj op = w := by
  obtain rfl := BitVec.eq_of_toNat_eq hm
  obtain rfl := BitVec.eq_of_toNat_eq hf
  simp (disch := decide) only [FmtAmo.pack, FmtAmo.unpack, bits_append_bits]
  exact extractLsb'_eq_self

theorem FmtB.fields_pack (maj : BitVec 6) (cond : BitVec 4) (f : FmtB) :
    bits (f.pack maj cond) 26 6 = maj ∧ bits (f.pack maj cond) 22 4 = cond ∧ FmtB.unpack (f.pack maj cond) = f := by
  simp (disch := decide) only [FmtB.pack, FmtB.unpack, bits, extractLsb'_append_eq_of_le,
    extractLsb'_append_eq_of_add_le, extractLsb'_eq_self, Nat.reduceSub, and_self]

theorem FmtB.pack_unpack {w : W32} {maj : BitVec 6} {cond : BitVec 4} (hm : (bits w 26 6).toNat = maj.toNat)
    (hf : (bits w 22 4).toNat = cond.toNat) :
    (FmtB.unpack w).pack maj cond = w := by
  obtain rfl := BitVec.eq_of_toNat_eq hm
  obtain rfl := BitVec.eq_of_toNat_eq hf
  simp (disch := decide) only [FmtB.pack, FmtB.unpack, bits_append_bits]
  exact extractLsb'_eq_self

theorem FmtJ.fields_pack (maj : BitVec 6) (f : FmtJ) :
    bits (f.pack maj) 26 6 = maj ∧ FmtJ.unpack (f.pack maj) = f := by
  simp (disch := decide) only [FmtJ.pack, FmtJ.unpack, bits, extractLsb'_append_eq_of_le,
    extractLsb'_append_eq_of_add_le, extractLsb'_eq_self, Nat.reduceSub, and_self]

theorem FmtJ.pack_unpack {w : W32} {maj : BitVec 6} (hm : (bits w 26 6).toNat = maj.toNat) :
    (FmtJ.unpack w).pack maj = w := by
  obtain rfl := BitVec.eq_of_toNat_eq hm
  simp (disch := decide) only [FmtJ.pack, FmtJ.unpack, bits_append_bits]
  exact extractLsb'_eq_self

theorem FmtSC.fields_pack (maj : BitVec 6) (form : BitVec 3) (f : FmtSC) :
    bits (f.pack maj form) 26 6 = maj ∧ bits (f.pack maj form) 8 3 = form ∧ bits (f.pack maj form) 2 6 = 0#6 ∧
      FmtSC.unpack (f.pack maj form) = f := by
  simp (disch := decide) only [FmtSC.pack, FmtSC.unpack, bits, extractLsb'_append_eq_of_le,
    extractLsb'_append_eq_of_add_le, extractLsb'_eq_self, Nat.reduceSub, and_true]

theorem FmtSC.pack_unpack {w : W32} {maj : BitVec 6} {form : BitVec 3} (hm : (bits w 26 6).toNat = maj.toNat)
    (hf : (bits w 8 3).toNat = form.toNat) (hz : w &&& 0xfc#32 = 0#32) :
    (FmtSC.unpack w).pack maj form = w := by
  obtain rfl := BitVec.eq_of_toNat_eq hm
  obtain rfl := BitVec.eq_of_toNat_eq hf
  rw [FmtSC.pack, ← bits_eq_zero 2 6 hz rfl]
  simp (disch := decide) only [FmtSC.unpack, bits_append_bits]
  exact extractLsb'_eq_self

theorem FmtS.fields_pack (maj : BitVec 6) (fn : BitVec 8) (f : FmtS) :
    bits (f.pack maj fn) 26 6 = maj ∧ bits (f.pack maj fn) 18 8 = fn ∧ FmtS.unpack (f.pack maj fn) = f := by
  simp (disch := decide) only [FmtS.pack, FmtS.unpack, bits, extractLsb'_append_eq_of_le,
    extractLsb'_append_eq_of_add_le, extractLsb'_eq_self, Nat.reduceSub, and_self]

theorem FmtS.pack_unpack {w : W32} {maj : BitVec 6} {fn : BitVec 8} (hm : (bits w 26 6).toNat = maj.toNat)
    (hf : (bits w 18 8).toNat = fn.toNat) :
    (FmtS.unpack w).pack maj fn = w := by
  obtain rfl := BitVec.eq_of_toNat_eq hm
  obtain rfl := BitVec.eq_of_toNat_eq hf
  simp (disch := decide) only [FmtS.pack, FmtS.unpack, bits_append_bits]
  exact extractLsb'_eq_self

theorem FmtRsv.fields_pack (maj : BitVec 6) (fn : BitVec 6) (f : FmtRsv) :
    bits (f.pack maj fn) 26 6 = maj ∧ bits (f.pack maj fn) 2 6 = fn ∧ bits (f.pack maj fn) 25 1 = 0#1 ∧
      bits (f.pack maj fn) 8 6 = 0#6 ∧ FmtRsv.unpack (f.pack maj fn) = f := by
  simp (disch := decide) only [FmtRsv.pack, FmtRsv.unpack, bits, extractLsb'_append_eq_of_le,
    extractLsb'_append_eq_of_add_le, extractLsb'_eq_self, Nat.reduceSub, and_true]

theorem FmtRsv.pack_unpack {w : W32} {maj : BitVec 6} {fn : BitVec 6} (hm : (bits w 26 6).toNat = maj.toNat)
    (hf : (bits w 2 6).toNat = fn.toNat) (hz : w &&& 0x2003f00#32 = 0#32) :
    (FmtRsv.unpack w).pack maj fn = w := by
  obtain rfl := BitVec.eq_of_toNat_eq hm
  obtain rfl := BitVec.eq_of_toNat_eq hf
  rw [FmtRsv.pack, ← bits_eq_zero 25 1 hz rfl, ← bits_eq_zero 8 6 hz rfl]
  simp (disch := decide) only [FmtRsv.unpack, bits_append_bits]
  exact extractLsb'_eq_self

theorem FmtV.fields_pack (maj : BitVec 6) (fn : BitVec 6) (f : FmtV) :
    bits (f.pack maj fn) 26 6 = maj ∧ bits (f.pack maj fn) 2 6 = fn ∧ FmtV.unpack (f.pack maj fn) = f := by
  simp (disch := decide) only [FmtV.pack, FmtV.unpack, bits, extractLsb'_append_eq_of_le,
    extractLsb'_append_eq_of_add_le, extractLsb'_eq_self, Nat.reduceSub, and_self]

theorem FmtV.pack_unpack {w : W32} {maj : BitVec 6} {fn : BitVec 6} (hm : (bits w 26 6).toNat = maj.toNat)
    (hf : (bits w 2 6).toNat = fn.toNat) :
    (FmtV.unpack w).pack maj fn = w := by
  obtain rfl := BitVec.eq_of_toNat_eq hm
  obtain rfl := BitVec.eq_of_toNat_eq hf
  simp (disch := decide) only [FmtV.pack, FmtV.unpack, bits_append_bits]
  exact extractLsb'_eq_self

theorem FmtVS.fields_pack (maj : BitVec 6) (fn : BitVec 5) (f : FmtVS) :
    bits (f.pack maj fn) 26 6 = maj ∧ bits (f.pack maj fn) 2 5 = fn ∧ FmtVS.unpack (f.pack maj fn) = f := by
  simp (disch := decide) only [FmtVS.pack, FmtVS.unpack, bits, extractLsb'_append_eq_of_le,
    extractLsb'_append_eq_of_add_le, extractLsb'_eq_self, Nat.reduceSub, and_self]

theorem FmtVS.pack_unpack {w : W32} {maj : BitVec 6} {fn : BitVec 5} (hm : (bits w 26 6).toNat = maj.toNat)
    (hf : (bits w 2 5).toNat = fn.toNat) :
    (FmtVS.unpack w).pack maj fn = w := by
  obtain rfl := BitVec.eq_of_toNat_eq hm
  obtain rfl := BitVec.eq_of_toNat_eq hf
  simp (disch := decide) only [FmtVS.pack, FmtVS.unpack, bits_append_bits]
  exact extractLsb'_eq_self

theorem FmtVr.fields_pack (maj : BitVec 6) (kind : BitVec 5) (f : FmtVr) :
    bits (f.pack maj kind) 26 6 = maj ∧ bits (f.pack maj kind) 2 5 = 0x1e#5 ∧ bits (f.pack maj kind) 21 5 = kind ∧
      FmtVr.unpack (f.pack maj kind) = f := by
  simp (disch := decide) only [FmtVr.pack, FmtVr.unpack, bits, extractLsb'_append_eq_of_le,
    extractLsb'_append_eq_of_add_le, extractLsb'_eq_self, Nat.reduceSub, and_self]

theorem FmtVr.pack_unpack {w : W32} {maj : BitVec 6} {kind : BitVec 5} (hm : (bits w 26 6).toNat = maj.toNat)
    (hf : (bits w 2 5).toNat = (0x1e#5).toNat) (hk : (bits w 21 5).toNat = kind.toNat) :
    (FmtVr.unpack w).pack maj kind = w := by
  obtain rfl := BitVec.eq_of_toNat_eq hm
  obtain rfl := BitVec.eq_of_toNat_eq hk
  rw [FmtVr.pack, ← BitVec.eq_of_toNat_eq hf]
  simp (disch := decide) only [FmtVr.unpack, bits_append_bits]
  exact extractLsb'_eq_self

theorem FmtCop.fields_pack (maj : BitVec 6) (eng : BitVec 3) (op : BitVec 7) (f : FmtCop) :
    bits (f.pack maj eng op) 26 6 = maj ∧ bits (f.pack maj eng op) 23 3 = eng ∧ bits (f.pack maj eng op) 2 7 = op ∧
      FmtCop.unpack (f.pack maj eng op) = f := by
  simp (disch := decide) only [FmtCop.pack, FmtCop.unpack, bits, extractLsb'_append_eq_of_le,
    extractLsb'_append_eq_of_add_le, extractLsb'_eq_self, Nat.reduceSub, and_self]

theorem FmtCop.pack_unpack {w : W32} {maj : BitVec 6} {eng : BitVec 3} {op : BitVec 7}
    (hm : (bits w 26 6).toNat = maj.toNat) (hf : (bits w 23 3).toNat = eng.toNat) (hk : (bits w 2 7).toNat = op.toNat) :
    (FmtCop.unpack w).pack maj eng op = w := by
  obtain rfl := BitVec.eq_of_toNat_eq hm
  obtain rfl := BitVec.eq_of_toNat_eq hf
  obtain rfl := BitVec.eq_of_toNat_eq hk
  simp (disch := decide) only [FmtCop.pack, FmtCop.unpack, bits_append_bits]
  exact extractLsb'_eq_self

theorem FmtCpy.fields_pack (maj : BitVec 6) (op : BitVec 6) (f : FmtCpy) :
    bits (f.pack maj op) 26 6 = maj ∧ bits (f.pack maj op) 23 3 = 1#3 ∧ bits (f.pack maj op) 2 6 = op ∧
      FmtCpy.unpack (f.pack maj op) = f := by
  simp (disch := decide) only [FmtCpy.pack, FmtCpy.unpack, bits, extractLsb'_append_eq_of_le,
    extractLsb'_append_eq_of_add_le, extractLsb'_eq_self, Nat.reduceSub, and_self]

theorem FmtCpy.pack_unpack {w : W32} {maj : BitVec 6} {op : BitVec 6} (hm : (bits w 26 6).toNat = maj.toNat)
    (hf : (bits w 23 3).toNat = (1#3).toNat) (hk : (bits w 2 6).toNat = op.toNat) :
    (FmtCpy.unpack w).pack maj op = w := by
  obtain rfl := BitVec.eq_of_toNat_eq hm
  obtain rfl := BitVec.eq_of_toNat_eq hk
  rw [FmtCpy.pack, ← BitVec.eq_of_toNat_eq hf]
  simp (disch := decide) only [FmtCpy.unpack, bits_append_bits]
  exact extractLsb'_eq_self

theorem FmtCpw.fields_pack (maj : BitVec 6) (sub : BitVec 6) (f : FmtCpw) :
    bits (f.pack maj sub) 26 6 = maj ∧ bits (f.pack maj sub) 11 6 = sub ∧ FmtCpw.unpack (f.pack maj sub) = f := by
  simp (disch := decide) only [FmtCpw.pack, FmtCpw.unpack, bits, extractLsb'_append_eq_of_le,
    extractLsb'_append_eq_of_add_le, extractLsb'_eq_self, Nat.reduceSub, and_self]

theorem FmtCpw.pack_unpack {w : W32} {maj : BitVec 6} {sub : BitVec 6} (hm : (bits w 26 6).toNat = maj.toNat)
    (hf : (bits w 11 6).toNat = sub.toNat) :
    (FmtCpw.unpack w).pack maj sub = w := by
  obtain rfl := BitVec.eq_of_toNat_eq hm
  obtain rfl := BitVec.eq_of_toNat_eq hf
  simp (disch := decide) only [FmtCpw.pack, FmtCpw.unpack, bits_append_bits]
  exact extractLsb'_eq_self

theorem FmtEsy.fields_pack (maj : BitVec 6) (f : FmtEsy) :
    bits (f.pack maj) 26 6 = maj ∧ bits (f.pack maj) 11 6 = 2#6 ∧ bits (f.pack maj) 6 5 = 0#5 ∧
      FmtEsy.unpack (f.pack maj) = f := by
  simp (disch := decide) only [FmtEsy.pack, FmtEsy.unpack, bits, extractLsb'_append_eq_of_le,
    extractLsb'_append_eq_of_add_le, extractLsb'_eq_self, Nat.reduceSub, and_true]

theorem FmtEsy.pack_unpack {w : W32} {maj : BitVec 6} (hm : (bits w 26 6).toNat = maj.toNat)
    (hf : (bits w 11 6).toNat = (2#6).toNat) (hz : w &&& 0x7c0#32 = 0#32) :
    (FmtEsy.unpack w).pack maj = w := by
  obtain rfl := BitVec.eq_of_toNat_eq hm
  rw [FmtEsy.pack, ← BitVec.eq_of_toNat_eq hf, ← bits_eq_zero 6 5 hz rfl]
  simp (disch := decide) only [FmtEsy.unpack, bits_append_bits]
  exact extractLsb'_eq_self

/-! The formats whose function field holds an operand in its lower bits. -/

theorem FmtX.fields_pack (maj : BitVec 6) (op : BitVec 2) (f : FmtX) :
    bits (f.pack maj op) 26 6 = maj ∧ bits (f.pack maj op) 6 2 = op ∧ FmtX.unpack (f.pack maj op) = f := by
  simp (disch := decide) only [FmtX.pack, FmtX.unpack, bits, extractLsb'_append_eq_of_le,
    extractLsb'_append_eq_of_add_le, extractLsb'_eq_self, Nat.reduceSub, and_self]

theorem FmtX.code_pack (maj : BitVec 6) (op : BitVec 2) (f : FmtX) :
    (bits (f.pack maj op) 2 6).toNat / 16 = op.toNat := by
  obtain ⟨-, hf, -⟩ := f.fields_pack maj op
  exact (toNat_bits_high (f.pack maj op) 2 2 4).symm.trans (congrArg BitVec.toNat hf)

theorem FmtX.pack_unpack {w : W32} {maj : BitVec 6} {op : BitVec 2} (hm : (bits w 26 6).toNat = maj.toNat)
    (hf : (bits w 2 6).toNat / 16 = op.toNat) : (FmtX.unpack w).pack maj op = w := by
  obtain rfl := BitVec.eq_of_toNat_eq hm
  obtain rfl := BitVec.eq_of_toNat_eq ((toNat_bits_high w 2 2 4).trans hf)
  simp (disch := decide) only [FmtX.pack, FmtX.unpack, bits_append_bits]
  exact extractLsb'_eq_self

theorem FmtRst.fields_pack (maj : BitVec 6) (fnh : BitVec 4) (f : FmtRst) :
    bits (f.pack maj fnh) 26 6 = maj ∧ bits (f.pack maj fnh) 4 4 = fnh ∧ bits (f.pack maj fnh) 8 6 = 0#6 ∧
      FmtRst.unpack (f.pack maj fnh) = f := by
  simp (disch := decide) only [FmtRst.pack, FmtRst.unpack, bits, extractLsb'_append_eq_of_le,
    extractLsb'_append_eq_of_add_le, extractLsb'_eq_self, Nat.reduceSub, and_true]

theorem FmtRst.code_pack (maj : BitVec 6) (fnh : BitVec 4) (f : FmtRst) :
    (bits (f.pack maj fnh) 2 6).toNat / 4 = fnh.toNat := by
  obtain ⟨-, hf, -⟩ := f.fields_pack maj fnh
  exact (toNat_bits_high (f.pack maj fnh) 2 4 2).symm.trans (congrArg BitVec.toNat hf)

theorem FmtRst.pack_unpack {w : W32} {maj : BitVec 6} {fnh : BitVec 4} (hm : (bits w 26 6).toNat = maj.toNat)
    (hf : (bits w 2 6).toNat / 4 = fnh.toNat) (hz : w &&& 0x3f00#32 = 0#32) : (FmtRst.unpack w).pack maj fnh = w := by
  obtain rfl := BitVec.eq_of_toNat_eq hm
  obtain rfl := BitVec.eq_of_toNat_eq ((toNat_bits_high w 2 4 2).trans hf)
  rw [FmtRst.pack, ← bits_eq_zero 8 6 hz rfl]
  simp (disch := decide) only [FmtRst.unpack, bits_append_bits]
  exact extractLsb'_eq_self

theorem FmtWid.fields_pack (maj : BitVec 6) (fnh : BitVec 3) (f : FmtWid) :
    bits (f.pack maj fnh) 26 6 = maj ∧ bits (f.pack maj fnh) 5 3 = fnh ∧ bits (f.pack maj fnh) 2 3 = f.k ∧
      bits (f.pack maj fnh) 8 6 = 0#6 ∧ FmtWid.unpack (f.pack maj fnh) = f := by
  simp (disch := decide) only [FmtWid.pack, FmtWid.unpack, bits, extractLsb'_append_eq_of_le,
    extractLsb'_append_eq_of_add_le, extractLsb'_eq_self, Nat.reduceSub, and_true]

theorem FmtWid.code_pack (maj : BitVec 6) (fnh : BitVec 3) (f : FmtWid) :
    (bits (f.pack maj fnh) 2 6).toNat / 8 = fnh.toNat ∧ (bits (f.pack maj fnh) 2 6).toNat % 8 = f.k.toNat := by
  obtain ⟨-, hf, hl, -⟩ := f.fields_pack maj fnh
  exact ⟨(toNat_bits_high (f.pack maj fnh) 2 3 3).symm.trans (congrArg BitVec.toNat hf),
    (toNat_bits_low (f.pack maj fnh) 2 3 3).symm.trans (congrArg BitVec.toNat hl)⟩

theorem FmtWid.pack_unpack {w : W32} {maj : BitVec 6} {fnh : BitVec 3} (hm : (bits w 26 6).toNat = maj.toNat)
    (hf : (bits w 2 6).toNat / 8 = fnh.toNat) (hz : w &&& 0x3f00#32 = 0#32) : (FmtWid.unpack w).pack maj fnh = w := by
  obtain rfl := BitVec.eq_of_toNat_eq hm
  obtain rfl := BitVec.eq_of_toNat_eq ((toNat_bits_high w 2 3 3).trans hf)
  rw [FmtWid.pack, ← bits_eq_zero 8 6 hz rfl]
  simp (disch := decide) only [FmtWid.unpack, bits_append_bits]
  exact extractLsb'_eq_self

theorem FmtVM.fields_pack (maj : BitVec 6) (fnh : BitVec 2) (f : FmtVM) :
    bits (f.pack maj fnh) 26 6 = maj ∧ bits (f.pack maj fnh) 5 2 = fnh ∧ FmtVM.unpack (f.pack maj fnh) = f := by
  simp (disch := decide) only [FmtVM.pack, FmtVM.unpack, bits, extractLsb'_append_eq_of_le,
    extractLsb'_append_eq_of_add_le, extractLsb'_eq_self, Nat.reduceSub, and_self]

theorem FmtVM.code_pack (maj : BitVec 6) (fnh : BitVec 2) (f : FmtVM) :
    (bits (f.pack maj fnh) 2 5).toNat / 8 = fnh.toNat := by
  obtain ⟨-, hf, -⟩ := f.fields_pack maj fnh
  exact (toNat_bits_high (f.pack maj fnh) 2 2 3).symm.trans (congrArg BitVec.toNat hf)

theorem FmtVM.pack_unpack {w : W32} {maj : BitVec 6} {fnh : BitVec 2} (hm : (bits w 26 6).toNat = maj.toNat)
    (hf : (bits w 2 5).toNat / 8 = fnh.toNat) : (FmtVM.unpack w).pack maj fnh = w := by
  obtain rfl := BitVec.eq_of_toNat_eq hm
  obtain rfl := BitVec.eq_of_toNat_eq ((toNat_bits_high w 2 2 3).trans hf)
  simp (disch := decide) only [FmtVM.pack, FmtVM.unpack, bits_append_bits]
  exact extractLsb'_eq_self

theorem FmtVG.fields_pack (maj : BitVec 6) (fnh : BitVec 3) (f : FmtVG) :
    bits (f.pack maj fnh) 26 6 = maj ∧ bits (f.pack maj fnh) 4 3 = fnh ∧ FmtVG.unpack (f.pack maj fnh) = f := by
  simp (disch := decide) only [FmtVG.pack, FmtVG.unpack, bits, extractLsb'_append_eq_of_le,
    extractLsb'_append_eq_of_add_le, extractLsb'_eq_self, Nat.reduceSub, and_self]

theorem FmtVG.code_pack (maj : BitVec 6) (fnh : BitVec 3) (f : FmtVG) :
    (bits (f.pack maj fnh) 2 5).toNat / 4 = fnh.toNat := by
  obtain ⟨-, hf, -⟩ := f.fields_pack maj fnh
  exact (toNat_bits_high (f.pack maj fnh) 2 3 2).symm.trans (congrArg BitVec.toNat hf)

theorem FmtVG.pack_unpack {w : W32} {maj : BitVec 6} {fnh : BitVec 3} (hm : (bits w 26 6).toNat = maj.toNat)
    (hf : (bits w 2 5).toNat / 4 = fnh.toNat) : (FmtVG.unpack w).pack maj fnh = w := by
  obtain rfl := BitVec.eq_of_toNat_eq hm
  obtain rfl := BitVec.eq_of_toNat_eq ((toNat_bits_high w 2 3 2).trans hf)
  simp (disch := decide) only [FmtVG.pack, FmtVG.unpack, bits_append_bits]
  exact extractLsb'_eq_self

theorem FmtFence.fields_pack (maj : BitVec 6) (kind : BitVec 4) (f : FmtFence) :
    bits (f.pack maj kind) 26 6 = maj ∧ bits (f.pack maj kind) 22 4 = kind ∧ bits (f.pack maj kind) 18 4 = f.scope ∧
      bits (f.pack maj kind) 2 16 = 0#16 ∧ FmtFence.unpack (f.pack maj kind) = f := by
  simp (disch := decide) only [FmtFence.pack, FmtFence.unpack, bits, extractLsb'_append_eq_of_le,
    extractLsb'_append_eq_of_add_le, extractLsb'_eq_self, Nat.reduceSub, and_true]

theorem FmtFence.code_pack (maj : BitVec 6) (kind : BitVec 4) (f : FmtFence) :
    (bits (f.pack maj kind) 18 8).toNat / 16 = kind.toNat ∧
      (bits (f.pack maj kind) 18 8).toNat % 16 = f.scope.toNat := by
  obtain ⟨-, hf, hl, -⟩ := f.fields_pack maj kind
  exact ⟨(toNat_bits_high (f.pack maj kind) 18 4 4).symm.trans (congrArg BitVec.toNat hf),
    (toNat_bits_low (f.pack maj kind) 18 4 4).symm.trans (congrArg BitVec.toNat hl)⟩

theorem FmtFence.pack_unpack {w : W32} {maj : BitVec 6} {kind : BitVec 4} (hm : (bits w 26 6).toNat = maj.toNat)
    (hf : (bits w 18 8).toNat / 16 = kind.toNat) (hz : w &&& 0x3fffc#32 = 0#32) :
    (FmtFence.unpack w).pack maj kind = w := by
  obtain rfl := BitVec.eq_of_toNat_eq hm
  obtain rfl := BitVec.eq_of_toNat_eq ((toNat_bits_high w 18 4 4).trans hf)
  rw [FmtFence.pack, ← bits_eq_zero 2 16 hz rfl]
  simp (disch := decide) only [FmtFence.unpack, bits_append_bits]
  exact extractLsb'_eq_self

theorem FmtQf.fields_pack (maj : BitVec 6) (f : FmtQf) :
    bits (f.pack maj) 26 6 = maj ∧ bits (f.pack maj) 21 5 = 6#5 ∧ bits (f.pack maj) 2 10 = 0#10 ∧
      FmtQf.unpack (f.pack maj) = f := by
  simp (disch := decide) only [FmtQf.pack, FmtQf.unpack, bits, extractLsb'_append_eq_of_le,
    extractLsb'_append_eq_of_add_le, extractLsb'_eq_self, Nat.reduceSub, and_true]

theorem FmtQf.code_pack (maj : BitVec 6) (f : FmtQf) :
    (bits (f.pack maj) 18 8).toNat / 8 = (6#5).toNat := by
  obtain ⟨-, hf, -⟩ := f.fields_pack maj
  exact (toNat_bits_high (f.pack maj) 18 5 3).symm.trans (congrArg BitVec.toNat hf)

theorem FmtQf.pack_unpack {w : W32} {maj : BitVec 6} (hm : (bits w 26 6).toNat = maj.toNat)
    (hf : (bits w 18 8).toNat / 8 = (6#5).toNat) (hz : w &&& 0xffc#32 = 0#32) : (FmtQf.unpack w).pack maj = w := by
  obtain rfl := BitVec.eq_of_toNat_eq hm
  rw [FmtQf.pack, ← BitVec.eq_of_toNat_eq ((toNat_bits_high w 18 5 3).trans hf), ← bits_eq_zero 2 10 hz rfl]
  simp (disch := decide) only [FmtQf.unpack, bits_append_bits]
  exact extractLsb'_eq_self

theorem FmtOrd.fields_pack (maj : BitVec 6) (dir : BitVec 1) (f : FmtOrd) :
    bits (f.pack maj dir) 26 6 = maj ∧ bits (f.pack maj dir) 22 4 = 4#4 ∧ bits (f.pack maj dir) 21 1 = dir ∧
      FmtOrd.unpack (f.pack maj dir) = f := by
  simp (disch := decide) only [FmtOrd.pack, FmtOrd.unpack, bits, extractLsb'_append_eq_of_le,
    extractLsb'_append_eq_of_add_le, extractLsb'_eq_self, Nat.reduceSub, and_self]

/-- An ordered access has function values 64 to 79; the direction stands above the three operand bits (R278). -/
theorem toNat_bits_ord (w : W32) {k : Nat} (hk : k < 2) :
    (bits w 18 8).toNat / 8 = 8 + k ↔ (bits w 22 4).toNat = 4 ∧ (bits w 21 1).toNat = k := by
  have h3 : (bits w 21 5).toNat = (bits w 18 8).toNat / 8 := toNat_bits_high w 18 5 3
  have h4 : (bits w 22 4).toNat = (bits w 21 5).toNat / 2 := toNat_bits_high w 21 4 1
  have h1 : (bits w 21 1).toNat = (bits w 21 5).toNat % 2 := toNat_bits_low w 21 4 1
  omega

theorem FmtOrd.code_pack (maj : BitVec 6) (dir : BitVec 1) (f : FmtOrd) :
    (bits (f.pack maj dir) 18 8).toNat / 8 = 8 + dir.toNat := by
  obtain ⟨-, h4, h1, -⟩ := f.fields_pack maj dir
  exact (toNat_bits_ord _ dir.isLt).mpr ⟨congrArg BitVec.toNat h4, congrArg BitVec.toNat h1⟩

theorem FmtOrd.pack_unpack {w : W32} {maj : BitVec 6} {dir : BitVec 1} (hm : (bits w 26 6).toNat = maj.toNat)
    (hf : (bits w 18 8).toNat / 8 = 8 + dir.toNat) : (FmtOrd.unpack w).pack maj dir = w := by
  obtain ⟨h4, h1⟩ := (toNat_bits_ord w dir.isLt).mp hf
  obtain rfl := BitVec.eq_of_toNat_eq hm
  obtain rfl := BitVec.eq_of_toNat_eq h1
  rw [FmtOrd.pack, ← BitVec.eq_of_toNat_eq (y := 4#4) h4]
  simp (disch := decide) only [FmtOrd.unpack, bits_append_bits]
  exact extractLsb'_eq_self

/-! The formats with a rounding index: the function field holds 5 × operation + index (R114, R212). -/

theorem Rnd.toIdx_lt (r : Rnd) : r.toIdx < 5 := by cases r <;> decide

theorem Rnd.ofIdx_toIdx (r : Rnd) : Rnd.ofIdx r.toIdx = r := by cases r <;> rfl

theorem Rnd.toIdx_ofIdx {k : Nat} (h : k < 5) : (Rnd.ofIdx k).toIdx = k := by interval_cases k <;> rfl

theorem toNat_rndCode {n op : Nat} (h : op * 5 + 4 < 2 ^ n) (r : Rnd) :
    (BitVec.ofNat n (op * 5 + r.toIdx)).toNat = op * 5 + r.toIdx := by
  have := r.toIdx_lt
  rw [BitVec.toNat_ofNat, Nat.mod_eq_of_lt (by omega)]

/-- A rounding index is read back from the function field. -/
theorem ofIdx_rndCode {n op : Nat} (h : op * 5 + 4 < 2 ^ n) (r : Rnd) :
    Rnd.ofIdx ((BitVec.ofNat n (op * 5 + r.toIdx)).toNat % 5) = r := by
  have := r.toIdx_lt
  rw [toNat_rndCode h, show (op * 5 + r.toIdx) % 5 = r.toIdx by omega, Rnd.ofIdx_toIdx]

/-- The function field is made of the operation and the rounding index that were read from it. -/
theorem rndCode_ofIdx {n op : Nat} (c : BitVec n) (h : c.toNat / 5 = op) :
    BitVec.ofNat n (op * 5 + (Rnd.ofIdx (c.toNat % 5)).toIdx) = c := by
  rw [Rnd.toIdx_ofIdx (Nat.mod_lt _ (by decide)), ← h, Nat.div_add_mod', BitVec.ofNat_toNat, BitVec.setWidth_eq]

theorem FmtFR.fields_pack (maj : BitVec 6) {op : Nat} (h : op * 5 + 4 < 2 ^ 5) (f : FmtFR) :
    bits (f.pack maj op) 26 6 = maj ∧ bits (f.pack maj op) 3 5 = BitVec.ofNat 5 (op * 5 + f.rnd.toIdx) ∧
      FmtFR.unpack (f.pack maj op) = f := by
  simp (disch := decide) only [FmtFR.pack, FmtFR.unpack, bits, extractLsb'_append_eq_of_le,
    extractLsb'_append_eq_of_add_le, extractLsb'_eq_self, Nat.reduceSub, ofIdx_rndCode h, and_self]

theorem FmtFR.pack_unpack {w : W32} {maj : BitVec 6} {op : Nat} (hm : (bits w 26 6).toNat = maj.toNat)
    (hf : (bits w 3 5).toNat / 5 = op) : (FmtFR.unpack w).pack maj op = w := by
  obtain rfl := BitVec.eq_of_toNat_eq hm
  simp (disch := decide) only [FmtFR.pack, FmtFR.unpack, rndCode_ofIdx _ hf, bits_append_bits]
  exact extractLsb'_eq_self

theorem FmtVF.fields_pack (maj : BitVec 6) {op : Nat} (h : op * 5 + 4 < 2 ^ 6) (f : FmtVF) :
    bits (f.pack maj op) 26 6 = maj ∧ bits (f.pack maj op) 2 6 = BitVec.ofNat 6 (op * 5 + f.rnd.toIdx) ∧
      FmtVF.unpack (f.pack maj op) = f := by
  simp (disch := decide) only [FmtVF.pack, FmtVF.unpack, bits, extractLsb'_append_eq_of_le,
    extractLsb'_append_eq_of_add_le, extractLsb'_eq_self, Nat.reduceSub, ofIdx_rndCode h, and_self]

theorem FmtVF.pack_unpack {w : W32} {maj : BitVec 6} {op : Nat} (hm : (bits w 26 6).toNat = maj.toNat)
    (hf : (bits w 2 6).toNat / 5 = op) : (FmtVF.unpack w).pack maj op = w := by
  obtain rfl := BitVec.eq_of_toNat_eq hm
  simp (disch := decide) only [FmtVF.pack, FmtVF.unpack, rndCode_ofIdx _ hf, bits_append_bits]
  exact extractLsb'_eq_self

/-! ## Decoding what was encoded -/

/-- A word that is zero in the bits of a mask meets it. -/
theorem and_eq_zero_of_bits {w mask : W32} (lo n : Nat) (hm : mask = (BitVec.allOnes n).setWidth 32 <<< lo)
    (h : bits w lo n = 0#n) : w &&& mask = 0#32 := by
  subst hm
  refine BitVec.eq_of_getLsbD_eq fun i hi => ?_
  have hb : ∀ j < n, w.getLsbD (lo + j) = false := fun j hj => by
    simpa [bits, hj] using congrArg (·.getLsbD j) h
  simp only [BitVec.getLsbD_and, BitVec.getLsbD_shiftLeft, BitVec.getLsbD_setWidth, BitVec.getLsbD_allOnes,
    BitVec.getLsbD_zero, Bool.and_eq_false_iff]
  by_cases hlo : i < lo
  · simp [hlo]
  by_cases hn : i - lo < n
  · left
    simpa [show lo + (i - lo) = i by omega] using hb _ hn
  · simp [hn]

theorem decodeRaw_r {w : W32} (op : OpR) (hm : bits w 26 6 = op.code.1) (hf : bits w 2 6 = op.code.2) :
    decodeRaw w = .ok (.r op (FmtR.unpack w)) := by
  unfold decodeRaw decode01 decode0c decode0d decode1a decode1f decode22 decode23
  rw [hm, hf]
  cases op <;> rfl

theorem decodeRaw_i {w : W32} (op : OpI) (hm : bits w 26 6 = op.code) :
    decodeRaw w = .ok (.i op (FmtI.unpack w)) := by
  unfold decodeRaw decode02 decode03 decode04 decode05
  rw [hm]
  cases op <;> rfl

theorem decodeRaw_sh {w : W32} (op : OpSh) (hm : bits w 26 6 = op.code.1) (hf : bits w 12 2 = op.code.2)
    (hz : w &&& 0xf00#32 = 0#32) :
    decodeRaw w = .ok (.sh op (FmtSh.unpack w)) := by
  unfold decodeRaw decode06 zeros
  rw [hm, hf]
  cases op <;> exact if_pos hz

theorem decodeRaw_slt {w : W32} (op : OpSlt) (hm : bits w 26 6 = op.code.1) (hf : bits w 12 2 = op.code.2) :
    decodeRaw w = .ok (.slt op (FmtSlt.unpack w)) := by
  unfold decodeRaw decode07
  rw [hm, hf]
  cases op <;> rfl

theorem decodeRaw_k {w : W32} (hm : bits w 26 6 = 0x08#6) :
    decodeRaw w = .ok (.k (FmtK.unpack w)) := by
  unfold decodeRaw decode08
  rw [hm]
  rfl

theorem decodeRaw_bF {w : W32} (op : OpBF) (hm : bits w 26 6 = op.code) :
    decodeRaw w = .ok (.bF op (FmtBF.unpack w)) := by
  unfold decodeRaw decode09 decode0a decode0b
  rw [hm]
  cases op <;> rfl

theorem decodeRaw_fT {w : W32} (op : OpFT) (hm : bits w 26 6 = op.code.1) (hf : bits w 3 5 = op.code.2) :
    decodeRaw w = .ok (.fT op (FmtFT.unpack w)) := by
  unfold decodeRaw decode12 decode17
  rw [hm, hf]
  cases op <;> rfl

theorem decodeRaw_c {w : W32} (op : OpC) (hm : bits w 26 6 = op.code.1) (hf : bits w 3 3 = op.code.2) :
    decodeRaw w = .ok (.c op (FmtC.unpack w)) := by
  unfold decodeRaw decode14
  rw [hm, hf]
  cases op <;> rfl

theorem decodeRaw_f20 {w : W32} (hm : bits w 26 6 = 0x15#6) :
    decodeRaw w = .ok (.f20 (FmtF20.unpack w)) := by
  unfold decodeRaw decode15
  rw [hm]
  rfl

theorem decodeRaw_cvt {w : W32} (hm : bits w 26 6 = 0x16#6) :
    decodeRaw w = .ok (.cvt (FmtCvt.unpack w)) := by
  unfold decodeRaw decode16
  rw [hm]
  rfl

theorem decodeRaw_m {w : W32} (op : OpM) (hm : bits w 26 6 = op.code) :
    decodeRaw w = .ok (.m op (FmtM.unpack w)) := by
  unfold decodeRaw decode18 decode19
  rw [hm]
  cases op <;> rfl

theorem decodeRaw_amo {w : W32} (op : OpAmo) (hm : bits w 26 6 = op.code.1) (hf : bits w 5 3 = op.code.2) :
    decodeRaw w = .ok (.amo op (FmtAmo.unpack w)) := by
  unfold decodeRaw decode1b
  rw [hm, hf]
  cases op <;> rfl

theorem decodeRaw_b {w : W32} (op : OpB) (hm : bits w 26 6 = op.code.1) (hf : bits w 22 4 = op.code.2) :
    decodeRaw w = .ok (.b op (FmtB.unpack w)) := by
  unfold decodeRaw decode1c
  rw [hm, hf]
  cases op <;> rfl

theorem decodeRaw_j {w : W32} (op : OpJ) (hm : bits w 26 6 = op.code) :
    decodeRaw w = .ok (.j op (FmtJ.unpack w)) := by
  unfold decodeRaw decode1d decode1e
  rw [hm]
  cases op <;> rfl

theorem decodeRaw_sC {w : W32} (op : OpSC) (hm : bits w 26 6 = op.code.1) (hf : bits w 8 3 = op.code.2)
    (hz : w &&& 0xfc#32 = 0#32) :
    decodeRaw w = .ok (.sC op (FmtSC.unpack w)) := by
  unfold decodeRaw decode20 zeros
  rw [hm, hf]
  cases op <;> exact if_pos hz

theorem decodeRaw_rsv {w : W32} (op : OpRsv) (hm : bits w 26 6 = op.code.1) (hf : bits w 2 6 = op.code.2)
    (hz : w &&& 0x2003f00#32 = 0#32) :
    decodeRaw w = .ok (.rsv op (FmtRsv.unpack w)) := by
  unfold decodeRaw decode23 zeros
  rw [hm, hf]
  cases op <;> exact if_pos hz

theorem decodeRaw_v {w : W32} (op : OpV) (hm : bits w 26 6 = op.code.1) (hf : bits w 2 6 = op.code.2) :
    decodeRaw w = .ok (.v op (FmtV.unpack w)) := by
  unfold decodeRaw decode26 decode27 decode2a
  rw [hm, hf]
  cases op <;> rfl

theorem decodeRaw_vS {w : W32} (op : OpVS) (hm : bits w 26 6 = op.code.1) (hf : bits w 2 5 = op.code.2) :
    decodeRaw w = .ok (.vS op (FmtVS.unpack w)) := by
  unfold decodeRaw decode28 decode29
  rw [hm, hf]
  cases op <;> rfl

theorem decodeRaw_vr {w : W32} (op : OpVr) (hm : bits w 26 6 = op.code.1) (hf : bits w 2 5 = 0x1e#5)
    (hk : bits w 21 5 = op.code.2) :
    decodeRaw w = .ok (.vr op (FmtVr.unpack w)) := by
  unfold decodeRaw decode29 decode29Red
  rw [hm, hf, hk]
  cases op <;> rfl

theorem decodeRaw_cop {w : W32} (op : OpCop) (hm : bits w 26 6 = op.code.1) (hf : bits w 23 3 = op.code.2.1)
    (hk : bits w 2 7 = op.code.2.2) :
    decodeRaw w = .ok (.cop op (FmtCop.unpack w)) := by
  unfold decodeRaw decode2b decode2bEng0 decode2bEng2 decode2bEng3 decode2bEng4 decode2bEng5 decode2bEng6 decode2bEng7
  rw [hm, hf, hk]
  cases op <;> rfl

theorem decodeRaw_cpy {w : W32} (op : OpCpy) (hm : bits w 26 6 = op.code.1) (hf : bits w 23 3 = 1#3)
    (hk : bits w 2 6 = op.code.2) :
    decodeRaw w = .ok (.cpy op (FmtCpy.unpack w)) := by
  unfold decodeRaw decode2b decode2bEng1
  rw [hm, hf, hk]
  cases op <;> rfl

theorem decodeRaw_cpw {w : W32} (op : OpCpw) (hm : bits w 26 6 = op.code.1) (hf : bits w 11 6 = op.code.2) :
    decodeRaw w = .ok (.cpw op (FmtCpw.unpack w)) := by
  unfold decodeRaw decode2c
  rw [hm, hf]
  cases op <;> rfl

theorem decodeRaw_esy {w : W32} (hm : bits w 26 6 = 0x2c#6) (hf : bits w 11 6 = 2#6)
    (hz : w &&& 0x7c0#32 = 0#32) :
    decodeRaw w = .ok (.esy (FmtEsy.unpack w)) := by
  unfold decodeRaw decode2c zeros
  rw [hm, hf]
  exact if_pos hz

/-- Bits 6:5 of a word as bits 4:3 of the immediate of its S format. -/
theorem bits_imm (w : W32) : (bits w 2 10).extractLsb' 3 2 = bits w 5 2 :=
  BitVec.eq_of_getLsbD_eq fun i hi => by simp [bits, hi, show 3 + i < 10 by omega, ← Nat.add_assoc]

theorem must_eq_none {ok : Bool} {e : DecodeError} : must ok e = none ↔ ok = true := by
  cases ok <;> simp [must]

/-- The hints share two function values; the check of the immediate tells them apart (R285). -/
theorem decodeRaw_s {w : W32} (op : OpS) (hm : bits w 26 6 = op.code.1) (hf : bits w 18 8 = op.code.2)
    (hi : op.immCheck (bits w 2 10) = none) : decodeRaw w = .ok (.s op (FmtS.unpack w)) := by
  unfold decodeRaw decode21 decode24 decode25 decode2d
  rw [hm, hf, ← bits_imm]
  cases op with
  | prefL1 => exact if_neg (bne_iff_ne.mp (must_eq_none.mp hi))
  | prefL2 => exact if_pos (eq_of_beq (must_eq_none.mp hi))
  | mhintHome => exact if_pos (eq_of_beq (must_eq_none.mp hi))
  | mhintPage =>
    have h2 := eq_of_beq (must_eq_none.mp hi)
    exact (if_neg (by omega)).trans (if_pos h2)
  | mhintNear =>
    have h03 := (Bool.or_eq_true _ _).mp (must_eq_none.mp hi)
    simp only [beq_iff_eq] at h03
    exact (if_neg (by omega)).trans (if_neg (by omega))
  | _ => rfl

theorem decodeRaw_fR {w : W32} (op : OpFR) (r : Rnd) (hm : bits w 26 6 = op.code.1)
    (hf : bits w 3 5 = BitVec.ofNat 5 (op.code.2 * 5 + r.toIdx)) : decodeRaw w = .ok (.fR op (FmtFR.unpack w)) := by
  unfold decodeRaw decode12 decode13
  rw [hm, hf]
  cases op <;> cases r <;> rfl

theorem decodeRaw_vF {w : W32} (op : OpVF) (r : Rnd) (hm : bits w 26 6 = op.code.1)
    (hf : bits w 2 6 = BitVec.ofNat 6 (op.code.2 * 5 + r.toIdx)) : decodeRaw w = .ok (.vF op (FmtVF.unpack w)) := by
  unfold decodeRaw decode27
  rw [hm, hf]
  cases op <;> cases r <;> rfl

theorem decodeRaw_x {w : W32} (op : OpX) (hm : bits w 26 6 = op.code.1)
    (hf : (bits w 2 6).toNat / 16 = op.code.2.toNat) :
    decodeRaw w = .ok (.x op (FmtX.unpack w)) := by
  have hd : decodeRaw w = decode1a w := by
    unfold decodeRaw
    rw [hm]
    cases op <;> rfl
  rw [hd]
  unfold decode1a
  generalize (bits w 2 6).toNat = k at hf ⊢
  cases op with
  | ldx => replace hf : k / 16 = 0 := hf; exact if_pos (by omega)
  | stx => replace hf : k / 16 = 1 := hf; rw [if_neg (by omega), if_pos (by omega)]
  | ldxSx => replace hf : k / 16 = 2 := hf; rw [if_neg (by omega), if_neg (by omega), if_pos (by omega)]

theorem decodeRaw_ord {w : W32} (op : OpOrd) (hm : bits w 26 6 = op.code.1)
    (hf : (bits w 18 8).toNat / 8 = 8 + op.code.2.toNat) :
    decodeRaw w = .ok (.ord op (FmtOrd.unpack w)) := by
  have hd : decodeRaw w = decode21 w := by
    unfold decodeRaw
    rw [hm]
    cases op <;> rfl
  rw [hd]
  unfold decode21
  generalize (bits w 18 8).toNat = k at hf ⊢
  obtain ⟨r, hr, rfl⟩ : ∃ r < 8, k = (8 + op.code.2.toNat) * 8 + r := ⟨k % 8, by omega, by omega⟩
  cases op <;> interval_cases r <;> rfl

theorem decodeRaw_wid {w : W32} (op : OpWid) (hm : bits w 26 6 = op.code.1)
    (hf : (bits w 2 6).toNat / 8 = op.code.2.toNat)
    (hk : (bits w 2 6).toNat % 8 < 6) (hz : w &&& 0x3f00#32 = 0#32) :
    decodeRaw w = .ok (.wid op (FmtWid.unpack w)) := by
  have hd : decodeRaw w = decode22 w := by
    unfold decodeRaw
    rw [hm]
    cases op <;> rfl
  rw [hd]
  unfold decode22 zeros
  generalize (bits w 2 6).toNat = k at hf hk ⊢
  obtain ⟨r, hr, rfl⟩ : ∃ r < 6, k = op.code.2.toNat * 8 + r := ⟨k % 8, by omega, by omega⟩
  cases op <;> interval_cases r <;> exact if_pos hz

theorem decodeRaw_rst {w : W32} (op : OpRst) (hm : bits w 26 6 = op.code.1)
    (hf : (bits w 2 6).toNat / 4 = op.code.2.toNat)
    (hz : w &&& 0x3f00#32 = 0#32) : decodeRaw w = .ok (.rst op (FmtRst.unpack w)) := by
  have hd : decodeRaw w = decode23 w := by
    unfold decodeRaw
    rw [hm]
    cases op <;> rfl
  rw [hd]
  unfold decode23 zeros
  generalize (bits w 2 6).toNat = k at hf ⊢
  obtain ⟨r, hr, rfl⟩ : ∃ r < 4, k = op.code.2.toNat * 4 + r := ⟨k % 4, by omega, by omega⟩
  cases op <;> interval_cases r <;> exact if_pos hz

theorem decodeRaw_fence {w : W32} (op : OpFence) (hm : bits w 26 6 = op.code.1)
    (hf : (bits w 18 8).toNat / 16 = op.code.2.toNat)
    (hk : (bits w 18 8).toNat % 16 < 12) (hz : w &&& 0x3fffc#32 = 0#32) :
    decodeRaw w = .ok (.fence op (FmtFence.unpack w)) := by
  have hd : decodeRaw w = decode25 w := by
    unfold decodeRaw
    rw [hm]
    cases op <;> rfl
  rw [hd]
  unfold decode25 zeros
  generalize (bits w 18 8).toNat = k at hf hk ⊢
  obtain ⟨r, hr, rfl⟩ : ∃ r < 12, k = op.code.2.toNat * 16 + r := ⟨k % 16, by omega, by omega⟩
  cases op <;> interval_cases r <;> exact if_pos hz

theorem decodeRaw_qf {w : W32} (hm : bits w 26 6 = 0x25#6)
    (hf : (bits w 18 8).toNat / 8 = (6#5).toNat) (hz : w &&& 0xffc#32 = 0#32) : decodeRaw w = .ok (.qf (FmtQf.unpack w)) := by
  have hd : decodeRaw w = decode25 w := by
    unfold decodeRaw
    rw [hm]
    rfl
  rw [hd]
  unfold decode25 zeros
  generalize (bits w 18 8).toNat = k at hf ⊢
  obtain ⟨r, hr, rfl⟩ : ∃ r < 8, k = (6#5).toNat * 8 + r := ⟨k % 8, by omega, by omega⟩
  interval_cases r <;> exact if_pos hz

theorem decodeRaw_vM {w : W32} (op : OpVM) (hm : bits w 26 6 = op.code.1)
    (hf : (bits w 2 5).toNat / 8 = op.code.2.toNat) :
    decodeRaw w = .ok (.vM op (FmtVM.unpack w)) := by
  have hd : decodeRaw w = decode29 w := by
    unfold decodeRaw
    rw [hm]
    cases op <;> rfl
  rw [hd]
  unfold decode29
  generalize (bits w 2 5).toNat = k at hf ⊢
  obtain ⟨r, hr, rfl⟩ : ∃ r < 8, k = op.code.2.toNat * 8 + r := ⟨k % 8, by omega, by omega⟩
  cases op <;> interval_cases r <;> rfl

theorem decodeRaw_vG {w : W32} (op : OpVG) (hm : bits w 26 6 = op.code.1)
    (hf : (bits w 2 5).toNat / 4 = op.code.2.toNat) :
    decodeRaw w = .ok (.vG op (FmtVG.unpack w)) := by
  have hd : decodeRaw w = decode29 w := by
    unfold decodeRaw
    rw [hm]
    cases op <;> rfl
  rw [hd]
  unfold decode29
  generalize (bits w 2 5).toNat = k at hf ⊢
  obtain ⟨r, hr, rfl⟩ : ∃ r < 4, k = op.code.2.toNat * 4 + r := ⟨k % 4, by omega, by omega⟩
  cases op <;> interval_cases r <;> rfl

/-- The first check that fails is the outcome of the checks. -/
theorem firstOf_cons_eq_none {o : Option DecodeError} {l : List (Option DecodeError)} :
    firstOf (o :: l) = none ↔ o = none ∧ firstOf l = none := by
  cases o <;> simp [firstOf]

/-- The fixed zeros of a remote store of a vector register stand in two places (R279). -/
theorem FmtRsv.and_mask {w : W32} (h25 : bits w 25 1 = 0#1) (h8 : bits w 8 6 = 0#6) : w &&& 0x2003f00#32 = 0#32 := by
  have hm : 0x2003f00#32 = 0x2000000#32 ||| 0x3f00#32 := rfl
  have hhigh : w &&& 0x2000000#32 = 0#32 := and_eq_zero_of_bits 25 1 rfl h25
  have hlow : w &&& 0x3f00#32 = 0#32 := and_eq_zero_of_bits 8 6 rfl h8
  rw [hm, BitVec.and_or_distrib_left, hhigh, hlow, BitVec.or_zero]

/-- The word of a well-formed form is read as that form. -/
theorem decodeRaw_encode {f : Form} (h : f.check = none) : decodeRaw f.encode = .ok f := by
  cases f with
  | r op f =>
    obtain ⟨hm, hf, hu⟩ := f.fields_pack op.code.1 op.code.2
    rw [Form.encode, decodeRaw_r op hm hf, hu]
  | i op f =>
    obtain ⟨hm, hu⟩ := f.fields_pack op.code
    rw [Form.encode, decodeRaw_i op hm, hu]
  | sh op f =>
    obtain ⟨hm, hf, hz, hu⟩ := f.fields_pack op.code.1 op.code.2
    rw [Form.encode, decodeRaw_sh op hm hf (and_eq_zero_of_bits 8 4 rfl hz), hu]
  | slt op f =>
    obtain ⟨hm, hf, hu⟩ := f.fields_pack op.code.1 op.code.2
    rw [Form.encode, decodeRaw_slt op hm hf, hu]
  | k f =>
    obtain ⟨hm, hu⟩ := f.fields_pack 0x08#6
    rw [Form.encode, decodeRaw_k hm, hu]
  | bF op f =>
    obtain ⟨hm, hu⟩ := f.fields_pack op.code
    rw [Form.encode, decodeRaw_bF op hm, hu]
  | fR op f =>
    obtain ⟨hm, hf, hu⟩ := f.fields_pack op.code.1 (op := op.code.2) (by cases op <;> decide)
    rw [Form.encode, decodeRaw_fR op f.rnd hm hf, hu]
  | fT op f =>
    obtain ⟨hm, hf, hu⟩ := f.fields_pack op.code.1 op.code.2
    rw [Form.encode, decodeRaw_fT op hm hf, hu]
  | c op f =>
    obtain ⟨hm, hf, hu⟩ := f.fields_pack op.code.1 op.code.2
    rw [Form.encode, decodeRaw_c op hm hf, hu]
  | f20 f =>
    obtain ⟨hm, hu⟩ := f.fields_pack 0x15#6
    rw [Form.encode, decodeRaw_f20 hm, hu]
  | cvt f =>
    obtain ⟨hm, hu⟩ := f.fields_pack 0x16#6
    rw [Form.encode, decodeRaw_cvt hm, hu]
  | m op f =>
    obtain ⟨hm, hu⟩ := f.fields_pack op.code
    rw [Form.encode, decodeRaw_m op hm, hu]
  | x op f =>
    obtain ⟨hm, -, hu⟩ := f.fields_pack op.code.1 op.code.2
    rw [Form.encode, decodeRaw_x op hm (f.code_pack op.code.1 op.code.2), hu]
  | amo op f =>
    obtain ⟨hm, hf, hu⟩ := f.fields_pack op.code.1 op.code.2
    rw [Form.encode, decodeRaw_amo op hm hf, hu]
  | b op f =>
    obtain ⟨hm, hf, hu⟩ := f.fields_pack op.code.1 op.code.2
    rw [Form.encode, decodeRaw_b op hm hf, hu]
  | j op f =>
    obtain ⟨hm, hu⟩ := f.fields_pack op.code
    rw [Form.encode, decodeRaw_j op hm, hu]
  | sC op f =>
    obtain ⟨hm, hf, hz, hu⟩ := f.fields_pack op.code.1 op.code.2
    rw [Form.encode, decodeRaw_sC op hm hf (and_eq_zero_of_bits 2 6 rfl hz), hu]
  | s op f =>
    obtain ⟨hm, hf, hu⟩ := f.fields_pack op.code.1 op.code.2
    simp only [Form.check, firstOf_cons_eq_none] at h
    obtain ⟨-, hi, -⟩ := h
    rw [Form.encode, decodeRaw_s op hm hf ((congrArg (fun g : FmtS => op.immCheck g.imm) hu).trans hi), hu]
  | ord op f =>
    obtain ⟨hm, -, -, hu⟩ := f.fields_pack op.code.1 op.code.2
    rw [Form.encode, decodeRaw_ord op hm (f.code_pack op.code.1 op.code.2), hu]
  | fence op f =>
    simp only [Form.check, must_eq_none, decide_eq_true_eq] at h
    obtain ⟨hm, -, -, hz, hu⟩ := f.fields_pack op.code.1 op.code.2
    obtain ⟨hf, hk⟩ := f.code_pack op.code.1 op.code.2
    rw [Form.encode, decodeRaw_fence op hm hf (hk.trans_lt h) (and_eq_zero_of_bits 2 16 rfl hz), hu]
  | qf f =>
    obtain ⟨hm, -, hz, hu⟩ := f.fields_pack 0x25#6
    rw [Form.encode, decodeRaw_qf hm (f.code_pack 0x25#6) (and_eq_zero_of_bits 2 10 rfl hz), hu]
  | wid op f =>
    simp only [Form.check, firstOf_cons_eq_none, must_eq_none, decide_eq_true_eq] at h
    obtain ⟨hlt, -⟩ := h
    obtain ⟨hm, -, -, hz, hu⟩ := f.fields_pack op.code.1 op.code.2
    obtain ⟨hf, hk⟩ := f.code_pack op.code.1 op.code.2
    rw [Form.encode, decodeRaw_wid op hm hf (hk.trans_lt hlt) (and_eq_zero_of_bits 8 6 rfl hz), hu]
  | rst op f =>
    obtain ⟨hm, -, hz, hu⟩ := f.fields_pack op.code.1 op.code.2
    rw [Form.encode, decodeRaw_rst op hm (f.code_pack op.code.1 op.code.2) (and_eq_zero_of_bits 8 6 rfl hz), hu]
  | rsv op f =>
    obtain ⟨hm, hf, hz0, hz1, hu⟩ := f.fields_pack op.code.1 op.code.2
    rw [Form.encode, decodeRaw_rsv op hm hf (FmtRsv.and_mask hz0 hz1), hu]
  | v op f =>
    obtain ⟨hm, hf, hu⟩ := f.fields_pack op.code.1 op.code.2
    rw [Form.encode, decodeRaw_v op hm hf, hu]
  | vF op f =>
    obtain ⟨hm, hf, hu⟩ := f.fields_pack op.code.1 (op := op.code.2) (by cases op <;> decide)
    rw [Form.encode, decodeRaw_vF op f.rnd hm hf, hu]
  | vS op f =>
    obtain ⟨hm, hf, hu⟩ := f.fields_pack op.code.1 op.code.2
    rw [Form.encode, decodeRaw_vS op hm hf, hu]
  | vM op f =>
    obtain ⟨hm, -, hu⟩ := f.fields_pack op.code.1 op.code.2
    rw [Form.encode, decodeRaw_vM op hm (f.code_pack op.code.1 op.code.2), hu]
  | vG op f =>
    obtain ⟨hm, -, hu⟩ := f.fields_pack op.code.1 op.code.2
    rw [Form.encode, decodeRaw_vG op hm (f.code_pack op.code.1 op.code.2), hu]
  | vr op f =>
    obtain ⟨hm, hf, hk, hu⟩ := f.fields_pack op.code.1 op.code.2
    rw [Form.encode, decodeRaw_vr op hm hf hk, hu]
  | cop op f =>
    obtain ⟨hm, hf, hk, hu⟩ := f.fields_pack op.code.1 op.code.2.1 op.code.2.2
    rw [Form.encode, decodeRaw_cop op hm hf hk, hu]
  | cpy op f =>
    obtain ⟨hm, hf, hk, hu⟩ := f.fields_pack op.code.1 op.code.2
    rw [Form.encode, decodeRaw_cpy op hm hf hk, hu]
  | cpw op f =>
    obtain ⟨hm, hf, hu⟩ := f.fields_pack op.code.1 op.code.2
    rw [Form.encode, decodeRaw_cpw op hm hf, hu]
  | esy f =>
    obtain ⟨hm, hf, hz, hu⟩ := f.fields_pack 0x2c#6
    rw [Form.encode, decodeRaw_esy hm hf (and_eq_zero_of_bits 6 5 rfl hz), hu]
  | illegal w => cases h

/-! ## Encoding what was decoded -/

/-- Every form that a word is read as is the form of that word. -/
def Reads (w : W32) (r : Except DecodeError Form) : Prop := ∀ f, r = .ok f → f.encode = w

@[simp] theorem reads_ok {w : W32} {f : Form} : Reads w (.ok f) ↔ f.encode = w := by simp [Reads]

@[simp] theorem reads_error {w : W32} {e : DecodeError} : Reads w (.error e) := by simp [Reads]

@[simp] theorem reads_zeros {w mask : W32} {f : Form} :
    Reads w (zeros w mask f) ↔ (w &&& mask = 0#32 → f.encode = w) := by
  unfold zeros
  split <;> simp [Reads, *]

theorem reads_decode01 {w : W32} (hm : (bits w 26 6).toNat = 0x01) : Reads w (decode01 w) := by
  unfold decode01
  split <;> simp [Form.encode, FmtR.pack_unpack, OpR.code, *]

theorem reads_decode02 {w : W32} (hm : (bits w 26 6).toNat = 0x02) : Reads w (decode02 w) := by
  unfold decode02
  simp [Form.encode, FmtI.pack_unpack, OpI.code, hm]

theorem reads_decode03 {w : W32} (hm : (bits w 26 6).toNat = 0x03) : Reads w (decode03 w) := by
  unfold decode03
  simp [Form.encode, FmtI.pack_unpack, OpI.code, hm]

theorem reads_decode04 {w : W32} (hm : (bits w 26 6).toNat = 0x04) : Reads w (decode04 w) := by
  unfold decode04
  simp [Form.encode, FmtI.pack_unpack, OpI.code, hm]

theorem reads_decode05 {w : W32} (hm : (bits w 26 6).toNat = 0x05) : Reads w (decode05 w) := by
  unfold decode05
  simp [Form.encode, FmtI.pack_unpack, OpI.code, hm]

theorem reads_decode06 {w : W32} (hm : (bits w 26 6).toNat = 0x06) : Reads w (decode06 w) := by
  unfold decode06
  split <;> simp only [reads_error, reads_zeros] <;> intros <;>
    simp [Form.encode, FmtSh.pack_unpack, OpSh.code, *]

theorem reads_decode07 {w : W32} (hm : (bits w 26 6).toNat = 0x07) : Reads w (decode07 w) := by
  unfold decode07
  split <;> simp [Form.encode, FmtSlt.pack_unpack, OpSlt.code, *]

theorem reads_decode08 {w : W32} (hm : (bits w 26 6).toNat = 0x08) : Reads w (decode08 w) := by
  unfold decode08
  simp [Form.encode, FmtK.pack_unpack, hm]

theorem reads_decode09 {w : W32} (hm : (bits w 26 6).toNat = 0x09) : Reads w (decode09 w) := by
  unfold decode09
  simp [Form.encode, FmtBF.pack_unpack, OpBF.code, hm]

theorem reads_decode0a {w : W32} (hm : (bits w 26 6).toNat = 0x0a) : Reads w (decode0a w) := by
  unfold decode0a
  simp [Form.encode, FmtBF.pack_unpack, OpBF.code, hm]

theorem reads_decode0b {w : W32} (hm : (bits w 26 6).toNat = 0x0b) : Reads w (decode0b w) := by
  unfold decode0b
  simp [Form.encode, FmtBF.pack_unpack, OpBF.code, hm]

theorem reads_decode0c {w : W32} (hm : (bits w 26 6).toNat = 0x0c) : Reads w (decode0c w) := by
  unfold decode0c
  split <;> simp [Form.encode, FmtR.pack_unpack, OpR.code, *]

theorem reads_decode0d {w : W32} (hm : (bits w 26 6).toNat = 0x0d) : Reads w (decode0d w) := by
  unfold decode0d
  split <;> simp [Form.encode, FmtR.pack_unpack, OpR.code, *]

theorem reads_decode12 {w : W32} (hm : (bits w 26 6).toNat = 0x12) : Reads w (decode12 w) := by
  unfold decode12
  split <;> simp [Form.encode, FmtFR.pack_unpack, FmtFT.pack_unpack, OpFR.code, OpFT.code, *]

theorem reads_decode13 {w : W32} (hm : (bits w 26 6).toNat = 0x13) : Reads w (decode13 w) := by
  unfold decode13
  split <;> simp [Form.encode, FmtFR.pack_unpack, OpFR.code, *]

theorem reads_decode14 {w : W32} (hm : (bits w 26 6).toNat = 0x14) : Reads w (decode14 w) := by
  unfold decode14
  split <;> simp [Form.encode, FmtC.pack_unpack, OpC.code, *]

theorem reads_decode15 {w : W32} (hm : (bits w 26 6).toNat = 0x15) : Reads w (decode15 w) := by
  unfold decode15
  simp [Form.encode, FmtF20.pack_unpack, hm]

theorem reads_decode16 {w : W32} (hm : (bits w 26 6).toNat = 0x16) : Reads w (decode16 w) := by
  unfold decode16
  simp [Form.encode, FmtCvt.pack_unpack, hm]

theorem reads_decode17 {w : W32} (hm : (bits w 26 6).toNat = 0x17) : Reads w (decode17 w) := by
  unfold decode17
  split <;> simp [Form.encode, FmtFT.pack_unpack, OpFT.code, *]

theorem reads_decode18 {w : W32} (hm : (bits w 26 6).toNat = 0x18) : Reads w (decode18 w) := by
  unfold decode18
  simp [Form.encode, FmtM.pack_unpack, OpM.code, hm]

theorem reads_decode19 {w : W32} (hm : (bits w 26 6).toNat = 0x19) : Reads w (decode19 w) := by
  unfold decode19
  simp [Form.encode, FmtM.pack_unpack, OpM.code, hm]

theorem reads_decode1a {w : W32} (hm : (bits w 26 6).toNat = 0x1a) : Reads w (decode1a w) := by
  unfold decode1a
  dsimp only
  split_ifs with hldx hstx hldxSx hbfxur hbfxsr hbfir
  · exact reads_ok.mpr (FmtX.pack_unpack hm (show _ / 16 = 0 by omega))
  · exact reads_ok.mpr (FmtX.pack_unpack hm (show _ / 16 = 1 by omega))
  · exact reads_ok.mpr (FmtX.pack_unpack hm (show _ / 16 = 2 by omega))
  · exact reads_ok.mpr (FmtR.pack_unpack hm hbfxur)
  · exact reads_ok.mpr (FmtR.pack_unpack hm hbfxsr)
  · exact reads_ok.mpr (FmtR.pack_unpack hm hbfir)
  · exact reads_error

theorem reads_decode1b {w : W32} (hm : (bits w 26 6).toNat = 0x1b) : Reads w (decode1b w) := by
  unfold decode1b
  split <;> simp [Form.encode, FmtAmo.pack_unpack, OpAmo.code, *]

theorem reads_decode1c {w : W32} (hm : (bits w 26 6).toNat = 0x1c) : Reads w (decode1c w) := by
  unfold decode1c
  split <;> simp [Form.encode, FmtB.pack_unpack, OpB.code, *]

theorem reads_decode1d {w : W32} (hm : (bits w 26 6).toNat = 0x1d) : Reads w (decode1d w) := by
  unfold decode1d
  simp [Form.encode, FmtJ.pack_unpack, OpJ.code, hm]

theorem reads_decode1e {w : W32} (hm : (bits w 26 6).toNat = 0x1e) : Reads w (decode1e w) := by
  unfold decode1e
  simp [Form.encode, FmtJ.pack_unpack, OpJ.code, hm]

theorem reads_decode1f {w : W32} (hm : (bits w 26 6).toNat = 0x1f) : Reads w (decode1f w) := by
  unfold decode1f
  split <;> simp [Form.encode, FmtR.pack_unpack, OpR.code, *]

theorem reads_decode20 {w : W32} (hm : (bits w 26 6).toNat = 0x20) : Reads w (decode20 w) := by
  unfold decode20
  split <;> simp only [reads_error, reads_zeros] <;> intros <;>
    simp [Form.encode, FmtSC.pack_unpack, OpSC.code, *]

theorem reads_decode21 {w : W32} (hm : (bits w 26 6).toNat = 0x21) : Reads w (decode21 w) := by
  unfold decode21
  (repeat' split) <;> simp [Form.encode, FmtS.pack_unpack, FmtOrd.pack_unpack, OpS.code, OpOrd.code, *]

theorem reads_decode22 {w : W32} (hm : (bits w 26 6).toNat = 0x22) : Reads w (decode22 w) := by
  unfold decode22
  split <;> simp only [reads_ok, reads_error, reads_zeros] <;> intros <;>
    simp [Form.encode, FmtR.pack_unpack, FmtWid.pack_unpack, OpR.code, OpWid.code, *]

theorem reads_decode23 {w : W32} (hm : (bits w 26 6).toNat = 0x23) : Reads w (decode23 w) := by
  unfold decode23
  split <;> simp only [reads_ok, reads_error, reads_zeros] <;> intros <;>
    simp [Form.encode, FmtR.pack_unpack, FmtRst.pack_unpack, FmtRsv.pack_unpack, OpR.code, OpRst.code, OpRsv.code, *]

theorem reads_decode24 {w : W32} (hm : (bits w 26 6).toNat = 0x24) : Reads w (decode24 w) := by
  unfold decode24
  split <;> simp [Form.encode, FmtS.pack_unpack, OpS.code, *]

theorem reads_decode25 {w : W32} (hm : (bits w 26 6).toNat = 0x25) : Reads w (decode25 w) := by
  unfold decode25
  split <;> simp only [reads_ok, reads_error, reads_zeros] <;> intros <;>
    simp [Form.encode, FmtS.pack_unpack, FmtFence.pack_unpack, FmtQf.pack_unpack, OpS.code, OpFence.code, *]

theorem reads_decode26 {w : W32} (hm : (bits w 26 6).toNat = 0x26) : Reads w (decode26 w) := by
  unfold decode26
  split <;> simp [Form.encode, FmtV.pack_unpack, OpV.code, *]

theorem reads_decode27 {w : W32} (hm : (bits w 26 6).toNat = 0x27) : Reads w (decode27 w) := by
  unfold decode27
  split <;> simp [Form.encode, FmtV.pack_unpack, FmtVF.pack_unpack, OpV.code, OpVF.code, *]

theorem reads_decode28 {w : W32} (hm : (bits w 26 6).toNat = 0x28) : Reads w (decode28 w) := by
  unfold decode28
  split <;> simp [Form.encode, FmtVS.pack_unpack, OpVS.code, *]

theorem reads_decode29 {w : W32} (hm : (bits w 26 6).toNat = 0x29) : Reads w (decode29 w) := by
  unfold decode29 decode29Red
  (repeat' split) <;> simp [Form.encode, FmtVM.pack_unpack, FmtVG.pack_unpack, FmtVS.pack_unpack, FmtVr.pack_unpack,
    OpVM.code, OpVG.code, OpVS.code, OpVr.code, *]

theorem reads_decode2a {w : W32} (hm : (bits w 26 6).toNat = 0x2a) : Reads w (decode2a w) := by
  unfold decode2a
  split <;> simp [Form.encode, FmtV.pack_unpack, OpV.code, *]

theorem reads_decode2c {w : W32} (hm : (bits w 26 6).toNat = 0x2c) : Reads w (decode2c w) := by
  unfold decode2c
  split <;> simp only [reads_ok, reads_error, reads_zeros] <;> intros <;>
    simp [Form.encode, FmtCpw.pack_unpack, FmtEsy.pack_unpack, OpCpw.code, *]

theorem reads_decode2d {w : W32} (hm : (bits w 26 6).toNat = 0x2d) : Reads w (decode2d w) := by
  unfold decode2d
  split <;> simp [Form.encode, FmtS.pack_unpack, OpS.code, *]

theorem reads_decode2b {w : W32} (hm : (bits w 26 6).toNat = 0x2b) : Reads w (decode2b w) := by
  unfold decode2b decode2bEng0 decode2bEng1 decode2bEng2 decode2bEng3 decode2bEng4 decode2bEng5 decode2bEng6 decode2bEng7
  split
  case h_8 =>
    have he : (bits w 23 3).toNat = 7 := by
      have := (bits w 23 3).isLt
      simp only [imp_false] at *
      omega
    split <;> simp [Form.encode, FmtCop.pack_unpack, OpCop.code, *]
  all_goals split <;> simp [Form.encode, FmtCop.pack_unpack, FmtCpy.pack_unpack, OpCop.code, OpCpy.code, *]

/-- A word that is read as a form is the form's word. -/
theorem reads_decodeRaw (w : W32) : Reads w (decodeRaw w) := by
  unfold decodeRaw
  split
  · exact reads_decode01 ‹_›
  · exact reads_decode02 ‹_›
  · exact reads_decode03 ‹_›
  · exact reads_decode04 ‹_›
  · exact reads_decode05 ‹_›
  · exact reads_decode06 ‹_›
  · exact reads_decode07 ‹_›
  · exact reads_decode08 ‹_›
  · exact reads_decode09 ‹_›
  · exact reads_decode0a ‹_›
  · exact reads_decode0b ‹_›
  · exact reads_decode0c ‹_›
  · exact reads_decode0d ‹_›
  · exact reads_decode12 ‹_›
  · exact reads_decode13 ‹_›
  · exact reads_decode14 ‹_›
  · exact reads_decode15 ‹_›
  · exact reads_decode16 ‹_›
  · exact reads_decode17 ‹_›
  · exact reads_decode18 ‹_›
  · exact reads_decode19 ‹_›
  · exact reads_decode1a ‹_›
  · exact reads_decode1b ‹_›
  · exact reads_decode1c ‹_›
  · exact reads_decode1d ‹_›
  · exact reads_decode1e ‹_›
  · exact reads_decode1f ‹_›
  · exact reads_decode20 ‹_›
  · exact reads_decode21 ‹_›
  · exact reads_decode22 ‹_›
  · exact reads_decode23 ‹_›
  · exact reads_decode24 ‹_›
  · exact reads_decode25 ‹_›
  · exact reads_decode26 ‹_›
  · exact reads_decode27 ‹_›
  · exact reads_decode28 ‹_›
  · exact reads_decode29 ‹_›
  · exact reads_decode2a ‹_›
  · exact reads_decode2b ‹_›
  · exact reads_decode2c ‹_›
  · exact reads_decode2d ‹_›
  · exact reads_error

/-! ## Words and instructions -/

/-- The instruction of a form has that form. -/
theorem Form.toForm_toInstr (f : Form) : f.toInstr.toForm = some f := by
  cases f with
  | k | f20 | cvt | qf | esy | illegal => rfl
  | _ op => cases op <;> rfl

/-- An instruction that has a form is the instruction of that form. -/
theorem Instr.toInstr_toForm {i : Instr} {f : Form} (h : i.toForm = some f) : f.toInstr = i := by
  cases i <;> cases h <;> rfl

/-- The word of a form that passes its checks decodes to that form. -/
theorem decodeForm_encode {f : Form} (h : f.check = none) : decodeForm f.encode = f := by
  simp only [decodeForm, decodeWord, decodeRaw_encode h, h]

/-- A word decodes to a form that passes its checks, whose word it is, or it is illegal. -/
theorem decodeForm_cases (w : W32) :
    (decodeForm w).check = none ∧ (decodeForm w).encode = w ∨ decodeForm w = .illegal w := by
  unfold decodeForm decodeWord
  cases hd : decodeRaw w with
  | error e => exact .inr rfl
  | ok f =>
    cases hc : f.check with
    | some e => exact .inr (by simp [hc])
    | none => exact .inl (by simpa [hc] using reads_decodeRaw w f hd)

theorem encode_decodeForm (w : W32) : (decodeForm w).encode = w := by
  obtain ⟨-, h⟩ | h := decodeForm_cases w
  · exact h
  · rw [h]; rfl

/-- Settles O3: the decoder reads back every field that the encoder writes, and each row of its tables is a row of the
encoder's. -/
theorem decodeEncode : Obligations.DecodeEncode := by
  refine ⟨fun i w hwf he => ?_, fun w => ?_, fun w => ?_⟩
  · obtain ⟨f, hf, rfl⟩ := Option.map_eq_some_iff.mp he
    have hc : f.check = none := by simpa only [Instr.WellFormed, Instr.check, hf] using hwf
    rw [decode, decodeForm_encode hc, Instr.toInstr_toForm hf]
  · rw [encode, decode, Form.toForm_toInstr, Option.map_some, encode_decodeForm]
  · obtain ⟨hc, -⟩ | h := decodeForm_cases w
    · left
      rw [Instr.WellFormed, Instr.check, decode, Form.toForm_toInstr]
      exact hc
    · right
      rw [decode, h]
      rfl

/-- Settles O2: the decoder evaluates to the instruction that the spec names for each word. -/
theorem decodeWords : Obligations.DecodeWords :=
  ⟨rfl, rfl, rfl, rfl, rfl, rfl, rfl, rfl, rfl, rfl, rfl, rfl, rfl, rfl, rfl, rfl, rfl, rfl⟩

end Sys2Proof
namespace Sys2Proof.Machine
open Sys2Proof.Safety

/-! # Branches and jumps -/

/-- Four times a sign-extended displacement, as an integer (R46). -/
theorem toInt_signExtend_mul_four {n : Nat} (hn : n ≤ 62) (d : BitVec n) :
    (d.signExtend 64 * 4 : Word).toInt = 4 * d.toInt := by
  have hle := BitVec.le_two_mul_toInt (x := d)
  have hlt := BitVec.two_mul_toInt_lt (x := d)
  have hpow : (2 : Int) ^ n ≤ 2 ^ 62 := pow_le_pow_right₀ (by decide) hn
  have h4 : (4 : Word).toInt = 4 := rfl
  rw [BitVec.toInt_mul, h4, BitVec.toInt_signExtend_of_le (by omega), mul_comm]
  exact Int.bmod_eq_of_le (by omega) (by omega)

/-- A relative target of an aligned word is aligned. -/
theorem relTarget_aligned {n : Nat} {pc : Word} (d : BitVec n) (h : pc.toNat % 4 = 0) :
    (pc + d.signExtend 64 * 4).toNat % 4 = 0 := by
  have h4 : (4 : Word).toNat = 4 := rfl
  rw [BitVec.toNat_add, BitVec.toNat_mul, h4]
  omega

/-- The target of a B-format transfer lies within 14 bits of words, that of a J-format transfer within 24 (R46). -/
theorem disp_reach {n : Nat} (d : BitVec (n + 1)) : -2 ^ n ≤ d.toInt ∧ d.toInt < 2 ^ n := by
  have hle := BitVec.le_two_mul_toInt (x := d)
  have hlt := BitVec.two_mul_toInt_lt (x := d)
  omega

/-- Settles O14: each branch is `branch` of its condition, and a word offset of n bits stays within n + 2 bits of bytes. -/
theorem branchTargets : Obligations.BranchTargets := by
  refine ⟨⟨branches_of (by simp) exec_beqz, branches_of (by simp) exec_bnez, branches_of (by simp) exec_bltz,
    branches_of (by simp) exec_bgez, branches_of (by simp) exec_bgtz, branches_of (by simp) exec_blez,
    branches_of (by simp) exec_beven, branches_of (by simp) exec_bodd, fun f s s1 hr => issue_jump hr rfl rfl rfl,
    fun f s s1 hr => issue_jump hr rfl rfl rfl⟩, fun f pc => relTarget_aligned f.disp, fun f pc => relTarget_aligned f.disp,
    fun f => ?_, fun f => ?_⟩
  · obtain ⟨hlo, hhi⟩ := disp_reach f.disp
    exact ⟨toInt_signExtend_mul_four (by decide) f.disp, by omega, by omega⟩
  · obtain ⟨hlo, hhi⟩ := disp_reach f.disp
    exact ⟨toInt_signExtend_mul_four (by decide) f.disp, by omega, by omega⟩

end Sys2Proof.Machine

namespace Sys2Proof.Machine
open Sys2Proof.Safety

/-! # Engine registers -/

/-- The engine's presence check passes on a tile that has the engine. -/
theorem engChk_eq_none {s s1 : State} {h : Shape} {vals : List Word} {eng : Nat} (ha : engineAbsent s eng = false) :
    engChk eng (ctx s h vals) s1 = none := by
  cases hx : s.cur.reflex <;> simp_all [engChk, ctx, engineAbsent]

/-- It traps on a tile that has not. -/
theorem engChk_eq_trap {s s1 : State} {h : Shape} {vals : List Word} {eng : Nat} (ha : engineAbsent s eng = true) :
    engChk eng (ctx s h vals) s1 = some (.trap .engineAbsent 0 none) := by
  simp_all [engChk, ctx, engineAbsent]

/-- A staging register reads back its writable bits; the others keep their value (R289). -/
theorem State.engRegRead_engRegWrite_staging (s : State) (p : Machine.Place) {eng n m eng' : Nat} (v : Word)
    (hn : n < 0x100) (hm : m < 0x100) :
    (s.engRegWrite p eng n v).engRegRead p eng' m =
      if eng' = eng ∧ m = n then v &&& BitVec.ofNat 64 (stagingMask eng n) else s.engRegRead p eng' m := by
  have hkey : eng * 512 + n = eng' * 512 + m ↔ eng' = eng ∧ m = n := by omega
  simp only [State.engRegRead, State.engRegWrite, hn, hm, ↓reduceIte, State.bank_modBank_same, mget_mset, hkey]
  rfl

/-- Of two checks the second decides where the first passes. -/
theorem chks_pair_eq_trap {c d : Check} {x : Ctx} {s : State} {a : Act} (hc : c x s = none) (hd : d x s = some a) :
    chks [c, d] x s = some a := by simp [chks, hc, hd]

theorem chks_pair_eq_none {c d : Check} {x : Ctx} {s : State} (hc : c x s = none) (hd : d x s = none) :
    chks [c, d] x s = none := by simp [chks, hc, hd]

/-- A register that the tile lists: copw makes its checks and writes. -/
theorem exec_copw_listed {f : FmtCpw} {s : State} (hu : engUnlisted s.cur.core f.eng.toNat f.n.toNat = false) :
    exec (.copw f) s = issueChk { srcs := [isrc f.sa] } f.hold
      (chks [engChk f.eng.toNat, engPrivChk f.eng.toNat f.n.toNat])
      (fun x s => .done (s.engRegWrite x.p f.eng.toNat f.n.toNat (x.v 0)) none none) s :=
  if_neg (Bool.eq_false_iff.mp hu)

/-- A register that the tile lists: coprd makes its check and reads. -/
theorem exec_coprd_listed {f : FmtCpw} {s : State} (hu : engUnlisted s.cur.core f.eng.toNat f.n.toNat = false) :
    exec (.coprd f) s = issueChk { srcs := [], dst := some f.sa.toNat
                                   lat := if f.n.toNat < 0x100 ∨ sharedUnit s.cur.core f.eng.toNat f.n.toNat = none
                                     then .fixed 2 else .var } f.hold (engChk f.eng.toNat)
      (fun x s => .done (if f.eng.toNat = 1 ∧ 0x108 ≤ f.n.toNat ∧ f.n.toNat < 0x110
        then s.cwpJoin x.p.core (f.n.toNat - 0x108) else s) (some (s.engRegRead x.p f.eng.toNat f.n.toNat)) none) s :=
  if_neg (Bool.eq_false_iff.mp hu)

/-- Settles O38: presence, then privilege, decide whether the access is made. -/
theorem engineRegisterInstructions : Obligations.EngineRegisterInstructions := by
  refine ⟨fun f s => ⟨fun hu j hj => ?_, fun hu => ⟨fun s1 v hr => ⟨fun ha => ?_, fun ha hp => ?_, fun ha hp => ?_⟩,
    fun hr => ⟨fun ha => ?_, fun ha => ?_⟩⟩⟩, fun s p eng n m eng' v hn hm _ _ =>
    s.engRegRead_engRegWrite_staging p v hn hm⟩
  · simp only [List.mem_cons, List.not_mem_nil, or_false] at hj
    obtain rfl | rfl := hj <;> exact if_pos hu
  · rw [exec_copw_listed hu]
    exact issueChk_trap hr (by simp [chks, engChk_eq_trap ha])
  · rw [exec_copw_listed hu]
    exact issueChk_trap hr (chks_pair_eq_trap (engChk_eq_none ha) (if_pos hp))
  · rw [exec_copw_listed hu]
    exact issueChk_done hr rfl rfl (chks_pair_eq_none (engChk_eq_none ha) (if_neg (Bool.eq_false_iff.mp hp))) rfl
  · rw [exec_coprd_listed hu]
    exact issueChk_trap hr (engChk_eq_trap ha)
  · rw [exec_coprd_listed hu]
    exact issueChk_done hr rfl rfl (engChk_eq_none ha) rfl

end Sys2Proof.Machine

namespace Sys2Proof.Machine
open Sys2Proof.Safety

/-! # crd, cwr, bfset and bfrd -/

/-- Reading an operand leaves how far the instruction of the bank has come. -/
theorem State.wip_readCode (s : State) (p : Machine.Place) (c : Nat) : ((s.readCode p c).1.bank p).wip = (s.bank p).wip := by
  unfold State.readCode
  dsimp only
  (repeat' split) <;> simp

theorem State.wip_operands (p : Machine.Place) (l : List (Nat × Lit)) : ∀ (s : State) (lits : List Word),
    ((s.operands p l lits).1.bank p).wip = (s.bank p).wip := by
  induction l with
  | nil => exact fun s lits => rfl
  | cons x t ih =>
    intro s lits
    unfold State.operands
    split
    · exact ih s _
    · exact (ih _ _).trans (s.wip_readCode p _)

/-- An instruction whose operands have just been taken is not in its own middle. -/
theorem wip_of_issues {s s1 : State} {h : Shape} {vals : List Word} (hr : Issues s h s1 vals) :
    (s1.bank s.cur).wip = .none := by
  obtain ⟨hwip, -, -, -, -, -, -, -, -, -, ho⟩ := hr
  obtain ⟨m, k, hlit⟩ := s.literals_only (s.stream s.cur) h.srcs ((s.bank s.cur).pc + 4)
  unfold operandsOf at ho
  split at ho
  next heq =>
    rw [heq] at hlit
    obtain rfl : _ = { s with mmus := m, l2 := k } := hlit
    obtain rfl := congrArg Prod.fst (Option.some.inj ho)
    exact (State.wip_operands ..).trans hwip
  next => cases ho

section BankFormat
variable {b : Ctx → Nat} {v : Ctx → Word} {x : Ctx} {s : State} {n below ready : Nat} {w : Word}

/-- A write of a bank's format register begins (R233). -/
theorem bfAct_fresh (h : (s.bank x.p).wip = .none) : bfAct b v x s =
    .begun (s.modBank x.p fun k => { k with wip := .bfmt (b x) (v x) (s.clk + 128) (s.core x.p.core).ids }) := by
  simp only [bfAct, h]

/-- It waits for its time and for the operations that name the bank (R233, R284). -/
theorem bfAct_wait (h : (s.bank x.p).wip = .bfmt n w ready below)
    (hb : s.clk < ready ∨ s.bfBusy x.p.core n below = true) : bfAct b v x s = .wait .memory := by
  simp [bfAct, h, hb]

/-- Then it is made. -/
theorem bfAct_done (h : (s.bank x.p).wip = .bfmt n w ready below) (hr : ready ≤ s.clk)
    (hb : s.bfBusy x.p.core n below = false) : bfAct b v x s = .done (s.bfPut x.p.core n w) none none := by
  simp [bfAct, h, hb, Nat.not_lt.mpr hr]

end BankFormat

/-- A resumed instruction with checks waits on. -/
theorem issueChk_resume_wait {h : Shape} {hold : BitVec 2} {check : Check} {body : Ctx → State → Act} {s : State}
    (hw : (s.bank s.cur).wip.resuming = true) {c : Stall} (hb : body (ctx s h []) s = .wait c) :
    issueChk h hold check body s = .next (s.stall c) := by
  refine congrArg Host.Outcome.next ?_
  rw [issueWith_resume hw, hb]
  rfl

/-- A register that the tile lists: crd reads it. -/
theorem exec_crd_listed {f : FmtS} {s : State} (hu : crUnlisted s.cur.core f.imm.toNat = false) :
    exec (.crd f) s = issue { srcs := [], dst := some f.ra.toNat, lat := .fixed 2 } f.hold
      (fun x s => .done s (some (s.crRead x.p f.imm.toNat)) none) s :=
  if_neg (Bool.eq_false_iff.mp hu)

/-- A register that the tile lists: cwr makes its check and writes. -/
theorem exec_cwr_listed {f : FmtS} {s : State} (hu : crUnlisted s.cur.core f.imm.toNat = false) :
    exec (.cwr f) s = issueChk { srcs := [isrc f.ra] } f.hold (crPrivChk f.imm.toNat) (fun x s =>
      if 0x1c0 ≤ f.imm.toNat ∧ f.imm.toNat ≤ 0x1ff then bfAct (fun _ => f.imm.toNat - 0x1c0) (fun x => x.v 0) x s
      else .done (s.crWrite x.p f.imm.toNat (x.v 0) (s.isSuper x.p.core)) none none) s :=
  if_neg (Bool.eq_false_iff.mp hu)

/-- A bank number that the tile does not have fails the check of bfset and bfrd (R284). -/
theorem bfChk_eq_trap {x : Ctx} {s : State} (hx : Config.isX x.p.core = false) (h : 24 ≤ bfNum x) :
    bfChk x s = some (.trap .addrUnmapped 0 (some (BitVec.ofNat 64 (bfNum x)))) := by
  simp [bfChk, hx, h, w64]

theorem bfChk_eq_none {x : Ctx} {s : State} (h : Config.isX x.p.core = true ∨ bfNum x < 24) : bfChk x s = none := by
  refine if_neg ?_
  simp only [Bool.and_eq_true, Bool.not_eq_true', decide_eq_true_eq]
  rintro ⟨hx, hb⟩
  rcases h with h | h
  · simp [hx] at h
  · omega

/-- Settles O40: a write of a bank's format register is `bfAct`; every other access is made at once. -/
theorem controlRegisterInstructions : Obligations.ControlRegisterInstructions := by
  refine ⟨fun f s => ⟨fun hu j hj => ?_, fun hu => ⟨fun hr => ?_, fun s1 v hr => ⟨fun hd => ?_, fun hd =>
    ⟨fun hn => ?_, fun hn => ?_⟩⟩⟩⟩, fun f s b v ready below hw => ?_, fun f s s1 a v hr => ⟨fun hx hb => ?_, fun hb => ?_⟩,
    fun f s s1 a hr => ⟨fun hx hb => ?_, fun hb => ?_⟩⟩
  · simp only [List.mem_cons, List.not_mem_nil, or_false] at hj
    obtain rfl | rfl := hj <;> exact if_pos hu
  · rw [exec_crd_listed hu]
    exact issue_done hr rfl rfl rfl
  · rw [exec_cwr_listed hu]
    exact issueChk_trap hr (if_pos hd)
  · rw [exec_cwr_listed hu]
    exact issueChk_done hr rfl rfl (if_neg (Bool.eq_false_iff.mp hd)) (if_neg hn)
  · rw [exec_cwr_listed hu]
    exact issueChk_begun hr rfl rfl (if_neg (Bool.eq_false_iff.mp hd)) ((if_pos hn).trans (bfAct_fresh (wip_of_issues hr)))
  · have hres : (s.bank s.cur).wip.resuming = true := by rw [hw]; rfl
    refine ⟨fun hb => ⟨fun hu hlo hhi => ?_, ?_⟩, fun hr hb => ⟨fun hu hlo hhi => ?_, ?_⟩⟩
    · rw [exec_cwr_listed hu]
      exact issueChk_resume_wait hres ((if_pos ⟨hlo, hhi⟩).trans (bfAct_wait hw hb))
    · exact issueChk_resume_wait hres (bfAct_wait hw hb)
    · rw [exec_cwr_listed hu]
      exact issueChk_resume_done hres rfl rfl ((if_pos ⟨hlo, hhi⟩).trans (bfAct_done hw hr hb))
    · exact issueChk_resume_done hres rfl rfl (bfAct_done hw hr hb)
  · exact issueChk_trap hr (bfChk_eq_trap hx hb)
  · exact issueChk_begun hr rfl rfl (bfChk_eq_none hb) (bfAct_fresh (wip_of_issues hr))
  · exact issueChk_trap hr (bfChk_eq_trap hx hb)
  · exact issueChk_done hr rfl rfl (bfChk_eq_none hb) rfl

end Sys2Proof.Machine

namespace Sys2Proof.Machine
open Sys2Proof.Safety

/-! # Returns from a handler -/

section IssuedLeft
variable {s s1 s2 : State} {h : Shape} {hold : BitVec 2} {check : Check} {body : Ctx → State → Act} {vals : List Word}

/-- An instruction that passes its checks may take its continuation off the seat. -/
theorem issueChk_left (hr : Issues s h s1 vals) (hc : h.closes = false) (hk : check (ctx s h vals) s1 = none)
    (hb : body (ctx s h vals) s1 = .left s2) : issueChk h hold check body s = .next (departed s s2) := by
  refine congrArg Host.Outcome.next ?_
  rw [issueWith_ready hr rfl hc, hk, Option.getD_none, hb]
  rfl

end IssuedLeft

/-- Outside handler mode the check for it traps (R399). -/
theorem needHandler_eq_trap {x : Ctx} {s : State} (h : (s.bank x.p).handler = false) :
    needHandler x s = some (.trap .privInsn 0 none) := if_neg (Bool.eq_false_iff.mp h)

/-- In handler mode it passes. -/
theorem needHandler_eq_none {x : Ctx} {s : State} (h : (s.bank x.p).handler = true) : needHandler x s = none := if_pos h

/-- An instruction that checks for handler mode first is a handler's only. -/
theorem handlerOnly_of_needHandler {j : Instr} {h : Shape} {hold : BitVec 2} {body : Ctx → State → Act}
    (hj : ∀ s, exec j s = issueChk h hold needHandler body s) : HandlerOnly j h := fun s _ _ hr hh =>
  (hj s).trans (issueChk_trap hr (needHandler_eq_trap hh))

/-- rett.redo without a frozen scene goes back as rett does (R401). -/
theorem rettRedoAct_no_scene {x : Ctx} {s : State} (h : (s.bank x.p).tstat.getLsbD 1 = false) :
    rettRedoAct x s = .done (s.modBank x.p Bank.leaveHandler) none (some (s.bank x.p).epc) := by
  simp only [rettRedoAct, h, Bool.not_false, ↓reduceIte]

/-- With a frozen scene and no result pending it discards the scene and goes to its start (R401, R405). -/
theorem rettRedoAct_scene {x : Ctx} {s : State} (h : (s.bank x.p).tstat.getLsbD 1 = true) (hu : s.unsettled x.p = false)
    (ht : ((s.modBank x.p Bank.leaveHandler).discard x.p true true false).ended ≠ .trap) :
    rettRedoAct x s = .done ((s.modBank x.p Bank.leaveHandler).discard x.p true true false) none (some (s.bank x.p).scpc) := by
  simp [rettRedoAct, h, hu, ht]

/-- A scene with no vector command under way and no result pending is settled. -/
theorem State.unsettled_eq_false {s : State} {p : Machine.Place} (hv : s.sceneVectors p = false)
    (hp : ∀ r ∈ (s.bank p).pending, r.val.isSome = true) : s.unsettled p = false := by
  simp only [State.unsettled, hv, Bool.false_or, List.any_eq_false]
  intro r hr
  simp [Option.isSome_iff_ne_none.mp (hp r hr)]

/-- Leaving a handler clears IN. -/
theorem Bank.leaveHandler_in (b : Bank) : b.leaveHandler.tstat.getLsbD 0 = false := by
  unfold Bank.leaveHandler
  split <;> simp

/-- It puts segments 0 and 7 back as they were kept, and leaves the others. -/
theorem Bank.seg_leaveHandler {b : Bank} {g0 g7 : Seg} (hk : b.kept = some (g0, g7)) (n : Nat) :
    b.leaveHandler.seg n = if n = 7 then g7 else if n = 0 then g0 else b.seg n := by
  simp only [Bank.leaveHandler, hk, Bank.seg, mget_mset, eq_comm]

/-- Settles O44: each return is a check for handler mode and then one step that leaves it. -/
theorem trapReturns : Obligations.TrapReturns := by
  refine ⟨fun f s hr => issueChk_trap hr rfl, fun f => ⟨handlerOnly_of_needHandler fun _ => rfl,
    handlerOnly_of_needHandler fun _ => rfl, handlerOnly_of_needHandler fun _ => rfl⟩, fun f s hr hh =>
    ⟨issueChk_jump hr rfl rfl (needHandler_eq_none hh) rfl, fun h1 => ?_, fun h1 hv hp ht => ?_,
      issueChk_left hr rfl (needHandler_eq_none hh) rfl⟩, fun b => ⟨b.leaveHandler_in, fun g0 g7 hk =>
    ⟨Bank.seg_leaveHandler hk 0, Bank.seg_leaveHandler hk 7, fun n h0 h7 => ?_⟩⟩, fun w s => rfl⟩
  · exact issueChk_jump hr rfl rfl (needHandler_eq_none hh) (rettRedoAct_no_scene h1)
  · exact issueChk_jump hr rfl rfl (needHandler_eq_none hh) (rettRedoAct_scene h1 (State.unsettled_eq_false hv hp) ht)
  · rw [Bank.seg_leaveHandler hk, if_neg h7.ne, if_neg h0.ne']

end Sys2Proof.Machine

namespace Sys2Proof.Machine
open Sys2Proof.Safety

/-! # Trap entry -/

/-- A place that no tile has: its seat number does not fit the seat field of a fault message. -/
def seatNine : Machine.Place := ⟨0, 9, 0⟩

/-- The first word of the message that the newest fault of a state sent. -/
def lastFaultWord (s : State) : Option Word := s.net.getLast?.bind fun m => match m.body with | .fault a _ _ _ => some a | _ => none

/-- Its fault message names the seat modulo 8. -/
theorem lastFaultWord_seatNine :
    lastFaultWord (State.reset.trapAt seatNine .swTrap 0 none 0 1 0) = some (BitVec.ofNat 64 (2 ^ 10 + Cause.swTrap.num * 2 ^ 16)) := by
  decide

/-- Refutes O42: the statement ranges over every place, and a trap at seat 9 of core 0, which no tile has, reports seat 9 % 8
in its fault message, where the statement has the seat's number itself. -/
theorem not_trapEntry : ¬ Obligations.TrapEntry := by
  intro h
  obtain ⟨-, -, -, -, -, -, -, hhalt⟩ := h State.reset seatNine .swTrap 0 1 none 0 0
  obtain ⟨-, -, hnet⟩ := hhalt (by decide)
  have hw := lastFaultWord_seatNine
  rw [lastFaultWord, hnet] at hw
  revert hw
  decide

end Sys2Proof.Machine

namespace Sys2Proof.Machine
open Sys2Proof.Safety

/-! # Scalar integer instructions -/

/-! Counting instructions (R93). -/

/-- A count of at most 64 is determined by where the first set bit of a sequence stands. -/
theorem word_eq_firstSet_iff {bit : Nat → Bool} {c : Nat} (hc : c ≤ 64) (hlow : ∀ i, i < c → bit i = false)
    (hset : c < 64 → bit c = true) (n : Nat) :
    w64 c = BitVec.ofNat 64 n ∧ n ≤ 64 ↔ n ≤ 64 ∧ (∀ i, i < n → bit i = false) ∧ (n < 64 → bit n = true) := by
  constructor
  · rintro ⟨heq, hn⟩
    obtain rfl : c = n := by
      have h := congrArg BitVec.toNat heq
      simp only [w64, BitVec.toNat_ofNat] at h
      omega
    exact ⟨hn, hlow, hset⟩
  · rintro ⟨hn, hlow', hset'⟩
    have hle : n ≤ c := by
      by_contra hlt
      have h := hlow' c (by omega)
      rw [hset (by omega)] at h
      cases h
    have hge : c ≤ n := by
      by_contra hlt
      have h := hlow n (by omega)
      rw [hset' (by omega)] at h
      cases h
    exact ⟨by rw [Nat.le_antisymm hle hge]; rfl, hn⟩

/-- The leading zeros of a word that is not zero stand above its highest set bit. -/
theorem getMsbD_leadingZeros {a : Word} (ha : a ≠ 0) :
    (∀ i, i < 63 - Nat.log2 a.toNat → a.getMsbD i = false) ∧ a.getMsbD (63 - Nat.log2 a.toNat) = true := by
  have hne : a.toNat ≠ 0 := fun h => ha (BitVec.eq_of_toNat_eq h)
  have hlog : Nat.log2 a.toNat < 64 := (Nat.log2_lt hne).mpr a.isLt
  refine ⟨fun i hi => ?_, ?_⟩
  · have hlt : a.toNat < 2 ^ (63 - i) := (Nat.log2_lt hne).mp (by omega)
    rw [BitVec.getMsbD, show 64 - 1 - i = 63 - i from rfl, BitVec.getLsbD, Nat.testBit_lt_two_pow hlt, Bool.and_false]
  · rw [BitVec.getMsbD, show 64 - 1 - (63 - Nat.log2 a.toNat) = Nat.log2 a.toNat by omega, BitVec.getLsbD,
      Nat.testBit_log2 hne, Bool.and_true, decide_eq_true_eq]
    omega

/-- clz counts the zero bits above the highest set bit (R93). -/
theorem clz64_eq_iff (a : Word) (n : Nat) : clz64 a = BitVec.ofNat 64 n ∧ n ≤ 64 ↔
    n ≤ 64 ∧ (∀ i, i < n → a.getMsbD i = false) ∧ (n < 64 → a.getMsbD n = true) := by
  by_cases ha : a = 0
  · rw [show clz64 a = w64 64 by rw [clz64, if_pos ha]; rfl]
    exact word_eq_firstSet_iff le_rfl (fun i _ => by simp [ha]) (by omega) n
  · obtain ⟨hlow, hset⟩ := getMsbD_leadingZeros ha
    rw [clz64, if_neg ha]
    exact word_eq_firstSet_iff (by omega) hlow (fun _ => hset) n

/-- ctz counts the zero bits below the lowest set bit (R93). -/
theorem ctz64_eq_iff (a : Word) (n : Nat) : ctz64 a = BitVec.ofNat 64 n ∧ n ≤ 64 ↔
    n ≤ 64 ∧ (∀ i, i < n → a.getLsbD i = false) ∧ (n < 64 → a.getLsbD n = true) := by
  have hlen : ((List.range 64).takeWhile fun i => !a.getLsbD i).length = (List.range 64).findIdx fun i => a.getLsbD i := by
    simpa [List.takeWhile_eq_take_findIdx_not] using List.findIdx_le_length (p := fun i => a.getLsbD i) (xs := List.range 64)
  have hle := List.findIdx_le_length (p := fun i => a.getLsbD i) (xs := List.range 64)
  rw [List.length_range] at hle
  rw [ctz64, hlen]
  refine word_eq_firstSet_iff hle (fun i hi => ?_) (fun hlt => ?_) n
  · simpa using List.not_of_lt_findIdx hi
  · have h := List.findIdx_getElem (p := fun i => a.getLsbD i) (xs := List.range 64) (w := by rwa [List.length_range])
    rwa [List.getElem_range] at h

/-- popc counts the set bits (R93). -/
theorem popc64_toNat (a : Word) : (popc64 a).toNat = ((Finset.range 64).filter fun i => a.getLsbD i = true).card := by
  have hle : ((List.range 64).filter fun i => a.getLsbD i).length ≤ 64 := by
    simpa using List.length_filter_le (fun i => a.getLsbD i) (List.range 64)
  rw [popc64, w64, BitVec.toNat_ofNat, Nat.mod_eq_of_lt (by omega)]
  simp [Finset.card, Finset.filter, Finset.range, Multiset.range]

/-- Bit 8 i + j of a little-endian number is bit j of its byte i. -/
theorem leNat_testBit (bs : List Byte) (i j : Nat) (hj : j < 8) :
    (leNat bs).testBit (8 * i + j) = (bs.getD i 0).getLsbD j := by
  induction bs generalizing i with
  | nil => simp [leNat]
  | cons b t ih =>
    have hb : b.toNat < 2 ^ 8 := b.isLt
    rw [leNat, Nat.add_comm, show (256 : Nat) = 2 ^ 8 from rfl, Nat.testBit_two_pow_mul_add _ hb]
    cases i with
    | zero => simp [hj, BitVec.getLsbD]
    | succ i => rw [if_neg (by omega), show 8 * (i + 1) + j - 8 = 8 * i + j by omega, ih, List.getD_cons_succ]

/-- bswap moves byte i to byte 7 - i (R93). -/
theorem bswap64_getLsbD (a : Word) {i j : Nat} (hi : i < 8) (hj : j < 8) :
    (bswap64 a).getLsbD (8 * i + j) = a.getLsbD (8 * (7 - i) + j) := by
  have hlen : ((leBytes 8 a.toNat).reverse).length = 8 := by rw [List.length_reverse, leBytes_length]
  rw [bswap64, leWord, BitVec.getLsbD_ofNat, leNat_testBit _ _ _ hj, List.getD_eq_getElem _ _ (by omega),
    List.getElem_reverse, leBytes_getElem, BitVec.getLsbD_ofNat, leBytes_length, show 8 - 1 - i = 7 - i from rfl,
    show (256 : Nat) = 2 ^ 8 from rfl, ← Nat.pow_mul, Nat.testBit_div_two_pow, decide_eq_true hj,
    decide_eq_true (by omega : 8 * i + j < 64), Bool.true_and, Bool.true_and, Nat.add_comm j]
  rfl

/-- The top bit of a word is its sign. -/
theorem abs64_eq (a : Word) : abs64 a = if a.toInt < 0 then -a else a := by
  simp only [abs64, BitVec.msb_eq_toInt, decide_eq_true_eq]

/-! Conditions (R96, R99). -/

theorem flag_decide (p : Prop) [Decidable p] : flag (decide p) = if p then 1 else 0 := by simp [flag]

theorem flag_beq (a b : Word) : flag (a == b) = if a = b then 1 else 0 := by simp [flag]

theorem flag_bne (a b : Word) : flag (a != b) = if a ≠ b then 1 else 0 := by simp [flag]

/-! Products and quotients (R98). -/

theorem high64_mul_toNat (a b : Word) : high64 ((a.toNat : Int) * b.toNat) = BitVec.ofNat 64 (a.toNat * b.toNat / 2 ^ 64) := by
  rw [high64, wi64]
  norm_cast

theorem divU_eq (a b : Word) : divU a b = if b = 0 then BitVec.allOnes 64 else a / b := by
  rw [divU, BitVec.udiv_def]
  rfl

theorem remU_eq (a b : Word) : remU a b = if b = 0 then a else a % b := by
  rw [remU, BitVec.umod_def]
  rfl

/-! Bit fields (R97, R101). -/

/-- A field of a word, bit by bit. -/
theorem testBit_field (a off e i : Nat) :
    (a / 2 ^ off % 2 ^ e).testBit i = (decide (i < e) && a.testBit (off + i)) := by
  rw [Nat.testBit_mod_two_pow, Nat.testBit_div_two_pow, Nat.add_comm]

/-- BFXU takes the bits of its field and extends them by zeros (R101). -/
theorem bfxuVal_getLsbD (off w : Nat) (a : Word) {i : Nat} (hi : i < 64) :
    (bfxuVal off w a).getLsbD i = (decide (i < bfEff off w) && a.getLsbD (off + i)) := by
  rw [bfxuVal, w64, BitVec.getLsbD_ofNat, testBit_field]
  simp [hi, BitVec.getLsbD]

/-- A field of n bits is extended by its sign as a two's complement number of n bits. -/
theorem signExtend_ofNat {n v : Nat} (hn : 0 < n) (hv : v < 2 ^ n) :
    (BitVec.ofNat n v).signExtend 64 = if v.testBit (n - 1) then wi64 ((v : Int) - 2 ^ n) else w64 v := by
  rw [BitVec.signExtend, BitVec.toInt_eq_msb_cond, BitVec.msb_eq_getLsbD_last, BitVec.getLsbD_ofNat, BitVec.toNat_ofNat,
    Nat.mod_eq_of_lt hv, decide_eq_true (by omega : n - 1 < n), Bool.true_and]
  split
  · rw [wi64]; norm_cast
  · rw [BitVec.ofInt_natCast]; rfl

/-- BFXS takes the bits of its field and extends them by the top one; an empty field gives 0 (R101). -/
theorem bfxsVal_getLsbD (off w : Nat) (a : Word) {i : Nat} (hi : i < 64) :
    (bfxsVal off w a).getLsbD i =
      (decide (0 < bfEff off w) && a.getLsbD (off + min i (bfEff off w - 1))) := by
  unfold bfxsVal
  obtain he | he := Nat.eq_zero_or_pos (bfEff off w)
  · simp [he]
  · have hv : a.toNat / 2 ^ off % 2 ^ bfEff off w < 2 ^ bfEff off w := Nat.mod_lt _ (by positivity)
    dsimp only
    rw [if_neg (by omega), ← signExtend_ofNat he hv, BitVec.getLsbD_signExtend, decide_eq_true hi, decide_eq_true he,
      BitVec.msb_eq_getLsbD_last, BitVec.getLsbD_ofNat, BitVec.getLsbD_ofNat, testBit_field, testBit_field]
    split
    · next hlt => simp [hlt, BitVec.getLsbD, Nat.min_eq_left (by omega : i ≤ bfEff off w - 1)]
    · next hge => simp [he, BitVec.getLsbD, Nat.min_eq_right (by omega : bfEff off w - 1 ≤ i)]

/-- BFI replaces the bits of its field and keeps the others (R101). -/
theorem bfiVal_getLsbD (off w : Nat) (d a : Word) {i : Nat} (hi : i < 64) :
    (bfiVal off w d a).getLsbD i =
      if off ≤ i ∧ i < off + bfEff off w then a.getLsbD (i - off) else d.getLsbD i := by
  have hmask : (w64 ((2 ^ bfEff off w - 1) * 2 ^ off)).getLsbD i = decide (off ≤ i ∧ i < off + bfEff off w) := by
    rw [w64, BitVec.getLsbD_ofNat, Nat.testBit_mul_two_pow, Nat.testBit_two_pow_sub_one, decide_eq_true hi, Bool.true_and,
      ← Bool.decide_and]
    exact decide_eq_decide.mpr (by omega)
  have hput : (w64 (a.toNat % 2 ^ bfEff off w * 2 ^ off)).getLsbD i =
      (decide (off ≤ i) && (decide (i - off < bfEff off w) && a.getLsbD (i - off))) := by
    rw [w64, BitVec.getLsbD_ofNat, Nat.testBit_mul_two_pow, Nat.testBit_mod_two_pow, decide_eq_true hi, Bool.true_and]
    rfl
  simp only [bfiVal, BitVec.getLsbD_or, BitVec.getLsbD_and, BitVec.getLsbD_not, hmask, hput, decide_eq_true hi,
    Bool.true_and]
  split
  · next h => simp [h, show i - off < bfEff off w by omega]
  · next h => simp [h]

/-- lik puts its 16 bits at its position, and clears the others at position 0 only (R97). -/
theorem likVal_getLsbD (pos : BitVec 2) (imm : BitVec 16) (d : Word) {i : Nat} (hi : i < 64) :
    (likVal pos.toNat imm d).getLsbD i =
      if i / 16 = pos.toNat then imm.getLsbD (i % 16) else if pos = 0 then false else d.getLsbD i := by
  have hpos : pos.toNat = 0 ↔ pos = 0 := ⟨fun h => BitVec.eq_of_toNat_eq h, fun h => h ▸ rfl⟩
  by_cases hp : pos = 0
  · rw [likVal, if_pos (hpos.mpr hp), hpos.mpr hp, if_pos hp, BitVec.getLsbD_setWidth, decide_eq_true hi, Bool.true_and]
    split
    · next h => rw [Nat.mod_eq_of_lt (by omega)]
    · next h => exact BitVec.getLsbD_of_ge _ _ (by omega)
  · have hmask : (w64 (0xffff * 2 ^ (16 * pos.toNat))).getLsbD i = decide (i / 16 = pos.toNat) := by
      rw [w64, BitVec.getLsbD_ofNat, Nat.testBit_mul_two_pow, show 0xffff = 2 ^ 16 - 1 from rfl,
        Nat.testBit_two_pow_sub_one, decide_eq_true hi, Bool.true_and, ← Bool.decide_and]
      exact decide_eq_decide.mpr (by omega)
    have hput : (w64 (imm.toNat * 2 ^ (16 * pos.toNat))).getLsbD i =
        (decide (16 * pos.toNat ≤ i) && imm.getLsbD (i - 16 * pos.toNat)) := by
      rw [w64, BitVec.getLsbD_ofNat, Nat.testBit_mul_two_pow, decide_eq_true hi, Bool.true_and]
      rfl
    rw [likVal, if_neg (mt hpos.mp hp), if_neg hp, BitVec.getLsbD_or, BitVec.getLsbD_and, BitVec.getLsbD_not, hmask, hput,
      decide_eq_true hi]
    split
    · next h => simp [h, show 16 * pos.toNat ≤ i by omega, show i - 16 * pos.toNat = i % 16 by omega]
    · next h =>
      have hout : (decide (16 * pos.toNat ≤ i) && imm.getLsbD (i - 16 * pos.toNat)) = false := by
        rw [Bool.and_eq_false_iff, decide_eq_false_iff_not]
        by_cases hle : 16 * pos.toNat ≤ i
        · exact .inr (BitVec.getLsbD_of_ge _ _ (by omega))
        · exact .inl hle
      simp [h, hout]

/-! The instructions (R93-R101, R104). -/

/-- An instruction that is `int1` gives any operation with the same values. -/
theorem gives1_of_eq {j : Instr} {rd ra : BitVec 6} {hold : BitVec 2} {op op' : Word → Word} (he : ∀ a, op a = op' a)
    (h : ∀ s, exec j s = int1 rd ra hold op s) : Gives1 j rd ra hold op' := by
  obtain rfl : op = op' := funext he
  exact gives1_of h

/-- An instruction that is `int2` gives any operation with the same values. -/
theorem gives2_of_eq {mk : FmtR → Instr} {l : Nat} {op op' : Word → Word → Word} (he : ∀ a b, op a b = op' a b)
    (h : ∀ f s, exec (mk f) s = int2 f l op s) : Gives2 mk l op' := by
  obtain rfl : op = op' := funext₂ he
  exact gives2_of h

/-- Settles O11: each instruction is `int1` or `int2` of its operation, and the counts are those of its bits. -/
theorem integerResults : Obligations.IntegerResults :=
  ⟨⟨gives2_of exec_add, gives2_of exec_sub, gives2_of exec_and, gives2_of exec_or, gives2_of exec_xor, gives2_of exec_andn,
    gives2_of exec_orn, gives2_of exec_sll, gives2_of exec_srl, gives2_of exec_sra, gives2_of exec_rol, gives2_of exec_ror,
    gives2_of exec_min, gives2_of exec_max, gives2_of exec_minu, gives2_of exec_maxu, gives2_of exec_adds,
    gives2_of exec_subs, gives2_of exec_addus, gives2_of exec_subus, fun f => gives1_of (exec_clz f),
    fun f => gives1_of (exec_ctz f), fun f => gives1_of (exec_popc f), fun f => gives1_of (exec_bswap f),
    fun f => gives1_of_eq abs64_eq (exec_abs f)⟩,
    clz64_eq_iff, ctz64_eq_iff, popc64_toNat, fun a _ _ => bswap64_getLsbD a⟩

/-- The first operand value of an instruction. -/
theorem ctx_v_zero (s : State) (h : Shape) (vals : List Word) : (ctx s h vals).v 0 = vals.headD 0 := by
  cases vals <;> rfl

/-- Settles O12: each instruction is `int1`, `int2` or `int3` of its operation, and the bit fields are as R101 draws them. -/
theorem immediateResults : Obligations.ImmediateResults := by
  refine ⟨⟨fun f => gives1_of (exec_addi f), fun f => gives1_of (exec_andi f), fun f => gives1_of (exec_ori f),
    fun f => gives1_of (exec_xori f), fun f => gives1_of (exec_slli f), fun f => gives1_of (exec_srli f),
    fun f => gives1_of (exec_srai f), fun f => gives1_of (exec_rori f),
    fun f => gives1_of_eq (fun _ => flag_decide _) (exec_slti f),
    fun f => gives1_of_eq (fun _ => flag_decide _) (exec_sltiu f), fun f => gives1_of_eq (fun _ => flag_beq _ _) (exec_seqi f),
    fun f => gives1_of_eq (fun _ => flag_bne _ _) (exec_snei f), fun f s s1 vals hr => ?_⟩,
    ⟨fun f => gives1_of (exec_bfxu f), fun f => gives1_of (exec_bfxs f), fun f s s1 d a hr => issue_done hr rfl rfl rfl,
      gives2_of exec_bfxur, gives2_of exec_bfxsr, gives3_of exec_bfir⟩,
    fun off w i d a hi => ⟨bfxuVal_getLsbD off w a hi, bfxsVal_getLsbD off w a hi, bfiVal_getLsbD off w d a hi⟩⟩
  refine ⟨_, issue_done hr rfl rfl rfl, fun i hi => ?_⟩
  rw [ctx_v_zero]
  exact likVal_getLsbD f.pos f.imm _ hi

/-- Settles O13: each instruction is `int2` or `int3` of its operation, with its latency. -/
theorem multiplyCompareResults : Obligations.MultiplyCompareResults :=
  ⟨⟨gives2_of exec_mul, gives2_of exec_mulh,
    gives2_of_eq high64_mul_toNat exec_mulhu, gives2_of exec_mulhsu,
    gives2_of exec_div, gives2_of_eq divU_eq exec_divu, gives2_of exec_rem, gives2_of_eq remU_eq exec_remu⟩,
    gives2_of_eq flag_beq exec_cmpeq, gives2_of_eq flag_bne exec_cmpne, gives2_of_eq (fun _ _ => flag_decide _) exec_cmplt,
    gives2_of_eq (fun _ _ => flag_decide _) exec_cmpge, gives2_of_eq (fun _ _ => flag_decide _) exec_cmpltu,
    gives2_of_eq (fun _ _ => flag_decide _) exec_cmpgeu, gives3_of exec_csel, gives3_of exec_cmovz, gives3_of exec_cmovnz⟩

end Sys2Proof.Machine

namespace Sys2Proof.Machine
open Sys2Proof.Safety

/-! # Register jumps -/

section JumpReg
variable {t : Word} {link : Option Word} {x : Ctx} {s : State}

/-- A register jump goes to an aligned target, and a follower goes to any (R111, R200). -/
theorem jumpReg_done (h : t.toNat % 4 = 0 ∨ s.follower x.p = true) : jumpReg t link x s = .done s link (some t) := by
  refine if_neg ?_
  rintro ⟨hmis, hlead⟩
  obtain ha | hf := h
  · exact hmis ha
  · rw [hlead] at hf
    cases hf

/-- A register jump of a seat that follows no leader to a misaligned target traps (R111). -/
theorem jumpReg_misaligned (hmis : t.toNat % 4 ≠ 0) (hlead : s.follower x.p = false) :
    jumpReg t link x s = .trap .misaligned 0 (some t) :=
  if_pos ⟨hmis, hlead⟩

end JumpReg

/-- Settles O15: each instruction is a `jumpReg`; ret reads its register itself and has no operands to pop. -/
theorem jumpRegisterResults : Obligations.JumpRegisterResults := by
  refine ⟨fun f s s1 a hr => ⟨fun ht => issue_jump hr rfl rfl (jumpReg_done ht),
      fun hmis hlead => issue_trap hr rfl (jumpReg_misaligned hmis hlead)⟩,
    fun f s s1 a hr => ⟨fun ht => issue_jump hr rfl rfl (jumpReg_done ht),
      fun hmis hlead => issue_trap hr rfl (jumpReg_misaligned hmis hlead)⟩, fun f s s1 hr => ?_⟩
  obtain ⟨rfl, -⟩ := issues_nil hr rfl
  exact ⟨fun ht => issue_jump hr rfl rfl (jumpReg_done ht),
    fun hmis hlead => issue_trap hr rfl (jumpReg_misaligned hmis hlead)⟩

end Sys2Proof.Machine

namespace Sys2Proof.Machine
open Sys2Proof.Safety

/-! # Loads and stores -/

section Access
variable {h : Shape} {hold : BitVec 2} {s s1 s2 : State} {vals : List Word} {seg sz : Nat} {ks : List Nat}
  {page : Option (Nat × Nat × Bool)}

/-- A load at an offset of its operand values retires with the bytes of its location, once nothing holds it back. -/
theorem load_retires {sx : Bool} (off : List Word → Word) (hr : Issues s h s1 vals) (hne : vals.isEmpty = false)
    (hc : h.closes = false) (ho : h.opens = none) (hfree : Free s seg (off vals) (2 ^ sz) true false)
    (hl : s1.locate s.cur seg (off vals).toNat (2 ^ sz) (2 ^ sz) true false false = (s2, .ok ks page))
    (hv : s2.heldBack s.cur ks = false) (hb : s2.bad ks = false) :
    issueWait h hold (loadWaits seg off sz) (fun _ _ => none) (fun x s => loadAct seg (off x.vals) sz sx x s) s =
      .next (retired s h vals hold (s2.seatBytes s.cur page ks).1 (some (loadVal sx (s2.seatBytes s.cur page ks).2))
        (succ s h)) := by
  have hw : loadWaits seg off sz (asks s h vals) s = none := by
    simpa [loadWaits, knowing, asks, ctx, hne, Free] using hfree
  exact issueWait_done hr hw hc ho rfl (loadAct_ok hl hv hb)

/-- A store at an offset of its operand values retires, performed or buffered, once nothing holds it back. -/
theorem store_retires (off val : List Word → Word) (hr : Issues s h s1 vals) (hne : vals.isEmpty = false)
    (hc : h.closes = false) (ho : h.opens = none) (hfree : Free s seg (off vals) (2 ^ sz) false true)
    (hl : s1.locate s.cur seg (off vals).toNat (2 ^ sz) (2 ^ sz) false true false = (s2, .ok ks page))
    (hv : s2.heldBack s.cur ks = false) :
    issueWait h hold (storeWaits seg off sz) (fun x s => storeChk seg (off x.vals) sz x s)
        (fun x s => storeAct seg (off x.vals) sz (val x.vals) x s) s =
      .next (passed s h vals hold (s2.seatStore s.cur page (ks.zip (leBytes (2 ^ sz) (val vals).toNat)))) := by
  have hw : storeWaits seg off sz (asks s h vals) s = none := by
    simpa [storeWaits, knowing, asks, ctx, hne, Free] using hfree
  refine issueWait_done hr hw hc ho ?_ ?_
  · exact storeChk_ok hl hv
  · exact storeAct_ok hl hv

end Access

/-- Settles O20: each load and store works at its own offset of its operand values. -/
theorem loadStoreResults : Obligations.LoadStoreResults :=
  ⟨⟨fun f _ _ _ _ _ _ hr hfree hl hv hb =>
      load_retires (fun v => v.getD 0 0 + dispM f) hr rfl rfl rfl hfree hl hv hb,
    fun f _ _ _ _ _ _ _ hr hfree hl hv hb =>
      ⟨load_retires (fun v => offX f (v.getD 0 0) (v.getD 1 0)) hr rfl rfl rfl hfree hl hv hb,
        load_retires (fun v => offX f (v.getD 0 0) (v.getD 1 0)) hr rfl rfl rfl hfree hl hv hb⟩⟩,
    fun f _ _ _ _ _ _ _ hr hfree hl hv =>
      store_retires (fun v => v.getD 1 0 + dispM f) (·.getD 0 0) hr rfl rfl rfl hfree hl hv,
    fun f _ _ _ _ _ _ _ _ hr hfree hl hv =>
      store_retires (fun v => offX f (v.getD 1 0) (v.getD 2 0)) (·.getD 0 0) hr rfl rfl rfl hfree hl hv⟩

end Sys2Proof.Machine

namespace Sys2Proof.Machine
open Sys2Proof.Safety

/-! # Frames of memory instructions -/

/-- After reset, but that seat 0 of core 0 runs with a global segment 0 over a page whose first counted access posts a
notification (R247), and that the page of the notification ring at 0x40_0000 has moved to 0x80_0000 (R248). -/
def movedRing : State :=
  { State.reset with
    cur := ⟨0, 0, 0⟩
    crs := [(0x18a, 0x40_0000), (0x18b, 4), (0x18e, 1)]
    mmus := [(0, ⟨[⟨0, 0, none, 0xf⟩], [], []⟩)]
    moves := [(0, ⟨0x40_0000, 0x80_0000, 1, 2, [], false⟩)]
    banks := [(0, { Bank.reset 0 with run := .running, segs := [(0, ⟨0, 0x1000, 0xb⟩)] })] }

/-- A load there completes, and the first byte of its notification stands in the page that the ring has moved to. -/
theorem exec_ld_movedRing : ∃ t, exec (.ld ⟨8, 0, 0, 3, 0, 0, 0⟩) movedRing = .next t ∧ t.ended = .done ∧
    memRead t.mem 0x80_0000 = 1 :=
  ⟨_, rfl, rfl, rfl⟩

/-- The registers of a die other than 0 stand as after reset. -/
theorem crGlob_movedRing {d n : Nat} (hd : d ≠ 0) (hn : n < 1024) : movedRing.crGlob d n = crResetGlob n := by
  simp only [State.crGlob, movedRing, mget, mfind]
  rw [if_neg (by omega), if_neg (by omega), if_neg (by omega)]
  rfl

/-- Die 0's ring has not reached the address, and that of another die, which software has not placed, has one record at 0. -/
theorem not_inRing_movedRing : ¬ InRing movedRing 0x80_0000 := by
  rintro ⟨d, -, hend⟩
  by_cases hd : d = 0
  · subst hd
    exact absurd hend (by decide)
  · rw [State.mnqLen, crGlob_movedRing hd (by decide), crGlob_movedRing hd (by decide)] at hend
    exact absurd hend (by decide)

/-- Refutes O9: R248 redirects the notification that a load posts when the page of the ring has moved, so that a load
writes outside the ring of R246; the frame lets it write inside the ring only. -/
theorem not_memoryFrames : ¬ Obligations.MemoryFrames := by
  intro h
  obtain ⟨hld, -⟩ := h
  obtain ⟨t, hexec, hdone, hbyte⟩ := exec_ld_movedRing
  obtain ⟨-, -, hmem, -⟩ := hld ⟨8, 0, 0, 3, 0, 0, 0⟩ movedRing t rfl hexec hdone
  have hposted : ¬ InPosted movedRing 0x80_0000 := by
    rintro ⟨w, hw, -⟩
    cases hw
  have hsame : (1 : Byte) = memRead movedRing.mem 0x80_0000 := hbyte.symm.trans (hmem _ not_inRing_movedRing hposted)
  exact absurd hsame (by decide)

end Sys2Proof.Machine

namespace Sys2Proof.Machine
open Sys2Proof.Safety

/-! # Scalar float instructions -/

/-- A float compare gives the truth of its relation (R123). -/
theorem givesCode_of_cmp {mk : FmtFT → Instr} {rel : FV → FV → Bool} {op : Ieee → Nat → Nat → Nat}
    (h : ∀ f s, exec (mk f) s = fltCmp f rel s) (ho : ∀ F a b, b2n (rel (F.decode a) (F.decode b)) = op F a b) :
    GivesCode mk op := by
  obtain rfl := funext₃ ho
  exact givesCode_of h

/-- Settles O16: each instruction is `flt2`, `flt3`, `fltC` or `fltC3` of its operation; fsqrt, fldc and fli retire with a
result of their own. -/
theorem floatResults : Obligations.FloatResults :=
  ⟨⟨givesF2_of exec_fadd, givesF2_of exec_fsub, givesF2_of exec_fmul, givesF2_of exec_fdiv,
    fun _ _ _ _ hr => issue_done hr rfl rfl rfl,
    givesF3_of exec_fmadd, givesF3_of exec_fmsub, givesF3_of exec_fnmsub, givesF3_of exec_fnmadd⟩,
    givesC2_of exec_faddc, givesC2_of exec_fsubc, givesC2_of exec_frsubc, givesC2_of exec_fmulc,
    givesC3_of exec_fmulac, givesC3_of exec_fmacc, fun _ _ _ hr => issue_done hr rfl rfl rfl,
    fun _ _ _ hr => issue_done hr rfl rfl rfl⟩

/-! Conversions (R81, R120-R122). -/

section Conversion
variable {s : State} {p : Machine.Place} {h : Shape} {note : BitVec 32} {v : Word}

/-- Outside a scene, a conversion that pops notes its value as its result arrives (R81, R191). -/
theorem State.cvtPut_late (d : BitVec 6) (hl : h.pops = true ∧ (s.bank p).openScene = none) :
    s.cvtPut p h d.toNat note v = (s.putVar p h (if d = 0 then 64 else d.toNat) v note, none) := by
  have hd : d.toNat = 0 ↔ d = 0 := BitVec.toNat_inj (y := 0)
  simp only [State.cvtPut, hl.1, hl.2, Option.isNone_none, Bool.and_self, ↓reduceIte, hd]

/-- Every other conversion notes it with its result, in the open scene or in flight (R81). -/
theorem State.cvtPut_with_result (d : Nat) (hl : ¬ (h.pops = true ∧ (s.bank p).openScene = none)) :
    s.cvtPut p h d note v = (s.modBank p fun b => b.note note 2, some v) :=
  if_neg (by simpa using hl)

end Conversion

/-- The work of an instruction that answers a state and a result. -/
theorem done_congr {q : State × Option Word} {s : State} {v : Option Word} (hq : q = (s, v)) :
    Act.done q.1 q.2 none = .done s v none := by rw [hq]

/-- Settles O17: the instructions on encodings are `fltCode` of their operation; a conversion retires with what `cvtPut`
answers, when it notes its value, and with its result alone otherwise. -/
theorem floatCodeResults : Obligations.FloatCodeResults := by
  refine ⟨⟨givesCode_of exec_fmin, givesCode_of exec_fmax, givesCode_of exec_fsgnj, givesCode_of exec_fsgnjn,
    givesCode_of exec_fsgnjx, fun _ _ _ _ hr => issue_done hr rfl rfl rfl, givesCode_of_cmp exec_feq fun _ _ _ => rfl,
    givesCode_of_cmp exec_fne fun F a b => ?_, givesCode_of_cmp exec_flt fun _ _ _ => rfl,
    givesCode_of_cmp exec_fle fun F a b => ?_, givesCode_of_cmp exec_funord fun F a b => ?_⟩,
    fun f s s1 a cc hr => ⟨fun hn => ?_, fun hn hl => ?_, fun hn hl => ?_⟩⟩
  · cases (F.decode a).eq (F.decode b) <;> rfl
  · simp only [b2n, Bool.or_eq_true]
  · simp only [b2n, Bool.or_eq_true]
  · exact issue_done hr rfl rfl (done_congr (if_neg (Bool.eq_false_iff.mp hn)))
  · exact issue_done hr rfl rfl (done_congr ((if_pos hn).trans (State.cvtPut_with_result _ hl)))
  · exact issue_done hr rfl rfl (done_congr ((if_pos hn).trans (State.cvtPut_late _ hl)))

end Sys2Proof.Machine

namespace Sys2Proof.Machine
open Sys2Proof.Safety

/-! # Scene instructions -/

/-! The commit of a scene (R129). -/

/-- Outside handler mode the open scene is the scene of the bank (R395). -/
theorem Bank.openScene_of_not_handler {b : Bank} (h : b.handler = false) : b.openScene = b.scene :=
  if_neg (Bool.eq_false_iff.mp h)

/-- An open scene is the scene of its bank. -/
theorem Bank.scene_of_openScene {b : Bank} {sc : Scene} (h : b.openScene = some sc) : b.scene = some sc := by
  unfold Bank.openScene at h
  split at h
  · cases h
  · exact h

/-- The end of a commit closes the scene. -/
theorem State.scene_of_commitRest {s t : State} {p : Machine.Place} {sc : Scene} {es : List Entry}
    (h : s.commitRest p sc es = .done t) : (t.bank p).scene = none := by
  unfold State.commitRest at h
  split at h
  · cases h
  · obtain rfl := Commit.done.inj h
    rw [State.bank_modBank_same]

/-- A commit that cannot start is not done. -/
theorem State.commitWait_ne_done (s t : State) (p : Machine.Place) (c : Stall) : s.commitWait p c ≠ .done t := by
  unfold State.commitWait
  split <;> exact nofun

/-- After a commit outside handler mode the bank has no scene. -/
theorem State.scene_of_commit {s t : State} {p : Machine.Place} (hh : (s.bank p).handler = false)
    (h : s.commit p = .done t) : (t.bank p).scene = none := by
  unfold State.commit at h
  split at h
  · next ho =>
    obtain rfl := Commit.done.inj h
    rwa [Bank.openScene_of_not_handler hh] at ho
  split at h
  · exact State.scene_of_commitRest h
  split at h
  · exact absurd h (State.commitWait_ne_done _ _ _ _)
  split at h
  · exact absurd h (State.commitWait_ne_done _ _ _ _)
  dsimp only at h
  split at h
  · exact absurd h (State.commitWait_ne_done _ _ _ _)
  split at h
  · split at h
    · exact absurd h (State.commitWait_ne_done _ _ _ _)
    · cases h
  · exact State.scene_of_commitRest h

/-- A scene-closing instruction has committed only when its commit is done. -/
theorem State.commit_of_closeScene {s0 s t : State} {p : Machine.Place} (h : s0.closeScene s p = .done t) :
    s.commit p = .done t := by
  unfold State.closeScene at h
  split at h
  · split at h <;> cases h
  · cases h
  · exact h

/-- After the commit of a scene-closing instruction that reserves nothing, the bank has no scene. -/
theorem scene_of_committed {s s1 s2 : State} {h : Shape} {vals : List Word} (hk : h.keep (ctx s h vals) s1 = s1)
    (hh : (s1.bank s.cur).handler = false) (hc : committed s h vals s1 = some s2) : (s2.bank s.cur).scene = none := by
  rw [committed, hk] at hc
  split at hc
  · cases hc
  split at hc
  · next hdone =>
    obtain rfl := Option.some.inj hc
    exact State.scene_of_commit hh (State.commit_of_closeScene hdone)
  · cases hc

/-! The retirement of an instruction that names no registers. -/

/-- It notes nothing in the open scene. -/
theorem Bank.noteWritten_eq_self {b : Bank} {h : Shape} (hd : h.dst = none) (hr : h.vr = []) (hv : h.vd = none) :
    b.noteWritten h = b := by
  unfold Bank.noteWritten
  split
  · rfl
  · next sc ho => simp [Scene.vreadAfter, hd, hr, hv, ← Bank.scene_of_openScene ho]

/-- It cancels no write in flight. -/
theorem Bank.cancel_eq_self {b : Bank} {h : Shape} (hd : h.dst = none) : b.cancel h = b := by
  unfold Bank.cancel
  rw [hd]
  cases h.latency <;> rfl

/-- It puts no result on its way. -/
theorem State.putResult_eq_self {s : State} {p : Machine.Place} {h : Shape} {v : Option Word} (hd : h.dst = none) :
    s.putResult p h v = s := by
  unfold State.putResult
  rw [hd]

@[simp] theorem State.bank_countInsn (s : State) (p q : Machine.Place) (slot : Nat) (w : W32) :
    (s.countInsn p slot w).bank q = s.bank q := rfl

/-- The registers of a bank that opening a scene sets (R125). -/
def Bank.sceneRegs (b : Bank) : Option Scene × Word × BitVec 8 × BitVec 18 := (b.scene, b.scpc, b.reprise, b.scws)

/-- Opening a scene sets them (R125). -/
theorem Bank.sceneRegs_openAt (b : Bank) (form : Nat) (mask : BitVec 15) (pc : Word) :
    (b.openAt form mask pc).sceneRegs =
      (some (Scene.fresh form mask), pc, 0, BitVec.ofNat 18 (form * 2 ^ 15 + mask.toNat)) := rfl

/-- The writes that are due leave them. -/
theorem State.sceneRegs_retireDue (s : State) (p : Machine.Place) :
    ((s.retireDue p).bank p).sceneRegs = (s.bank p).sceneRegs := by
  obtain ⟨regs, amax, hown⟩ := (s.retireDue_regs p).own
  rw [hown, State.bank_modBank_same]
  rfl

/-- The retirement of an instruction that names no registers leaves them. -/
theorem State.sceneRegs_finish {s : State} {x : Ctx} {h : Shape} {hold : BitVec 2} {v : Option Word} {pc : Word}
    (hd : h.dst = none) (hr : h.vr = []) (hv : h.vd = none) :
    ((s.finish x h hold v pc).bank x.p).sceneRegs = (s.bank x.p).sceneRegs := by
  refine (State.sceneRegs_retireDue _ x.p).trans ?_
  simp only [State.bank_countInsn, State.bank_modBank_same, State.putResult_eq_self hd, Bank.cancel_eq_self hd,
    Bank.noteWritten_eq_self hd hr hv]
  rfl

section Retirement
variable {s s2 : State} {h : Shape} {vals : List Word} {hold : BitVec 2} (hd : h.dst = none) (hr : h.vr = [])
  (hv : h.vd = none)
include hd hr hv

/-- An instruction that opens a scene has opened it at its successor (R125). -/
theorem passed_opens {form : Nat} {mask : BitVec 15} (ho : h.opens = some (some (form, mask))) :
    let b := (passed s h vals hold s2).bank s.cur
    b.scene = some (Scene.fresh form mask) ∧ b.scpc = succ s h ∧ b.reprise = 0 ∧
      b.scws = BitVec.ofNat 18 (form * 2 ^ 15 + mask.toNat) := by
  simp only [← Prod.mk.injEq]
  refine (State.sceneRegs_finish (x := ctx s h vals) hd hr hv).trans ?_
  rw [reopens, ho, Option.getD_some]
  exact (congrArg Bank.sceneRegs (State.bank_modBank_same ..)).trans (Bank.sceneRegs_openAt ..)

/-- An instruction that opens none leaves its bank with the scene that its work left there. -/
theorem scene_passed_opens_none (ho : h.opens = some none) :
    ((passed s h vals hold s2).bank s.cur).scene = (s2.bank s.cur).scene := by
  have hregs : ((passed s h vals hold s2).bank s.cur).sceneRegs = (s2.bank s.cur).sceneRegs := by
    refine (State.sceneRegs_finish (x := ctx s h vals) hd hr hv).trans ?_
    rw [reopens, ho, Option.getD_some]
    rfl
  exact congrArg Prod.fst hregs

end Retirement

/-! The instructions (R124, R125, R131). -/

/-- In handler mode the check against it traps (R395). -/
theorem noHandler_eq_trap {x : Ctx} {s : State} (h : (s.bank x.p).handler = true) :
    noHandler x s = some (.trap .privInsn 0 none) := if_pos h

/-- Outside it passes. -/
theorem noHandler_eq_none {x : Ctx} {s : State} (h : (s.bank x.p).handler = false) : noHandler x s = none :=
  if_neg (Bool.eq_false_iff.mp h)

/-- An instruction that checks for handler mode and then only closes the scene commits it, or traps in handler mode (R129,
R395). -/
theorem exec_sceneClosing {j : Instr} {h : Shape} {hold : BitVec 2}
    (hj : ∀ s, exec j s = issueChk h hold noHandler (fun _ s => .done s none none) s) (hs : h.srcs = [])
    (hc : h.closes = true) {s s1 s2 : State} (hr : Issues s h s1 []) :
    ((s.bank s.cur).handler = false → committed s h [] s1 = some s2 → exec j s = .next (passed s h [] hold s2)) ∧
    ((s.bank s.cur).handler = true → exec j s = .next (trapped s h .privInsn 0 none)) := by
  obtain ⟨rfl, -⟩ := issues_nil hr hs
  rw [hj]
  exact ⟨fun hh hcm => issueChk_closing hr hc (noHandler_eq_none hh) hcm rfl,
    fun hh => issueChk_trap hr (noHandler_eq_trap hh)⟩

/-- Without an open scene redo does nothing (R131). -/
theorem redoAct_no_scene {x : Ctx} {s : State} (h : (s.bank x.p).openScene = none) : redoAct x s = .done s none none :=
  if_pos (by rw [h]; rfl)

/-- In a settled scene redo discards it and goes to its start (R131). -/
theorem redoAct_scene {x : Ctx} {s : State} {sc : Scene} (h : (s.bank x.p).openScene = some sc)
    (hu : s.unsettled x.p = false) (ht : (s.discard x.p true true false).ended ≠ .trap) :
    redoAct x s = .done (s.discard x.p true true false) none (some (s.bank x.p).scpc) := by
  simp [redoAct, h, hu, ht]

/-- Settles O18: the scene that a scene-closing instruction opens is not changed as it retires, and the commit leaves none
where it opens none; redo discards once the scene is settled. -/
theorem sceneInstructions : Obligations.SceneInstructions := by
  refine ⟨⟨fun f _ _ _ hr => exec_sceneClosing (exec_scene f) rfl rfl hr,
    fun f _ _ _ hr => exec_sceneClosing (exec_sceneChk f) rfl rfl hr,
    fun f _ _ _ hr => exec_sceneClosing (exec_commit f) rfl rfl hr⟩, fun s s1 s2 hold o hr hh hcm => ?_,
    fun f s s1 hr hh => ?_⟩
  · obtain ⟨rfl, -⟩ := issues_nil hr rfl
    cases o with
    | none => exact (scene_passed_opens_none rfl rfl rfl rfl).trans (scene_of_committed rfl hh hcm)
    | some fm => exact passed_opens rfl rfl rfl rfl
  · obtain ⟨rfl, -⟩ := issues_nil hr rfl
    have ho := Bank.openScene_of_not_handler hh
    refine ⟨fun hsc => ?_, fun sc hsc hv hp ht => ?_⟩
    · exact issueChk_done hr rfl rfl (noHandler_eq_none hh) (redoAct_no_scene (ho.trans hsc))
    · exact issueChk_jump hr rfl rfl (noHandler_eq_none hh)
        (redoAct_scene (ho.trans hsc) (State.unsettled_eq_false hv hp) ht)

end Sys2Proof.Machine

namespace Sys2Proof.Machine
open Sys2Proof.Safety

/-! # Remote stores -/

/-! What the operand read of an instruction leaves (R17, R172). -/

/-- `t` is `s` after pops by the bank `p`: of its own bank only the cursors of an open scene have changed. -/
structure Popped (p : Machine.Place) (s t : State) : Prop where
  rest : ∃ bs ss, t = { s with banks := bs, seats := ss }
  own : ∃ sc, t.bank p = { s.bank p with scene := sc } ∧ sc.isSome = (s.bank p).scene.isSome

theorem Popped.refl (p : Machine.Place) (s : State) : Popped p s s := ⟨⟨_, _, rfl⟩, _, rfl, rfl⟩

theorem Popped.trans {p : Machine.Place} {s t u : State} (a : Popped p s t) (b : Popped p t u) : Popped p s u := by
  obtain ⟨⟨bs, ss, rfl⟩, sc, hown, hsome⟩ := a
  obtain ⟨⟨bs', ss', rfl⟩, sc', hown', hsome'⟩ := b
  refine ⟨⟨bs', ss', rfl⟩, sc', by rw [hown', hown], ?_⟩
  rw [hsome', hown]
  exact hsome

/-- The pop of a queue entry outside a scene. -/
theorem Popped.modSeat (p : Machine.Place) (s : State) (c i : Nat) (f : Seat → Seat) : Popped p s (s.modSeat c i f) :=
  ⟨⟨_, _, rfl⟩, _, rfl, rfl⟩

/-- A pop in an open scene. -/
theorem Popped.modScene {p : Machine.Place} {s : State} {sc : Scene} (sc' : Scene) (h : (s.bank p).openScene = some sc) :
    Popped p s (s.modBank p fun b => { b with scene := some sc' }) :=
  ⟨⟨_, _, rfl⟩, some sc', State.bank_modBank_same .., by rw [Bank.scene_of_openScene h]; rfl⟩

theorem State.readCode_popped (s : State) (p : Machine.Place) (c : Nat) : Popped p s (s.readCode p c).1 := by
  unfold State.readCode
  dsimp only
  split
  · split
    next ho => exact .modScene _ ho
    next =>
      dsimp only
      exact .modSeat ..
  · split
    next ho => exact .modScene _ ho
    next =>
      dsimp only
      exact .modSeat ..
  · exact .refl p s

theorem State.operands_popped (p : Machine.Place) (l : List (Nat × Lit)) : ∀ (s : State) (lits : List Word),
    Popped p s (s.operands p l lits).1 := by
  induction l with
  | nil => exact fun s lits => .refl p s
  | cons x t ih =>
    intro s lits
    unfold State.operands
    split
    · exact ih s _
    · exact (s.readCode_popped p _).trans (ih _ _)

section Issue
variable {s s1 s2 : State} {h : Shape} {vals : List Word} {hold : BitVec 2} {waits : Waits} {check : Check}
  {body : Ctx → State → Act}

/-- The operand read fetches literal words and pops. -/
theorem popped_of_issues (hr : Issues s h s1 vals) : ∃ m k, Popped s.cur { s with mmus := m, l2 := k } s1 := by
  obtain ⟨-, -, -, -, -, -, -, -, -, -, ho⟩ := hr
  obtain ⟨m, k, hlit⟩ := s.literals_only (s.stream s.cur) h.srcs ((s.bank s.cur).pc + 4)
  refine ⟨m, k, ?_⟩
  unfold operandsOf at ho
  split at ho
  next heq =>
    rw [heq] at hlit
    obtain rfl : _ = { s with mmus := m, l2 := k } := hlit
    obtain rfl := congrArg Prod.fst (Option.some.inj ho)
    exact State.operands_popped ..
  next => cases ho

theorem meshStop_of_issues (hr : Issues s h s1 vals) : s1.meshStop = s.meshStop := by
  obtain ⟨m, k, ⟨bs, ss, rfl⟩, -⟩ := popped_of_issues hr
  rfl

theorem core_of_issues (hr : Issues s h s1 vals) (c : Nat) : s1.core c = s.core c := by
  obtain ⟨m, k, ⟨bs, ss, rfl⟩, -⟩ := popped_of_issues hr
  rfl

theorem handler_of_issues (hr : Issues s h s1 vals) : (s1.bank s.cur).handler = (s.bank s.cur).handler := by
  obtain ⟨m, k, -, sc, hown, -⟩ := popped_of_issues hr
  rw [hown]
  rfl

theorem openScene_isSome_of_issues (hr : Issues s h s1 vals) :
    (s1.bank s.cur).openScene.isSome = (s.bank s.cur).openScene.isSome := by
  obtain ⟨m, k, -, sc, hown, hsome⟩ := popped_of_issues hr
  unfold Bank.openScene
  rw [handler_of_issues hr]
  split
  · rfl
  · rw [hown]
    exact hsome

/-! More ways in which an instruction ends. -/

/-- A ready instruction whose work waits leaves the seat waiting. -/
theorem issueWith_body_wait (hr : Issues s h s1 vals) (hw : waits (asks s h vals) s = none) (hc : h.closes = false)
    (hk : check (ctx s h vals) s1 = none) {c : Stall} (hb : body (ctx s h vals) s1 = .wait c) :
    issueWith h hold waits check body s = s.stall c := by
  rw [issueWith_ready hr hw hc, hk, Option.getD_none, hb]
  rfl

/-- A ready instruction whose work begins holds the seat. -/
theorem issueWith_begun (hr : Issues s h s1 vals) (hw : waits (asks s h vals) s = none) (hc : h.closes = false)
    (ho : h.opens = none) (hk : check (ctx s h vals) s1 = none) (hb : body (ctx s h vals) s1 = .begun s2) :
    issueWith h hold waits check body s = begun s h vals s2 := by
  rw [issueWith_ready hr hw hc, hk, Option.getD_none, hb, begun, reopens_none hc ho]
  rfl

/-- A ready instruction whose message cannot enter the mesh is held back (R179). -/
theorem issueWith_mesh (hr : Issues s h s1 vals) (hw : waits (asks s h vals) s = none)
    (hk : check (ctx s h vals) s1 = some .atMesh) : issueWith h hold waits check body s = meshHeld s := by
  rw [issueWith_check hr hw hk]
  simp only [State.conclude, State.meshWait, ctx, hr.1]
  rfl

/-- A resumed instruction whose work is done has retired. -/
theorem issueWith_resume_done (hw : (s.bank s.cur).wip.resuming = true) (hc : h.closes = false) (ho : h.opens = none)
    {v : Option Word} (hb : body (ctx s h []) s = .done s2 v none) :
    issueWith h hold waits check body s = retired s h [] hold s2 v (succ s h) := by
  rw [issueWith_resume hw, hb, ← reopens_none (s := s) hc ho, conclude_done]
  rfl

/-- A resumed instruction whose work waits leaves the seat waiting. -/
theorem issueWith_resume_wait (hw : (s.bank s.cur).wip.resuming = true) {c : Stall}
    (hb : body (ctx s h []) s = .wait c) : issueWith h hold waits check body s = s.stall c := by
  rw [issueWith_resume hw, hb]
  rfl

/-! The mesh at an X-seat (R179), and the message that an instruction has handed over (R194, R281). -/

/-- A stopped mesh holds back the message of an X-seat. -/
theorem meshChk_stopped (hr : Issues s h s1 vals) (hm : meshStops s) : meshChk (ctx s h vals) s1 = some .atMesh := by
  obtain ⟨hx, hstop⟩ := hm
  rw [← meshStop_of_issues hr] at hstop
  exact if_pos (Bool.and_eq_true_iff.mpr ⟨hx, hstop⟩)

/-- It holds back no other. -/
theorem meshChk_free (hr : Issues s h s1 vals) (hm : ¬ meshStops s) : meshChk (ctx s h vals) s1 = none := by
  refine if_neg fun hand => hm ?_
  obtain ⟨hx, hstop⟩ := Bool.and_eq_true_iff.mp hand
  rw [meshStop_of_issues hr] at hstop
  exact ⟨hx, hstop⟩

end Issue

/-- The low bits of a number. -/
theorem bits_zero (v hi : Nat) : bits v hi 0 = v % 2 ^ (hi + 1) := by simp [bits]

section RemoteStore
variable {x : Ctx} {s : State} {w : Word} {al sz : Nat} {adaptive : Bool}

/-- The offset of a remote store must be a multiple of its size (R281). -/
theorem rstChk_misaligned (h : w.toNat % 2 ^ 21 % al ≠ 0) :
    rstChk al w x s = some (.trap .misaligned 0 (some (BitVec.ofNat 64 (w.toNat % 2 ^ 21)))) := by
  simp only [rstChk, bits_zero]
  exact if_pos h

/-- One that must be held finds the stage door full (R281). -/
theorem rstChk_doorFull (h : w.toNat % 2 ^ 21 % al = 0) (hheld : s.rstHeld x.p.core w = true)
    (hdoor : s.doorRoom (Config.dieOf x.p.core) = false) : rstChk al w x s = some (.trap .stageDoorFull 0 none) := by
  simp only [rstChk, bits_zero]
  exact (if_neg (not_not.mpr h)).trans (if_pos (by simp [hheld, hdoor]))

/-- Otherwise it passes. -/
theorem rstChk_none (h : w.toNat % 2 ^ 21 % al = 0)
    (hdoor : s.rstHeld x.p.core w = true → s.doorRoom (Config.dieOf x.p.core) = true) : rstChk al w x s = none := by
  simp only [rstChk, bits_zero]
  exact (if_neg (not_not.mpr h)).trans (if_neg (by simpa using hdoor))

/-- In a scene a remote store asks nothing of the mesh. -/
theorem rstMesh_scene (x : Ctx) {sc : Scene} (h : (s.bank x.p).openScene = some sc) : rstMesh x s = none := by simp [rstMesh, h]

/-- Outside one it needs the mesh at once. -/
theorem rstMesh_no_scene (x : Ctx) (h : (s.bank x.p).openScene = none) : rstMesh x s = meshChk x s := by simp [rstMesh, h]

/-- In a scene a remote store to a span that no core has bounces at once (log 33). -/
theorem rstAct_scene_off (hw : (s.bank x.p).wip = .none) {sc : Scene} (h : (s.bank x.p).openScene = some sc)
    (hoff : s.rstOff x.p.core (x.v 1) (leBytes (2 ^ sz) (x.v 0).toNat).length = true) :
    rstAct sz adaptive x s = .done (s.mailLand x.p.core x.p.num 31 (rstBounce (x.v 1) .msgBounce)) none none := by
  simp [rstAct, hw, h, hoff]

/-- In a scene any other is buffered, with its stage-door entry reserved (R281). -/
theorem rstAct_scene (hw : (s.bank x.p).wip = .none) {sc : Scene} (h : (s.bank x.p).openScene = some sc)
    (hoff : s.rstOff x.p.core (x.v 1) (leBytes (2 ^ sz) (x.v 0).toNat).length = false) :
    rstAct sz adaptive x s = .done ((if s.rstHeld x.p.core (x.v 1) then s.doorReserve (Config.dieOf x.p.core) else s).modBank
      x.p fun b => b.buffer 1 (.rst (x.v 1) (leBytes (2 ^ sz) (x.v 0).toNat) adaptive (s.rstHeld x.p.core (x.v 1)) none))
      none none := by
  simp [rstAct, hw, h, hoff]

/-- Outside a scene it is handed over while there is room for it. -/
theorem rstAct_sent (hw : (s.bank x.p).wip = .none) (h : (s.bank x.p).openScene = none)
    (hroom : s.rstRoom x.p.core (x.v 1) (leBytes (2 ^ sz) (x.v 0).toNat).length = true) :
    rstAct sz adaptive x s =
      posted x s.msgNo (s.sendRst x.p (x.v 1) (leBytes (2 ^ sz) (x.v 0).toNat) adaptive) := by
  simp [rstAct, hw, h, hroom]

/-- It waits while there is none (log 17). -/
theorem rstAct_full (hw : (s.bank x.p).wip = .none) (h : (s.bank x.p).openScene = none)
    (hroom : s.rstRoom x.p.core (x.v 1) (leBytes (2 ^ sz) (x.v 0).toNat).length = false) :
    rstAct sz adaptive x s = .wait .queue := by
  simp [rstAct, hw, h, hroom]

end RemoteStore

section Posts
variable {s s1 s2 : State} {h : Shape} {vals : List Word} {hold : BitVec 2} {waits : Waits} {check : Check}
  {body : Ctx → State → Act}

/-- An instruction whose work hands a message over retires, or holds the seat while the message waits to enter the mesh. -/
theorem issueWith_posts (hr : Issues s h s1 vals) (hw : waits (asks s h vals) s = none) (hc : h.closes = false)
    (ho : h.opens = none) (hk : check (ctx s h vals) s1 = none) {n : Nat}
    (hb : body (ctx s h vals) s1 = posted (ctx s h vals) n s2) :
    issueWith h hold waits check body s = posts s h vals hold n s2 := by
  unfold posted at hb
  split at hb
  next hin => exact (issueWith_begun hr hw hc ho hk hb).trans (if_pos hin).symm
  next hout => exact (issueWith_done (pc := none) hr hw hc ho hk hb).trans (if_neg hout).symm

end Posts

/-! rst and rst.a, of one register (R279). -/

section Rst

/-- What rst and rst.a look at. -/
def rstShape (f : FmtRst) : Shape := { srcs := [isrc f.rs, isrc f.ra], entries := 1 }

/-- The issue of rst, and of rst.a on the adaptive route. -/
def rstIssue (f : FmtRst) (adaptive : Bool) (s : State) : State :=
  issueWith (rstShape f) f.hold noWaits (fun x s => (rstChk (2 ^ f.sz.toNat) (x.v 1) x s).or (rstMesh x s))
    (rstAct f.sz.toNat adaptive) s

theorem exec_rst_issue (f : FmtRst) (s : State) : exec (.rst f) s = .next (rstIssue f false s) := rfl
theorem exec_rstA_issue (f : FmtRst) (s : State) : exec (.rstA f) s = .next (rstIssue f true s) := rfl

variable {f : FmtRst} {adaptive : Bool} {s s1 : State} {v w : Word} (hr : Issues s (rstShape f) s1 [v, w])
include hr

theorem rstIssue_misaligned (h : w.toNat % 2 ^ 21 % 2 ^ f.sz.toNat ≠ 0) : rstIssue f adaptive s =
    trapped s (rstShape f) .misaligned 0 (some (BitVec.ofNat 64 (w.toNat % 2 ^ 21))) :=
  issueWith_trap hr rfl (congrArg (Option.or · _) (rstChk_misaligned h))

variable (h : w.toNat % 2 ^ 21 % 2 ^ f.sz.toNat = 0)
include h

theorem rstIssue_doorFull (hheld : s1.rstHeld s.cur.core w = true)
    (hdoor : s1.doorRoom (Config.dieOf s.cur.core) = false) :
    rstIssue f adaptive s = trapped s (rstShape f) .stageDoorFull 0 none :=
  issueWith_trap hr rfl (congrArg (Option.or · _) (rstChk_doorFull h hheld hdoor))

variable (hdoor : s1.rstHeld s.cur.core w = true → s1.doorRoom (Config.dieOf s.cur.core) = true)
include hdoor

omit hr in
/-- A remote store that passes its own checks asks only for the mesh. -/
theorem rstIssue_check : (rstChk (2 ^ f.sz.toNat) w (ctx s (rstShape f) [v, w]) s1).or
    (rstMesh (ctx s (rstShape f) [v, w]) s1) = rstMesh (ctx s (rstShape f) [v, w]) s1 :=
  congrArg (Option.or · _) (rstChk_none h hdoor)

section NoScene
variable (hsc : (s1.bank s.cur).openScene = none)
include hsc

theorem rstIssue_mesh (hm : meshStops s) : rstIssue f adaptive s = meshHeld s :=
  issueWith_mesh hr rfl ((rstIssue_check h hdoor).trans ((rstMesh_no_scene (ctx ..) hsc).trans (meshChk_stopped hr hm)))

theorem rstIssue_sent (hm : ¬ meshStops s)
    (hroom : s1.rstRoom s.cur.core w (leBytes (2 ^ f.sz.toNat) v.toNat).length = true) :
    rstIssue f adaptive s = posts s (rstShape f) [v, w] f.hold s1.msgNo
      (s1.sendRst s.cur w (leBytes (2 ^ f.sz.toNat) v.toNat) adaptive) :=
  issueWith_posts hr rfl rfl rfl ((rstIssue_check h hdoor).trans ((rstMesh_no_scene (ctx ..) hsc).trans (meshChk_free hr hm)))
    (rstAct_sent (wip_of_issues hr) hsc hroom)

theorem rstIssue_full (hm : ¬ meshStops s)
    (hroom : s1.rstRoom s.cur.core w (leBytes (2 ^ f.sz.toNat) v.toNat).length = false) :
    rstIssue f adaptive s = s.stall .queue :=
  issueWith_body_wait hr rfl rfl ((rstIssue_check h hdoor).trans ((rstMesh_no_scene (ctx ..) hsc).trans (meshChk_free hr hm)))
    (rstAct_full (wip_of_issues hr) hsc hroom)

end NoScene

section InScene
variable {sc : Scene} (hsc : (s1.bank s.cur).openScene = some sc)
include hsc

theorem rstIssue_scene_off (hoff : s1.rstOff s.cur.core w (leBytes (2 ^ f.sz.toNat) v.toNat).length = true) :
    rstIssue f adaptive s =
      passed s (rstShape f) [v, w] f.hold (s1.mailLand s.cur.core s.cur.num 31 (rstBounce w .msgBounce)) :=
  issueWith_done (pc := none) hr rfl rfl rfl ((rstIssue_check h hdoor).trans (rstMesh_scene (ctx ..) hsc))
    (rstAct_scene_off (wip_of_issues hr) hsc hoff)

theorem rstIssue_scene (hoff : s1.rstOff s.cur.core w (leBytes (2 ^ f.sz.toNat) v.toNat).length = false) :
    rstIssue f adaptive s = passed s (rstShape f) [v, w] f.hold
      ((if s1.rstHeld s.cur.core w then s1.doorReserve (Config.dieOf s.cur.core) else s1).modBank s.cur fun b =>
        b.buffer 1 (.rst w (leBytes (2 ^ f.sz.toNat) v.toNat) adaptive (s1.rstHeld s.cur.core w) none)) :=
  issueWith_done (pc := none) hr rfl rfl rfl ((rstIssue_check h hdoor).trans (rstMesh_scene (ctx ..) hsc))
    (rstAct_scene (wip_of_issues hr) hsc hoff)

end InScene
end Rst

/-! rstv and rstv.a, of a vector register (R279). -/

section Rstv

/-- What rstv and rstv.a look at. -/
def rstvShape (f : FmtRsv) : Shape := { srcs := [isrc f.ra], vr := [f.vs.toNat], entries := 8 }

/-- The command that rstv, or rstv.a on the adaptive route, enters. -/
def rstvForm (f : FmtRsv) (adaptive : Bool) : Form := .rsv (if adaptive then .rstvA else .rstv) f

/-- The issue of rstv, and of rstv.a on the adaptive route. -/
def rstvIssue (f : FmtRsv) (adaptive : Bool) (s : State) : State :=
  issueWith (rstvShape f) f.hold vroom rstvChk (rstvAct adaptive (rstvForm f adaptive)) s

theorem exec_rstv_issue (f : FmtRsv) (adaptive : Bool) (s : State) :
    exec (if adaptive then .rstvA f else .rstv f) s = .next (rstvIssue f adaptive s) := by
  cases adaptive <;> rfl

/-- A command enters while fewer than 16 are queued (R207). -/
theorem vroom_eq_none {x : Ctx} {s : State} (h : (s.core x.p.core).vq.length < 16) : vroom x s = none := if_pos h

section Act
variable {x : Ctx} {s : State} {adaptive : Bool} {form : Form} {id : Nat} {sc : Scene}

/-- In a scene a vector register's remote store to a span that no core has bounces at once (log 33). -/
theorem rstvAct_scene_off (hw : (s.bank x.p).wip = .none) (h : (s.bank x.p).openScene = some sc)
    (hoff : s.rstOff x.p.core (x.v 0) 256 = true) : rstvAct adaptive form x s =
      .done (s.mailLand x.p.core x.p.num 31 (rstBounce (x.v 0) .msgBounce)) none none := by
  simp [rstvAct, hw, h, hoff]

/-- In a scene any other enters its command and is buffered, with its stage-door entry reserved (R281). -/
theorem rstvAct_scene (hw : (s.bank x.p).wip = .none) (h : (s.bank x.p).openScene = some sc)
    (hoff : s.rstOff x.p.core (x.v 0) 256 = false) :
    let held := s.rstHeld x.p.core (x.v 0)
    let r := (if held then s.doorReserve (Config.dieOf x.p.core) else s).venq x form (x.v 0) [] false false false
    rstvAct adaptive form x s =
      .done (r.1.modBank x.p fun b => b.buffer 8 (.rst (x.v 0) [] adaptive held (some r.2))) none none := by
  have hres : ((if s.rstHeld x.p.core (x.v 0) then s.doorReserve (Config.dieOf x.p.core) else s).bank x.p).openScene =
      some sc := by split <;> exact h
  simp only [rstvAct, hw, h, hoff, hres, Option.isSome_some, Bool.and_false, Bool.false_eq_true, ↓reduceIte]

/-- Outside a scene its command begins. -/
theorem rstvAct_begun (hw : (s.bank x.p).wip = .none) (h : (s.bank x.p).openScene = none) :
    let held := s.rstHeld x.p.core (x.v 0)
    let r := (if held then s.doorReserve (Config.dieOf x.p.core) else s).venq x form (x.v 0) [] false false held
    rstvAct adaptive form x s = .begun (r.1.modBank x.p fun b => { b with wip := .rstv r.2 }) := by
  have hres : ((if s.rstHeld x.p.core (x.v 0) then s.doorReserve (Config.dieOf x.p.core) else s).bank x.p).openScene =
      none := by split <;> exact h
  simp only [rstvAct, hw, h, hres, Option.isSome_none, Bool.false_and, Bool.false_eq_true, ↓reduceIte]

/-- It waits until the command is performed and its message has entered the mesh (R281). -/
theorem rstvAct_wait (hw : (s.bank x.p).wip = .rstv id)
    (h : ((s.core x.p.core).vq.any (·.id == id) || s.outboxOf x.p) = true) :
    rstvAct adaptive form x s = .wait .queue := by
  simp only [rstvAct, hw, h, ↓reduceIte]

theorem rstvAct_done (hw : (s.bank x.p).wip = .rstv id)
    (h : ((s.core x.p.core).vq.any (·.id == id) || s.outboxOf x.p) = false) :
    rstvAct adaptive form x s = .done s none none := by
  simp only [rstvAct, hw, h, Bool.false_eq_true, ↓reduceIte]

end Act

section Fresh
variable {f : FmtRsv} {adaptive : Bool} {s s1 : State} {w : Word} (hr : Issues s (rstvShape f) s1 [w])
  (hroom : (s.core s.cur.core).vq.length < 16)
include hr hroom

theorem rstvIssue_misaligned (h : w.toNat % 2 ^ 21 % 4 ≠ 0) : rstvIssue f adaptive s =
    trapped s (rstvShape f) .misaligned 0 (some (BitVec.ofNat 64 (w.toNat % 2 ^ 21))) :=
  issueWith_trap hr (vroom_eq_none hroom) (congrArg (Option.or · _) (rstChk_misaligned h))

variable (h : w.toNat % 2 ^ 21 % 4 = 0)
  (hdoor : s1.rstHeld s.cur.core w = true → s1.doorRoom (Config.dieOf s.cur.core) = true)
include h hdoor

omit hr hroom in
/-- A vector register's remote store that passes its own checks asks only for the mesh. -/
theorem rstvChk_eq_rstMesh : rstvChk (ctx s (rstvShape f) [w]) s1 = rstMesh (ctx s (rstvShape f) [w]) s1 :=
  congrArg (Option.or · _) (rstChk_none h hdoor)

theorem rstvIssue_mesh (hsc : (s1.bank s.cur).openScene = none) (hm : meshStops s) :
    rstvIssue f adaptive s = meshHeld s :=
  issueWith_mesh hr (vroom_eq_none hroom)
    ((rstvChk_eq_rstMesh h hdoor).trans ((rstMesh_no_scene (ctx ..) hsc).trans (meshChk_stopped hr hm)))

theorem rstvIssue_begun (hsc : (s1.bank s.cur).openScene = none) (hm : ¬ meshStops s) :
    let held := s1.rstHeld s.cur.core w
    let r := (if held then s1.doorReserve (Config.dieOf s.cur.core) else s1).venq (ctx s (rstvShape f) [w])
      (rstvForm f adaptive) w [] false false held
    rstvIssue f adaptive s =
      begun s (rstvShape f) [w] (r.1.modBank s.cur fun b => { b with wip := .rstv r.2 }) :=
  issueWith_begun hr (vroom_eq_none hroom) rfl rfl
    ((rstvChk_eq_rstMesh h hdoor).trans ((rstMesh_no_scene (ctx ..) hsc).trans (meshChk_free hr hm)))
    (rstvAct_begun (wip_of_issues hr) hsc)

variable {sc : Scene} (hsc : (s1.bank s.cur).openScene = some sc)
include hsc

theorem rstvIssue_scene_off (hoff : s1.rstOff s.cur.core w 256 = true) : rstvIssue f adaptive s =
    passed s (rstvShape f) [w] f.hold (s1.mailLand s.cur.core s.cur.num 31 (rstBounce w .msgBounce)) :=
  issueWith_done (pc := none) hr (vroom_eq_none hroom) rfl rfl
    ((rstvChk_eq_rstMesh h hdoor).trans (rstMesh_scene (ctx ..) hsc)) (rstvAct_scene_off (wip_of_issues hr) hsc hoff)

theorem rstvIssue_scene (hoff : s1.rstOff s.cur.core w 256 = false) :
    let held := s1.rstHeld s.cur.core w
    let r := (if held then s1.doorReserve (Config.dieOf s.cur.core) else s1).venq (ctx s (rstvShape f) [w])
      (rstvForm f adaptive) w [] false false false
    rstvIssue f adaptive s = passed s (rstvShape f) [w] f.hold
      (r.1.modBank s.cur fun b => b.buffer 8 (.rst w [] adaptive held (some r.2))) :=
  issueWith_done (pc := none) hr (vroom_eq_none hroom) rfl rfl
    ((rstvChk_eq_rstMesh h hdoor).trans (rstMesh_scene (ctx ..) hsc)) (rstvAct_scene (wip_of_issues hr) hsc hoff)

end Fresh

section Begun
variable {f : FmtRsv} {adaptive : Bool} {s : State} {id : Nat} (hw : (s.bank s.cur).wip = .rstv id)
include hw

theorem rstvIssue_waits (h : ((s.core s.cur.core).vq.any (·.id == id) || s.outboxOf s.cur) = true) :
    rstvIssue f adaptive s = s.stall .queue :=
  issueWith_resume_wait (by rw [hw]; rfl) (rstvAct_wait hw h)

theorem rstvIssue_over (h : ((s.core s.cur.core).vq.any (·.id == id) || s.outboxOf s.cur) = false) :
    rstvIssue f adaptive s = passed s (rstvShape f) [] f.hold s :=
  issueWith_resume_done (by rw [hw]; rfl) rfl rfl (rstvAct_done hw h)

end Begun
end Rstv

/-- Settles O25: the checks, then the scene, then the mesh decide what becomes of a remote store. -/
theorem remoteStoreResults : Obligations.RemoteStoreResults := by
  refine ⟨fun f s s1 v w hr => ?_, fun f adaptive s => ⟨fun s1 w hr hroom => ?_, fun id hw => ?_⟩⟩
  · have both {a b : State} (ha : rstIssue f false s = a) (hb : rstIssue f true s = b) :
        exec (.rst f) s = .next a ∧ exec (.rstA f) s = .next b := ⟨congrArg _ ha, congrArg _ hb⟩
    exact ⟨fun hmis => both (rstIssue_misaligned hr hmis) (rstIssue_misaligned hr hmis),
      fun hal hheld hfull => both (rstIssue_doorFull hr hal hheld hfull) (rstIssue_doorFull hr hal hheld hfull),
      fun hal hdoor => ⟨fun hsc =>
        ⟨fun hm => both (rstIssue_mesh hr hal hdoor hsc hm) (rstIssue_mesh hr hal hdoor hsc hm),
          fun hm hroom => both (rstIssue_sent hr hal hdoor hsc hm hroom) (rstIssue_sent hr hal hdoor hsc hm hroom),
          fun hm hroom => both (rstIssue_full hr hal hdoor hsc hm hroom) (rstIssue_full hr hal hdoor hsc hm hroom)⟩,
        fun sc hsc hoff => both (rstIssue_scene_off hr hal hdoor hsc hoff) (rstIssue_scene_off hr hal hdoor hsc hoff),
        fun sc hsc hoff => both (rstIssue_scene hr hal hdoor hsc hoff) (rstIssue_scene hr hal hdoor hsc hoff)⟩⟩
  · have hexec {a : State} (h : rstvIssue f adaptive s = a) :
        exec (if adaptive then .rstvA f else .rstv f) s = .next a := (exec_rstv_issue ..).trans (congrArg _ h)
    exact ⟨fun hmis => hexec (rstvIssue_misaligned hr hroom hmis), fun hal hdoor =>
      ⟨fun hsc => ⟨fun hm => hexec (rstvIssue_mesh hr hroom hal hdoor hsc hm),
          fun hm => hexec (rstvIssue_begun hr hroom hal hdoor hsc hm)⟩,
        fun sc hsc hoff => hexec (rstvIssue_scene_off hr hroom hal hdoor hsc hoff),
        fun sc hsc hoff => hexec (rstvIssue_scene hr hroom hal hdoor hsc hoff)⟩⟩
  · have hexec {a : State} (h : rstvIssue f adaptive s = a) :
        exec (if adaptive then .rstvA f else .rstv f) s = .next a := (exec_rstv_issue ..).trans (congrArg _ h)
    exact ⟨fun hover => hexec (rstvIssue_over hw hover), fun hwaits => hexec (rstvIssue_waits hw hwaits)⟩

end Sys2Proof.Machine

namespace Sys2Proof.Machine
open Sys2Proof.Safety

/-! # Continuations -/

/-! Checks in a row, and blocks in JOINC.SEG. -/

section Checks
variable {x : Ctx} {s s' : State} {c : Ctx → State → Option Act} {a : Act} {off : Word}
  {n m : Nat} {ks : List Nat}

/-- Two checks that pass. -/
theorem chks_pair_none {d : Ctx → State → Option Act} (hc : c x s = none) (hd : d x s = none) : chks [c, d] x s = none := by
  simp only [chks, List.findSome?_cons, List.findSome?_nil, hc, hd]

/-- The first of two checks that answers something decides. -/
theorem chks_pair_some {d : Ctx → State → Option Act} (hc : c x s = none) (hd : d x s = some a) :
    chks [c, d] x s = some a := by
  simp only [chks, List.findSome?_cons, hc, hd]

/-- The work on a block that is found is done on its bytes. -/
theorem withBlock_of_block (h : Safety.Block s x.p off n m s' ks) (f : State → List Nat → Act) :
    withBlock off n m x s f = f s' ks := by
  unfold withBlock
  rw [show s.blockAt x.p off n m = (s', .ok ks) from h]

/-- A block that is found passes its check. -/
theorem blockChk_of_block (h : Safety.Block s x.p off n m s' ks) : blockChk off n [] m x s = none := by
  unfold blockChk
  rw [show s.blockAt x.p off n m = (s', .ok ks) from h]

/-- Outside handler mode, X-seats and gangs nothing stops a suspension point (R201, R202, R395). -/
theorem suspChk_eq_none (hh : (s.bank x.p).handler = false) (hx : x.p.reflex = false) (hg : s.ganged x.p = false) :
    suspChk x s = none := by
  simp [suspChk, hh, hx, hg]

end Checks

section Suspend
variable {s s1 s2 s3 : State} {h : Shape} {vals : List Word}

/-- The operand read leaves the gangs. -/
theorem ganged_of_issues (hr : Issues s h s1 vals) (p : Machine.Place) : s1.ganged p = s.ganged p := by
  unfold State.ganged
  rw [core_of_issues hr]

/-- A seat that may suspend passes the check of suspension points. -/
theorem suspChk_of_maySuspend (hr : Issues s h s1 vals) (hm : MaySuspend s s.cur) :
    suspChk (ctx s h vals) s1 = none := by
  obtain ⟨hh, hx, hg, -⟩ := hm
  exact suspChk_eq_none ((handler_of_issues hr).trans hh) hx ((ganged_of_issues hr _).trans hg)

/-- Its record waits for no register (R145). -/
theorem recWaits_of_maySuspend (hm : MaySuspend s s.cur) : recWaits (asks s h vals) s = none := by
  obtain ⟨-, -, -, hp⟩ := hm
  refine if_neg fun hany => ?_
  obtain ⟨r, hr, hcode⟩ := List.any_eq_true.mp hany
  exact hp r hr (by simpa using hcode)

end Suspend

/-! spawn, join and suspend (R183-R185). -/

section Work
variable {x : Ctx} {s s' t u : State} {ks kr : List Nat}

theorem spawnChk_misaligned (hs : suspChk x s = none) (h : (x.v 0).toNat % 4 ≠ 0) :
    spawnChk x s = some (.trap .misaligned 0 (some (x.v 0))) := by
  simp [spawnChk, chks, hs, h]

section SpawnBlock
variable (hs : suspChk x s = none) (h : (x.v 0).toNat % 4 = 0) (hb : Safety.Block s x.p (s.joinOff x.p) 8 8 s' ks)
include hs h hb

/-- With an aligned target and a join block that is found, spawn asks for room on the deque. -/
theorem spawnChk_overflow (hd : s.pushDeque x.p.core (s.recOf x.p x.next) = none) :
    spawnChk x s = some (.trap .dequeOverflow 0 none) := by
  simp [spawnChk, chks, hs, h, blockChk_of_block hb, hd]

theorem spawnChk_eq_none (hd : (s.pushDeque x.p.core (s.recOf x.p x.next)).isSome = true) : spawnChk x s = none := by
  obtain ⟨t, hd⟩ := Option.isSome_iff_exists.mp hd
  simp [spawnChk, chks, hs, h, blockChk_of_block hb, hd]

end SpawnBlock

theorem spawnAct_done (hb : Safety.Block s x.p (s.joinOff x.p) 8 8 t ks)
    (hd : t.pushDeque x.p.core (t.recOf x.p x.next) = some u) : spawnAct x s =
      .done (((wrote u x.p ks 0 (u.blockRead ks 0 + 1)).countSpawn x.p).setReg x.p 3 (x.v 1)) none (some (x.v 0)) := by
  unfold spawnAct
  rw [withBlock_of_block hb]
  simp only [hd]

/-- A join block whose check passes lets join pass. -/
theorem joinChk_eq_none (hs : suspChk x s = none) (hk : blockChk (s.joinOff x.p) 8 [joinMore] 8 x s = none) :
    chks [suspChk, fun x s => blockChk (s.joinOff x.p) 8 [joinMore] 8 x s] x s = none := chks_pair_none hs hk

theorem joinAct_done (hb : Safety.Block s x.p (s.joinOff x.p) 8 8 t ks) (hn : t.blockRead ks 0 = 0) :
    joinAct x s = .done (t.see x.p.core ks) none none := by
  unfold joinAct
  rw [withBlock_of_block hb]
  exact if_pos hn

theorem joinAct_left (hb : Safety.Block s x.p (s.joinOff x.p) 8 8 t ks) (hn : t.blockRead ks 0 ≠ 0)
    (hb' : Safety.Block t x.p (t.joinOff x.p) 8 128 u kr) :
    joinAct x s = .left ((u.blockWrite x.p.core kr (waitCells (u.recOf x.p x.next))).leave x.p) := by
  unfold joinAct
  rw [withBlock_of_block hb]
  exact (if_neg hn).trans (withBlock_of_block hb' _)

/-- A wait block that is found passes the checks of suspend. -/
theorem suspendChk_eq_none (hs : suspChk x s = none) (hb : Safety.Block s x.p (blockOff (x.v 0)) 128 128 t ks) :
    chks [suspChk, fun x s => blockChk (blockOff (x.v 0)) 128 [] 128 x s] x s = none :=
  chks_pair_none hs (blockChk_of_block hb)

theorem suspendAct_done (hb : Safety.Block s x.p (blockOff (x.v 0)) 128 128 t ks) (hn : t.blockRead ks 0 ≠ 0) :
    suspendAct x s = .done (wrote t x.p ks 0 (t.blockRead ks 0 - 1)) none none := by
  unfold suspendAct
  rw [withBlock_of_block hb]
  exact if_pos hn

theorem suspendAct_left (hb : Safety.Block s x.p (blockOff (x.v 0)) 128 128 t ks) (hn : t.blockRead ks 0 = 0) :
    suspendAct x s = .left ((t.blockWrite x.p.core ks (waitCells (t.recOf x.p x.next))).leave x.p) := by
  unfold suspendAct
  rw [withBlock_of_block hb]
  exact if_neg (not_not.mpr hn)

end Work

/-- Settles O27: the checks pass, the scene commits, and the count of the block decides. -/
theorem spawnJoinResults : Obligations.SpawnJoinResults := by
  refine ⟨fun f s s1 s2 s3 s4 s1' ks' a b ks hr hm => ?_, fun f s s1 s2 s3 ks hr hm hk hc hb => ?_,
    fun f s s1 s2 s3 s1' ks' a ks hr hm hb1 hc hb => ?_⟩
  all_goals have hs := suspChk_of_maySuspend hr hm
  all_goals have hw := fun h vals => recWaits_of_maySuspend (h := h) (vals := vals) hm
  · exact ⟨fun hmis => issueWait_trap hr (hw _ _) (spawnChk_misaligned hs hmis), fun hal hb1 =>
      ⟨fun hd => issueWait_trap hr (hw _ _) (spawnChk_overflow hs hal hb1 hd),
        fun hd hc hb hd' => issueWait_closing_jump hr (hw _ _) rfl (spawnChk_eq_none hs hal hb1 hd) hc (spawnAct_done hb hd')⟩⟩
  · exact ⟨fun hn => issueWait_closing hr (hw _ _) rfl (joinChk_eq_none hs hk) hc (joinAct_done hb hn),
      fun s4 kr hn hb' => issueWait_closing_left hr (hw _ _) rfl (joinChk_eq_none hs hk) hc (joinAct_left hb hn hb')⟩
  · have hk := suspendChk_eq_none hs hb1
    exact ⟨fun hn => issueWait_closing hr (hw _ _) rfl hk hc (suspendAct_done hb hn),
      fun hn => issueWait_closing_left hr (hw _ _) rfl hk hc (suspendAct_left hb hn)⟩

end Sys2Proof.Machine

namespace Sys2Proof.Machine
open Sys2Proof.Safety

/-! yield, exit, exit.j and wake (R185-R187). -/

section Leave
variable {x : Ctx} {s t u v : State} {r : Rec} {ks kt ku : List Nat}

/-- With room in the ready queue yield passes its checks. -/
theorem yieldChk_eq_none (hs : suspChk x s = none) (h : (s.pushReady x.p.core (s.recOf x.p x.next)).isSome = true) :
    chks [suspChk, yieldRoom] x s = none :=
  chks_pair_none hs (if_neg (by rw [Option.isNone_iff_eq_none]; exact Option.isSome_iff_ne_none.mp h))

/-- Without it yield does not take place, and the seat goes on (R146). -/
theorem yieldChk_no_room (hs : suspChk x s = none) (h : s.pushReady x.p.core (s.recOf x.p x.next) = none) :
    chks [suspChk, yieldRoom] x s = some (.done s none none) :=
  chks_pair_some hs (if_pos (Option.isNone_iff_eq_none.mpr h))

theorem yieldAct_left (h : s.pushReady x.p.core (s.recOf x.p x.next) = some t) : yieldAct x s = .left (t.leave x.p) := by
  simp only [yieldAct, h]

/-- Nothing stops exit outside handler mode and gangs (R201, R395). -/
theorem exitChk_eq_none (hh : (s.bank x.p).handler = false) (hg : s.ganged x.p = false) : exitChk x s = none := by
  simp [exitChk, hh, hg]

/-- The end of a continuation waits for no push that is still to come (R191). -/
theorem pushWaits_eq_none (h : s.pushDue x.p = false) : pushWaits x s = none := if_neg (Bool.eq_false_iff.mp h)

theorem pushWaits_eq_some (h : s.pushDue x.p = true) : pushWaits x s = some .memory := if_pos h

/-- A block whose check passes lets exit.j pass. -/
theorem exitJChk_eq_none (hs : suspChk x s = none) (hk : blockChk (blockOff (x.v 0)) 8 exitMore 8 x s = none) :
    chks [suspChk, fun x s => blockChk (blockOff (x.v 0)) 8 exitMore 8 x s] x s = none := chks_pair_none hs hk

section ExitJ
variable (hb : Safety.Block s x.p (blockOff (x.v 0)) 8 8 t ks)
include hb

/-- exit.j leaves a count of 0. -/
theorem exitJAct_zero (hn : t.blockRead ks 0 = 0) : exitJAct x s = .left ((t.see x.p.core ks).exitSeat x.p) := by
  unfold exitJAct
  rw [withBlock_of_block hb]
  exact if_pos hn

/-- It counts any other down. -/
theorem exitJAct_many (h0 : t.blockRead ks 0 ≠ 0) (h1 : t.blockRead ks 0 ≠ 1) :
    exitJAct x s = .left ((wrote t x.p ks 0 (t.blockRead ks 0 - 1)).exitSeat x.p) := by
  unfold exitJAct
  rw [withBlock_of_block hb]
  exact (if_neg h0).trans (if_neg h1)

variable (h1 : t.blockRead ks 0 = 1) (hb2 : Safety.Block t x.p (blockOff (x.v 0)) 8 16 u kt)
include h1 hb2

/-- The last of a block in which no record waits. -/
theorem exitJAct_last (hw : u.blockRead kt 8 ≠ 1) :
    exitJAct x s = .left ((wrote (u.see x.p.core ((kt.drop 8).take 8)) x.p kt 0 0).exitSeat x.p) := by
  unfold exitJAct
  rw [withBlock_of_block hb]
  refine (if_neg (by rw [h1]; decide)).trans ((if_pos h1).trans ?_)
  rw [withBlock_of_block hb2]
  exact if_neg hw

/-- The last of a block in which a record waits readies the record: in its own ready queue, or, where that has no room,
through the network interface (R146). -/
theorem exitJAct_ready (hw : u.blockRead kt 8 = 1) (hb3 : Safety.Block u x.p (blockOff (x.v 0)) 8 128 v ku) :
    let w := (v.see x.p.core ((ku.drop 64).take 64)).blockWrite x.p.core ku [(0, leBytes 8 0), (8, leBytes 8 0)]
    exitJAct x s = .left ((match w.pushReady x.p.core (v.blockRec ku) with
      | some w' => w'
      | none => w.post x.p.core x.p.core none 2 false x.p.num (.wakeRec (v.blockRec ku))).exitSeat x.p) := by
  simp only [exitJAct, withBlock_of_block hb, withBlock_of_block hb2, withBlock_of_block hb3, h1, hw, ↓reduceIte,
    (by decide : (1 : Word) ≠ 0)]
  generalize State.pushReady _ _ _ = room
  cases room <;> rfl

end ExitJ
end Leave

section Wake
variable {x : Ctx} {s t : State} {ks : List Nat} {sc : Scene}

/-- On an X-seat wake traps (R202). -/
theorem wakeChk_reflex (hx : x.p.reflex = true) :
    chks [fun x _ => if x.p.reflex then some (.trap .reflexBlock 0 none) else none,
      fun x s => blockChk (blockOff (x.v 0)) 128 [] 128 x s] x s = some (.trap .reflexBlock 0 none) := by
  simp [chks, hx]

/-- Elsewhere a wait block that is found passes its checks. -/
theorem wakeChk_eq_none (hx : x.p.reflex = false) (hb : Safety.Block s x.p (blockOff (x.v 0)) 128 128 t ks) :
    chks [fun x _ => if x.p.reflex then some (.trap .reflexBlock 0 none) else none,
      fun x s => blockChk (blockOff (x.v 0)) 128 [] 128 x s] x s = none :=
  chks_pair_none (if_neg (Bool.eq_false_iff.mp hx)) (blockChk_of_block hb)

/-- One cell of a block is written as one unit. -/
theorem State.blockWrite_single (s : State) (c off : Nat) (ks : List Nat) (bs : List Byte) :
    s.blockWrite c ks [(off, bs)] = (s.unitWrite c 0 ((ks.drop off).zip bs)).1 := by
  simp [State.blockWrite]

/-- A wake takes the record that waits (R185). -/
theorem State.wakeCells_record (h : s.blockRead ks 8 = 1) :
    s.wakeCells ks = ((ks.drop 8).zip (leBytes 8 0), some (s.blockRec ks)) := if_pos h

/-- With no record waiting it leaves a credit. -/
theorem State.wakeCells_credit (h : s.blockRead ks 8 ≠ 1) :
    s.wakeCells ks = (ks.zip (leBytes 8 (s.blockRead ks 0 + 1).toNat), none) := if_neg h

theorem State.wakeBlock_record (p : Machine.Place) (h : s.blockRead ks 8 = 1) :
    s.wakeBlock p ks = (wrote (s.see p.core ((ks.drop 64).take 64)) p ks 8 0).wakeRec p (s.blockRec ks) := by
  rw [wrote, State.blockWrite_single]
  simp only [State.wakeBlock, State.wakeCells_record h]
  rfl

theorem State.wakeBlock_credit (p : Machine.Place) (h : s.blockRead ks 8 ≠ 1) :
    s.wakeBlock p ks = wrote s p ks 0 (s.blockRead ks 0 + 1) := by
  rw [wrote, State.blockWrite_single]
  simp only [State.wakeBlock, State.wakeCells_credit h, List.drop_zero]

variable (hb : Safety.Block s x.p (blockOff (x.v 0)) 128 128 t ks)
include hb

/-- In a scene wake is buffered (R185). -/
theorem wakeAct_scene (hsc : (t.bank x.p).openScene = some sc) :
    wakeAct x s = .done (t.modBank x.p fun b => b.buffer 1 (.wake ks)) none none := by
  unfold wakeAct
  rw [withBlock_of_block hb]
  exact if_pos (by rw [hsc]; rfl)

section NoScene
variable (hsc : (t.bank x.p).openScene = none)
include hsc

/-- Outside a scene it works on the block. -/
theorem wakeAct_done (hroom : ¬ (t.blockRead ks 8 = 1 ∧ t.wakeFull x.p (t.blockRec ks) = true)) :
    wakeAct x s = .done (t.wakeBlock x.p ks) none none := by
  unfold wakeAct
  rw [withBlock_of_block hb]
  refine (if_neg (by rw [hsc]; exact Bool.false_ne_true)).trans ?_
  by_cases h : t.blockRead ks 8 = 1
  · have hfull : ¬ t.wakeFull x.p (t.blockRec ks) = true := fun hf => hroom ⟨h, hf⟩
    simp only [State.wakeCells_record h, hfull, Bool.false_eq_true, ↓reduceIte]
  · simp only [State.wakeCells_credit h]

/-- It waits where the record must be held at a full stage door (log 68). -/
theorem wakeAct_wait (hfull : t.blockRead ks 8 = 1 ∧ t.wakeFull x.p (t.blockRec ks) = true) :
    wakeAct x s = .wait .queue := by
  unfold wakeAct
  rw [withBlock_of_block hb]
  refine (if_neg (by rw [hsc]; exact Bool.false_ne_true)).trans ?_
  simp only [State.wakeCells_record hfull.1, hfull.2, ↓reduceIte]

end NoScene

end Wake

/-- Settles O28: a suspension point or an exit passes its checks, commits and leaves the seat; a wake works on its block. -/
theorem yieldExitWakeResults : Obligations.YieldExitWakeResults := by
  refine ⟨⟨fun f s s1 s2 s3 hr hm => ?_, fun f s s1 s2 hr hp hh hg hc => ?_,
    fun f s s1 s2 s3 a ks hr hp hh hx hg hk hc hb => ?_⟩, fun f s s1 s2 a ks hr => ?_, fun s p ks => ?_⟩
  · have hs := suspChk_of_maySuspend hr hm
    exact ⟨fun hroom hc hd => issueWait_closing_left hr (recWaits_of_maySuspend hm) rfl (yieldChk_eq_none hs hroom) hc
        (yieldAct_left hd),
      fun hroom => congrArg Host.Outcome.next (issueWith_check hr (recWaits_of_maySuspend hm) (yieldChk_no_room hs hroom))⟩
  · exact issueWait_closing_left hr (pushWaits_eq_none hp) rfl (exitChk_eq_none hh hg) hc rfl
  · have hk' := exitJChk_eq_none (suspChk_eq_none (x := ctx s _ [a]) hh hx hg) hk
    have hw := pushWaits_eq_none (x := asks s { srcs := [isrc f.ra], closes := true } [a]) hp
    exact ⟨fun h0 => issueWait_closing_left hr hw rfl hk' hc (exitJAct_zero hb h0),
      fun h0 h1 => issueWait_closing_left hr hw rfl hk' hc (exitJAct_many hb h0 h1),
      fun s4 k4 h1 hb2 => ⟨fun hst => issueWait_closing_left hr hw rfl hk' hc (exitJAct_last hb h1 hb2 hst),
        fun s5 k5 hst hb3 => issueWait_closing_left hr hw rfl hk' hc (exitJAct_ready hb h1 hb2 hst hb3)⟩⟩
  · refine ⟨fun hx => issueChk_trap hr (wakeChk_reflex hx), fun hx hb =>
      ⟨fun hsc => ⟨fun hroom => ?_, fun hfull => ?_⟩, fun sc hsc => ?_⟩⟩
    · exact issueChk_done hr rfl rfl (wakeChk_eq_none hx hb) (wakeAct_done hb hsc hroom)
    · exact congrArg Host.Outcome.next
        (issueWith_body_wait hr rfl rfl (wakeChk_eq_none hx hb) (wakeAct_wait hb hsc hfull))
    · exact issueChk_done hr rfl rfl (wakeChk_eq_none hx hb) (wakeAct_scene hb hsc)
  · exact ⟨State.wakeBlock_credit p, State.wakeBlock_record p⟩

end Sys2Proof.Machine

namespace Sys2Proof.Machine
open Sys2Proof.Safety

/-! # chain and send -/

/-! How far the instruction of a bank has come after the commit of its scene (R129). -/

/-- The end of a commit leaves the instruction to do its work. -/
theorem State.wip_of_commitRest {s t : State} {p : Machine.Place} {sc : Scene} {es : List Entry}
    (h : s.commitRest p sc es = .done t) : (t.bank p).wip = .none := by
  unfold State.commitRest at h
  split at h
  · cases h
  · obtain rfl := Commit.done.inj h
    rw [State.bank_modBank_same]

theorem State.wip_of_commit {s t : State} {p : Machine.Place} (hw : (s.bank p).wip = .none) (h : s.commit p = .done t) :
    (t.bank p).wip = .none := by
  unfold State.commit at h
  split at h
  · obtain rfl := Commit.done.inj h
    exact hw
  split at h
  · exact State.wip_of_commitRest h
  split at h
  · exact absurd h (State.commitWait_ne_done _ _ _ _)
  split at h
  · exact absurd h (State.commitWait_ne_done _ _ _ _)
  dsimp only at h
  split at h
  · exact absurd h (State.commitWait_ne_done _ _ _ _)
  split at h
  · split at h
    · exact absurd h (State.commitWait_ne_done _ _ _ _)
    · cases h
  · exact State.wip_of_commitRest h

section Closing
variable {s s1 s2 s3 : State} {h : Shape} {vals : List Word} {hold : BitVec 2} {waits : Waits} {check : Check}
  {body : Ctx → State → Act}

/-- The work of a scene-closing instruction begins on a bank whose instruction is not in its own middle. -/
theorem wip_of_committed (hw : ((h.keep (ctx s h vals) s1).bank s.cur).wip = .none)
    (hc : committed s h vals s1 = some s2) : (s2.bank s.cur).wip = .none := by
  unfold committed at hc
  split at hc
  · cases hc
  split at hc
  · next hdone =>
    obtain rfl := Option.some.inj hc
    exact State.wip_of_commit hw (State.commit_of_closeScene hdone)
  · cases hc

section
variable (hr : Issues s h s1 vals) (hw : waits (asks s h vals) s = none) (hc : h.closes = true)
  (hk : check (ctx s h vals) s1 = none) (hcm : committed s h vals s1 = some s2)
include hr hw hc hk hcm

/-- A scene-closing instruction whose work waits leaves the seat waiting. -/
theorem issueWith_closing_wait {c : Stall} (hb : body (ctx s h vals) s2 = .wait c) :
    issueWith h hold waits check body s = s.stall c := by
  rw [issueWith_ready_closing hr hw hc hk hcm, hb]
  rfl

/-- A scene-closing instruction whose work hands a message over retires, or holds the seat while the message waits to enter
the mesh. -/
theorem issueWith_closing_posts {n : Nat} (hb : body (ctx s h vals) s2 = posted (ctx s h vals) n s3) :
    issueWith h hold waits check body s = posts s h vals hold n s3 := by
  unfold posted at hb
  split at hb
  next hin =>
    rw [issueWith_ready_closing hr hw hc hk hcm, hb]
    exact (if_pos hin).symm
  next hout => exact (issueWith_closing_done (pc := none) hr hw hc hk hcm hb).trans (if_neg hout).symm

end
end Closing

/-! chain (R190). -/

section Chain
variable {f : FmtR} {s s1 : State} {w : Word}

/-- What chain looks at. -/
def chainShape (f : FmtR) : Shape := { srcs := [isrc f.ra], entries := 1 }

/-- What chain waits for: outside a scene, the pushes of its seat that are on their way (log 67). -/
def chainWaits : Waits := fun x s => if (s.bank x.p).openScene.isSome then none else pushWaits x s

theorem exec_chain_issue (f : FmtR) (s : State) :
    exec (.chain f) s = .next (issueWith (chainShape f) f.hold chainWaits (fun _ _ => none) chainAct s) := rfl

variable (hr : Issues s (chainShape f) s1 [w])
include hr

theorem exec_chain_scene {sc : Scene} (hsc : (s1.bank s.cur).openScene = some sc) : exec (.chain f) s =
    .next (passed s (chainShape f) [w] f.hold (s1.modBank s.cur fun b => b.buffer 1 (.chain w))) := by
  have hopen : (s.bank s.cur).openScene.isSome = true := by rw [← openScene_isSome_of_issues hr, hsc]; rfl
  have hopen1 : (s1.bank s.cur).openScene.isSome = true := by rw [hsc]; rfl
  exact issueWait_done hr (if_pos hopen) rfl rfl rfl (if_pos hopen1)

section NoScene
variable (hsc : (s1.bank s.cur).openScene = none)
include hsc

/-- Outside a scene chain waits for what its seat pushes. -/
theorem chainWaits_eq : chainWaits (asks s (chainShape f) [w]) s = pushWaits (asks s (chainShape f) [w]) s := by
  refine if_neg ?_
  show ¬ (s.bank s.cur).openScene.isSome = true
  rw [← openScene_isSome_of_issues hr, hsc]
  exact Bool.false_ne_true

theorem exec_chain_links (hp : s.pushDue s.cur = false) :
    exec (.chain f) s = .next (passed s (chainShape f) [w] f.hold (s1.chainOp s.cur w)) := by
  have hopen1 : ¬ (s1.bank s.cur).openScene.isSome = true := by rw [hsc]; exact Bool.false_ne_true
  exact issueWait_done hr ((chainWaits_eq hr hsc).trans (pushWaits_eq_none hp)) rfl rfl rfl (if_neg hopen1)

theorem exec_chain_waits (hp : s.pushDue s.cur = true) : exec (.chain f) s = .next (s.stall .memory) :=
  issueWait_own hr ((chainWaits_eq hr hsc).trans (pushWaits_eq_some hp))

end NoScene
end Chain

/-! send (R193, R194). -/

section SendWork
variable {x : Ctx} {s : State} {d off vc : Nat} {vd : Option Nat} {no : Nat}

/-- The message of a send to mail: the seat, the register and the value. -/
def mailBody (w v : Word) : Body := .mail (w.toNat / 2 ^ 32 % 8) (w.toNat / 2 ^ 35 % 32) v

theorem sendGo_mail (hd : s.sendDest x = .mail d vd) (hroom : s.outRoom x.p.core 32 = true) : sendGo x s =
    posted x s.msgNo (s.post x.p.core d vd 2 false x.p.num (mailBody (x.v 0) (x.v 1))) := by
  simp only [sendGo, hd, hroom, ↓reduceIte]
  rfl

theorem sendGo_start (hd : s.sendDest x = .start d off) (hroom : s.outRoom x.p.core 32 = true) : sendGo x s =
    posted x s.msgNo (s.post x.p.core d none 2 false x.p.num (.start off)) := by
  simp only [sendGo, hd, hroom, ↓reduceIte]

/-- A send into the mesh waits for room in the network interface (log 17). -/
theorem sendGo_full (hd : (∃ d vd, s.sendDest x = .mail d vd) ∨ ∃ d off, s.sendDest x = .start d off)
    (hroom : s.outRoom x.p.core 32 = false) : sendGo x s = .wait .queue := by
  rcases hd with ⟨d, vd, hd⟩ | ⟨d, off, hd⟩ <;> simp only [sendGo, hd, hroom, Bool.false_eq_true, ↓reduceIte]

theorem sendGo_held (hd : s.sendDest x = .held vc) : sendGo x s =
    .done ((s.unreserve x.p).hold (Config.dieOf x.p.core) ((s.unreserve x.p).msg x.p.core 0 (some vc) 2 false
      ((s.unreserve x.p).core x.p.core).pts x.p.num (mailBody (x.v 0) (x.v 1)))) none none := by
  simp only [sendGo, hd]
  rfl

theorem sendGo_bounce (hd : s.sendDest x = .bounce) : sendGo x s =
    .done (s.mailLand x.p.core x.p.num 31 (bounceWord ((x.v 0).toNat % 2 ^ 32) ((x.v 0).toNat / 2 ^ 32 % 8)
      ((x.v 0).toNat / 2 ^ 35 % 32) 50)) none none := by
  simp only [sendGo, hd, bits_zero]
  rfl

/-- A fresh send does the work of its destination. -/
theorem sendAct_fresh (hw : (s.bank x.p).wip = .none) : sendAct x s = sendGo x s := by
  simp only [sendAct, hw]

theorem sendAct_waits (hw : (s.bank x.p).wip = .posted no) (h : s.inOutbox x.p.core no = true) :
    sendAct x s = .wait .queue := by
  simp only [sendAct, hw, postedAct, h, ↓reduceIte]

theorem sendAct_over (hw : (s.bank x.p).wip = .posted no) (h : s.inOutbox x.p.core no = false) :
    sendAct x s = .done s none none := by
  simp only [sendAct, hw, postedAct, h, Bool.false_eq_true, ↓reduceIte]

/-- A send that must be held asks for room at the stage door (R175, R194). -/
theorem sendChk_full (hn : (s.bank x.p).sendTo = none) (hd : s.sendTo x.p.core (x.v 0) (x.v 1) = .held vc)
    (hroom : s.doorRoom (Config.dieOf x.p.core) = false) : sendChk x s = some (.trap .stageDoorFull 0 none) := by
  simp [sendChk, State.sendDest, hn, hd, hroom]

theorem sendChk_eq_none (hn : (s.bank x.p).sendTo = none)
    (hroom : ¬ ((∃ vc, s.sendTo x.p.core (x.v 0) (x.v 1) = .held vc) ∧ s.doorRoom (Config.dieOf x.p.core) = false)) :
    sendChk x s = none := by
  unfold sendChk
  split
  next hd =>
    rw [State.sendDest, hn] at hd
    exact if_pos (by simpa using fun h => hroom ⟨⟨_, hd⟩, h⟩)
  next => rfl

/-- What a send reserves leaves how far it has come. -/
theorem State.wip_sendKeep (x : Ctx) (s : State) : ((sendKeep x s).bank x.p).wip = (s.bank x.p).wip := by
  unfold sendKeep
  split
  · rfl
  · rw [State.bank_modBank_same]
    dsimp only
    split <;> rfl

end SendWork

section Send
variable {f : FmtR} {s s1 s2 : State} {w v : Word}

/-- What send looks at. -/
def sendShape (f : FmtR) : Shape := { srcs := [isrc f.ra, isrc f.rb], closes := true, keep := sendKeep }

theorem exec_send_issue (f : FmtR) (s : State) :
    exec (.send f) s = .next (issueWith (sendShape f) f.hold noWaits (chks [sendChk, meshChk]) sendAct s) := rfl

section Fresh
variable (hr : Issues s (sendShape f) s1 [w, v]) (hn : (s1.bank s.cur).sendTo = none)
include hr hn

theorem exec_send_full {vc : Nat} (hd : s1.sendTo s.cur.core w v = .held vc)
    (hroom : s1.doorRoom (Config.dieOf s.cur.core) = false) :
    exec (.send f) s = .next (trapped s (sendShape f) .stageDoorFull 0 none) := by
  have hk : sendChk (ctx s (sendShape f) [w, v]) s1 = _ := sendChk_full hn hd hroom
  exact issueChk_trap hr (by simp only [chks, List.findSome?_cons, hk])

variable (hroom : ¬ ((∃ vc, s1.sendTo s.cur.core w v = .held vc) ∧ s1.doorRoom (Config.dieOf s.cur.core) = false))
include hroom

theorem exec_send_mesh (hm : meshStops s) : exec (.send f) s = .next (meshHeld s) :=
  congrArg Host.Outcome.next (issueWith_mesh hr rfl (chks_pair_some (sendChk_eq_none hn hroom) (meshChk_stopped hr hm)))

theorem sendChks_eq_none (hm : ¬ meshStops s) :
    chks [sendChk, meshChk] (ctx s (sendShape f) [w, v]) s1 = none :=
  chks_pair_none (sendChk_eq_none hn hroom) (meshChk_free hr hm)

omit hn hroom in
/-- After its commit a send does the work of its destination. -/
theorem sendAct_committed (hcm : committed s (sendShape f) [w, v] s1 = some s2) :
    sendAct (ctx s (sendShape f) [w, v]) s2 = sendGo (ctx s (sendShape f) [w, v]) s2 :=
  sendAct_fresh (wip_of_committed ((State.wip_sendKeep (ctx ..) s1).trans (wip_of_issues hr)) hcm)

end Fresh

section Posted
variable {no : Nat} (hw : (s.bank s.cur).wip = .posted no)
include hw

theorem exec_send_waits (h : s.inOutbox s.cur.core no = true) : exec (.send f) s = .next (s.stall .queue) :=
  congrArg Host.Outcome.next (issueWith_resume_wait (by rw [hw]; rfl) (sendAct_waits hw h))

/-- A send whose message has entered the mesh retires; its scene was closed, and opened again, when it began. -/
theorem exec_send_over (h : s.inOutbox s.cur.core no = false) :
    exec (.send f) s = .next (passed s { srcs := [isrc f.ra, isrc f.rb] } [] f.hold s) := by
  have hb : sendAct (ctx s (sendShape f) []) s = .done s none none := sendAct_over hw h
  rw [exec_send_issue, issueWith_resume (by rw [hw]; rfl), hb]
  rfl

end Posted
end Send

/-- Settles O31: chain links, waits or is buffered; the checks of send, its commit and then its destination decide. -/
theorem sendChainResults : Obligations.SendChainResults := by
  refine ⟨fun f s s1 w hr => ?_, fun f s s1 w v hr hn => ?_, fun f s no hw => ⟨exec_send_waits hw, exec_send_over hw⟩⟩
  · exact ⟨fun hsc => ⟨exec_chain_links hr hsc, exec_chain_waits hr hsc⟩, fun sc hsc => exec_chain_scene hr hsc⟩
  refine ⟨fun ⟨⟨vc, hd⟩, hroom⟩ => exec_send_full hr hn hd hroom, exec_send_mesh hr hn, fun s2 hfull hm hcm hto => ?_⟩
  have hk := sendChks_eq_none hr hn hfull hm
  have hb := sendAct_committed hr hcm
  have hd : s2.sendDest (ctx s (sendShape f) [w, v]) = s1.sendTo s.cur.core w v := by
    show (s2.bank s.cur).sendTo.getD _ = _
    rw [hto, Option.getD_some]
  refine ⟨fun d vd hmail hroom => ?_, fun d off hstart hroom => ?_, fun hsent hroom => ?_, fun vc hheld => ?_,
    fun hbounce => ?_⟩
  · exact congrArg Host.Outcome.next
      (issueWith_closing_posts hr rfl rfl hk hcm (hb.trans (sendGo_mail (hd.trans hmail) hroom)))
  · exact congrArg Host.Outcome.next
      (issueWith_closing_posts hr rfl rfl hk hcm (hb.trans (sendGo_start (hd.trans hstart) hroom)))
  · rw [← hd] at hsent
    exact congrArg Host.Outcome.next (issueWith_closing_wait hr rfl rfl hk hcm (hb.trans (sendGo_full hsent hroom)))
  · exact issueChk_closing hr rfl hk hcm (hb.trans (sendGo_held (hd.trans hheld)))
  · exact issueChk_closing hr rfl hk hcm (hb.trans (sendGo_bounce (hd.trans hbounce)))

end Sys2Proof.Machine

namespace Sys2Proof.Machine
open Sys2Proof.Safety

/-! # Arrivals -/

/-! Taking a message (R262, R414) changes two counts of its core. -/

section Taken
variable (s : State) (c : Nat) (m : Msg)

theorem State.core_taken :
    (s.taken c m).core c = { s.core c with recv := (s.core c).recv + 1, csts := max (s.core c).csts m.pts } :=
  State.core_modCore_same ..

theorem State.fenced_taken : ((s.taken c m).core c).fenced = (s.core c).fenced := by rw [State.core_taken]
theorem State.arrClk_taken : ((s.taken c m).core c).arrClk = (s.core c).arrClk := by rw [State.core_taken]
theorem State.winners_taken : ((s.taken c m).core c).winners = (s.core c).winners := by rw [State.core_taken]

theorem State.crCore_taken (n : Nat) : (s.taken c m).crCore c n = s.crCore c n := by
  rw [State.crCore, State.crCore, State.core_taken]

theorem State.holding_taken : (s.taken c m).holding c = s.holding c := by
  simp only [State.holding, State.host, State.crCore_taken, State.core_taken]

theorem State.fringFull_taken : (s.taken c m).fringFull c = s.fringFull c := by
  simp only [State.fringFull, State.fringLen, State.crCore_taken]

theorem State.groupOf_taken : (s.taken c m).groupOf c = s.groupOf c := by
  simp only [State.groupOf, State.core_taken]
  rfl

end Taken

/-! What the body of a message does (R150, R176, R185, R263, R351). -/

/-- What a body does at a core that is not fenced; none while it must wait. -/
def State.bodyArrive (s : State) (c : Nat) (m : Msg) : Body → Option State
  | .mail i x v =>
    if i < Config.seats c then s.mailArrive c i x v else some (s.refuse c m (bounceWord (m.vdst.getD c) i x 50))
  | .start off => some (s.reflexStart c off)
  | .bounce seat off w => some (s.bounceArrive c seat off w)
  | .store off bytes _ _ => some (s.storeArrive c [(off, bytes)] m)
  | .stores parts => some (s.storeArrive c parts m)
  | .fault a b d e => if s.fringFull c then none else some (s.fringPut c [a, b, d, e])
  | .winner w =>
    if (s.core c).winners.length < 16 then some (s.modCore c fun k => { k with winners := k.winners ++ [w] }) else none
  | .seize g pos r => s.seizeArrive c g pos r
  | .release g => s.releaseArrive c g
  | b => s.workArrive c b

/-- At a core that is not fenced the body of a message decides (R428). -/
theorem State.deliver_of_not_fenced {s : State} {c : Nat} {m : Msg} {b : Body} (hf : (s.core c).fenced = false)
    (hb : m.body = b) : s.deliver c m = s.bodyArrive c m b := by
  subst hb
  unfold State.deliver
  rw [hf, Bool.false_and, if_neg Bool.false_ne_true]
  cases hb : m.body with
  | mail i x v =>
    simp only [Msg.bounceOf, hb]
    rfl
  | _ => rfl

/-- A message that nothing holds back does what its body does. -/
theorem State.arrive_of_arrives {s : State} {k : Nat} {m : Msg} {b : Body} {want : Body → Bool} (ha : Arrives s k m)
    (hf : (s.core m.dst).fenced = false) (hb : m.body = b) (hw : want b = true) :
    s.arrive k want = ((tookIn s k m).bodyArrive m.dst m b).getD s := by
  obtain ⟨hk, hfirst, hdoor⟩ := ha
  have hd : (m.cls == 2 && s.doorFirst m.dst m.no) = false := by
    rw [Bool.and_eq_false_imp]
    exact fun h => hdoor (beq_iff_eq.mp h)
  have hbody : (tookIn s k m).deliver m.dst m = (tookIn s k m).bodyArrive m.dst m b :=
    State.deliver_of_not_fenced ((State.fenced_taken ..).trans hf) hb
  rw [← hbody]
  simp only [State.arrive, State.arriveOpt, hk, hb, hw, hfirst, hd]
  rfl

section Bodies
variable {s : State} {c i x off seat : Nat} {v w : Word} {m : Msg} {bytes : List Byte} {b : Body} {rs : List Rec}

/-- Mail for a seat lands unless other mail of its core has come in this clk (R195). -/
theorem State.bodyArrive_mail (hi : i < Config.seats c) (hfree : (s.core c).arrClk ≠ s.clk + 1) :
    s.bodyArrive c m (.mail i x v) = some ((s.mailLand c i x v).modCore c fun q => { q with arrClk := s.clk + 1 }) :=
  (if_pos hi).trans (if_neg hfree)

theorem State.bodyArrive_mail_waits (hi : i < Config.seats c) (hbusy : (s.core c).arrClk = s.clk + 1) :
    s.bodyArrive c m (.mail i x v) = none :=
  (if_pos hi).trans (if_pos hbusy)

/-- Mail for a seat that the core does not have is refused (R176). -/
theorem State.bodyArrive_mail_refused (hi : Config.seats c ≤ i) :
    s.bodyArrive c m (.mail i x v) = some (s.refuse c m (bounceWord (m.vdst.getD c) i x 50)) :=
  if_neg (Nat.not_lt.mpr hi)

/-- A bounce word reaches the seat that sent. -/
theorem State.bounceArrive_seat (h : seat < 100) : s.bounceArrive c seat off w = s.mailLand c seat 31 w := if_pos h

/-- It reaches the head command of the engine queue that sent (R307). -/
theorem State.bounceArrive_engine (h1 : 100 ≤ seat) (h2 : seat < 1000) :
    s.bounceArrive c seat off w = s.modHead c (seat - 100) fun e =>
      if e.bounced then e else { e with bounced := true, faddr := BitVec.ofNat 64 off } :=
  (if_neg (Nat.not_lt.mpr h1)).trans (if_pos h2)

/-- It reaches the seat whose command woke. -/
theorem State.bounceArrive_wake (h : 1000 ≤ seat) :
    s.bounceArrive c seat off w = s.mailLand c ((seat - 1000) % 16) 31 w :=
  (if_neg (by omega)).trans (if_neg (Nat.not_lt.mpr h))

/-- A store whose span its destination does not have is refused (R281). -/
theorem State.storeArrive_misfit (hb : m.body = .store off bytes i x) (hfit : rstFits c off bytes.length = false) :
    s.storeArrive c [(off, bytes)] m = s.refuse c m (bounceWord (m.vdst.getD c) 0 0 50) := by
  simp only [State.storeArrive, List.any_cons, List.any_nil, hfit, Bool.not_false, Bool.or_false, ↓reduceIte, Msg.bounceOf, hb]
  rfl

/-- A store to bytes that its destination keeps for itself is refused; any other is one unit (R232, R263, R281). -/
theorem State.storeArrive_fits (hfit : rstFits c off bytes.length = true)
    (hopen : Config.isX c = true ∨ (off + bytes.length ≤ 0x7_e000 ∨ 0x8_0000 ≤ off) ∧
      (s.groupOf c = none ∨ off + bytes.length ≤ 0xb_0000)) :
    let r := s.engWrite c m.pts (cellsAt (Config.tileKey c off) bytes)
    s.storeArrive c [(off, bytes)] m = if m.sender = 0 then r.1.raisePts m.src r.2
      else r.1.modHead m.src (m.seat - 100) fun e => { e with ts := max e.ts r.2 } := by
  have hown : (!Config.isX c && ((decide (off < 0x8_0000) && decide (0x7_e000 < off + bytes.length)) ||
      ((decide (off < 0xc_0000) && decide (0xb_0000 < off + bytes.length)) && (s.groupOf c).isSome))) = false := by
    rcases hopen with hx | ⟨hres, hgrp⟩
    · rw [hx]
      rfl
    · have h1 : (decide (off < 0x8_0000) && decide (0x7_e000 < off + bytes.length)) = false := by
        rw [← Bool.decide_and, decide_eq_false_iff_not]
        omega
      rw [h1, Bool.false_or]
      rcases hgrp with hnone | hlow
      · simp [hnone]
      · simp [Nat.not_lt.mpr hlow]
  simp only [State.storeArrive, List.any_cons, List.any_nil, Bool.or_false, hfit, hown, Bool.not_true, Bool.false_eq_true,
    ↓reduceIte, List.flatMap_cons, List.flatMap_nil, List.append_nil]
  rfl

/-- A core that holds events back holds this one (R244, R245). -/
theorem State.workArrive_holding (h : s.holding c = true) : s.workArrive c b = some (s.holdEvent c b) := if_pos h

/-- Elsewhere the event enters. -/
theorem State.workArrive_not_holding (h : s.holding c = false) : s.workArrive c b = s.workEnter c b :=
  if_neg (Bool.eq_false_iff.mp h)

/-- Stolen records enter whole or wait (log 53). -/
theorem State.getD_workEnter_steal (u : State) :
    (s.workEnter c (.steal rs)).getD u = match s.stealEnter c rs with | (t, []) => t | _ => u := by
  unfold State.workEnter
  dsimp only
  generalize s.stealEnter c rs = e
  obtain ⟨t, _ | ⟨r, l⟩⟩ := e <;> rfl

end Bodies

/-! Mail at a seat, and mail that a stage door held (R150, R175). -/

/-- A bit of a word with one bit set. -/
theorem getLsbD_setBit32 (v : BitVec 32) (i : Nat) {j : Nat} (hj : j < 32) :
    (setBit32 v i).getLsbD j = (decide (j = i) || v.getLsbD j) := by
  simp only [setBit32, BitVec.getLsbD_or, BitVec.getLsbD_ofNat, hj, decide_true, Bool.true_and, Nat.testBit_two_pow]
  rw [Bool.or_comm]
  congr 1
  exact decide_eq_decide.mpr eq_comm

/-- The mail window after a value has landed in one of its registers. -/
theorem State.mail_mailLand (s : State) (c i x y : Nat) (v : Word) :
    mget ((s.mailLand c i x v).seat c i).mail y 0 = if y = x then v else mget (s.seat c i).mail y 0 := by
  simp only [State.mailLand, State.seat_modSeat_same, mget_mset, eq_comm]

theorem State.mpres_mailLand (s : State) (c i : Nat) (x : Nat) {y : Nat} (v : Word) (hy : y < 32) :
    ((s.mailLand c i x v).seat c i).mpres.getLsbD y = (decide (y = x) || (s.seat c i).mpres.getLsbD y) := by
  simp only [State.mailLand, State.seat_modSeat_same, getLsbD_setBit32 _ _ hy]

/-- The stage door delivers a message whose virtual core is placed, when none held before and none in the mesh keeps it
(R175, R262). -/
theorem State.doorDeliver_to {s : State} {die k c : Nat} {m : Msg} (hk : (mget s.stage die [])[k]? = some m)
    (hfirst : ((mget s.stage die []).take k).any (fun o => o.vdst == m.vdst || (o.src == m.src && o.engine == m.engine &&
      o.cls == m.cls && s.dest o.src (o.vdst.getD 0) == s.dest m.src (m.vdst.getD 0))) = false)
    (hdest : s.dest m.src (m.vdst.getD 0) = .to_ c) (hcross : s.crosses m.src c = false)
    (hmesh : s.net.any (fun o => s.holdsBack o { m with dst := c }) = false) :
    s.doorDeliver die k = ((tookHeld s die k c m).deliver c m).getD s := by
  rw [hdest] at hfirst
  simp only [State.doorDeliver, hk, hfirst, hdest, hcross, hmesh, Bool.false_eq_true, ↓reduceIte]
  split
  next ht => exact (congrArg (Option.getD · s) ht).symm
  next hn => exact (congrArg (Option.getD · s) hn).symm

/-- Settles O46: the body of a message decides, at a core that has taken the message. -/
theorem messageArrivals : Obligations.MessageArrivals := by
  refine ⟨fun s k m ha hf => ?_, fun s die k c m i x v hk hb hfirst hdest hcross hmesh hfree hf hi => ?_,
    fun s c i x y v _ hy => ⟨State.mail_mailLand s c i x y v, State.mpres_mailLand s c i x v hy⟩⟩
  · have arrives {j : Instr} {want : Body → Bool} {b : Body} {r : State} (hj : exec j s = .next (s.arrive k want))
        (hb : m.body = b) (hw : want b = true) (hr : ((tookIn s k m).bodyArrive m.dst m b).getD s = r) :
        exec j s = .next r := hj.trans (congrArg _ ((State.arrive_of_arrives ha hf hb hw).trans hr))
    have hclk : ((tookIn s k m).core m.dst).arrClk = (s.core m.dst).arrClk := State.arrClk_taken ..
    have hhold : (tookIn s k m).holding m.dst = s.holding m.dst := State.holding_taken ..
    have hwin : ((tookIn s k m).core m.dst).winners = (s.core m.dst).winners := State.winners_taken ..
    have hring : (tookIn s k m).fringFull m.dst = s.fringFull m.dst := State.fringFull_taken ..
    have held {b : Body} (hh : s.holding m.dst = true) (hb : m.body = b) :
        ((tookIn s k m).workArrive m.dst b).getD s = (tookIn s k m).holdEvent m.dst m.body := by
      rw [State.workArrive_holding (hhold.trans hh), hb, Option.getD_some]
    have enters (b : Body) (hh : s.holding m.dst = false) :
        ((tookIn s k m).workArrive m.dst b).getD s = ((tookIn s k m).workEnter m.dst b).getD s := by
      rw [State.workArrive_not_holding (hhold.trans hh)]
    have hgrp : (tookIn s k m).groupOf m.dst = s.groupOf m.dst := State.groupOf_taken ..
    refine ⟨fun i x v hb hi => ⟨fun hfree => ?_, fun hbusy => ?_⟩, fun i x v hb hi => ?_, fun r hb hh => ?_,
      fun seat off w hb => ⟨fun h => ?_, fun h1 h2 => ?_, fun h => ?_⟩, fun off bytes a b hb => ⟨fun hfit hopen => ?_,
        fun hfit => ?_⟩, fun off hb => ?_, fun q hd hb hh => ?_, fun rs hb hh => ?_, fun hh => ⟨fun r hb => ?_,
        fun q hd hb => ?_, fun rs hb => ?_⟩, fun w hb => ?_, fun a b d e hb => ?_, fun g pos r hb => ?_, fun g hb => ?_⟩
    · exact arrives rfl hb rfl (congrArg (Option.getD · s) (State.bodyArrive_mail hi (hclk ▸ hfree)))
    · exact arrives rfl hb rfl (congrArg (Option.getD · s) (State.bodyArrive_mail_waits hi (hclk.trans (not_not.mp hbusy))))
    · exact arrives rfl hb rfl (congrArg (Option.getD · s) (State.bodyArrive_mail_refused hi))
    · exact arrives rfl hb rfl (enters _ hh)
    · exact arrives rfl hb rfl (State.bounceArrive_seat h)
    · exact arrives rfl hb rfl (State.bounceArrive_engine h1 h2)
    · exact arrives rfl hb rfl (State.bounceArrive_wake h)
    · exact arrives rfl hb rfl (State.storeArrive_fits hfit (hgrp ▸ hopen))
    · exact arrives rfl hb rfl (State.storeArrive_misfit hb hfit)
    · exact arrives rfl hb rfl rfl
    · exact arrives rfl hb rfl (enters _ hh)
    · exact arrives rfl hb rfl ((enters _ hh).trans (State.getD_workEnter_steal s))
    · exact arrives rfl hb rfl (held hh hb)
    · exact arrives rfl hb rfl (held hh hb)
    · exact arrives rfl hb rfl (held hh hb)
    · refine arrives rfl hb rfl ?_
      rw [State.bodyArrive, hwin]
      split <;> rfl
    · refine arrives rfl hb rfl ?_
      rw [State.bodyArrive, hring]
      split <;> rfl
    · exact arrives rfl hb rfl rfl
    · exact arrives rfl hb rfl rfl
  · have hclk : ((tookHeld s die k c m).core c).arrClk = (s.core c).arrClk := State.arrClk_taken ..
    refine congrArg Host.Outcome.next ((State.doorDeliver_to hk hfirst hdest hcross hmesh).trans ?_)
    have hbody : (tookHeld s die k c m).deliver c m = (tookHeld s die k c m).bodyArrive c m (.mail i x v) :=
      State.deliver_of_not_fenced ((State.fenced_taken ..).trans hf) hb
    exact congrArg (Option.getD · s) (hbody.trans (State.bodyArrive_mail hi (hclk ▸ hfree)))

end Sys2Proof.Machine

namespace Sys2Proof.Machine
open Sys2Proof.Safety

/-! # Launches -/

/-- A fold of steps keeps what each of them keeps. -/
theorem foldl_keeps {α β : Type} (g : State → β) {f : State → α → State} (h : ∀ s x, g (f s x) = g s) (l : List α)
    (s : State) : g (l.foldl f s) = g s := by
  induction l generalizing s with
  | nil => rfl
  | cons x t ih => exact (ih _).trans (h _ _)

/-! Stealing (R165, R166). -/

section Steal
variable (s : State) (q v c : Nat)

/-- The records that a thief may take of a victim. -/
def State.mayTake (r : Rec) : Bool := stealable q v c r && !s.crosses v c

/-- How many there are, on the deque and in the spill ring. -/
def State.stealCount : Nat :=
  ((s.core v).deque.filter (s.mayTake q v c)).length + (((s.spillRead v q).getD []).filter (s.mayTake q v c)).length

/-- What stays in the victim's spill ring, newest first, and what goes, oldest first: half of what may go, at most 16. -/
def State.stealRing : List Rec × List Rec :=
  takeOldest (s.mayTake q v c) (min 16 ((s.stealCount q v c + 1) / 2)) ((s.spillRead v q).getD []).reverse

/-- The same of the victim's deque, for what the ring leaves of that number. -/
def State.stealDeque : List Rec × List Rec :=
  takeOldest (s.mayTake q v c) (min 16 ((s.stealCount q v c + 1) / 2) - (s.stealRing q v c).2.length) (s.core v).deque

/-- The thief has drawn its next victim; it waits 32 clk before the next probe when this one found nothing. -/
def State.stealDrawn (x : BitVec 16) : State :=
  s.modCore c fun k => { k with lfsr := some x, probeClk := if s.stealCount q v c = 0 then s.clk + 32 else k.probeClk }

/-- The stolen records leave the deque of the victim and go to the thief, as `t` holds the state. -/
def State.stealSends (t : State) : State :=
  (t.modCore v fun k => { k with deque := (s.stealDeque q v c).1 }).post v c none 2 false 0
    (.steal ((s.stealRing q v c).2 ++ (s.stealDeque q v c).2))

end Steal

/-- The next state of a core's generator of victims. -/
def State.stealX (s : State) (c : Nat) : BitVec 16 := nextX ((s.core c).lfsr.getD (BitVec.ofNat 16 (c + 1)))
/-- The victim that it draws. -/
def State.stealVictim (s : State) (c j : Nat) (h : Header) : Nat :=
  h.coreSet.getD (victimOf (s.stealX c) j h.coreSet.length) 0

section Probe
variable {s : State} {c q j : Nat} {h : Header} (hslot : (s.core c).lastSlot = some q) (hhdr : (s.slot q).hdr = some h)
  (hj : s.indexOf q c = some j) (hn : 2 ≤ h.coreSet.length) (hidle : s.stealIdle c = true)
  (hclk : (s.core c).probeClk ≤ s.clk)
include hslot hhdr hj hn hidle hclk

/-- An idle core whose time has come probes its victim. -/
theorem State.stealProbe_eq :
    let v := s.stealVictim c j h
    let s1 := s.stealDrawn q v c (s.stealX c)
    s.stealProbe c = if s.stealCount q v c = 0 then s1 else
      match (if (s.stealRing q v c).2.isEmpty then some s1 else s1.spillKeep v q (s.stealRing q v c).1.reverse) with
      | some t => s.stealSends q v c t
      | none => s1 := by
  have hready : ¬ (h.coreSet.length < 2 ∨ s.stealIdle c = false ∨ s.clk < (s.core c).probeClk) := by
    simp only [hidle, Bool.true_eq_false, false_or, not_or]
    omega
  unfold State.stealProbe
  simp only [hslot, hhdr, hj]
  exact if_neg hready

/-- A probe that finds nothing takes nothing. -/
theorem State.stealProbe_empty (hd : s.stealCount q (s.stealVictim c j h) c = 0) :
    s.stealProbe c = s.stealDrawn q (s.stealVictim c j h) c (s.stealX c) :=
  (State.stealProbe_eq hslot hhdr hj hn hidle hclk).trans (if_pos hd)

variable (hd : s.stealCount q (s.stealVictim c j h) c ≠ 0)
include hd

/-- A probe that takes nothing from the spill ring takes from the deque. -/
theorem State.stealProbe_deque (ha : (s.stealRing q (s.stealVictim c j h) c).2 = []) :
    let v := s.stealVictim c j h
    s.stealProbe c = s.stealSends q v c (s.stealDrawn q v c (s.stealX c)) := by
  refine (State.stealProbe_eq hslot hhdr hj hn hidle hclk).trans ((if_neg hd).trans ?_)
  rw [ha]
  rfl

/-- One that takes from the spill ring leaves the rest of it in its place. -/
theorem State.stealProbe_ring {t : State} (ha : (s.stealRing q (s.stealVictim c j h) c).2 ≠ [])
    (hk : (s.stealDrawn q (s.stealVictim c j h) c (s.stealX c)).spillKeep (s.stealVictim c j h) q
      (s.stealRing q (s.stealVictim c j h) c).1.reverse = some t) :
    s.stealProbe c = s.stealSends q (s.stealVictim c j h) c t := by
  refine (State.stealProbe_eq hslot hhdr hj hn hidle hclk).trans ((if_neg hd).trans ?_)
  rw [if_neg (by simpa using ha), hk]

end Probe

/-! Termination waves (R168). -/

/-- The sums of a wave over the core set of a launch, and whether every core of it is quiet. -/
def State.waveSums (s : State) (q : Nat) (h : Header) : Nat × Nat × Bool :=
  ((h.coreSet.map fun c => mget (s.core c).created q 0).sum, (h.coreSet.map fun c => mget (s.core c).exited q 0).sum,
    h.coreSet.all (s.quiet q))

/-- The first `n` virtual cores of a launch have exited (R174). -/
def State.exitRoutes (s : State) (h : Header) (n : Nat) : State :=
  (List.range n).foldl (fun (s : State) i => { s with routes := mset s.routes ((h.vbase + i) % 2 ^ 32) .exited }) s

@[simp] theorem State.slot_exitRoutes (s : State) (h : Header) (n q : Nat) : (s.exitRoutes h n).slot q = s.slot q :=
  foldl_keeps (f := fun s i => { s with routes := mset s.routes ((h.vbase + i) % 2 ^ 32) .exited }) (State.slot · q)
    (fun _ _ => rfl) _ _

section Wave
variable {s : State} {q : Nat} {h : Header} (hp : (s.slot q).phase = .running) (hh : (s.slot q).hdr = some h)
  (hpl : (s.slot q).placing = false)
include hp hh hpl

/-- The second of two equal quiet waves ends the launch; any other is kept for the next. -/
theorem State.wave_running : ∃ n, s.wave q =
    if (s.slot q).wave = some (s.waveSums q h) ∧ (s.waveSums q h).1 = (s.waveSums q h).2.1 ∧
        (s.waveSums q h).2.2 = true then
      (s.exitRoutes h n).modSlot q fun t => { t with phase := .ended, wave := none, wdogOn := false, placed := false }
    else s.modSlot q fun t => { t with wave := some (s.waveSums q h) } := by
  refine ⟨match h.kind with | 0 => h.coreSet.length | 1 => 1 | _ => (s.slot q).members.length, ?_⟩
  simp only [State.wave, hp, hh, hpl, Bool.false_eq_true, ↓reduceIte]
  rfl

theorem State.slot_wave_ends (hw : (s.slot q).wave = some (s.waveSums q h))
    (heq : (s.waveSums q h).1 = (s.waveSums q h).2.1) (hq : (s.waveSums q h).2.2 = true) :
    (s.wave q).slot q = { s.slot q with phase := .ended, wave := none, wdogOn := false, placed := false } := by
  obtain ⟨n, he⟩ := State.wave_running hp hh hpl
  rw [he, if_pos ⟨hw, heq, hq⟩, State.slot_modSlot_same, State.slot_exitRoutes]

theorem State.slot_wave_goes_on (hw : ¬ ((s.slot q).wave = some (s.waveSums q h) ∧
      (s.waveSums q h).1 = (s.waveSums q h).2.1 ∧ (s.waveSums q h).2.2 = true)) :
    (s.wave q).slot q = { s.slot q with wave := some (s.waveSums q h) } := by
  obtain ⟨n, he⟩ := State.wave_running hp hh hpl
  rw [he, if_neg hw, State.slot_modSlot_same]

end Wave

/-! Placements (R170, R443). -/

section Placement
variable {s : State} {q c : Nat} (hpl : (s.slot q).placing = true) (hy : (s.slot q).yieldTo = none)

section Claim
include hpl hy

/-- A placement claims the next of its cores where nothing stops it (R170). -/
theorem State.ensembleClaim_claims (hn : (s.slot q).nextClaim = some c) (hh : s.holding c = false)
    (hf : s.claimFree c = true) (hm : s.runsMember q c = none) (hc : s.claimant c = none) :
    s.ensembleClaim q = s.claim q c := by
  simp [State.ensembleClaim, hpl, hy, hn, hh, hf, hm, hc]

/-- A green-room host holds the claim back (R245). -/
theorem State.ensembleClaim_held (hn : (s.slot q).nextClaim = some c) (hh : s.holding c = true)
    (hev : ∀ m ∈ (s.core c).heldEv, m.body ≠ .claim q) : s.ensembleClaim q = s.holdEvent c (.claim q) := by
  have hnew : ((s.core c).heldEv.any (·.body == .claim q)) = false := by
    rw [List.any_eq_false]
    exact fun m hm he => hev m hm (beq_iff_eq.mp he)
  simp only [State.ensembleClaim, hpl, hy, hn, hh, hnew, Bool.not_true, Bool.or_self, Bool.false_eq_true, Option.isSome_none,
    ↓reduceIte]

/-- With every core claimed and ready the ensemble starts (log 51). -/
theorem State.ensembleClaim_starts {h : Header} {t : State} (hn : (s.slot q).nextClaim = none)
    (hh : (s.slot q).hdr = some h) (hr : (s.slot q).members.all s.memberReady = true)
    (hd : s.displaceAll (s.slot q).members = some t) :
    s.ensembleClaim q = { t.startEnsemble q h with ended := .done } := by
  simp only [State.ensembleClaim, hpl, hy, hn, hh, hr, hd, Bool.not_true, Bool.or_self, Bool.false_eq_true,
    Option.isSome_none, ↓reduceIte]

/-- A placement that has waited too long asks the ensemble of lower priority in its way to be pre-empted (R443). -/
theorem State.placementExpiry_requests {o : Nat} (hpre : (s.slot q).pre443 = false)
    (hwait : (s.crGlob 0 0x304).toNat / 2 ^ 32 % 2 ^ 16 ≠ 0)
    (hlate : (s.slot q).placedAt + (s.crGlob 0 0x304).toNat / 2 ^ 32 % 2 ^ 16 * 1000 < s.dtime)
    (hn : (s.slot q).nextClaim = some c) (hm : s.runsMember q c = some o) (hprio : s.slotPrio o < s.slotPrio q) :
    s.placementExpiry q =
      (s.slot o).members.foldl (fun s c => s.preRequest c 1) (s.modSlot q fun t => { t with pre443 := true }) := by
  have hdue : ¬ (bits (s.crGlob 0 0x304).toNat 47 32 = 0 ∨ (s.slot q).placing = false ∨
      (s.slot q).yieldTo.isSome = true ∨ (s.slot q).pre443 = true ∨
      s.dtime ≤ (s.slot q).placedAt + bits (s.crGlob 0 0x304).toNat 47 32 * 1000) := by
    rintro (h | h | h | h | h)
    · exact hwait h
    · simp [hpl] at h
    · simp [hy] at h
    · simp [hpre] at h
    · exact absurd hlate (Nat.not_lt.mpr h)
  refine (if_neg hdue).trans ?_
  simp only [hn, hm]
  exact if_pos hprio

end Claim

/-- A claim on a core that no other placement claims adds to the claims of its slot. -/
theorem State.claimed_claim (hc : s.claimant c = none) :
    ((s.claim q c).slot q).claimed = (s.slot q).claimed ++ [c] := by
  simp only [State.claim, hc, State.slot_modSlot_same]

end Placement

/-- Settles O59: each event of a launch is one step whose conditions are those of its rule. -/
theorem launchEvents : Obligations.LaunchEvents := by
  refine ⟨fun s c q j h hslot hhdr hj hn hidle hclk => ⟨fun hd => ?_, fun hd ha => ?_, fun s2 hd ha hk => ?_⟩,
    fun s q h hp hh hpl => ⟨s.wave q, rfl, fun hw heq hq => ?_, fun hw => ?_⟩,
    fun s q hpl hy => ⟨fun c hn hh hf hm hc => ?_, fun c hn hh hev => ?_, fun h s2 hn hh hr hd => ?_⟩,
    fun s q c o hwait hpl hy hpre hlate hn hm hprio => ?_⟩
  · exact congrArg Host.Outcome.next (State.stealProbe_empty hslot hhdr hj hn hidle hclk hd)
  · exact congrArg Host.Outcome.next (State.stealProbe_deque hslot hhdr hj hn hidle hclk hd ha)
  · exact congrArg Host.Outcome.next (State.stealProbe_ring hslot hhdr hj hn hidle hclk hd ha hk)
  · rw [State.slot_wave_ends hp hh hpl hw heq hq]
    exact ⟨rfl, rfl⟩
  · rw [State.slot_wave_goes_on hp hh hpl hw]
    exact ⟨hp, rfl⟩
  · exact ⟨congrArg Host.Outcome.next (State.ensembleClaim_claims hpl hy hn hh hf hm hc), State.claimed_claim hc⟩
  · exact congrArg Host.Outcome.next (State.ensembleClaim_held hpl hy hn hh hev)
  · exact ⟨_, congrArg Host.Outcome.next (State.ensembleClaim_starts hpl hy hn hh hr hd), rfl, rfl⟩
  · exact congrArg Host.Outcome.next (State.placementExpiry_requests hpl hy hpre hwait hlate hn hm hprio)

end Sys2Proof.Machine

namespace Sys2Proof.Machine
open Sys2Proof.Safety

/-! # The command processor -/

/-! What the device's own writes leave (R254, R445). -/

/-- `t` is `s` after writes of the device: memory, its timestamps and errors have changed, and messages may report errors. -/
def DevWrote (s t : State) : Prop :=
  ∃ mem ue lines cores net n, t = { s with mem := mem, ue := ue, lines := lines, cores := cores, net := net, msgNo := n }

theorem DevWrote.refl (s : State) : DevWrote s s := ⟨_, _, _, _, _, _, rfl⟩

theorem DevWrote.trans {s t u : State} (a : DevWrote s t) (b : DevWrote t u) : DevWrote s u := by
  obtain ⟨_, _, _, _, _, _, rfl⟩ := a
  obtain ⟨_, _, _, _, _, _, rfl⟩ := b
  exact ⟨_, _, _, _, _, _, rfl⟩

theorem DevWrote.foldl {α : Type} {f : State → α → State} (hf : ∀ s a, DevWrote s (f s a)) (l : List α) (s : State) :
    DevWrote s (l.foldl f s) := by
  induction l generalizing s with
  | nil => exact .refl s
  | cons a l ih => exact (hf s a).trans (ih _)

/-- A report of an error: its message enters the mesh, or the network interface of its core. -/
theorem DevWrote.faultMsg (s : State) (c seat : Nat) (cause : Cause) (vcore : Nat) (w1 w2 : Word) :
    DevWrote s (s.faultMsg c seat cause vcore w1 w2) := by
  unfold State.faultMsg State.faultTo State.post State.enter
  split <;> exact ⟨_, _, _, _, _, _, rfl⟩

theorem DevWrote.poke (s : State) (c : Nat) (cells : List Host.Cell) : DevWrote s (s.poke c cells) := by
  unfold State.poke
  dsimp only
  split
  · exact ⟨_, _, _, _, _, _, rfl⟩
  · refine DevWrote.trans ⟨_, _, _, _, _, _, rfl⟩ (DevWrote.foldl (fun s q => ?_) _ _)
    exact .faultMsg ..

theorem DevWrote.devWrite (s : State) (lo : Nat) (cells : List Host.Cell) : DevWrote s (s.devWrite lo cells) :=
  (DevWrote.foldl (fun _ _ => ⟨_, _, _, _, _, _, rfl⟩) _ _).trans (.poke ..)

@[simp] theorem State.slots_devWrite (s : State) (lo : Nat) (cells : List Host.Cell) :
    (s.devWrite lo cells).slots = s.slots := by
  obtain ⟨_, _, _, _, _, _, h⟩ := DevWrote.devWrite s lo cells
  rw [h]

@[simp] theorem State.crs_devWrite (s : State) (lo : Nat) (cells : List Host.Cell) :
    (s.devWrite lo cells).crs = s.crs := by
  obtain ⟨_, _, _, _, _, _, h⟩ := DevWrote.devWrite s lo cells
  rw [h]

@[simp] theorem State.fctr_devWrite (s : State) (lo : Nat) (cells : List Host.Cell) :
    (s.devWrite lo cells).fctr = s.fctr := by
  obtain ⟨_, _, _, _, _, _, h⟩ := DevWrote.devWrite s lo cells
  rw [h]

/-! What an entry of the prompt book leaves (R445): slots, free values, and the registers but for the count of entries. -/

section Book
variable (s : State) (q st info : Nat)

section Append
variable (seq rep n : Nat) (raw copy bytes : List Byte)

@[simp] theorem State.slots_bookPut : (s.bookPut n seq q st bytes).slots = s.slots := by
  simp only [State.bookPut, State.slots_setCrGlob, State.slots_devWrite]

@[simp] theorem State.fctr_bookPut : (s.bookPut n seq q st bytes).fctr = s.fctr := by
  simp only [State.bookPut, State.fctr_setCrGlob, State.fctr_devWrite]

theorem State.crs_bookPut : (s.bookPut n seq q st bytes).crs = mset s.crs 0x307 (w64 (n + 1)) := by
  simp only [State.bookPut, State.setCrGlob, State.crs_devWrite, Nat.zero_mul, Nat.zero_add]

@[simp] theorem State.slots_bookAppend : (s.bookAppend seq q st rep info raw copy).slots = s.slots := by
  unfold State.bookAppend
  dsimp only
  split <;> simp only [State.slots_bookPut]

@[simp] theorem State.fctr_bookAppend : (s.bookAppend seq q st rep info raw copy).fctr = s.fctr := by
  unfold State.bookAppend
  dsimp only
  split <;> simp only [State.fctr_bookPut]

theorem State.crs_bookAppend :
    (s.bookAppend seq q st rep info raw copy).crs = mset s.crs 0x307 (w64 (s.bookTail + 1)) := by
  unfold State.bookAppend
  dsimp only
  split <;> simp only [State.crs_bookPut]

@[simp] theorem State.slot_bookAppend (r : Nat) : (s.bookAppend seq q st rep info raw copy).slot r = s.slot r := by
  simp only [State.slot, State.slots_bookAppend]

theorem State.crGlob_bookAppend {m : Nat} (hm : m ≠ 0x307) :
    (s.bookAppend seq q st rep info raw copy).crGlob 0 m = s.crGlob 0 m := by
  simp only [State.crGlob, State.crs_bookAppend]
  exact mget_mset_other _ _ _ (by omega)

end Append

@[simp] theorem State.slot_logCmd (r : Nat) : (s.logCmd q st info).slot r = s.slot r := by
  unfold State.logCmd
  dsimp only
  split
  · rw [State.slot_bookAppend]
  · rfl

@[simp] theorem State.fctr_logCmd : (s.logCmd q st info).fctr = s.fctr := by
  unfold State.logCmd
  dsimp only
  split
  · rw [State.fctr_bookAppend]
  · rfl

theorem State.crGlob_logCmd {m : Nat} (hm : m ≠ 0x307) : (s.logCmd q st info).crGlob 0 m = s.crGlob 0 m := by
  unfold State.logCmd
  dsimp only
  split
  · rw [State.crGlob_bookAppend _ _ _ _ _ _ _ _ hm]
  · rfl

/-- A refused command signals its inverted value (R441). -/
theorem State.slot_refuseCmd : (s.refuseCmd q info).slot q =
    { s.slot q with sigval := (s.slot q).sigval ^^^ 0x8000_0000_0000_0000, phase := .signal } := by
  rw [State.refuseCmd, State.slot_modSlot_same, State.slot_logCmd]

theorem State.crGlob_refuseCmd {m : Nat} (hm : m ≠ 0x307) : (s.refuseCmd q info).crGlob 0 m = s.crGlob 0 m :=
  State.crGlob_logCmd _ _ _ _ hm

end Book

end Sys2Proof.Machine

namespace Sys2Proof.Machine
open Sys2Proof.Safety

/-! Doorbells (R440, R446, R452). -/

section Doorbell
variable {s : State} {v : Word}

/-- At an understudy, and before the firmware runs, a doorbell waits. -/
theorem State.doorbell_waits (h : s.understudy = true ∨ (s.crGlob 0 0x311).toNat % 16 ≠ 2) :
    s.doorbell v = if v.toNat % 4096 ∈ s.bells then s else { s with bells := s.bells ++ [v.toNat % 4096] } := by
  have hwait : (s.understudy || !s.firmware) = true := by
    simpa [State.firmware] using h
  simp only [State.doorbell, hwait, ↓reduceIte, List.contains_iff_mem]

section Answered
variable (hu : s.understudy = false) (hfw : (s.crGlob 0 0x311).toNat % 16 = 2)
include hu hfw

theorem State.understudy_or_not_firmware : (s.understudy || !s.firmware) = false := by simp [State.firmware, hu, hfw]

/-- A doorbell of a queue that the module does not have is refused. -/
theorem State.doorbell_beyond (h : (s.crGlob 0 0x300).toNat % 4096 < v.toNat % 4096) :
    s.doorbell v = s.queueRefuse (v.toNat % 4096) 1 := by
  simp only [State.doorbell, State.understudy_or_not_firmware hu hfw, h, Bool.false_eq_true, ↓reduceIte]

variable (h : v.toNat % 4096 ≤ (s.crGlob 0 0x300).toNat % 4096)
include h

/-- One of a mapped queue reads its TAIL. -/
theorem State.doorbell_mapped {q : Nat} (hq : s.slotOf (v.toNat % 4096) = some q) :
    s.doorbell v = s.modSlot q fun t => { t with doorClk := s.dtime, tail := s.ringTail t } := by
  simp only [State.doorbell, State.understudy_or_not_firmware hu hfw, Nat.not_lt.mpr h, hq, Bool.false_eq_true, ↓reduceIte]

/-- One of another queue maps it to the lowest free slot. -/
theorem State.doorbell_maps {q : Nat} (hn : s.slotOf (v.toNat % 4096) = none) (hq : q < 64)
    (hfree : (s.slot q).mapped = false) (hlow : ∀ r, r < q → (s.slot r).mapped = true) :
    s.doorbell v = s.mapQueue q (v.toNat % 4096) := by
  have hfind : (List.range 64).find? (fun q => !(s.slot q).mapped) = some q := by
    rw [List.find?_range_eq_some]
    exact ⟨by simp [hfree], List.mem_range.mpr hq, fun r hr => by simp [hlow r hr]⟩
  simp only [State.doorbell, State.understudy_or_not_firmware hu hfw, Nat.not_lt.mpr h, hn, hfind, Bool.false_eq_true, ↓reduceIte]

end Answered
end Doorbell

/-! Acceptance (R441). -/

/-- The next command of the ring of a slot stands in the prompt book, and the slot holds it. -/
def State.journalled (s : State) (q : Nat) (raw : List Byte) : State :=
  let t := (s.setCrGlob 0 0x308 (w64 ((s.crGlob 0 0x308).toNat + 1))).bookAppend (s.crGlob 0 0x308).toNat q 1 0 0 raw raw
  t.modSlot q fun k => { k with
    tail := t.ringTail k, seq := (s.crGlob 0 0x308).toNat, reps := 0, cmd := some (Cmd.ofBytes raw)
    sigval := (Cmd.ofBytes raw).sval, phase := .accepted, ackNo := t.bookTail }

section Accept
variable {s : State} {q : Nat}

/-- An idle slot journals the next command of its ring; once the journal stands at the understudy, HEAD advances. -/
theorem State.accept_idle (hm : (s.slot q).mapped = true) (hs : s.stopped = false) (hu : s.understudy = false)
    (hp : (s.slot q).phase = .idle) (ha : (s.slot q).again = []) (ht : s.ringHead (s.slot q) < (s.slot q).tail) :
    let ks := keysFrom ((s.slot q).ring + 64 * (s.ringHead (s.slot q) % 2 ^ (s.slot q).log)) 64
    s.bad ks = false →
      let t := s.journalled q (memReads s.mem ks)
      s.accept q = if t.syncWait (t.slot q) then t else t.acceptEnd q := by
  intro ks hb
  simp only [State.accept, hm, hs, hu, hp, ha, Nat.not_le.mpr ht, ks, hb, Bool.not_true, Bool.false_and, Bool.or_self,
    Bool.false_eq_true, ↓reduceIte]
  rfl

section Journalled
variable (s) (q) (raw : List Byte)

theorem State.cmd_journalled : ((s.journalled q raw).slot q).cmd = some (Cmd.ofBytes raw) := by
  rw [State.journalled, State.slot_modSlot_same]

theorem State.seq_journalled : ((s.journalled q raw).slot q).seq = (s.crGlob 0 0x308).toNat := by
  rw [State.journalled, State.slot_modSlot_same]

theorem State.sigval_journalled : ((s.journalled q raw).slot q).sigval = (Cmd.ofBytes raw).sval := by
  rw [State.journalled, State.slot_modSlot_same]

/-- The journal counts the command in SEQ. -/
theorem State.crGlob_seq_journalled :
    (s.journalled q raw).crGlob 0 0x308 = BitVec.ofNat 64 ((s.crGlob 0 0x308).toNat + 1) := by
  rw [State.journalled, State.crGlob_modSlot, State.crGlob_bookAppend _ _ _ _ _ _ _ _ (by decide),
    State.crGlob_setCrGlob_same]
  rfl

theorem State.crGlob_setCrGlob_other (t : State) {n m : Nat} (v : Word) (h : n ≠ m) :
    (t.setCrGlob 0 n v).crGlob 0 m = t.crGlob 0 m := by
  simp only [State.setCrGlob, State.crGlob]
  exact mget_mset_other _ _ _ (by omega)

/-- It leaves the module's role. -/
theorem State.mirrors_journalled : (s.journalled q raw).mirrors = s.mirrors := by
  have hrole : (s.journalled q raw).crGlob 0 0x309 = s.crGlob 0 0x309 := by
    rw [State.journalled, State.crGlob_modSlot, State.crGlob_bookAppend _ _ _ _ _ _ _ _ (by decide)]
    exact State.crGlob_setCrGlob_other _ _ (by decide)
  simp only [State.mirrors, State.understudy, hrole]

end Journalled

/-- HEAD of the queue of a slot advances (R441). -/
def State.headStep (s : State) (q : Nat) : State :=
  s.devWrite 0 (cellsAt (s.qrec (s.slot q).qidx + 16) (leBytes 8 (s.ringHead (s.slot q) + 1)))

@[simp] theorem State.slot_headStep (s : State) (q r : Nat) : (s.headStep q).slot r = s.slot r := by
  simp only [State.headStep, State.slot, State.slots_devWrite]

@[simp] theorem State.crGlob_headStep (s : State) (q m : Nat) : (s.headStep q).crGlob 0 m = s.crGlob 0 m := by
  simp only [State.headStep, State.crGlob, State.crs_devWrite]

section AcceptEnd
variable {c : Cmd} (hc : (s.slot q).cmd = some c)
include hc

/-- HEAD advances, and the command goes on or is refused for its record. -/
theorem State.acceptEnd_of_cmd : s.acceptEnd q =
    if c.bad then (s.headStep q).refuseCmd q 1 else (s.headStep q).modSlot q fun t => { t with phase := .fetched } := by
  simp only [State.acceptEnd, hc]
  rfl

theorem State.cmd_acceptEnd : ((s.acceptEnd q).slot q).cmd = some c := by
  rw [State.acceptEnd_of_cmd hc]
  split
  · rw [State.slot_refuseCmd, State.slot_headStep, hc]
  · rw [State.slot_modSlot_same, State.slot_headStep, hc]

theorem State.seq_acceptEnd : ((s.acceptEnd q).slot q).seq = (s.slot q).seq := by
  rw [State.acceptEnd_of_cmd hc]
  split
  · rw [State.slot_refuseCmd, State.slot_headStep]
  · rw [State.slot_modSlot_same, State.slot_headStep]

theorem State.crGlob_acceptEnd {m : Nat} (hm : m ≠ 0x307) : (s.acceptEnd q).crGlob 0 m = s.crGlob 0 m := by
  rw [State.acceptEnd_of_cmd hc]
  split
  · rw [State.crGlob_refuseCmd _ _ _ hm, State.crGlob_headStep]
  · rw [State.crGlob_modSlot, State.crGlob_headStep]

theorem State.slot_acceptEnd_good (hgood : c.bad = false) :
    (s.acceptEnd q).slot q = { s.slot q with phase := .fetched } := by
  rw [State.acceptEnd_of_cmd hc, hgood, if_neg Bool.false_ne_true, State.slot_modSlot_same, State.slot_headStep]

end AcceptEnd
end Accept

/-! The operations of a command (R441, R453). -/

section Command
variable {s : State} {q : Nat} {c : Cmd} (hcmd : (s.slot q).cmd = some c)
include hcmd

section Fetched
variable (hphase : (s.slot q).phase = .fetched)
include hphase

/-- An understudy dispatches nothing. -/
theorem State.cmdLaunch_understudy (hu : s.understudy = true) : s.cmdLaunch q = s := by
  simp only [State.cmdLaunch, hphase, hcmd, hu, Bool.or_true, ↓reduceIte]

section Launch
variable (hop : c.op = 1) (hu : s.understudy = false) {ks : List Nat}
  (hks : s.slotFind q c.arg.toNat 128 false = .ok ks)
include hop hu hks

/-- A launch whose header breaks a limit, or does not lie at a multiple of 64, is refused. -/
theorem State.cmdLaunch_refused
    (h : headerOk (memReads s.mem ks) (Header.ofBytes (memReads s.mem ks)) = false ∨ c.arg.toNat % 64 ≠ 0) :
    s.cmdLaunch q = s.refuseCmd q 2 := by
  have hbad : (!headerOk (memReads s.mem ks) (Header.ofBytes (memReads s.mem ks)) || c.arg.toNat % 64 != 0) = true := by
    simpa using h
  simp only [State.cmdLaunch, hphase, hcmd, hop, hu, hks, hbad, ne_eq, not_true_eq_false, decide_false, Bool.or_self,
    Bool.false_eq_true, ↓reduceIte]

/-- One without a table of its own takes the segment image of its queue. -/
theorem State.cmdLaunch_image (hok : headerOk (memReads s.mem ks) (Header.ofBytes (memReads s.mem ks)) = true)
    (ha : c.arg.toNat % 64 = 0) (htab : (Header.ofBytes (memReads s.mem ks)).segtab = 0) :
    s.cmdLaunch q = if s.bad (keysFrom (s.slot q).segimg 192) then s.refuseCmd q 2
      else s.dispatch q c.arg (Header.ofBytes (memReads s.mem ks))
        (segsOf (memReads s.mem (keysFrom (s.slot q).segimg 192))) := by
  simp only [State.cmdLaunch, hphase, hcmd, hop, hu, hks, hok, ha, htab, ne_eq, not_true_eq_false, decide_false,
    Bool.or_self, bne_self_eq_false, Bool.not_true, Bool.false_eq_true, ↓reduceIte]

end Launch

theorem State.cmdWait_fetched (hop : c.op = 2) : s.cmdWait q = ((s.wdogStep q 0).modSlot q fun t => { t with
    phase := .wait, wdogClk := s.dtime, wdogOn := true }).waitDone q := by
  simp only [State.cmdWait, hphase, hcmd, hop, ↓reduceIte]

theorem State.cmdSignal_fetched (hop : c.op = 3) :
    s.cmdSignal q = (s.logCmd q 3 0).modSlot q fun t => { t with phase := .signal } := by
  simp only [State.cmdSignal, hphase, hcmd, hop, ↓reduceIte]

/-- A quote that is written takes 48 free values. -/
theorem State.cmdQuote_written {s2 : State} {ks : List Nat} (hop : c.op = 4)
    (hks : s.slotFind q c.arg.toNat 48 false = .ok ks)
    (hw : s.slotWrite q 0 c.eaddr (s.quote (memReads s.mem ks)) .fetched = (s2, true)) :
    s.cmdQuote q = (State.logCmd { s2 with fctr := s2.fctr + 48 } q 3 0).modSlot q fun t => { t with phase := .signal } := by
  simp only [State.cmdQuote, hphase, hcmd, hop, hks, hw, ne_eq, not_true_eq_false, ↓reduceIte]

end Fetched

theorem State.waitDone_over (hphase : (s.slot q).phase = .wait) (hover : s.waitOver c.arg.toNat = true) :
    s.waitDone q = (s.logCmd q 3 0).modSlot q fun t => { t with phase := .signal, wdogOn := false } := by
  simp only [State.waitDone, hphase, hcmd, hover, ↓reduceIte]

/-- A command that has signalled leaves its slot. -/
theorem State.slot_signal_written {s2 : State} (hbusy : s.launchBusy q (s.slot q) = false) (ha : c.saddr ≠ 0)
    (hw : s.slotWrite q s.lastTs c.saddr (leBytes 8 (s.slot q).sigval.toNat) .signal = (s2, true)) :
    (s.signal q).slot q = { s2.slot q with phase := .idle, cmd := none } := by
  have hleft : ((s2.logCmd q 4 0).modSlot q fun t => { t with phase := .idle, cmd := none }).slot q =
      { s2.slot q with phase := .idle, cmd := none } := by
    rw [State.slot_modSlot_same, State.slot_logCmd]
  simp only [State.signal, hcmd, hbusy, ha, hw, Bool.not_true, Bool.false_eq_true, ↓reduceIte]
  split
  · exact hleft
  · exact hleft

end Command

theorem State.slot_ringWaiting_of_no_bells {s : State} (hb : s.bells = []) (q : Nat) :
    s.ringWaiting.slot q = s.slot q := by
  rw [State.ringWaiting, hb, List.foldl_nil]
  rfl

/-- A slot with nothing to do for 100 µs is freed (R440). -/
theorem State.slot_slotFree {s : State} {q : Nat} (hm : (s.slot q).mapped = true) (hp : (s.slot q).phase = .idle)
    (ha : (s.slot q).again = []) (ht : (s.slot q).tail ≤ s.ringHead (s.slot q))
    (hd : (s.slot q).doorClk + 100000 ≤ s.dtime) (hb : s.bells = []) :
    (s.slotFree q).slot q = { Slot.free with launches := (s.slot q).launches, energy := (s.slot q).energy } := by
  have hfree : s.slotFree q =
      (s.modSlot q fun t => { Slot.free with launches := t.launches, energy := t.energy }).ringWaiting := by
    simp only [State.slotFree, hm, hp, ha, ht, hd, beq_self_eq_true, List.isEmpty_nil, decide_true, Bool.and_self,
      ↓reduceIte]
  have hbells : (s.modSlot q fun t => { Slot.free with launches := t.launches, energy := t.energy }).bells = [] := hb
  rw [hfree, State.slot_ringWaiting_of_no_bells hbells, State.slot_modSlot_same]

/-! The clauses of O58. -/

/-- Settles O58, clause by clause with the laws of the command processor. -/
theorem commandEvents : Obligations.CommandEvents := by
  refine ⟨fun s v => ⟨?_, fun hu hfw => ⟨?_, ?_, ?_⟩⟩, ?accept, ?command, ?wait, ?signal, ?free⟩
  · exact fun h => congrArg Host.Outcome.next (State.doorbell_waits h)
  · exact fun h => congrArg Host.Outcome.next (State.doorbell_beyond hu hfw h)
  · exact fun q h hq => congrArg Host.Outcome.next (State.doorbell_mapped hu hfw h hq)
  · exact fun q h hn hq hfree hlow => congrArg Host.Outcome.next (State.doorbell_maps hu hfw h hn hq hfree hlow)
  case accept =>
    intro s q t ks raw seq hm hs hu hp ha ht hb
    have hc := s.cmd_journalled q raw
    refine ⟨_, congrArg Host.Outcome.next (State.accept_idle hm hs hu hp ha ht hb), ?_⟩
    by_cases hsync : (s.journalled q raw).syncWait ((s.journalled q raw).slot q) = true
    · rw [if_pos hsync]
      refine ⟨hc, s.seq_journalled q raw, s.crGlob_seq_journalled q raw, fun hmir _ => ?_⟩
      simp [State.syncWait, State.mirrors_journalled, hmir] at hsync
    · rw [if_neg hsync]
      refine ⟨State.cmd_acceptEnd hc, (State.seq_acceptEnd hc).trans (s.seq_journalled q raw),
        (State.crGlob_acceptEnd hc (by decide)).trans (s.crGlob_seq_journalled q raw), fun _ hgood => ?_⟩
      rw [State.slot_acceptEnd_good hc hgood]
      exact ⟨rfl, s.sigval_journalled q raw⟩
  case command =>
    refine fun s q c ks hphase hcmd => ⟨fun _ hu => ?_, fun hop hu hks => ⟨fun h => ?_, fun hok ha htab => ?_⟩,
      fun hop => ?_, fun hop => ?_, fun s2 hop hks hw => ?_⟩
    · exact congrArg Host.Outcome.next (State.cmdLaunch_understudy hcmd hphase hu)
    · exact congrArg Host.Outcome.next (State.cmdLaunch_refused hcmd hphase hop hu hks h)
    · exact congrArg Host.Outcome.next (State.cmdLaunch_image hcmd hphase hop hu hks hok ha htab)
    · exact congrArg Host.Outcome.next (State.cmdWait_fetched hcmd hphase hop)
    · exact congrArg Host.Outcome.next (State.cmdSignal_fetched hcmd hphase hop)
    · refine ⟨_, congrArg Host.Outcome.next (State.cmdQuote_written hcmd hphase hop hks hw), ?_, ?_⟩
      · rw [State.slot_modSlot_same]
      · rw [State.fctr_modSlot, State.fctr_logCmd]
  case wait =>
    exact fun s q c hphase hcmd hover => congrArg Host.Outcome.next (State.waitDone_over hcmd hphase hover)
  case signal =>
    intro s s2 q c hphase hcmd hbusy ha hw
    have hstep : s.cmdSignal q = s.signal q := by simp only [State.cmdSignal, hphase]
    refine ⟨_, congrArg Host.Outcome.next hstep, ?_⟩
    rw [State.slot_signal_written hcmd hbusy ha hw]
    exact ⟨rfl, rfl⟩
  case free =>
    intro s q t hm hp ha ht hd hb
    refine ⟨s.slotFree q, rfl, ?_, State.mem_slotFree ..⟩
    rw [State.slot_slotFree hm hp ha ht hd hb]
    rfl

end Sys2Proof.Machine

namespace Sys2Proof.Machine
open Sys2Proof.Safety

/-! # widf and widfr -/

/-- A field of width 0 reads 0 (R188). -/
theorem wfield_eq_zero {w : BitVec 42} {k : Nat} (x : Word) (h : widWidth w k = 0) : wfield w x k = 0 := if_pos h

/-- A field takes its bits from above the fields before it, and extends them by zeros (R188). -/
theorem wfield_getLsbD {w : BitVec 42} {k i : Nat} (x : Word) (h : widWidth w k ≠ 0) (hi : i < 64) :
    (wfield w x k).getLsbD i =
      (decide (i < widWidth w k) && x.getLsbD (((List.range k).map (widWidth w)).sum + i)) := by
  rw [wfield, if_neg h, w64, BitVec.getLsbD_ofNat, decide_eq_true hi, Bool.true_and, testBit_field]
  rfl

/-- Settles O30: each instruction is an `issue` of `wfield`, whose bits are those of the field. -/
theorem workIdFields : Obligations.WorkIdFields :=
  ⟨fun _ _ _ hr => issue_done hr rfl rfl rfl, fun _ _ _ _ hr => issue_done hr rfl rfl rfl,
    fun _ x _ _ => ⟨wfield_eq_zero x, fun h _ hi => wfield_getLsbD x h hi⟩, by decide, by decide, by decide⟩

end Sys2Proof.Machine

namespace Sys2Proof.Machine
open Sys2Proof.Safety

/-! # mclr, mwait and mwait.any -/

/-! The operand read leaves what a wait for mail looks at (R150, R197). -/

/-- A change of a seat that leaves its presence bits leaves those of every seat. -/
theorem State.mpres_modSeat (s : State) (c i : Nat) {f : Seat → Seat} (hf : ∀ t, (f t).mpres = t.mpres) (d j : Nat) :
    ((s.modSeat c i f).seat d j).mpres = (s.seat d j).mpres := by
  by_cases h : c * 16 + i = d * 16 + j
  · have hmod : (s.modSeat c i f).seat d j = f (s.seat d j) := by simp [State.modSeat, State.seat, h]
    rw [hmod, hf]
  · rw [State.seat_modSeat_other s f h]

theorem State.mpres_readCode (s : State) (p : Machine.Place) (n d j : Nat) :
    ((s.readCode p n).1.seat d j).mpres = (s.seat d j).mpres := by
  unfold State.readCode
  dsimp only
  split
  · split
    next => rfl
    next => exact State.mpres_modSeat s p.core p.num (f := fun t => { t with qin := dropAt t.qin _ }) (fun _ => rfl) d j
  · split
    next => rfl
    next => exact State.mpres_modSeat s p.core p.num (f := fun t => { t with evq := dropAt t.evq _ }) (fun _ => rfl) d j
  · rfl

theorem State.mpres_operands (p : Machine.Place) (l : List (Nat × Lit)) (d j : Nat) : ∀ (s : State) (lits : List Word),
    ((s.operands p l lits).1.seat d j).mpres = (s.seat d j).mpres := by
  induction l with
  | nil => exact fun s lits => rfl
  | cons x t ih =>
    intro s lits
    unfold State.operands
    split
    · exact ih s _
    · exact (ih _ _).trans (s.mpres_readCode p _ d j)

section MailWait
variable {s s1 : State} {h : Shape} {vals : List Word}

/-- The state after the operand read: the literal words are fetched, then the fields are read. -/
theorem operands_of_issues (hr : Issues s h s1 vals) :
    ∃ m k lits, s1 = (State.operands { s with mmus := m, l2 := k } s.cur h.srcs lits).1 := by
  obtain ⟨-, -, -, -, -, -, -, -, -, -, ho⟩ := hr
  obtain ⟨m, k, hlit⟩ := s.literals_only (s.stream s.cur) h.srcs ((s.bank s.cur).pc + 4)
  unfold operandsOf at ho
  split at ho
  next lits heq =>
    rw [heq] at hlit
    obtain rfl : _ = { s with mmus := m, l2 := k } := hlit
    exact ⟨m, k, lits, (congrArg Prod.fst (Option.some.inj ho)).symm⟩
  next => cases ho

theorem mpres_of_issues (hr : Issues s h s1 vals) (d j : Nat) : (s1.seat d j).mpres = (s.seat d j).mpres := by
  obtain ⟨m, k, lits, rfl⟩ := operands_of_issues hr
  exact State.mpres_operands ..

theorem dtime_of_issues (hr : Issues s h s1 vals) : s1.dtime = s.dtime := by
  obtain ⟨m, k, ⟨bs, ss, rfl⟩, -⟩ := popped_of_issues hr
  rfl

/-- Before and after the operand read a wait for mail is over for the same reasons. -/
theorem mwaitOver_of_issues (hr : Issues s h s1 vals) (any : Bool) :
    s.mwaitOver any (asks s h vals) = s1.mwaitOver any (ctx s h vals) := by
  simp only [State.mwaitOver, State.mwaitPres, mpres_of_issues hr, dtime_of_issues hr]
  rfl

end MailWait

/-! When a wait for mail is over (R197). -/

section Over
variable {s : State} {x : Ctx}

/-- The deadline of a wait has come. -/
def State.mwaitLate (s : State) (x : Ctx) : Prop := x.v 1 ≠ 0 ∧ (x.v 1).toNat ≤ s.dtime

theorem State.mwaitOver_all_iff :
    s.mwaitOver false x = true ↔ s.mwaitPres x = (x.v 0).setWidth 32 ∨ s.mwaitLate x := by
  simp [State.mwaitOver, State.mwaitLate]

theorem State.mwaitOver_any_iff :
    s.mwaitOver true x = true ↔ s.mwaitPres x ≠ 0 ∨ (x.v 0).setWidth 32 = (0 : BitVec 32) ∨ s.mwaitLate x := by
  simp [State.mwaitOver, State.mwaitLate, or_assoc]

end Over

/-! The three ways in which mwait and mwait.any end (R197, R202). -/

section Mwait
variable {f : FmtR} {any : Bool} {s s1 : State} {m d : Word}

/-- What mwait and mwait.any look at. -/
def mwaitShape (f : FmtR) : Shape := { srcs := [isrc f.ra, isrc f.rb], dst := some f.rd.toNat, lat := .fixed 1 }

/-- The issue of mwait, and of mwait.any. -/
def mwaitIssue (f : FmtR) (any : Bool) (s : State) : Out :=
  issueWait (mwaitShape f) f.hold (mwaitWaits any) (fun _ _ => none) (mwaitAct any) s

theorem exec_mwait_issue (f : FmtR) (s : State) : exec (.mwait f) s = mwaitIssue f false s := rfl
theorem exec_mwaitAny_issue (f : FmtR) (s : State) : exec (.mwaitAny f) s = mwaitIssue f true s := rfl

variable (hr : Issues s (mwaitShape f) s1 [m, d])
include hr

/-- What mwait waits for, in terms of the state after its operand read. -/
theorem mwaitWaits_eq : mwaitWaits any (asks s (mwaitShape f) [m, d]) s =
    if s1.mwaitOver any (ctx s (mwaitShape f) [m, d]) || (s.cur.reflex && d == 0) then none else some .presence := by
  rw [← mwaitOver_of_issues hr]
  rfl

theorem mwaitIssue_over (h : s1.mwaitOver any (ctx s (mwaitShape f) [m, d]) = true) :
    mwaitIssue f any s = .next (retired s (mwaitShape f) [m, d] f.hold s1
      (some ((s1.mwaitPres (ctx s (mwaitShape f) [m, d])).setWidth 64)) (succ s (mwaitShape f))) :=
  issueWait_done hr ((mwaitWaits_eq hr).trans (if_pos (by rw [h, Bool.true_or]))) rfl rfl rfl (if_pos h)

theorem mwaitIssue_waits (h : ¬ s1.mwaitOver any (ctx s (mwaitShape f) [m, d]) = true)
    (hx : ¬ (s.cur.reflex = true ∧ d = 0)) : mwaitIssue f any s = .next (s.stall .presence) :=
  issueWait_own hr ((mwaitWaits_eq hr).trans (if_neg (by simpa [h] using hx)))

theorem mwaitIssue_blocked (h : ¬ s1.mwaitOver any (ctx s (mwaitShape f) [m, d]) = true)
    (hx : s.cur.reflex = true ∧ d = 0) : mwaitIssue f any s = .next (trapped s (mwaitShape f) .reflexBlock 0 none) := by
  have hw := (mwaitWaits_eq (any := any) hr).trans (if_pos (by simp [hx]))
  exact congrArg Host.Outcome.next (issueWith_body_trap hr hw rfl rfl ((if_neg h).trans (if_pos hx)))

end Mwait

/-! mclr (R196). -/

section Mclr
variable {x : Ctx} {s : State}

theorem mclrAct_clears (h : (s.bank x.p).openScene = none) :
    mclrAct x s = .done (s.modSeat x.p.core x.p.seat fun t =>
      { t with mpres := t.mpres &&& ~~~s.mclrMask x.p ((x.v 0).setWidth 32) }) none none := by
  simp [mclrAct, h]

theorem mclrAct_scene {sc : Scene} (h : (s.bank x.p).openScene = some sc) :
    mclrAct x s = .done (s.modBank x.p fun b => b.buffer 1 (.mclr (s.mclrMask x.p ((x.v 0).setWidth 32)) s.clk))
      none none := by
  simp [mclrAct, h]

end Mclr

/-- Settles O32: a scene decides for mclr; the presence bits, the deadline and the kind of seat decide for a wait. -/
theorem mailResults : Obligations.MailResults := by
  refine ⟨fun f s s1 m hr => ⟨fun hsc => issue_done hr rfl rfl (mclrAct_clears hsc),
    fun sc hsc => issue_done hr rfl rfl (mclrAct_scene hsc)⟩, fun f s s1 m d hr => ?_⟩
  have hall := State.mwaitOver_all_iff (s := s1) (x := ctx s (mwaitShape f) [m, d])
  have hany := State.mwaitOver_any_iff (s := s1) (x := ctx s (mwaitShape f) [m, d])
  exact ⟨fun h => mwaitIssue_over hr (hall.mpr h), fun h => mwaitIssue_over hr (hany.mpr h),
    fun hg hl => mwaitIssue_waits hr (mt hall.mp (not_or.mpr ⟨hg, hl⟩)),
    fun hg hl => mwaitIssue_blocked hr (mt hall.mp (not_or.mpr ⟨hg, hl⟩)),
    fun hg hm hl => mwaitIssue_waits hr (mt hany.mp (not_or.mpr ⟨not_not.mpr hg, not_or.mpr ⟨hm, hl⟩⟩)),
    fun hg hm hl => mwaitIssue_blocked hr (mt hany.mp (not_or.mpr ⟨not_not.mpr hg, not_or.mpr ⟨hm, hl⟩⟩))⟩

end Sys2Proof.Machine

namespace Sys2Proof.Machine
open Sys2Proof.Safety

/-! # bar, gang and ungang -/

/-! One more way in which an instruction with checks ends. -/

/-- An instruction whose work names its last state ends in that. -/
theorem issueChk_final {s s1 s2 : State} {h : Shape} {hold : BitVec 2} {check : Check} {body : Ctx → State → Act}
    {vals : List Word} (hr : Issues s h s1 vals) (hc : h.closes = false) (hk : check (ctx s h vals) s1 = none)
    (hb : body (ctx s h vals) s1 = .final s2) : issueChk h hold check body s = .next s2 := by
  refine congrArg Host.Outcome.next ?_
  rw [issueWith_ready hr rfl hc, hk, Option.getD_none, hb]
  rfl

/-! The checks that bar, gang and ungang share (R181, R202, R395). -/

section SyncChecks
variable {x : Ctx} {s : State} {c : Cause} {info : Nat} {fa : Option Word}

theorem syncChk_handler (h : (s.bank x.p).handler = true) : syncChk x s = some (.trap .privInsn 0 none) := if_pos h

theorem syncChk_scene (h : (s.bank x.p).handler = false) (hsc : (s.bank x.p).openScene.isSome = true) :
    syncChk x s = some (.trap .syncInScene 0 none) := by simp only [syncChk, h, hsc, Bool.false_eq_true, ↓reduceIte]

theorem syncChk_eq_none (h : (s.bank x.p).handler = false) (hsc : (s.bank x.p).openScene = none) : syncChk x s = none := by
  simp [syncChk, h, hsc]

theorem gangX_reflex (h : x.p.reflex = true) : gangX x s = some (.trap .gangBroken 0 none) := if_pos h

theorem gangX_eq_none (h : x.p.reflex = false) : gangX x s = none := if_neg (Bool.eq_false_iff.mp h)

/-- gang and ungang trap as the check that they share with bar does. -/
theorem gangChks_of_syncChk {a : Act} (h : syncChk x s = some a) : chks [syncChk, gangX] x s = some a := by
  simp only [chks, List.findSome?_cons, h]

end SyncChecks

/-! bar (R189, R201). -/

/-- Every member of the ensemble of `t` has issued its n-th bar or has exited. -/
def Slot.Arrived (t : Slot) (n : Nat) : Prop := ∀ i, i < t.members.length → n ≤ mget t.bars i 0 ∨ mget t.mlive i 0 = 0

theorem State.barDone_iff {s : State} {q n : Nat} : s.barDone q n = true ↔ (s.slot q).Arrived n := by
  simp [State.barDone, Slot.Arrived]

section BarWork
variable {x : Ctx} {s : State} {n : Nat}

theorem barAct_alone (hw : (s.bank x.p).wip = .none)
    (h : (s.bank x.p).ens = 0 ∨ s.ganged x.p = true ∨ (s.slot (s.bank x.p).cslot.toNat).hdr = none) :
    barAct x s = .done s none none := by
  by_cases he : (s.bank x.p).ens = 0 ∨ s.ganged x.p = true
  · simp only [barAct, hw, if_pos he]
  · have hn : (s.slot (s.bank x.p).cslot.toNat).hdr = none := (or_assoc.mpr h).resolve_left he
    simp only [barAct, hw, if_neg he, hn]

/-- The number that the next bar of a seat has: one more than its core has issued. -/
def State.barNext (s : State) (p : Machine.Place) (hd : Header) : Nat :=
  mget (s.slot (s.bank p).cslot.toNat).bars ((s.bank p).vcore.toNat - hd.vbase) 0 + 1

/-- The arrival of that bar is counted. -/
def State.barCount (s : State) (p : Machine.Place) (hd : Header) : State :=
  s.modSlot (s.bank p).cslot.toNat fun t =>
    { t with bars := mset t.bars ((s.bank p).vcore.toNat - hd.vbase) (s.barNext p hd) }

section Ensemble
variable {hd : Header} (hw : (s.bank x.p).wip = .none) (he : (s.bank x.p).ens ≠ 0) (hg : s.ganged x.p = false)
  (hh : (s.slot (s.bank x.p).cslot.toNat).hdr = some hd)
include hw he hg hh

/-- In an ensemble bar counts its arrival, and begins unless it is the last. -/
theorem barAct_counts :
    barAct x s = if (s.barCount x.p hd).barDone (s.bank x.p).cslot.toNat (s.barNext x.p hd)
      then .done (s.barCount x.p hd) none none
      else .begun ((s.barCount x.p hd).modBank x.p fun b => { b with wip := .bar (s.barNext x.p hd) }) := by
  have hens : ¬ ((s.bank x.p).ens = 0 ∨ s.ganged x.p = true) := by simp [he, hg]
  simp only [barAct, hw, if_neg hens, hh]
  rfl

theorem barAct_last (h : ((s.barCount x.p hd).slot (s.bank x.p).cslot.toNat).Arrived (s.barNext x.p hd)) :
    barAct x s = .done (s.barCount x.p hd) none none := by
  rw [barAct_counts hw he hg hh, if_pos (State.barDone_iff.mpr h)]

theorem barAct_begun (h : ¬ ((s.barCount x.p hd).slot (s.bank x.p).cslot.toNat).Arrived (s.barNext x.p hd)) :
    barAct x s = .begun ((s.barCount x.p hd).modBank x.p fun b => { b with wip := .bar (s.barNext x.p hd) }) := by
  rw [barAct_counts hw he hg hh, if_neg (mt State.barDone_iff.mp h)]

end Ensemble

section Resumed
variable (hw : (s.bank x.p).wip = .bar n)
include hw

theorem barAct_over (h : (s.slot (s.bank x.p).cslot.toNat).Arrived n) : barAct x s = .done s none none := by
  simp only [barAct, hw, State.barDone_iff.mpr h, ↓reduceIte]

theorem barAct_waits (h : ¬ (s.slot (s.bank x.p).cslot.toNat).Arrived n) : barAct x s = .wait .presence := by
  simp only [barAct, hw, mt State.barDone_iff.mp h, Bool.false_eq_true, ↓reduceIte]

end Resumed

end BarWork

section Bar
variable {f : FmtR} {s : State} {n : Nat}

/-- What bar, gang and ungang look at: nothing. -/
def syncShape : Shape := { srcs := [] }

/-- The seat issues an instruction that no check of bar stops. -/
def SyncReady (s : State) : Prop :=
  Issues s syncShape s [] ∧ (s.bank s.cur).handler = false ∧ (s.bank s.cur).openScene = none

theorem SyncReady.syncChk_eq_none (hr : SyncReady s) : syncChk (ctx s syncShape []) s = none :=
  Machine.syncChk_eq_none hr.2.1 hr.2.2

theorem SyncReady.wip_eq_none (hr : SyncReady s) : (s.bank s.cur).wip = .none := by
  obtain ⟨⟨hwip, -⟩, -, -⟩ := hr
  exact hwip

theorem exec_bar_alone (hr : SyncReady s)
    (h : (s.bank s.cur).ens = 0 ∨ s.ganged s.cur = true ∨ (s.slot (s.bank s.cur).cslot.toNat).hdr = none) :
    exec (.bar f) s = .next (passed s syncShape [] f.hold s) :=
  issueChk_done hr.1 rfl rfl hr.syncChk_eq_none (barAct_alone hr.wip_eq_none h)

section Ensemble
variable {hd : Header} (hr : SyncReady s) (he : (s.bank s.cur).ens ≠ 0) (hg : s.ganged s.cur = false)
  (hh : (s.slot (s.bank s.cur).cslot.toNat).hdr = some hd)
include hr he hg hh

theorem exec_bar_last (h : ((s.barCount s.cur hd).slot (s.bank s.cur).cslot.toNat).Arrived (s.barNext s.cur hd)) :
    exec (.bar f) s = .next (passed s syncShape [] f.hold (s.barCount s.cur hd)) :=
  issueChk_done hr.1 rfl rfl hr.syncChk_eq_none (barAct_last hr.wip_eq_none he hg hh h)

theorem exec_bar_begun
    (h : ¬ ((s.barCount s.cur hd).slot (s.bank s.cur).cslot.toNat).Arrived (s.barNext s.cur hd)) :
    exec (.bar f) s = .next (begun s syncShape []
      ((s.barCount s.cur hd).modBank s.cur fun b => { b with wip := .bar (s.barNext s.cur hd) })) :=
  issueChk_begun hr.1 rfl rfl hr.syncChk_eq_none (barAct_begun hr.wip_eq_none he hg hh h)

end Ensemble

theorem exec_bar_over (hw : (s.bank s.cur).wip = .bar n) (h : (s.slot (s.bank s.cur).cslot.toNat).Arrived n) :
    exec (.bar f) s = .next (passed s syncShape [] f.hold s) :=
  issueChk_resume_done (by rw [hw]; rfl) rfl rfl (barAct_over hw h)

theorem exec_bar_waits (hw : (s.bank s.cur).wip = .bar n) (h : ¬ (s.slot (s.bank s.cur).cslot.toNat).Arrived n) :
    exec (.bar f) s = .next (s.stall .presence) :=
  issueChk_resume_wait (by rw [hw]; rfl) (barAct_waits hw h)

end Bar

/-! gang (R199, R201). -/

/-- The size that a gang instruction names is that of its ensemble, and a gang can have it. -/
def GangSizeOk (n ex : Nat) : Prop := n = ex ∧ (ex = 2 ∨ ex = 4 ∨ ex = 8)

/-- Every member but core `c` waits in gang n. -/
def State.GangMet (s : State) (c : Nat) (ms : List Nat) (n : Nat) : Prop :=
  ∀ k ∈ ms, k = c ∨ (s.bank ⟨k, 0, 0⟩).wip = .gang n

theorem State.gangMet_iff {s : State} {c : Nat} {ms : List Nat} {n : Nat} :
    (ms.all fun k => k == c || s.inGang n k) = true ↔ s.GangMet c ms n := by
  simp [State.GangMet, State.inGang]

/-- The gang of the cores `ms` stands. -/
def State.formGang (s : State) (ms : List Nat) (n : Nat) : State :=
  (List.range ms.length).foldl (fun t i => t.modCore (ms.getD i 0) fun k =>
    { k with gangPos := i, gangLeader := ms.getD 0 0, gangSize := n }) s

section GangWork
variable {n m ex : Nat} {x : Ctx} {s : State} {ms : List Nat}

/-- A gang instruction that has begun waits until the gang stands. -/
theorem gangAct_waits (hw : (s.bank x.p).wip = .gang m) (h : (s.core x.p.core).gangSize = 1) :
    gangAct n x s = .wait .presence := by
  simp only [gangAct, hw, h, ↓reduceIte]

theorem gangAct_over (hw : (s.bank x.p).wip = .gang m) (h : (s.core x.p.core).gangSize ≠ 1) :
    gangAct n x s = .done s none none := by
  simp only [gangAct, hw, h, ↓reduceIte]

/-- Outside a gang ensemble it traps. -/
theorem gangAct_no_ensemble (hw : (s.bank x.p).wip = .none) (hm : s.gangMembers x.p = none) :
    gangAct n x s = .trap .gangBroken 0 none := by
  simp only [gangAct, hw, hm]

section Members
variable (hw : (s.bank x.p).wip = .none) (hm : s.gangMembers x.p = some (ms, ex))
include hw hm

/-- With another size it traps, and so do the members that wait. -/
theorem gangAct_broken (hn : ¬ GangSizeOk n ex) :
    gangAct n x s = .final ((s.breakWaiting ms ex).trapAt x.p .gangBroken 0 none x.pc 1 x.word) := by
  have hbad : n ≠ ex ∨ (n ≠ 2 ∧ n ≠ 4 ∧ n ≠ 8) := by
    unfold GangSizeOk at hn
    omega
  simp only [gangAct, hw, hm, if_pos hbad]

section RightSize
variable (hn : GangSizeOk n ex)
include hn

/-- With the right size the gang stands already, or the last member forms it, or the member waits. -/
theorem gangAct_members : gangAct n x s =
    if s.ganged x.p then .done s none none
    else if ms.all fun c => c == x.p.core || s.inGang ex c then .done (s.formGang ms ex) none none
    else .begun (s.modBank x.p fun b => { b with wip := .gang ex }) := by
  have hok : ¬ (n ≠ ex ∨ (n ≠ 2 ∧ n ≠ 4 ∧ n ≠ 8)) := by
    unfold GangSizeOk at hn
    omega
  simp only [gangAct, hw, hm, if_neg hok]
  rw [hn.1]
  rfl

theorem gangAct_stands (hg : s.ganged x.p = true) : gangAct n x s = .done s none none := by
  rw [gangAct_members hw hm hn, if_pos hg]

variable (hg : s.ganged x.p = false)
include hg

theorem gangAct_forms (h : s.GangMet x.p.core ms ex) : gangAct n x s = .done (s.formGang ms ex) none none := by
  rw [gangAct_members hw hm hn, if_neg (Bool.eq_false_iff.mp hg), if_pos (State.gangMet_iff.mpr h)]

theorem gangAct_begun (h : ¬ s.GangMet x.p.core ms ex) :
    gangAct n x s = .begun (s.modBank x.p fun b => { b with wip := .gang ex }) := by
  rw [gangAct_members hw hm hn, if_neg (Bool.eq_false_iff.mp hg), if_neg (mt State.gangMet_iff.mp h)]

end RightSize
end Members
end GangWork

section Gang
variable {f : FmtS} {s : State} {ms : List Nat} {n : Nat}

theorem SyncReady.gangChks_eq_none (hr : SyncReady s) (hx : s.cur.reflex = false) :
    chks [syncChk, gangX] (ctx s syncShape []) s = none :=
  chks_pair_none hr.syncChk_eq_none (gangX_eq_none hx)

section Fresh
variable (hr : SyncReady s) (hx : s.cur.reflex = false)
include hr hx

theorem exec_gang_no_ensemble (hm : s.gangMembers s.cur = none) :
    exec (.gang f) s = .next (trapped s syncShape .gangBroken 0 none) :=
  issueChk_body_trap hr.1 rfl (hr.gangChks_eq_none hx) (gangAct_no_ensemble hr.wip_eq_none hm)

variable (hm : s.gangMembers s.cur = some (ms, n))
include hm

theorem exec_gang_broken (hn : ¬ GangSizeOk f.imm.toNat n) : exec (.gang f) s = .next
    ((s.breakWaiting ms n).trapAt s.cur .gangBroken 0 none (s.bank s.cur).pc 1 (s.wordOf s.cur)) :=
  issueChk_final hr.1 rfl (hr.gangChks_eq_none hx) (gangAct_broken hr.wip_eq_none hm hn)

variable (hn : GangSizeOk f.imm.toNat n)
include hn

theorem exec_gang_stands (hg : s.ganged s.cur = true) : exec (.gang f) s = .next (passed s syncShape [] f.hold s) :=
  issueChk_done hr.1 rfl rfl (hr.gangChks_eq_none hx) (gangAct_stands hr.wip_eq_none hm hn hg)

variable (hg : s.ganged s.cur = false)
include hg

theorem exec_gang_forms (h : s.GangMet s.cur.core ms n) :
    exec (.gang f) s = .next (passed s syncShape [] f.hold (s.formGang ms n)) :=
  issueChk_done hr.1 rfl rfl (hr.gangChks_eq_none hx) (gangAct_forms hr.wip_eq_none hm hn hg h)

theorem exec_gang_begun (h : ¬ s.GangMet s.cur.core ms n) :
    exec (.gang f) s = .next (begun s syncShape [] (s.modBank s.cur fun b => { b with wip := .gang n })) :=
  issueChk_begun hr.1 rfl rfl (hr.gangChks_eq_none hx) (gangAct_begun hr.wip_eq_none hm hn hg h)

end Fresh

theorem exec_gang_over (hw : (s.bank s.cur).wip = .gang n) (h : (s.core s.cur.core).gangSize ≠ 1) :
    exec (.gang f) s = .next (passed s syncShape [] f.hold s) :=
  issueChk_resume_done (by rw [hw]; rfl) rfl rfl (gangAct_over hw h)

theorem exec_gang_waits (hw : (s.bank s.cur).wip = .gang n) (h : (s.core s.cur.core).gangSize = 1) :
    exec (.gang f) s = .next (s.stall .presence) :=
  issueChk_resume_wait (by rw [hw]; rfl) (gangAct_waits hw h)

end Gang

/-! ungang (R201, R229). -/

section Ungang
variable {f : FmtS} {s : State}

/-- ungang waits for nothing unless gang-relative commands of its gang are left. -/
theorem ungangWaits_eq_none (h : (s.ganged s.cur && s.gangBusy s.cur) = false) :
    ungangWaits (asks s syncShape []) s = none :=
  if_neg (Bool.eq_false_iff.mp h)

theorem exec_ungang_apart (hr : SyncReady s) (hx : s.cur.reflex = false) (hg : s.ganged s.cur = false) :
    exec (.ungang f) s = .next (passed s syncShape [] f.hold s) :=
  issueWait_done hr.1 (ungangWaits_eq_none (by rw [hg, Bool.false_and])) rfl rfl (hr.gangChks_eq_none hx)
    (congrArg (Act.done · none none) (if_neg (Bool.eq_false_iff.mp hg)))

theorem exec_ungang_leaves (hr : SyncReady s) (hx : s.cur.reflex = false) (hg : s.ganged s.cur = true)
    (hb : s.gangBusy s.cur = false) : exec (.ungang f) s =
    .next (passed s syncShape [] f.hold (s.modCore s.cur.core fun k => { k with gangSize := 1 })) :=
  issueWait_done hr.1 (ungangWaits_eq_none (by rw [hb, Bool.and_false])) rfl rfl (hr.gangChks_eq_none hx)
    (congrArg (Act.done · none none) (if_pos hg))

theorem exec_ungang_waits (hr : SyncReady s) (hg : s.ganged s.cur = true) (hb : s.gangBusy s.cur = true) :
    exec (.ungang f) s = .next (s.stall .engine) :=
  issueWait_own hr.1 (if_pos (Bool.and_eq_true_iff.mpr ⟨hg, hb⟩))

end Ungang

/-! The traps of the three. -/

section Traps
variable {s : State} {c : Cause} {info : Nat} {fa : Option Word} (hr : Issues s syncShape s [])
  (hb : (s.ganged s.cur && s.gangBusy s.cur) = false)
include hr hb

/-- Where the checks of gang and ungang fail, both trap. -/
theorem exec_gangs_trap (hk : chks [syncChk, gangX] (ctx s syncShape []) s = some (.trap c info fa)) (f : FmtS) :
    ∀ j ∈ [Instr.gang f, .ungang f], exec j s = .next (trapped s syncShape c info fa) := by
  simp only [List.forall_mem_cons, List.not_mem_nil, false_implies, implies_true, and_true]
  exact ⟨issueChk_trap hr hk, issueWait_trap hr (ungangWaits_eq_none hb) hk⟩

/-- Where the check that the three share fails, all trap. -/
theorem exec_syncs_trap (hk : syncChk (ctx s syncShape []) s = some (.trap c info fa)) (b : FmtR) (f : FmtS) :
    ∀ j ∈ [Instr.bar b, .gang f, .ungang f], exec j s = .next (trapped s syncShape c info fa) :=
  List.forall_mem_cons.mpr ⟨issueChk_trap hr hk, exec_gangs_trap hr hb (gangChks_of_syncChk hk) f⟩

end Traps

/-- Settles O29: the checks that the three share come first; then arrivals decide for bar, the ensemble and its waiting
members for gang, and the commands of the gang for ungang. -/
theorem barGangResults : Obligations.BarGangResults := by
  refine ⟨⟨fun f s hr => exec_bar_alone hr, ?ensemble, ?resumedBar⟩,
    ⟨?members, fun f s hr hx => exec_gang_no_ensemble hr hx, ?resumedGang, ?ungang⟩,
    fun b f s hr hb => ⟨fun hh => ?handler, fun hh hsc => ?scene, fun hh hsc hx => ?reflex⟩⟩
  case ensemble => exact fun f s hd hr he hg hh => ⟨exec_bar_last hr he hg hh, exec_bar_begun hr he hg hh⟩
  case resumedBar => exact fun f s n hw => ⟨exec_bar_over hw, exec_bar_waits hw⟩
  case members => exact fun f s ms n hr hx hm => ⟨fun hn => ⟨exec_gang_stands hr hx hm hn, exec_gang_forms hr hx hm hn,
      exec_gang_begun hr hx hm hn⟩, exec_gang_broken hr hx hm⟩
  case resumedGang => exact fun f s n hw => ⟨exec_gang_over hw, exec_gang_waits hw⟩
  case ungang => exact fun f s hr hx => ⟨exec_ungang_apart hr hx, exec_ungang_leaves hr hx, exec_ungang_waits hr⟩
  case handler => exact exec_syncs_trap hr hb (syncChk_handler hh) b f
  case scene => exact exec_syncs_trap hr hb (syncChk_scene hh hsc) b f
  case reflex => exact exec_gangs_trap hr hb (chks_pair_some (syncChk_eq_none hh hsc) (gangX_reflex hx)) f

end Sys2Proof.Machine

namespace Sys2Proof.Machine
open Sys2Proof.Safety

/-! # Vector commands enter their queue -/

/-- With 16 commands queued the seat waits under the queue cause (R207). -/
theorem vroom_eq_queue {x : Ctx} {s : State} (h : 16 ≤ (s.core x.p.core).vq.length) : vroom x s = some .queue :=
  if_neg (Nat.not_lt.mpr h)

/-- An instruction that is `vcmd` enters its command. -/
theorem enqueues_of {j : Instr} {srcs : List (Nat × Lit)} {vr : List Nat} {vd : Option Nat} {hold : BitVec 2} {form : Form}
    (h : ∀ s, exec j s = vcmd srcs vr vd hold form s) : Enqueues j srcs vr vd hold form := by
  intro s s1 vals sh hr
  rw [h]
  exact ⟨fun hroom => issueWait_done hr (vroom_eq_none hroom) rfl rfl rfl rfl,
    fun hfull => issueWait_own hr (vroom_eq_queue hfull)⟩

/-- An instruction that is `vscalar` enters its command, and its result is pending. -/
theorem enqueuesScalar_of {j : Instr} {sb : BitVec 6} {vr : List Nat} {hold : BitVec 2} {form : Form}
    (h : ∀ s, exec j s = vscalar sb vr hold form s) : EnqueuesScalar j sb vr hold form := by
  intro s s1 sh r hr
  rw [h]
  exact ⟨fun hroom => issueWait_done hr (vroom_eq_none hroom) rfl rfl rfl rfl,
    fun hfull => issueWait_own hr (vroom_eq_queue hfull)⟩

section Forms
variable {mk : FmtV → Instr} {op : OpV}

theorem v2_of (h : ∀ f s, exec (mk f) s = vv2 op f s) : V2 mk op := fun f => enqueues_of (h f)

theorem v1_of (h : ∀ f s, exec (mk f) s = vv1 op f s) : V1 mk op := fun f => enqueues_of (h f)

theorem vk_of (h : ∀ f s, exec (mk f) s = vvk op f s) : VK mk op := fun f => enqueues_of (h f)

end Forms

/-! vstat and vfence (R226, R227). -/

/-- A seat has commands to be performed when one in its core's queue bears its number. -/
theorem State.vbusy_eq_any (s : State) (p : Machine.Place) :
    s.vbusy p = (s.core p.core).vq.any (·.num == p.num) := by
  rw [Bool.eq_iff_iff, State.vbusy, State.vqOf]
  simp

section Status
variable {s s1 : State}

theorem vstat_value (b : Bool) (n : Nat) : w64 (b2n b * 32 + n) = BitVec.ofNat 64 ((if b then 32 else 0) + n) := by
  cases b <;> rfl

/-- The shape of vstat. -/
def vstatShape (f : FmtVS) : Shape := { srcs := [], dst := some f.sb.toNat, lat := .fixed 1 }

theorem exec_vstat_done {f : FmtVS} (hr : Issues s (vstatShape f) s1 []) :
    exec (.vstat f) s = .next (retired s (vstatShape f) [] f.hold s1
      (some (BitVec.ofNat 64 ((if (s1.core s.cur.core).vq.any (·.num == s.cur.num) then 32 else 0) +
        (s1.core s.cur.core).vq.length))) (succ s (vstatShape f))) := by
  rw [← State.vbusy_eq_any, ← vstat_value]
  exact issue_done hr rfl rfl rfl

variable {f : FmtV} (hr : Issues s { srcs := [] } s1 [])
include hr

theorem exec_vfence_done (h : (s1.core s.cur.core).vq.any (·.num == s.cur.num) = false) :
    exec (.vfence f) s = .next (passed s { srcs := [] } [] f.hold s1) := by
  obtain ⟨rfl, -⟩ := issues_nil hr rfl
  rw [← State.vbusy_eq_any] at h
  exact issueWait_done hr (if_neg (Bool.eq_false_iff.mp h)) rfl rfl rfl rfl

theorem exec_vfence_waits (h : (s1.core s.cur.core).vq.any (·.num == s.cur.num) = true) :
    exec (.vfence f) s = .next (s.stall .engine) := by
  obtain ⟨rfl, -⟩ := issues_nil hr rfl
  rw [← State.vbusy_eq_any] at h
  exact issueWait_own hr (if_pos h)

end Status

/-- Settles O33: each instruction is `vcmd` or `vscalar` of its command; vstat and vfence look at the queue alone. -/
theorem vectorCommandsEnter : Obligations.VectorCommandsEnter := by
  refine ⟨?registers, ?rounding, ?scalars, ?results⟩
  case registers =>
    exact ⟨v2_of exec_vadd, v2_of exec_vsub, v2_of exec_vmul, v2_of exec_vmulh, v2_of exec_vmulhu, v2_of exec_vand,
      v2_of exec_vor, v2_of exec_vxor, v2_of exec_vsll, v2_of exec_vsrl, v2_of exec_vsra, v2_of exec_vmin,
      v2_of exec_vmax, v2_of exec_vminu, v2_of exec_vmaxu, v2_of exec_vadds, v2_of exec_vsubs, v2_of exec_vaddus,
      v2_of exec_vsubus, v2_of exec_vsel, v2_of exec_vfmin, v2_of exec_vfmax, v2_of exec_vfsgnj, v2_of exec_vperm,
      v1_of exec_vabs, v1_of exec_vfabs, v1_of exec_vfneg, v1_of exec_vrcp, v1_of exec_vrsqrt, v1_of exec_vexp2,
      v1_of exec_vlog2, v1_of exec_vtanh, v1_of exec_vsigm, v1_of exec_vsinpi, v1_of exec_vcospi, v1_of exec_vmov,
      v1_of exec_vcvtSI, v1_of exec_vcvtIS, v1_of exec_vcvtSH, v1_of exec_vcvtHS, v1_of exec_vcvtSBf,
      v1_of exec_vcvtBfS, v1_of exec_vcvtSU, v1_of exec_vcvtUS, vk_of exec_vcmpeq, vk_of exec_vcmpne,
      vk_of exec_vcmplt, vk_of exec_vcmpge, vk_of exec_vcmpltu, vk_of exec_vcmpgeu, vk_of exec_vfeq, vk_of exec_vflt,
      vk_of exec_vfle, vk_of exec_vfun, fun f => enqueues_of (exec_kand f), fun f => enqueues_of (exec_kor f),
      fun f => enqueues_of (exec_kxor f), fun f => enqueues_of (exec_kandn f), fun f => enqueues_of (exec_knot f)⟩
  case rounding =>
    exact ⟨fun f => enqueues_of (exec_vfadd f), fun f => enqueues_of (exec_vfsub f),
      fun f => enqueues_of (exec_vfmul f), fun f => enqueues_of (exec_vfdiv f), fun f => enqueues_of (exec_vfsqrt f),
      fun f => enqueues_of (exec_vfmadd f), fun f => enqueues_of (exec_vfmsub f),
      fun f => enqueues_of (exec_vfnmsub f)⟩
  case scalars =>
    exact ⟨fun f => enqueues_of (exec_vaddVs f), fun f => enqueues_of (exec_vsubVs f),
      fun f => enqueues_of (exec_vrsubVs f), fun f => enqueues_of (exec_vmulVs f),
      fun f => enqueues_of (exec_vandVs f), fun f => enqueues_of (exec_vorVs f), fun f => enqueues_of (exec_vxorVs f),
      fun f => enqueues_of (exec_vsllVs f), fun f => enqueues_of (exec_vsrlVs f),
      fun f => enqueues_of (exec_vsraVs f), fun f => enqueues_of (exec_vminVs f),
      fun f => enqueues_of (exec_vmaxVs f), fun f => enqueues_of (exec_vmovVs f),
      fun f => enqueues_of (exec_vfaddVs f), fun f => enqueues_of (exec_vfsubVs f),
      fun f => enqueues_of (exec_vfrsubVs f), fun f => enqueues_of (exec_vfmulVs f),
      fun f => enqueues_of (exec_vfmaddVs f), fun f => enqueues_of (exec_vfminVs f),
      fun f => enqueues_of (exec_vfmaxVs f), fun f => enqueues_of (exec_vcvtn f), fun f => enqueues_of (exec_vcvtw f),
      fun f => enqueues_of (exec_vrot f), fun f => enqueues_of (exec_vcmpeqVs f),
      fun f => enqueues_of (exec_vcmpltVs f), fun f => enqueues_of (exec_vcmpltuVs f),
      fun f => enqueues_of (exec_vfeqVs f), fun f => enqueues_of (exec_vfltVs f),
      fun f => enqueues_of (exec_vfleVs f), fun f => enqueues_of (exec_kset f)⟩
  case results =>
    exact ⟨fun f => enqueuesScalar_of (exec_vredadd f), fun f => enqueuesScalar_of (exec_vredmin f),
      fun f => enqueuesScalar_of (exec_vredmax f), fun f => enqueuesScalar_of (exec_vredminu f),
      fun f => enqueuesScalar_of (exec_vredmaxu f), fun f => enqueuesScalar_of (exec_vredand f),
      fun f => enqueuesScalar_of (exec_vredor f), fun f => enqueuesScalar_of (exec_vredxor f),
      fun f => enqueuesScalar_of (exec_vredfadd f), fun f => enqueuesScalar_of (exec_vredfmin f),
      fun f => enqueuesScalar_of (exec_vredfmax f), fun f => enqueuesScalar_of (exec_vredfamax f),
      fun f => enqueuesScalar_of (exec_vext f), fun f => enqueuesScalar_of (exec_kmovs f),
      fun _ _ _ hr => exec_vstat_done hr, fun _ _ _ hr => ⟨exec_vfence_done hr, exec_vfence_waits hr⟩⟩

end Sys2Proof.Machine

namespace Sys2Proof.Machine

/-! # Integer lanes -/

/-! Smaller and larger lanes (R211). -/

theorem smin32_toInt (a b : W32) : (smin32 a b).toInt = min a.toInt b.toInt := by
  unfold smin32
  split <;> omega

theorem smax32_toInt (a b : W32) : (smax32 a b).toInt = max a.toInt b.toInt := by
  unfold smax32
  split <;> omega

theorem umin32_toNat (a b : W32) : (umin32 a b).toNat = min a.toNat b.toNat := by
  unfold umin32
  split <;> omega

theorem umax32_toNat (a b : W32) : (umax32 a b).toNat = max a.toNat b.toNat := by
  unfold umax32
  split <;> omega

/-! Saturation (R211). -/

theorem sats32_toInt (i : Int) : (sats32 i).toInt = max (-2 ^ 31) (min (2 ^ 31 - 1) i) :=
  BitVec.toInt_ofInt_eq_self (by decide) (by omega) (by omega)

theorem satu32_toNat (i : Int) : (satu32 i).toNat = min (2 ^ 32 - 1) i.toNat := by
  rw [satu32, BitVec.toNat_ofInt]
  omega

/-- The top bit of a lane is its sign. -/
theorem ite_msb_eq_ite_toInt (a : W32) : (if a.msb then -a else a) = if a.toInt < 0 then -a else a := by
  simp only [BitVec.msb_eq_toInt, decide_eq_true_eq]

/-- Settles O35: a lane is its operation on words; the comparisons and the saturations are those of the integers. -/
theorem vectorIntegerLanes : Obligations.VectorIntegerLanes := fun rm a b m =>
  ⟨rfl, rfl, rfl, rfl, rfl, rfl, rfl, rfl, rfl, rfl, rfl, smin32_toInt a b, smax32_toInt a b, umin32_toNat a b,
    umax32_toNat a b, sats32_toInt _, sats32_toInt _, satu32_toNat _,
    (satu32_toNat (a.toNat - b.toNat)).trans (by omega), ite_msb_eq_ite_toInt a, rfl⟩

end Sys2Proof.Machine

namespace Sys2Proof.Machine

/-! # A performed command of a discarded scene -/

/-- A store of v1 at address 64 of core 0, whose scene has been discarded (R209). -/
def droppedStore (id : Nat) : VCmd :=
  ⟨id, 0, 0, .vM .vst ⟨1, 0, 0, 0, 0, 0⟩, 64, 0, 0, [(0, 64)], 2, none, false, 0, false, []⟩

/-- After reset, but that core 0 has two stores of the discarded scene still to perform. -/
def droppedStores : State := State.reset.modCore 0 fun k => { k with vq := [droppedStore 0, droppedStore 1] }

/-- The first store is dropped, and the second one receives the bytes that it would have buffered (R225). -/
theorem vq_vectorStep_droppedStores : ((droppedStores.vectorStep 0).core 0).vq =
    [{ droppedStore 1 with snap := [(64, 0), (65, 0), (66, 0), (67, 0)] }] := by
  decide +kernel

/-- Refutes O36: the commands that are left after a store of a discarded scene go on to see what it would have buffered
(R225), so the queue is not the rest of the old one, as the statement has it. -/
theorem not_vectorCommandPerforms : ¬ Obligations.VectorCommandPerforms := by
  rintro ⟨hperform, -⟩
  obtain ⟨t, hexec, hvq, -⟩ := hperform droppedStores 0 (droppedStore 0) [droppedStore 1] 0 rfl rfl rfl (by decide)
  obtain rfl : droppedStores.vectorStep 0 = t := Host.Outcome.next.inj hexec
  exact absurd (vq_vectorStep_droppedStores.symm.trans hvq) (by decide)

end Sys2Proof.Machine

namespace Sys2Proof.Machine
open Sys2Proof.Safety

/-! # A COP in the place of an atomic that issues again -/

/-- After reset, but that seat 0 of core 0 runs, and its instruction, an atomic whose commit has closed a scene of form 0
and write set 1, is to issue again after an uncorrectable read (R275). -/
def reissuing : State :=
  { State.reset with
    cur := ⟨0, 0, 0⟩
    banks := [(0, { Bank.reset 0 with run := .running, wip := .reissue (some (0, 1)) })] }

/-- An mzero that stands there now enters its command and opens the scene again, which SCWS names (R125, R130). -/
theorem exec_mzero_reissuing : ∃ t, exec (.mzero ⟨0, 0, 0, 0⟩) reissuing = .next t ∧ t.ended = .done ∧
    (t.bank ⟨0, 0, 0⟩).scws = 1 :=
  ⟨_, rfl, rfl, rfl⟩

/-- Refutes O10: a COP closes its scene, and so opens again the one of an atomic whose word it has replaced since the
atomic's commit (R130, R275), though no scene is open; SCWS changes, and the frame keeps it. -/
theorem not_commandFrames : ¬ Obligations.CommandFrames := by
  rintro ⟨-, -, -, -, -, -, hcop, -⟩
  obtain ⟨t, hexec, hdone, hscws⟩ := exec_mzero_reissuing
  obtain ⟨hseat, -⟩ := hcop ⟨0, 0, 0, 0⟩ _ (List.mem_cons_self ..) reissuing t rfl hexec hdone
  obtain ⟨regs, pc, si, owed, inflight, pending, scene, amax, hbank⟩ := hseat.bank
  have hkept : (t.bank ⟨0, 0, 0⟩).scws = (reissuing.bank ⟨0, 0, 0⟩).scws :=
    (congrArg Bank.scws hbank).trans rfl
  exact absurd (hscws.symm.trans hkept) (by decide)

end Sys2Proof.Machine

namespace Sys2Proof.Machine

/-! # Maps, numbers and counts -/

/-- A removed key is gone. -/
theorem mfind_mdel_same {α : Type} (m : SMap α) (k : Nat) : mfind (mdel m k) k = none := by
  induction m with
  | nil => rfl
  | cons x t ih =>
    obtain ⟨j, w⟩ := x
    by_cases h : j = k
    · simp [mdel, h, ih]
    · simp [mdel, mfind, h, ih]

/-- Of eight votes at most one candidate has five. -/
theorem majority_unique {w : List Nat} {a b : Nat} (hlen : w.length = 8) (ha : 5 ≤ w.count a) (hb : 5 ≤ w.count b) :
    a = b := by
  by_contra hne
  have hle : w.count b ≤ w.countP fun x => ¬ (x == a) = true :=
    List.countP_mono_left fun x _ hx => by
      obtain rfl := beq_iff_eq.mp hx
      simpa using Ne.symm hne
  have hsum : w.length = w.count a + _ := List.length_eq_countP_add_countP (· == a)
  omega

/-! # Decisions on lines (R240) -/

/-- Whom an access of core `c` to line `l` counts for: its cluster, or 48 when no cluster's slice can take the line. -/
def lineVoter (c l : Nat) : Nat :=
  if Config.isX c = false ∧ Config.clusterOf c / 24 = bits (l * 128) 12 12 then Config.clusterOf c else 48

/-- The line after the eighth access since its last decision, which is one more in a row for cluster `d`; `on` tells that its
die moves lines. -/
def L2Line.decided (e : L2Line) (home d : Nat) (on : Bool) : L2Line :=
  let moves := e.run + 1 = 16 ∧ d ≠ e.slice.getD home ∧ on = true
  { e with window := [], last := some d, run := if moves then 0 else e.run + 1, due := if moves then some d else e.due }

/-- The sixteenth decision in a row for a cluster whose slice does not hold the line makes its move due. -/
theorem L2Line.decided_moves {e : L2Line} {home d : Nat} (hrun : e.run = 15) (hne : d ≠ e.slice.getD home) :
    (e.decided home d true).due = some d ∧ (e.decided home d true).run = 0 := by
  simp [L2Line.decided, hrun, hne]

/-- A decision that is not the sixteenth in a row is only counted. -/
theorem L2Line.decided_counts {e : L2Line} {home d : Nat} {on : Bool} (hrun : e.run ≠ 15) :
    (e.decided home d on).run = e.run + 1 ∧ (e.decided home d on).due = e.due := by
  simp [L2Line.decided, hrun]

/-- The cluster with five of the last eight accesses is the one that the decision finds. -/
theorem find?_majority {w : List Nat} (hlen : w.length = 8) (hd : d < 48) (h5 : 5 ≤ w.count d) :
    (List.range 48).find? (fun cl => 5 ≤ w.count cl) = some d := by
  rw [List.find?_range_eq_some]
  refine ⟨by simpa using h5, List.mem_range.mpr hd, fun j hj => ?_⟩
  have hfew : ¬ 5 ≤ w.count j := fun h => hj.ne (majority_unique hlen h h5)
  simpa using hfew

section LineAccess
variable {s : State} {c l d : Nat} {e : L2Line}

/-- The eighth access since a line's last decision makes the next one (R240). -/
theorem State.l2_l2Access_decided (hdram : isDram (l * 128) = true) (he : mfind s.l2 l = some e)
    (hlen : e.window.length = 7) (hd : d < 48) (h5 : 5 ≤ (e.window ++ [lineVoter c l]).count d) (hlast : e.last = some d) :
    mfind (s.l2Access c l).l2 l =
      some (e.decided (homeSlice l) d ((s.crGlob (bits (l * 128) 12 12) 0x194).getLsbD 0)) := by
  have hwho : (if Config.isX c then 48 else
      let cl := Config.clusterOf c; if cl / 24 = bits (l * 128) 12 12 then cl else 48) = lineVoter c l := by
    cases hx : Config.isX c <;> simp [lineVoter, hx]
  have hlen8 : (e.window ++ [lineVoter c l]).length = 8 := by simp [hlen]
  have hget : mget s.l2 l ⟨none, [], none, 0, 0, none⟩ = e := by simp [mget, he]
  unfold State.l2Access
  simp only [hdram, hget, hwho, hlen8, find?_majority hlen8 hd h5, hlast, L2Line.decided]
  simp

end LineAccess

/-- A line that moves to a slice is kept there, and at its home slice needs no entry (R240). -/
theorem State.l2_moveLine (s : State) (l t : Nat) :
    ∃ e', mfind (s.moveLine l (some t)).l2 l = some e' ∧ e'.slice = if t = homeSlice l then none else some t := by
  unfold State.moveLine
  by_cases ht : t = homeSlice l
  · simp [ht]
  · simp [ht]

/-- A move that is due takes place, and is no longer due (R240). -/
theorem State.l2_lineMigrate {s : State} {l d : Nat} {e : L2Line} (he : mfind s.l2 l = some e) (hd : e.due = some d) :
    ∃ e', mfind (s.lineMigrate l).l2 l = some e' ∧ e'.due = none ∧
      e'.slice = if d = homeSlice l then none else some d := by
  obtain ⟨e', hfind, hslice⟩ := s.l2_moveLine l d
  refine ⟨{ e' with due := none }, ?_, rfl, hslice⟩
  simp [State.lineMigrate, he, hd, mmod, mget, hfind]

/-! # Uncorrectable sectors after a write -/

@[simp] theorem State.ue_faultMsg (s : State) (c i : Nat) (k : Cause) (v : Nat) (w1 w2 : Word) :
    (s.faultMsg c i k v w1 w2).ue = s.ue := by
  unfold State.faultMsg State.faultTo State.post State.enter
  split <;> rfl

/-- A fold of steps that leave the uncorrectable sectors alone leaves them alone. -/
theorem ue_foldl {α : Type} (f : State → α → State) (h : ∀ s x, (f s x).ue = s.ue) (l : List α) (s : State) :
    (l.foldl f s).ue = s.ue := by
  induction l generalizing s with
  | nil => rfl
  | cons x t ih => rw [List.foldl_cons, ih, h]

@[simp] theorem State.ue_flushExt (s : State) (sel : ExtWrite → Bool) : (s.flushExt sel).ue = s.ue := by
  unfold State.flushExt
  exact ue_foldl (fun s w => { s with mem := memWrites s.mem _ }) (fun _ _ => rfl) _ _

/-- A write makes no sector uncorrectable (R249). -/
theorem State.ue_poke_subset (s : State) (c : Nat) (cells : List Host.Cell) : (s.poke c cells).ue ⊆ s.ue := by
  unfold State.poke
  split
  · exact List.Subset.refl _
  · dsimp only
    rw [ue_foldl _ fun s q => State.ue_faultMsg s ..]
    exact List.filter_subset_self ..

/-- Neither does one of an engine. -/
theorem State.ue_engWrite_subset (s : State) (c lo : Nat) (cells : List Host.Cell) :
    (s.engWrite c lo cells).1.ue ⊆ s.ue := by
  unfold State.engWrite
  extract_lets ls ts t u
  have ht : t.ue = s.ue := (mem_ue_foldl_l2Access c ts ls s).2
  have hu : u.ue = s.ue := by
    simp only [u]
    split
    · exact (State.ue_flushExt ..).trans ht
    · exact ht
  exact hu ▸ u.ue_poke_subset c cells

/-- Bytes that are sound stay so when no sector becomes uncorrectable. -/
theorem State.bad_eq_false_of_subset {s t : State} (h : t.ue ⊆ s.ue) {ks : List Nat} (hs : s.bad ks = false) :
    t.bad ks = false := by
  simp only [State.bad, List.any_eq_false, List.contains_iff_mem] at hs ⊢
  exact fun k hk hmem => hs k hk (h hmem)

/-! # Steps of a recall (R245) -/

/-- The tag of piece `i` of a green room. -/
def pieceTag (c i : Nat) : Nat := Config.tileKey c (0x7_0000 + 16 * i)
/-- The home of piece `i`, which its tag names. -/
def State.pieceHome (s : State) (c i : Nat) : Nat := s.dwordAt (pieceTag c i) / 2 ^ 10 % 2 ^ 38 * 2 ^ 10
/-- The recall goes on with step `n`. -/
def State.recallAt (s : State) (c n : Nat) : State := s.modCore c fun k => { k with recallTag := some n }
/-- Sector `q` of piece `i`, to be written at its home. -/
def State.sectorCells (s : State) (c i q : Nat) : List Host.Cell :=
  cellsAt (s.redirect (s.pieceHome c i) + 32 * q) (memReads s.mem (keysFrom (Config.tileKey c (i * 1024) + 32 * q) 32))
/-- A valid piece `i` has been written back, and its tag is no longer valid. -/
def State.pieceWritten (s : State) (c i : Nat) : State :=
  ((s.engWrite c (s.core c).pts ((List.range 32).flatMap (s.sectorCells c i))).1).poke c
    (cellsAt (pieceTag c i) (leBytes 8 (s.dwordAt (pieceTag c i) - 1)))

section Recall
variable {s : State} {c n : Nat}

/-- After the last piece the register is cleared and the held events are taken. -/
theorem State.recallStep_over (h : (s.core c).recallTag = some n) (hi : 448 ≤ n / 2) : s.recallStep c =
    ((s.setCrCore c 0x189 0).modCore c fun k => { k with recallTag := none }).releaseHeldEv c := by
  simp [State.recallStep, h, hi]

/-- A piece that is not valid is passed over. -/
theorem State.recallStep_invalid (h : (s.core c).recallTag = some n) (hi : n / 2 < 448) (hn : n % 2 = 0)
    (hb : s.bad [pieceTag c (n / 2)] = false) (hv : s.dwordAt (pieceTag c (n / 2)) % 2 = 0) :
    s.recallStep c = s.recallAt c (n + 2) := by
  have hbit : (!bit (s.dwordAt (pieceTag c (n / 2))) 0) = true := by simp [bit, Nat.testBit_zero, hv]
  simp only [State.recallStep, h, if_neg (Nat.not_le.mpr hi), if_pos hn]
  exact (if_neg (ne_true_of_eq_false hb)).trans (if_pos hbit)

/-- A valid piece with a sound tag, whose home is not blocked: its sound sectors are written at their home when that is DRAM,
the others are reported (log 77), and the tag is no longer valid. -/
theorem State.recallStep_write (h : (s.core c).recallTag = some n) (hi : n / 2 < 448) (hn : n % 2 = 0)
    (hb : s.bad [pieceTag c (n / 2)] = false) (hv : s.dwordAt (pieceTag c (n / 2)) % 2 = 1)
    (hfree : s.blocked (s.pieceHome c (n / 2)) = false) :
    let sector := fun q => Config.tileKey c (n / 2 * 1024) + 32 * q
    let t := if isDram (s.pieceHome c (n / 2)) then (s.engWrite c (s.core c).pts ((List.range 32).flatMap fun q =>
      if s.bad [sector q] then [] else s.sectorCells c (n / 2) q)).1 else s
    let u := ((List.range 32).filter fun q => t.bad [sector q]).foldl (fun s q => s.reportUE c (sector q)) t
    s.recallStep c =
      (u.poke c (cellsAt (pieceTag c (n / 2)) (leBytes 8 (s.dwordAt (pieceTag c (n / 2)) - 1)))).recallAt c (n + 1) := by
  have hbit : ¬ (!bit (s.dwordAt (pieceTag c (n / 2))) 0) = true := by simp [bit, Nat.testBit_zero, hv]
  simp only [State.recallStep, h, if_neg (Nat.not_le.mpr hi), if_pos hn]
  exact (if_neg (ne_true_of_eq_false hb)).trans ((if_neg hbit).trans (if_neg (ne_true_of_eq_false hfree)))

/-- A valid piece without an uncorrectable sector goes back whole to its home in DRAM. -/
theorem State.recallStep_valid (h : (s.core c).recallTag = some n) (hi : n / 2 < 448) (hn : n % 2 = 0)
    (hb : s.bad [pieceTag c (n / 2)] = false) (hv : s.dwordAt (pieceTag c (n / 2)) % 2 = 1)
    (hdram : isDram (s.pieceHome c (n / 2)) = true) (hfree : s.blocked (s.pieceHome c (n / 2)) = false)
    (hsound : ∀ q, q < 32 → s.bad [Config.tileKey c (n / 2 * 1024) + 32 * q] = false) :
    s.recallStep c = (s.pieceWritten c (n / 2)).recallAt c (n + 1) := by
  have hcells : ((List.range 32).flatMap fun q => if s.bad [Config.tileKey c (n / 2 * 1024) + 32 * q] then [] else
      s.sectorCells c (n / 2) q) = (List.range 32).flatMap (s.sectorCells c (n / 2)) :=
    List.flatMap_congr fun q hq => if_neg (ne_true_of_eq_false (hsound q (List.mem_range.mp hq)))
  have hnone (t : State) (ht : t.ue ⊆ s.ue) :
      ((List.range 32).filter fun q => t.bad [Config.tileKey c (n / 2 * 1024) + 32 * q]) = [] :=
    List.filter_eq_nil_iff.mpr fun q hq =>
      ne_true_of_eq_false (State.bad_eq_false_of_subset ht (hsound q (List.mem_range.mp hq)))
  rw [State.recallStep_write h hi hn hb hv hfree]
  simp only [hdram, if_true, hcells, hnone _ (s.ue_engWrite_subset ..), List.foldl_nil, State.pieceWritten]

/-- The record of a piece is posted when the notification queue has room. -/
theorem State.recallStep_notify (h : (s.core c).recallTag = some n) (hi : n / 2 < 448) (hn : n % 2 = 1)
    (hroom : s.mnqRoom (Config.dieOf c) = true) : s.recallStep c =
      (s.mnqPost (Config.dieOf c) (w64 (2 + s.dwordAt (pieceTag c (n / 2) + 8) / 2 ^ 10 * 2 ^ 10))
        (w64 (c + s.pieceHome c (n / 2)))).recallAt c (n + 1) := by
  have hn0 : ¬ n % 2 = 0 := by omega
  simp only [State.recallStep, h, if_neg (Nat.not_le.mpr hi), if_neg hn0, if_pos hroom]
  rfl

end Recall

/-! # Page moves (R248) -/

/-- When only some keys are kept, they read as before, and all others as unlisted. -/
theorem memRead_filter {lo : Nat} {m : List Host.Cell} (h : memAbove lo m = true) (p : Nat → Bool) (a : Nat) :
    memRead (m.filter fun x => p x.1) a = if p a then memRead m a else memDefault := by
  induction m generalizing lo with
  | nil => simp [memRead]
  | cons x t ih =>
    obtain ⟨j, b⟩ := x
    simp only [memAbove, Bool.and_eq_true, decide_eq_true_eq] at h
    obtain ⟨-, ht⟩ := h
    have hlow : a < j + 1 → memRead t a = memDefault := memRead_below ht
    by_cases hp : p j = true
    · rw [List.filter_cons_of_pos (by simpa using hp)]
      by_cases hj : j = a
      · simp [memRead, ← hj, hp]
      · by_cases hlt : a < j <;> simp [memRead, hj, hlt, ih ht]
    · rw [List.filter_cons_of_neg (by simpa using hp), ih ht]
      by_cases hj : j = a
      · simp [← hj, hp]
      · by_cases hlt : a < j
        · simp [memRead, hj, hlt, hlow (by omega)]
        · simp [memRead, hj, hlt]

/-- Every listed address is at least the bound. -/
theorem le_of_memAbove {lo : Nat} {m : List Host.Cell} (h : memAbove lo m = true) {x : Host.Cell} (hx : x ∈ m) : lo ≤ x.1 := by
  induction m generalizing lo with
  | nil => cases hx
  | cons y t ih =>
    obtain ⟨j, b⟩ := y
    simp only [memAbove, Bool.and_eq_true, decide_eq_true_eq] at h
    obtain ⟨⟨hj, -⟩, ht⟩ := h
    obtain rfl | hx := List.mem_cons.mp hx
    · exact hj
    · exact (Nat.le_succ_of_le hj).trans (ih ht hx)

/-- Bytes that are moved up from `src` to `dst`, where nothing else was, read there as they were read before. -/
theorem memRead_memWrites_shifted {base cs : List Host.Cell} {lo src dst a : Nat} (hbase : Memory.wf base = true)
    (hcs : memAbove lo cs = true) (hsrc : ∀ x ∈ cs, src ≤ x.1) (ha : dst ≤ a) (hnone : memRead base a = memDefault) :
    memRead (memWrites base (cs.map fun x => (x.1 - src + dst, x.2))) a = memRead cs (a - dst + src) := by
  induction cs generalizing base lo with
  | nil => exact hnone
  | cons x t ih =>
    obtain ⟨j, b⟩ := x
    simp only [memAbove, Bool.and_eq_true, decide_eq_true_eq] at hcs
    obtain ⟨-, ht⟩ := hcs
    have hj : src ≤ j := hsrc _ (List.mem_cons_self ..)
    have htail : ∀ x ∈ t, src ≤ x.1 := fun x hx => hsrc x (List.mem_cons_of_mem _ hx)
    have hstep : memWrites base (((j, b) :: t).map fun x => (x.1 - src + dst, x.2)) =
      memWrites (memWrite base (j - src + dst) b) (t.map fun x => (x.1 - src + dst, x.2)) := rfl
    have hwf := memWrite_wf hbase (j - src + dst) b
    rw [hstep]
    by_cases hja : j = a - dst + src
    · have hother : ∀ x ∈ t.map (fun x : Host.Cell => (x.1 - src + dst, x.2)), x.1 ≠ a := by
        rintro _ hx rfl
        obtain ⟨y, hy, rfl⟩ := List.mem_map.mp hx
        have hle := le_of_memAbove ht hy
        dsimp only at *
        omega
      rw [memRead_memWrites_other hwf _ _ hother, memRead_memWrite hbase, if_pos (by omega)]
      simp [memRead, hja]
    · have hlow : a - dst + src < j → memRead t (a - dst + src) = memDefault := fun h => memRead_below ht (by omega)
      rw [ih hwf ht htail (by rw [memRead_memWrite hbase, if_neg (by omega), hnone])]
      by_cases hlt : a - dst + src < j <;> simp [memRead, hja, hlt, hlow]

/-- Key `k` is one of the `n` from `a` on. -/
def inPage (a n k : Nat) : Bool := decide (a ≤ k) && decide (k < a + n)

/-- A page that is copied from `src` over `dst` reads there as it read before; every other byte stays. -/
theorem memRead_copiedPage {m : List Host.Cell} (hwf : Memory.wf m = true) (src dst n a : Nat) :
    memRead (memWrites (m.filter fun x => !inPage dst n x.1)
      ((m.filter fun x => inPage src n x.1).map fun x => (x.1 - src + dst, x.2))) a =
        if dst ≤ a ∧ a < dst + n then memRead m (a - dst + src) else memRead m a := by
  have hrest : memRead (m.filter fun x => !inPage dst n x.1) a = if !inPage dst n a then memRead m a else memDefault :=
    memRead_filter hwf (fun k => !inPage dst n k) a
  have hrestwf := memFilter_wf hwf fun x => !inPage dst n x.1
  have hsrc : ∀ x ∈ m.filter (fun x => inPage src n x.1), src ≤ x.1 ∧ x.1 < src + n := fun x hx => by
    simpa [inPage] using (List.mem_filter.mp hx).2
  by_cases hin : dst ≤ a ∧ a < dst + n
  · have hfrom : inPage src n (a - dst + src) = true := by simp [inPage]; omega
    rw [memRead_memWrites_shifted hrestwf (memFilter_wf hwf _) (fun x hx => (hsrc x hx).1) hin.1
      (hrest.trans (by simp [inPage, hin])), memRead_filter hwf (inPage src n), if_pos hfrom, if_pos hin]
  · have hother : ∀ x ∈ (m.filter fun x => inPage src n x.1).map (fun x : Host.Cell => (x.1 - src + dst, x.2)), x.1 ≠ a := by
      rintro _ hx rfl
      obtain ⟨y, hy, rfl⟩ := List.mem_map.mp hx
      obtain ⟨hlo, hhi⟩ := hsrc y hy
      exact hin (by dsimp only; omega)
    have hout : (!inPage dst n a) = true := by
      simp only [inPage, ← Bool.decide_and, Bool.not_eq_true', decide_eq_false_iff_not]
      exact hin
    rw [memRead_memWrites_other hrestwf _ _ hother, hrest, if_pos hout, if_neg hin]

@[simp] theorem State.move_mset (s : State) (d : Nat) (m : PageMove) :
    State.move { s with moves := mset s.moves d m } d = m := mget_mset_same ..

@[simp] theorem State.move_mdel (s : State) (d : Nat) :
    State.move { s with moves := mdel s.moves d } d = ⟨0, 0, 0, 0, [], false⟩ := by
  simp [State.move, mget, mfind_mdel_same]

section Moves
variable {s : State} {d : Nat}

/-- A die without a move under way starts one between the pages that its registers name; it fails unless both lie in DRAM. -/
theorem State.move_moveGo (h : (s.move d).state = 0) :
    let size := (s.crGlob d 0x192).toNat % 2
    let n := if size = 0 then 2 ^ 10 else 2 ^ 21
    let src := (s.crGlob d 0x190).toNat / n * n
    let dst := (s.crGlob d 0x191).toNat / n * n
    (s.moveGo d).move d = ⟨src, dst, size, if isDram src = true ∧ isDram dst = true then 1 else 3, [], false⟩ := by
  unfold State.moveGo
  rw [if_neg (not_not.mpr h), State.move_mset]
  simp only [Bool.and_eq_true]

/-- A page that has been copied is redirected. -/
theorem State.move_moveCopied (h : (s.move d).state = 1) : (s.moveCopied d).move d = { s.move d with state := 2 } := by
  unfold State.moveCopied
  extract_lets m
  rw [if_neg (not_not.mpr h)]
  exact mget_mset_same ..

/-- The destination page reads as the source page did, and every other byte stays. -/
theorem State.memRead_moveCopied (h : (s.move d).state = 1) (hwf : Memory.wf s.mem = true) (a : Nat) :
    let m := s.move d
    memRead (s.moveCopied d).mem a =
      if m.dst ≤ a ∧ a < m.dst + m.bytes then memRead s.mem (a - m.dst + m.src) else memRead s.mem a := by
  intro m
  have hmem : (s.moveCopied d).mem = memWrites (s.mem.filter fun x => !inPage m.dst m.bytes x.1)
      ((s.mem.filter fun x => inPage m.src m.bytes x.1).map fun x => (x.1 - m.src + m.dst, x.2)) := by
    unfold State.moveCopied
    extract_lets m
    rw [if_neg (not_not.mpr h)]
    rfl
  rw [hmem, memRead_copiedPage hwf]

/-- END ends a move that has failed, or whose queued accesses have all been replayed (log 60). -/
theorem State.move_moveEnd_over
    (h : (s.move d).state = 3 ∨ (s.move d).state = 2 ∧ ∀ e ∈ (s.move d).queue, s.atHome e.1 = false) :
    ((s.moveEnd d).move d).state = 0 := by
  have hover : (s.move d).state = 3 ∨
      ((s.move d).state = 2 ∧ (s.move d).queue.any (fun e => s.atHome e.1) = false) := by
    simpa [List.any_eq_false] using h
  unfold State.moveEnd
  extract_lets m
  rw [if_pos hover, State.move_mdel]

/-- With accesses still queued it waits for their replay. -/
theorem State.move_moveEnd_waits (h : (s.move d).state = 2) (hq : ∃ e ∈ (s.move d).queue, s.atHome e.1 = true) :
    (s.moveEnd d).move d = { s.move d with ending := true } := by
  have hany : (s.move d).queue.any (fun e => s.atHome e.1) = true := by simpa using hq
  unfold State.moveEnd
  extract_lets m
  rw [if_neg (by simp [m, h, hany]), if_pos h, State.move_mset]

end Moves

/-! # Translations, notifications, registers -/

/-- No translation that a TLBINV value names is left: none of its slot with ALL, else none of its page (R251). -/
theorem State.tlbDrop_drops (s : State) (v : Nat) {m : Nat × Mmu} (hm : m ∈ (s.tlbDrop v).mmus) {e : Tlb}
    (he : e ∈ m.2.tlb) (hslot : e.slot = v % 64) : v.testBit 8 = false ∧ e.page ≠ v / 2 ^ 21 := by
  obtain ⟨m0, -, rfl⟩ := List.mem_map.mp hm
  obtain ⟨-, hkeep⟩ := List.mem_filter.mp he
  simpa [bits_zero, hslot, bit] using hkeep

/-- The entries of the page that MIGACK names start again (R247). -/
theorem State.migAck_restarts (s : State) (d : Nat) (v : Word) {m : Nat × Mmu} (hm : m ∈ (s.migAck d v).mmus)
    (hdie : m.1 / 24 = d) {e : Counter} (he : e ∈ m.2.counters) (hslot : e.slot = v.toNat % 64)
    (hsub : e.sub = v.getLsbD 9) (hpage : e.page = pageNo (v.toNat / 2 ^ 10 * 2 ^ 10) e.sub) :
    e.count = 0 ∧ e.pend = false ∧ e.posted = false := by
  obtain ⟨m0, -, rfl⟩ := List.mem_map.mp hm
  by_cases hd : m0.1 / 24 = d
  · simp only [hd, if_true] at he
    obtain ⟨e0, -, rfl⟩ := List.mem_map.mp he
    by_cases hc : e0.slot = bits v.toNat 5 0 ∧ e0.sub = bit v.toNat 9 ∧
        e0.page = pageNo (bits v.toNat 63 10 * 2 ^ 10) (bit v.toNat 9)
    · simp only [if_pos hc, and_self]
    · simp only [if_neg hc] at hslot hsub hpage
      have hbits : bits v.toNat 63 10 = v.toNat / 2 ^ 10 := Nat.mod_eq_of_lt (by have := v.isLt; omega)
      exact absurd ⟨hslot.trans (bits_zero _ 5).symm, hsub, by rw [hpage, hsub, hbits]; rfl⟩ hc
  · simp [hd] at hdie

/-- TLBINV keeps the fields of what is written to it (R251). -/
theorem State.crGlob_tlbInvWrite (s : State) (v : Word) :
    (s.tlbInvWrite v).crGlob 0 0x193 = v &&& 0xffff_ffff_ffe0_013f := mget_mset_same ..

/-- GRHOST keeps bit EN of what is written to it, unless its tile is in a seizure group (R244, R250). -/
theorem State.crCore_grhostWrite (s : State) {c : Nat} (v : Word) (hc : Config.isX c = false) :
    (s.grhostWrite c v).crCore c 0x189 = if (s.groupOf c).isSome then 0 else v &&& 1 := by
  simp [State.grhostWrite, hc]

/-- Settles O48, event by event: a decision on a line by `L2Line.decided`, a recall by its four steps, and a page move by
what the copied page reads as. -/
theorem memoryEvents : Obligations.MemoryEvents := by
  unfold Obligations.MemoryEvents
  refine ⟨?access, ?migrate, ?l1, ?grhost, ?recalled, ?mnqhead, ?migack, ?go, ?copied, ?ended, ?tlbinv, ?tlbdone⟩
  case access =>
    intro s c l d e hdram he hlen home who hd h5 hlast
    refine ⟨_, State.l2_l2Access_decided hdram he hlen hd h5 hlast, rfl, rfl, rfl, fun hrun hne hon => ?_,
      L2Line.decided_counts⟩
    rw [show (s.crGlob (bits (l * 128) 12 12) 0x194).getLsbD 0 = true from hon]
    exact L2Line.decided_moves hrun hne
  case migrate =>
    exact fun s l d e he hd => ⟨_, rfl, State.mem_lineMigrate s l, State.l2_lineMigrate he hd⟩
  case l1 => exact fun s c => ⟨_, rfl, congrArg Core.l1 (State.core_modCore_same ..), rfl⟩
  case grhost => exact fun s c v hc => ⟨_, rfl, s.crCore_grhostWrite v hc⟩
  case recalled =>
    intro s c n h
    exact ⟨fun hi => congrArg _ (State.recallStep_over h hi),
      fun hi hn hb hv => congrArg _ (State.recallStep_invalid h hi hn hb hv),
      fun hi hn hb hv hdram hfree hsound => congrArg _ (State.recallStep_valid h hi hn hb hv hdram hfree hsound),
      fun hi hn hroom => congrArg _ (State.recallStep_notify h hi hn hroom)⟩
  case mnqhead => exact fun s d v => rfl
  case migack =>
    exact fun s d v => ⟨_, rfl, fun m hm hdie e he => s.migAck_restarts d v hm hdie he⟩
  case go => exact fun s d h => ⟨_, rfl, State.move_moveGo h, State.mem_moveGo s d⟩
  case copied =>
    exact fun s d a h hwf => ⟨_, rfl, congrArg PageMove.state (State.move_moveCopied h), State.memRead_moveCopied h hwf a⟩
  case ended =>
    exact fun s d => ⟨fun h => ⟨_, rfl, State.move_moveEnd_over h, State.mem_moveEnd s d⟩,
      fun h hq => ⟨_, rfl, State.move_moveEnd_waits h hq, State.mem_moveEnd s d⟩⟩
  case tlbinv => exact fun s v => ⟨_, rfl, rfl, State.crGlob_tlbInvWrite s v⟩
  case tlbdone =>
    exact fun s hbusy => ⟨_, congrArg Host.Outcome.next (if_pos hbusy), rfl,
      fun m hm e he hslot => s.tlbDrop_drops _ hm he hslot⟩

end Sys2Proof.Machine

namespace Sys2Proof.Machine
open Sys2Proof.Safety

/-! # Fences and ordered accesses -/

/-! Fences (R267-R270). -/

section Fence
variable {acq rel : Bool} {sc : Nat} {op : BufOp} {x : Ctx} {s : State}

/-- In a scene a fence is buffered (R270). -/
theorem fenceAct_scene {scene : Scene} (h : (s.bank x.p).openScene = some scene) :
    fenceAct acq rel sc op x s = .done (s.modBank x.p fun b => b.buffer 1 op) none none :=
  if_pos (by rw [h]; rfl)

/-- What a fence still waits for, by what it orders (R267, R268). -/
def State.fenceDue (acq rel : Bool) (s : State) (p : Machine.Place) (sc : Nat) : Bool :=
  (rel && s.relPending p sc) || (acq && s.loadsDue p)

/-- What a fence does when nothing is due: a release lands the pushes (log 71), and then an acquire raises pts (R268). -/
def State.fenced (acq rel : Bool) (s : State) (p : Machine.Place) : State :=
  let t := if rel then s.landPushes p else s
  if acq then t.acquire p.core else t

/-- Outside a scene a fence waits while something is due. -/
theorem fenceAct_waits (h : (s.bank x.p).openScene = none) (hd : s.fenceDue acq rel x.p sc = true) :
    fenceAct acq rel sc op x s = .wait .memory :=
  (if_neg (by simp [h])).trans (if_pos hd)

/-- Outside a scene a fence acts once nothing is due. -/
theorem fenceAct_acts (h : (s.bank x.p).openScene = none) (hd : s.fenceDue acq rel x.p sc = false) :
    fenceAct acq rel sc op x s = .done (s.fenced acq rel x.p) none none :=
  (if_neg (by simp [h])).trans (if_neg (ne_true_of_eq_false hd))

/-- A fence that does the work of `fenceAct` waits for what it orders, acts, or is buffered. -/
theorem fences_of {mk : FmtFence → Instr} {op : Nat → BufOp} (acq rel : Bool)
    (h : ∀ f s, exec (mk f) s =
      issue { srcs := [], entries := 1 } f.hold (fenceAct acq rel f.scope.toNat (op f.scope.toNat)) s) :
    Fences mk op (State.fenceDue acq rel) (State.fenced acq rel) := by
  intro f s s1 _ hr
  rw [h]
  exact ⟨fun _ hsc => issue_done hr rfl rfl (fenceAct_scene hsc),
    fun hsc => ⟨fun hd => issue_done hr rfl rfl (fenceAct_acts hsc hd),
      fun hd => issue_wait hr rfl (fenceAct_waits hsc hd)⟩⟩

end Fence

/-- fence.acq looks at the loads only. -/
theorem State.fenceDue_acquire : State.fenceDue true false = fun s p _ => s.loadsDue p := rfl

/-- fence.rel looks at the effects only. -/
theorem State.fenceDue_release : State.fenceDue false true = fun s p sc => s.relPending p sc := by
  funext s p sc
  exact Bool.or_false _

/-- fence.full looks at both. -/
theorem State.fenceDue_full : State.fenceDue true true = fun s p sc => s.relPending p sc || s.loadsDue p := rfl

/-! Ordered accesses (R278). -/

section Ordered
variable {s s2 : State} {h : Shape} {vals : List Word} {seg sz : Nat} {ks : List Nat}
  {page : Option (Nat × Nat × Bool)} {x : Ctx} {f : FmtOrd}

/-- A load that nothing holds back waits for nothing before it issues. -/
theorem loadWaits_of_free (off : List Word → Word) (hne : vals.isEmpty = false)
    (hfree : Free s seg (off vals) (2 ^ sz) true false) : loadWaits seg off sz (asks s h vals) s = none := by
  simpa [loadWaits, knowing, asks, ctx, hne, Free] using hfree

/-- A store that nothing holds back waits for nothing before it issues. -/
theorem storeWaits_of_free (off : List Word → Word) (hne : vals.isEmpty = false)
    (hfree : Free s seg (off vals) (2 ^ sz) false true) : storeWaits seg off sz (asks s h vals) s = none := by
  simpa [storeWaits, knowing, asks, ctx, hne, Free] using hfree

/-- The two sizes of an ordered access, as its check and its work write them. -/
theorem ord_size_eq (d : BitVec 1) : 4 * (1 + d.toNat) = 2 ^ (2 + d.toNat) := by
  obtain h | h : d.toNat = 0 ∨ d.toNat = 1 := by omega
  all_goals simp [h]

/-- A load whose location is found and free passes its check. -/
theorem State.loadChk_ok {p : Machine.Place} {off : Word} {n : Nat}
    (hl : s.locate p seg off.toNat n n true false false = (s2, .ok ks page)) (hv : s2.heldBack p ks = false) :
    s.loadChk p seg off n = none := by
  simp only [State.loadChk, hl, hv]
  rfl

section Load
variable (hl : s.locate x.p f.seg.toNat (x.v 0).toNat (2 ^ (2 + f.d.toNat)) (2 ^ (2 + f.d.toNat)) true false false =
    (s2, .ok ks page)) (hv : s2.heldBack x.p ks = false)
include hl hv

/-- ld.acq passes its check in a scene, and outside one when no load of the seat is due (log 33). -/
theorem ldAcqChk_ok (hd : ((s.bank x.p).openScene.isNone && s.loadsDue x.p) = false) : ldAcqChk f x s = none := by
  rw [ldAcqChk, ord_size_eq, State.loadChk_ok hl hv]
  exact if_neg (ne_true_of_eq_false hd)

variable (hb : s2.bad ks = false)
include hb

/-- Outside a scene ld.acq loads and then acquires. -/
theorem ldAcqAct_acquires (hsc : (s.bank x.p).openScene = none) :
    ldAcqAct f x s = .done ((s2.seatBytes x.p page ks).1.acquire x.p.core)
      (some (loadVal false (s2.seatBytes x.p page ks).2)) none := by
  simp [ldAcqAct, loadAct_ok hl hv hb, hsc]

/-- In a scene ld.acq loads, and its acquire is buffered (R270). -/
theorem ldAcqAct_scene {sc : Scene} (hsc : (s.bank x.p).openScene = some sc) :
    ldAcqAct f x s = .done ((s2.seatBytes x.p page ks).1.modBank x.p fun b => b.buffer 1 (.acquire (ordScope f)))
      (some (loadVal false (s2.seatBytes x.p page ks).2)) none := by
  simp [ldAcqAct, loadAct_ok hl hv hb, hsc]

end Load

/-- Outside a scene st.rel stores once its release is complete. -/
theorem stRelAct_released (hsc : (s.bank x.p).openScene = none) (hd : s.relPending x.p (ordScope f) = false) :
    stRelAct f x s = storeAct f.seg.toNat (x.v 0) (2 + f.d.toNat) (x.v 1) x s := by
  simp [stRelAct, hsc, hd]

/-- In a scene st.rel buffers its release and then works on its store (R270). -/
theorem stRelAct_scene {sc : Scene} (hsc : (s.bank x.p).openScene = some sc) :
    stRelAct f x s = storeAct f.seg.toNat (x.v 0) (2 + f.d.toNat) (x.v 1) x
      (s.modBank x.p fun b => b.buffer 1 (.release (ordScope f))) := by
  simp [stRelAct, hsc]

end Ordered

section Exec
variable {f : FmtOrd} {s s1 s2 : State} {off v : Word} {ks : List Nat} {page : Option (Nat × Nat × Bool)}

/-- The shape of ld.acq. -/
abbrev ldAcqShape (f : FmtOrd) : Shape := { srcs := [isrc f.ra], dst := some f.rx.toNat, lat := .var, entries := 1 }

/-- The shape of st.rel. -/
abbrev stRelShape (f : FmtOrd) : Shape := { srcs := [isrc f.ra, isrc f.rx], entries := 2 }

section Load
variable (hr : Issues s (ldAcqShape f) s1 [off]) (hfree : Free s f.seg.toNat off (2 ^ (2 + f.d.toNat)) true false)
  (hfound : Safety.Found s1 s.cur f.seg.toNat off (2 ^ (2 + f.d.toNat)) true false s2 ks page)
include hr hfree hfound

/-- ld.acq outside a scene, with no load of the seat due (R278; log 33). -/
theorem exec_ldAcq_acquires (hsc : (s1.bank s.cur).openScene = none) (hd : s1.loadsDue s.cur = false) :
    exec (.ldAcq f) s = .next (retired s (ldAcqShape f) [off] f.hold ((s2.seatBytes s.cur page ks).1.acquire s.cur.core)
      (some (loadVal false (s2.seatBytes s.cur page ks).2)) (succ s (ldAcqShape f))) := by
  obtain ⟨hl, hv, hb⟩ := hfound
  exact issueWait_done hr (loadWaits_of_free (·.getD 0 0) rfl hfree) rfl rfl
    (ldAcqChk_ok (x := ctx s (ldAcqShape f) [off]) hl hv (Bool.and_eq_false_iff.mpr (.inr hd)))
    (ldAcqAct_acquires (x := ctx s (ldAcqShape f) [off]) hl hv (hb rfl) hsc)

/-- ld.acq in a scene (R270). -/
theorem exec_ldAcq_scene {sc : Scene} (hsc : (s1.bank s.cur).openScene = some sc) :
    exec (.ldAcq f) s = .next (retired s (ldAcqShape f) [off] f.hold
      ((s2.seatBytes s.cur page ks).1.modBank s.cur fun b => b.buffer 1 (.acquire (ordScope f)))
      (some (loadVal false (s2.seatBytes s.cur page ks).2)) (succ s (ldAcqShape f))) := by
  obtain ⟨hl, hv, hb⟩ := hfound
  exact issueWait_done hr (loadWaits_of_free (·.getD 0 0) rfl hfree) rfl rfl
    (ldAcqChk_ok (x := ctx s (ldAcqShape f) [off]) hl hv (Bool.and_eq_false_iff.mpr (.inl (congrArg Option.isNone hsc))))
    (ldAcqAct_scene (x := ctx s (ldAcqShape f) [off]) hl hv (hb rfl) hsc)

end Load

/-- st.rel stores, performed or buffered, in the state in which its work reaches the store. -/
theorem exec_stRel_stores {t t2 : State} {ks' : List Nat} {page' : Option (Nat × Nat × Bool)}
    (hr : Issues s (stRelShape f) s1 [off, v]) (hfree : Free s f.seg.toNat off (2 ^ (2 + f.d.toNat)) false true)
    (hfound : Safety.Found s1 s.cur f.seg.toNat off (2 ^ (2 + f.d.toNat)) false true s2 ks page)
    (hact : stRelAct f (ctx s (stRelShape f) [off, v]) s1 =
      storeAct f.seg.toNat off (2 + f.d.toNat) v (ctx s (stRelShape f) [off, v]) t)
    (hstore : Safety.Found t s.cur f.seg.toNat off (2 ^ (2 + f.d.toNat)) false true t2 ks' page') :
    exec (.stRel f) s = .next (passed s (stRelShape f) [off, v] f.hold
      (t2.seatStore s.cur page' (ks'.zip (leBytes (2 ^ (2 + f.d.toNat)) v.toNat)))) := by
  obtain ⟨hl, hv, -⟩ := hfound
  obtain ⟨hl', hv', -⟩ := hstore
  refine issueWait_done hr (storeWaits_of_free (·.getD 0 0) rfl hfree) rfl rfl ?_ ?_
  · exact storeChk_ok hl hv
  · exact hact.trans (storeAct_ok hl' hv')

end Exec

/-- Settles O24: each fence is `fenceAct` of what it orders; an ordered access is a load or a store with its acquire after
it or its release before it. -/
theorem orderingResults : Obligations.OrderingResults := by
  refine ⟨⟨?acq, ?rel, ?full⟩, ?load, ?store⟩
  case acq => exact State.fenceDue_acquire ▸ fences_of true false exec_fenceAcq
  case rel => exact State.fenceDue_release ▸ fences_of false true exec_fenceRel
  case full => exact State.fenceDue_full ▸ fences_of true true exec_fenceFull
  case load =>
    exact fun f s s1 s2 off ks page hr hfree hfound => ⟨exec_ldAcq_acquires hr hfree hfound,
      fun _ => exec_ldAcq_scene hr hfree hfound⟩
  case store =>
    exact fun f s s1 s2 off v ks page hr hfree hfound =>
      ⟨fun hsc hd => exec_stRel_stores hr hfree hfound (stRelAct_released hsc hd) hfound,
        fun _ _ _ _ hsc hstore => exec_stRel_stores hr hfree hfound (stRelAct_scene hsc) hstore⟩

end Sys2Proof.Machine

namespace Sys2Proof.Machine
open Sys2Proof.Safety

/-! # Ends of an instruction with a rule of its own -/

section Ends
variable {s s1 s2 s3 : State} {h : Shape} {vals : List Word} {hold : BitVec 2} {waits : Waits} {check : Check}
  {body : Ctx → State → Act}

/-- It ends in the last state that its work names. -/
theorem issueWait_final (hr : Issues s h s1 vals) (hw : waits (asks s h vals) s = none) (hc : h.closes = false)
    (hk : check (ctx s h vals) s1 = none) (hb : body (ctx s h vals) s1 = .final s2) :
    issueWait h hold waits check body s = .next s2 := by
  refine congrArg Host.Outcome.next ?_
  rw [issueWith_ready hr hw hc, hk, Option.getD_none, hb]
  rfl

/-- A scene-closing instruction commits, and ends as its work says. -/
theorem issueWait_closing_concludes (hr : Issues s h s1 vals) (hw : waits (asks s h vals) s = none)
    (hc : h.closes = true) (hk : check (ctx s h vals) s1 = none) (hcm : committed s h vals s1 = some s2) {a : Act}
    (hb : body (ctx s h vals) s2 = a) (hend : s.conclude (ctx s h vals) h hold (reopens s h) a = s3) :
    issueWait h hold waits check body s = .next s3 := by
  refine congrArg Host.Outcome.next ?_
  rw [issueWith_ready_closing hr hw hc hk hcm, hb, hend]

/-- The work of an instruction that has begun holds the seat. -/
theorem conclude_begun :
    s.conclude (ctx s h vals) h hold (reopens s h) (.begun s1) = begun s h vals s1 := rfl

/-- A rule that rests on operand values is asked once they are known. -/
theorem knowing_of_vals {x : Ctx} (hv : x.vals.isEmpty = false) : knowing waits x s = waits x s :=
  if_neg (Bool.eq_false_iff.mp hv)

end Ends

end Sys2Proof.Machine

namespace Sys2Proof.Machine
open Sys2Proof.Safety

/-! # Atomics -/

/-! New values (R273). -/

/-- The signed reading of a w-bit value, as amomax and amomin compare it. -/
theorem toInt_ofNat_eq {w v : Nat} (hw : 0 < w) (hv : v < 2 ^ w) :
    (BitVec.ofNat w v).toInt = if v < 2 ^ (w - 1) then (v : Int) else (v : Int) - 2 ^ w := by
  have hpow : 2 ^ w = 2 * 2 ^ (w - 1) := by rw [← Nat.pow_succ']; congr 1; omega
  rw [BitVec.toInt_eq_toNat_cond, BitVec.toNat_ofNat, Nat.mod_eq_of_lt hv]
  by_cases h : v < 2 ^ (w - 1)
  · rw [if_pos (by omega), if_pos h]
  · rw [if_neg (by omega), if_neg h]
    norm_cast

/-- amomax and amomin keep the larger and the smaller of two signed values. -/
theorem amoNew_signed {n old b : Nat} (hn : 0 < n) (ho : old < 2 ^ (8 * n)) (hb : b < 2 ^ (8 * n)) :
    amoNew 4 n old b = (if (BitVec.ofNat (8 * n) old).slt (BitVec.ofNat (8 * n) b) then b else old) ∧
      amoNew 5 n old b = (if (BitVec.ofNat (8 * n) b).slt (BitVec.ofNat (8 * n) old) then b else old) := by
  have hw : 0 < 8 * n := by omega
  simp only [BitVec.slt, toInt_ofNat_eq hw ho, toInt_ofNat_eq hw hb, decide_eq_true_eq]
  exact ⟨rfl, rfl⟩

/-- amomaxu keeps the larger of two unsigned values. -/
theorem amoNew_six (n old b : Nat) : amoNew 6 n old b = max old b := by
  simp only [amoNew]
  split <;> omega

/-- What an atomic writes over the old value, if anything (R273). -/
def amoWrites (op n ia : Nat) (x : Ctx) (old : Nat) : Option Nat :=
  let b := (x.v (ia + 1)).toNat % 2 ^ (8 * n)
  if op = 7 then (if old = (x.v 0).toNat % 2 ^ (8 * n) then some b else none) else some (amoNew op n old b)

/-- All but cas write their new value whatever the old one is. -/
theorem amoWrites_eq {op old : Nat} (h : op ≠ 7) (n : Nat) (x : Ctx) :
    amoWrites op n 0 x old = some (amoNew op n old ((x.v 1).toNat % 2 ^ (8 * n))) := if_neg h

/-! The unit at the home (R275). -/

/-- Without an uncorrectable sector the unit writes its new bytes as they are, or none. -/
theorem State.amoUnit_mem (s : State) (p : Machine.Place) (ks : List Nat) (new : Option Nat) (hu : s.ue = []) :
    (s.amoUnit p none ks new).mem =
      memWrites s.mem (match new with | some v => ks.zip (leBytes ks.length v) | none => []) := by
  unfold State.amoUnit
  extract_lets cells t ls ts u
  have hmem : u.mem = s.mem := by
    refine mem_foldl _ (fun a l => ?_) ls s
    exact State.mem_l2Access a p.core l
  have hue : u.ue = s.ue := by
    refine ue_foldl _ (fun a l => ?_) ls s
    exact State.ue_l2Access a p.core l
  split
  · rfl
  split
  · exact (State.mem_raisePts ..).trans ((State.poke_mem _ _ _ (hue.trans hu)).trans (congrArg (memWrites · cells) hmem))
  · exact State.poke_mem _ _ _ hu

/-- Its bytes read back in little-endian order, and every other byte stays. -/
theorem State.memRead_amoUnit (s : State) (p : Machine.Place) {ks : List Nat} (new : Option Nat) (a : Nat)
    (hwf : Memory.wf s.mem = true) (hu : s.ue = []) (hnd : ks.Nodup) :
    memRead (s.amoUnit p none ks new).mem a =
      match new, ks.findIdx? (· == a) with
      | some v, some i => BitVec.ofNat 8 (v / 256 ^ i)
      | _, _ => memRead s.mem a := by
  rw [State.amoUnit_mem s p ks new hu]
  cases new with
  | none => rfl
  | some v =>
    have hlen : ks.length = (leBytes ks.length v).length := (leBytes_length ..).symm
    dsimp only
    rw [memRead_memWrites_zip hwf ks _ hlen hnd]
    cases hi : ks.findIdx? (· == a) with
    | none => rfl
    | some i =>
      have hlt : i < (leBytes ks.length v).length := hlen ▸ (List.findIdx?_eq_some_iff_findIdx_eq.mp hi).1
      simp only [List.getD_eq_getElem _ _ hlt, leBytes_getElem]

/-! The check and the work (R272, R274, R275). -/

section Work
variable {op seg rd n ia : Nat} {cs : List Nat} {x : Ctx} {s s2 : State} {ks : List Nat}
  {page : Option (Nat × Nat × Bool)}

/-- An atomic whose old value goes to a register needs no room for it. -/
theorem amoFull_eq_false (h : rd ≠ 61) : amoFull rd x s = false := by simp [amoFull, h]

/-- An atomic passes its check where its location is found, where a port performs it, and where its push finds room. -/
theorem amoChk_ok (hf : Safety.Found s x.p seg (x.v ia) n true true s2 ks page)
    (hport : ks.any isExt = true → op = 0 ∨ op = 1 ∨ op = 7) (hfull : amoFull rd x s2 = false) :
    amoChk op seg rd n ia x s = none := by
  obtain ⟨hl, hv, -⟩ := hf
  have hsup : ¬ (ks.any isExt = true ∧ op ≠ 0 ∧ op ≠ 1 ∧ op ≠ 7) := by
    rintro ⟨hx, h0, h1, h7⟩
    obtain h | h | h := hport hx
    exacts [h0 h, h1 h, h7 h]
  simp only [amoChk, hl, if_neg hsup, hfull, hv, Bool.false_eq_true, ↓reduceIte]

section Located
variable (hwip : (s.bank x.p).wip = .none) (hf : Safety.Found s x.p seg (x.v ia) n true true s2 ks page)
include hwip hf

/-- An atomic whose location is found and sound is one unit there, and rd gets the old value. -/
theorem amoAct_lands (hport : ¬ (ks.any isExt = true ∧ Config.portFails (settled s2 x.p ks).fctr = true)) :
    amoAct op seg rd n cs ia x s =
      let t := settled s2 x.p ks
      amoRd rd (w64 (held t ks)) x (t.amoUnit x.p page ks (amoWrites op n ia x (held t ks))) := by
  obtain ⟨hl, -, hb⟩ := hf
  simp only [amoAct, hwip, amoDo, hl, hb rfl, Bool.false_eq_true, ↓reduceIte]
  exact if_neg (by rwa [Bool.and_eq_true])

/-- One whose port answers with an error status aborts. -/
theorem amoAct_aborts (hport : ks.any isExt = true ∧ Config.portFails (settled s2 x.p ks).fctr = true) :
    amoAct op seg rd n cs ia x s =
      let t := settled s2 x.p ks
      .final (amoAbort cs (x.v ia) x t (t.amoUnit x.p page ks (amoWrites op n ia x (held t ks)))) := by
  obtain ⟨hl, -, hb⟩ := hf
  simp only [amoAct, hwip, amoDo, hl, hb rfl, Bool.false_eq_true, ↓reduceIte]
  exact if_pos (by rwa [Bool.and_eq_true])

end Located

theorem amoRd_register {v : Word} (h : rd ≠ 61) : amoRd rd v x s = .done (s.setReg x.p rd v) none none := if_neg h

theorem amoRd_enqueues {v : Word} (h : rd = 61) (hroom : s.qoutRoom x.p = true) :
    amoRd rd v x s = .done (s.enqueue x.p v) none none := by simp [amoRd, h, hroom]

theorem amoRd_begins {v : Word} (h : rd = 61) (hroom : s.qoutRoom x.p = false) :
    amoRd rd v x s = .begun (s.modBank x.p fun b => { b with wip := .push v none }) := by simp [amoRd, h, hroom]

end Work

/-! The instructions. -/

/-- The shape of an atomic with these source fields and this destination. -/
abbrev atomicShape (srcs : List (Nat × Lit)) (rd : Nat) : Shape := { srcs, dst := some rd, lat := .var, closes := true }

section Issue
variable {s s1 s3 s4 : State} {srcs : List (Nat × Lit)} {vals : List Word} {hold : BitVec 2} {op seg rd n ia : Nat}
  {ks : List Nat} {page : Option (Nat × Nat × Bool)}

/-- Nothing holds back an atomic whose access is free. -/
theorem amoWaits_of_free {h : Shape} (hne : vals.isEmpty = false) (hfree : Free s seg (vals.getD ia 0) n true true) :
    amoWaits seg n ia (asks s h vals) s = none :=
  (knowing_of_vals (x := asks s h vals) hne).trans hfree

/-- The abort of an atomic that has issued traps at its word. -/
theorem amoAbort_ctx {h : Shape} (hlen : h.srcs.length ≤ 4) (cs : List Nat) (off : Word) (t u : State) :
    amoAbort cs off (ctx s h vals) t u =
      ((if Config.portDone t.fctr = true then u else { t with fctr := t.fctr + 1 }).unpop (ctx s h vals) cs).trapAt s.cur
        .extAbort 0 (some off) (s.bank s.cur).pc h.words (s.wordOf s.cur) := by
  rw [amoAbort, ctx_words hlen]
  rfl

/-- An atomic commits, is performed, and ends as the way of its old value says, or as its port does (R272, R275). -/
theorem amo_ends {t done : State} {new : Option Nat} {a : Act} (hlen : srcs.length ≤ 4) (hne : vals.isEmpty = false)
    (hr : Issues s (atomicShape srcs rd) s1 vals) (hfree : Free s seg (vals.getD ia 0) n true true)
    (hk : amoChk op seg rd n ia (ctx s (atomicShape srcs rd) vals) s1 = none)
    (hcm : committed s (atomicShape srcs rd) vals s1 = some s3)
    (hf : Safety.Found s3 s.cur seg (vals.getD ia 0) n true true s4 ks page) (ht : settled s4 s.cur ks = t)
    (hnew : amoWrites op n ia (ctx s (atomicShape srcs rd) vals) (held t ks) = new)
    (ha : amoRd rd (w64 (held t ks)) (ctx s (atomicShape srcs rd) vals) (t.amoUnit s.cur page ks new) = a)
    (hend : s.conclude (ctx s (atomicShape srcs rd) vals) (atomicShape srcs rd) hold (reopens s (atomicShape srcs rd)) a =
      done) :
    issueWait (atomicShape srcs rd) hold (amoWaits seg n ia) (amoChk op seg rd n ia)
        (amoAct op seg rd n (srcs.map (·.1)) ia) s =
      .next (portEnd s (atomicShape srcs rd) vals ks (vals.getD ia 0) t (t.amoUnit s.cur page ks new) done) := by
  subst ht hnew ha
  have hwip : (s3.bank s.cur).wip = .none := wip_of_committed (wip_of_issues hr) hcm
  have hw := amoWaits_of_free (h := atomicShape srcs rd) hne hfree
  by_cases hport : ks.any isExt = true ∧ Config.portFails (settled s4 s.cur ks).fctr = true
  · have hact := amoAct_aborts (op := op) (rd := rd) (cs := srcs.map (·.1)) (x := ctx s (atomicShape srcs rd) vals)
      hwip hf hport
    exact issueWait_closing_concludes hr hw rfl hk hcm hact ((amoAbort_ctx hlen ..).trans (if_pos hport).symm)
  · have hact := amoAct_lands (op := op) (rd := rd) (cs := srcs.map (·.1)) (x := ctx s (atomicShape srcs rd) vals)
      hwip hf hport
    exact issueWait_closing_concludes hr hw rfl hk hcm hact (hend.trans (if_neg hport).symm)

end Issue

/-- An instruction that is `amo` of its operation gives what `amoNew` gives. -/
theorem givesAmo_of {mk : FmtAmo → Instr} {op : Nat} {ports : Bool} {new : Nat → Nat → Nat → Nat}
    (h : ∀ f s, exec (mk f) s = amo op f s) (hop : op ≠ 7) (hports : ports = true → op = 0 ∨ op = 1)
    (hnew : amoNew op = new) : GivesAmo mk ports new := by
  subst hnew
  refine fun f s s1 s2 s3 s4 off b ks page ks' page' hr hfree hf hp hfull hcm hf' => ?_
  have hport : ks.any isExt = true → op = 0 ∨ op = 1 ∨ op = 7 := fun hx => (hports (hp hx)).imp_right .inl
  have hend := fun {done} {a} => amo_ends (ia := 0) (hold := f.hold) (done := done) (a := a) (by simp) rfl hr hfree
    (amoChk_ok hf hport hfull) hcm hf' rfl (amoWrites_eq hop ..)
  rw [h]
  exact ⟨fun hrd => hend (amoRd_register hrd) conclude_done,
    fun hrd hroom => hend (amoRd_enqueues hrd hroom) conclude_done,
    fun hrd hroom => hend (amoRd_begins hrd hroom) conclude_begun⟩

/-- Settles O23: each atomic is the unit of its new value; a port answers, and the old value goes to rd. -/
theorem atomicResults : Obligations.AtomicResults := by
  refine ⟨⟨?swap, ?add, ?and, ?or, ?max, ?min, ?maxu, fun n old b hn ho hb => amoNew_signed (by omega) ho hb⟩,
    fun f s s1 s2 s3 s4 d off b ks page ks' page' hrd hr hfree hf hcm hf' => ?cas,
    fun s p ks new a hwf hu hnd => s.memRead_amoUnit p new a hwf hu hnd⟩
  case swap => exact givesAmo_of exec_amoswap (by decide) (fun _ => .inl rfl) rfl
  case add => exact givesAmo_of exec_amoadd (by decide) (fun _ => .inr rfl) rfl
  case and => exact givesAmo_of exec_amoand (by decide) (fun h => nomatch h) rfl
  case or => exact givesAmo_of exec_amoor (by decide) (fun h => nomatch h) rfl
  case max => exact givesAmo_of exec_amomax (by decide) (fun h => nomatch h) rfl
  case min => exact givesAmo_of exec_amomin (by decide) (fun h => nomatch h) rfl
  case maxu => exact givesAmo_of exec_amomaxu (by decide) (fun h => nomatch h) (funext fun n => funext₂ (amoNew_six n))
  case cas =>
    exact amo_ends (by simp) rfl hr hfree (amoChk_ok hf (fun _ => .inr (.inr rfl)) (amoFull_eq_false hrd)) hcm hf' rfl rfl
      (amoRd_register hrd) conclude_done

end Sys2Proof.Machine

namespace Sys2Proof.Machine
open Sys2Proof.Safety

/-! # lut4ld and hints -/

/-! lut4ld (R283). -/

/-- A read of a seat whose location is found, free and sound gives its bytes. -/
theorem State.seatRead_ok {s s2 : State} {p : Machine.Place} {seg n al : Nat} {off : Word} {ks : List Nat}
    {page : Option (Nat × Nat × Bool)} (hl : s.locate p seg off.toNat n al true false false = (s2, .ok ks page))
    (hv : s2.heldBack p ks = false) (hb : s2.bad ks = false) :
    s.seatRead p seg off n al = ((s2.seatBytes p page ks).1, .ok (s2.seatBytes p page ks).2) := by
  simp only [State.seatRead, hl, hv, hb]
  rfl

section Lut4
variable {x : Ctx} {s t : State} {seg : Nat} {bs : List Byte}

/-- Nothing holds back a lut4ld whose access is free. -/
theorem lut4Waits_of_free {h : Shape} {off : Word} (hfree : s.accessWait s.cur seg off 16 16 true false = none) :
    knowing (fun x s => s.accessWait x.p seg (x.v 0) 16 16 true false) (asks s h [off]) s = none :=
  (knowing_of_vals rfl).trans hfree

section Read
variable (hw : (s.bank x.p).wip = .none) (hread : s.seatRead x.p seg (x.v 0) 16 16 = (t, .ok bs))
include hw hread

/-- Outside a scene lut4ld begins with the table that it has read. -/
theorem lut4Act_begins (hsc : (t.bank x.p).openScene = none) :
    lut4Act seg x s = .begun (t.modBank x.p fun b => { b with wip := .lut4 (BitVec.ofNat 128 (leNat bs)) }) := by
  simp [lut4Act, hw, hread, hsc]

/-- In a scene its table is buffered. -/
theorem lut4Act_scene {sc : Scene} (hsc : (t.bank x.p).openScene = some sc) :
    lut4Act seg x s = .done (t.modBank x.p fun b => b.buffer 1 (.lut4 (BitVec.ofNat 128 (leNat bs)))) none none := by
  simp [lut4Act, hw, hread, hsc]

end Read

section Begun
variable {tab : BitVec 128} (hw : (s.bank x.p).wip = .lut4 tab)
include hw

/-- It waits for the started commands of its tile's engines. -/
theorem lut4Act_waits (hb : s.lutBusy x.p.core = true) : lut4Act seg x s = .wait .memory := by simp [lut4Act, hw, hb]

/-- It writes LUT4 when none is left. -/
theorem lut4Act_writes (hb : s.lutBusy x.p.core = false) :
    lut4Act seg x s = .done (s.modCore x.p.core fun k => { k with lutNew := k.lutNew ++ [(s.clk, tab)] }) none none := by
  simp [lut4Act, hw, hb]

end Begun
end Lut4

/-! Hints (R285). -/

section Hint
variable {f : FmtS} {act : Machine.Place → Nat → Nat × Nat × Bool → State → State} {s s1 s2 : State} {a : Word} {k : Nat}
  {pg : Nat × Nat × Bool} (hr : Issues s { srcs := [isrc f.ra] } s1 [a])
include hr

/-- A hint that finds no line only passes. -/
theorem hint_passes (hn : s1.hintAt s.cur (f.imm.toNat % 8) a = none) :
    hint f act s = .next (passed s { srcs := [isrc f.ra] } [a] f.hold s1) := by
  refine issue_done hr rfl rfl ?_
  simp only [ctx, Ctx.v, List.getD_cons_zero, hn]

/-- One that finds a line acts on it. -/
theorem hint_acts (hl : s1.hintAt s.cur (f.imm.toNat % 8) a = some (s2, k, pg)) :
    hint f act s = .next (passed s { srcs := [isrc f.ra] } [a] f.hold (act s.cur k pg s2)) := by
  refine issue_done hr rfl rfl ?_
  simp only [ctx, Ctx.v, List.getD_cons_zero, hl]

end Hint

/-- The five hints. -/
theorem exec_eq_hint (f : FmtS) (s : State) {j : Instr}
    (hj : j ∈ [Instr.prefL1 f, .prefL2 f, .mhintNear f, .mhintHome f, .mhintPage f]) :
    ∃ act, exec j s = hint f act s := by
  simp only [List.mem_cons, List.not_mem_nil, or_false] at hj
  obtain rfl | rfl | rfl | rfl | rfl := hj
  exacts [⟨_, exec_prefL1 f s⟩, ⟨_, exec_prefL2 f s⟩, ⟨_, exec_mhintNear f s⟩, ⟨_, exec_mhintHome f s⟩,
    ⟨_, exec_mhintPage f s⟩]

/-- Settles O26: a lut4ld reads, begins or is buffered, and later writes; a hint acts on the line that it finds. -/
theorem lut4HintResults : Obligations.Lut4HintResults := by
  refine ⟨fun f s => ⟨fun s1 s2 off ks page hr hfree hl hv hb => ?fresh, fun t hwip => ?resumed⟩,
    fun f s s1 a hr => ⟨fun hn j hj => ?none, fun s2 k pg hl => ⟨?prefL1, ?others⟩⟩⟩
  case fresh =>
    have hwip := wip_of_issues hr
    have hw := lut4Waits_of_free (h := { srcs := [isrc f.ra], entries := 1 }) hfree
    have hread := State.seatRead_ok hl hv hb
    exact ⟨fun hsc => congrArg Host.Outcome.next
        (issueWith_begun hr hw rfl rfl rfl (lut4Act_begins (x := ctx s _ [off]) hwip hread hsc)),
      fun sc hsc => issueWait_done hr hw rfl rfl rfl (lut4Act_scene (x := ctx s _ [off]) hwip hread hsc)⟩
  case resumed =>
    have hres : (s.bank s.cur).wip.resuming = true := by rw [hwip]; rfl
    exact ⟨fun hb => congrArg Host.Outcome.next (issueWith_resume_wait hres (lut4Act_waits hwip hb)),
      fun hb => congrArg Host.Outcome.next (issueWith_resume_done hres rfl rfl (lut4Act_writes hwip hb))⟩
  case none =>
    obtain ⟨act, hact⟩ := exec_eq_hint f s hj
    exact hact.trans (hint_passes hr hn)
  case prefL1 =>
    intro r
    refine (exec_prefL1 f s).trans ((hint_acts hr hl).trans ?_)
    simp only [Bool.not_eq_true', r]
  case others =>
    exact ⟨(exec_prefL2 f s).trans (hint_acts hr hl), (exec_mhintNear f s).trans (hint_acts hr hl),
      (exec_mhintHome f s).trans (hint_acts hr hl), (exec_mhintPage f s).trans (hint_acts hr hl)⟩

end Sys2Proof.Machine

namespace Sys2Proof.Machine
open Sys2Proof.Safety

/-! # esync, qfence and qfence.all -/

/-! esync (R292). -/

section Esync
variable {x : Ctx} {s : State} {eng mask words : Nat}

/-- With no fault to report, esync waits for the seat's own commands. -/
theorem esyncWaits_engine (h : (s.bank x.p).faultPos eng mask = none ∧ s.esyncBusy x.p eng mask = true) :
    esyncWaits eng mask x s = some .engine := by
  obtain ⟨hfault, hbusy⟩ := h
  simp [esyncWaits, hfault, hbusy]

/-- Otherwise its wait is over. -/
theorem esyncWaits_over (h : ¬ ((s.bank x.p).faultPos eng mask = none ∧ s.esyncBusy x.p eng mask = true)) :
    esyncWaits eng mask x s = none :=
  if_neg (by simpa using h)

/-- Then it joins the seat's commands and gives the empty queues. -/
theorem esyncAct_joins (h : (s.bank x.p).faultPos eng mask = none) : esyncAct eng mask words x s =
    let t := s.joinTs x.p.core fun key tag => keyEng key == eng && tag == x.p.seat + 2 * x.p.bank && bit mask (key % 4)
    .done t (some (w64 (t.emptyQueues x.p.core eng mask))) none := by
  simp only [esyncAct, h]

/-- A fault that the mask covers is reported, and is then no longer kept. -/
theorem esyncAct_reports {i e q : Nat} {a : Word} (h : (s.bank x.p).faultPos eng mask = some i)
    (hi : (s.bank x.p).faults[i]? = some (e, q, a)) : esyncAct eng mask words x s =
      .final ((s.modBank x.p fun b => { b with faults := dropAt b.faults i }).trapAt x.p .engineFault
        (eng + 8 * (q % 4)) (some a) x.pc words x.word) := by
  simp only [esyncAct, h, List.getD, hi, Option.getD_some]

end Esync

/-! qfence and qfence.all (R277). -/

section Qfence
variable {x : Ctx} {s : State} {eng e m below : Nat} {mask : Ctx → Nat}

/-- A queue fence that finds no earlier command in its queues is done at once. -/
theorem qfAct_joins (h : (s.bank x.p).wip = .none)
    (hb : s.qfBusy x.p.core eng (mask x) (s.core x.p.core).ids = false) :
    qfAct eng mask x s = .done (s.qfJoin x.p.core eng (mask x)) none none := by
  simp [qfAct, h, hb]

/-- One that finds some begins, and keeps up to which command it waits. -/
theorem qfAct_begins (h : (s.bank x.p).wip = .none)
    (hb : s.qfBusy x.p.core eng (mask x) (s.core x.p.core).ids = true) : qfAct eng mask x s =
      .begun (s.modBank x.p fun b => { b with wip := .qf eng (mask x) (s.core x.p.core).ids }) := by
  simp [qfAct, h, hb]

/-- It waits for the commands before that. -/
theorem qfAct_waits (h : (s.bank x.p).wip = .qf e m below) (hb : s.qfBusy x.p.core e m below = true) :
    qfAct eng mask x s = .wait .engine := by
  simp [qfAct, h, hb]

/-- It is done when none is left. -/
theorem qfAct_ends (h : (s.bank x.p).wip = .qf e m below) (hb : s.qfBusy x.p.core e m below = false) :
    qfAct eng mask x s = .done (s.qfJoin x.p.core e m) none none := by
  simp [qfAct, h, hb]

end Qfence

/-- Settles O39: the faults decide, then the queues, for esync; the commands that were there decide for a queue fence. -/
theorem engineSynchronisation : Obligations.EngineSynchronisation := by
  refine ⟨fun f s hr => ⟨fun hw => ?wait, fun hw ha => ?absent, fun ha hfault hbusy => ?join,
      fun i q a ha hfault hi => ?report⟩,
    fun f s => ⟨fun s1 m hr => ?fence, fun e m below hwip => ?resumed⟩, fun f s hr => ?all⟩
  case wait => exact issueWait_own hr (esyncWaits_engine hw)
  case absent => exact issueWait_trap hr (esyncWaits_over hw) (engChk_eq_trap ha)
  case join =>
    exact issueWait_done hr (esyncWaits_over fun hw => Bool.eq_false_iff.mp hbusy hw.2) rfl rfl (engChk_eq_none ha)
      (esyncAct_joins hfault)
  case report =>
    exact issueWait_final hr (esyncWaits_over fun hw => nomatch hfault.symm.trans hw.1) rfl (engChk_eq_none ha)
      (esyncAct_reports hfault hi)
  case fence =>
    have hwip := wip_of_issues hr
    exact ⟨fun hb => issue_done hr rfl rfl (qfAct_joins hwip hb), fun hb => issue_begun hr rfl rfl (qfAct_begins hwip hb)⟩
  case resumed =>
    have hres : (s.bank s.cur).wip.resuming = true := by rw [hwip]; rfl
    exact ⟨fun hb => issue_resume_wait hres (qfAct_waits hwip hb),
      fun hb => issue_resume_done hres rfl rfl (qfAct_ends hwip hb)⟩
  case all =>
    have hwip := wip_of_issues hr
    exact ⟨fun hb => issue_done hr rfl rfl (qfAct_joins hwip hb), fun hb => issue_begun hr rfl rfl (qfAct_begins hwip hb)⟩

end Sys2Proof.Machine

namespace Sys2Proof.Machine
open Sys2Proof.Safety

/-! # The trap instruction -/

section HandlerEntry
variable {s : State} {p : Machine.Place} {cause : Cause}

/-- What an instruction had reserved is given back: only the stage doors and the bank's own notes of it change. -/
theorem State.unreserve_only (s : State) (p : Machine.Place) :
    ∃ d, s.unreserve p = { s with doorRes := d }.modBank p fun b => { b with sendTo := none, copRoom := none } := by
  unfold State.unreserve
  split
  · exact ⟨_, rfl⟩
  · exact ⟨s.doorRes, rfl⟩

/-- A trap outside handler mode, where a handler is resident, retires the writes in flight and enters the handler (R394): what
it leaves of the bank, and that it sends nothing. -/
theorem State.trapAt_enters (hc : cause ≠ .illegalEncoding) (hh : (s.bank p).handler = false) (ht : s.trapsHalt p = false)
    (info : Nat) (fa : Option Word) (epc : Word) (len : Nat) (w : W32) :
    ∃ u : State, (∃ r a, u.bank p = { s.bank p with inflight := [], regs := r, amax := a, sendTo := none, copRoom := none }) ∧
      u.net = s.net ∧
      s.trapAt p cause info fa epc len w =
        (({ u.modBank p (fun b => { b.fault fa with pc := epc }) with ended := .trap } : State).enterHandler p epc 0 len
          false).modBank p fun b => { b with cause := BitVec.ofNat 32 (cause.num + info * 2 ^ 16) } := by
  obtain ⟨d, hd⟩ := s.unreserve_only p
  obtain ⟨⟨bs, ss, hrest⟩, ⟨r, a, hown⟩, -⟩ := State.retireAll_regs (s.unreserve p) p
  have hbank : ((s.unreserve p).retireAll p).bank p =
      { s.bank p with inflight := [], regs := r, amax := a, sendTo := none, copRoom := none } := by
    rw [hown, hd, State.bank_modBank_same, State.bank_modBank_same]
    rfl
  have hhalt : (State.modBank ((s.unreserve p).retireAll p) p fun b => { b.fault fa with pc := epc }).trapsHalt p = false := by
    rw [hrest, hd]
    exact ht
  have hin : ((State.modBank ((s.unreserve p).retireAll p) p fun b => { b.fault fa with pc := epc }).bank p).handler = false := by
    rw [State.bank_modBank_same, hbank]
    exact hh
  refine ⟨(s.unreserve p).retireAll p, ⟨r, a, hbank⟩, by rw [hrest, hd]; rfl, ?_⟩
  unfold State.trapAt
  extract_lets t u v
  rw [if_neg]
  rintro (h | h | h)
  · exact hc h
  · exact Bool.false_ne_true (hin.symm.trans h)
  · exact Bool.false_ne_true (hhalt.symm.trans h)

end HandlerEntry

/-- The word of a cause register holds the code in its low 7 bits and INFO from bit 16 on. -/
theorem cause_fields {n info : Nat} (hn : n < 2 ^ 7) (hi : info < 2 ^ 16) :
    (BitVec.ofNat 32 (n + info * 2 ^ 16)).toNat % 2 ^ 7 = n ∧ (BitVec.ofNat 32 (n + info * 2 ^ 16)).toNat / 2 ^ 16 = info := by
  have h : (BitVec.ofNat 32 (n + info * 2 ^ 16)).toNat = n + info * 2 ^ 16 := by
    rw [BitVec.toNat_ofNat]
    omega
  omega

/-- EPC takes a word-aligned offset as it is (R397). -/
theorem State.epc_crWrite (s : State) (p : Machine.Place) (v : Word) (priv : Bool) (h : v.toNat % 4 = 0) :
    ((s.crWrite p 0x282 v priv).bank p).epc = v := by
  have hv : v >>> 2 <<< 2 = v := by bv_omega
  have hw : ((s.crWrite p 0x282 v priv).bank p).epc = v >>> 2 <<< 2 := by simp [State.crWrite, crXZero]
  rw [hw, hv]

/-- TSTAT of a seat that has entered its handler by a trap of one word (R394). -/
theorem tstat_trap (n : Nat) (hn : n ≤ 1) : (BitVec.ofNat 7 (1 + 2 * n + 4 * 0 + 16 * 1 + 64 * b2n false)).getLsbD 0 = true ∧
    (BitVec.ofNat 7 (1 + 2 * n + 4 * 0 + 16 * 1 + 64 * b2n false)).toNat / 2 ^ 4 % 4 = 1 := by
  interval_cases n <;> decide

/-- Settles O43: the check of trap n answers the trap, and a trap where a handler is resident enters it. -/
theorem trapInstruction : Obligations.TrapInstruction := by
  intro f s hr
  have htrap : exec (.trap f) s = .next (s.trapAt s.cur .swTrap f.imm.toNat none (s.bank s.cur).pc 1 (s.wordOf s.cur)) :=
    issueChk_trap hr rfl
  refine ⟨htrap, fun hh h8 hv => ⟨_, htrap, ?_⟩⟩
  have hhalt : s.trapsHalt s.cur = false := by simp [State.trapsHalt, h8, hv]
  obtain ⟨u, ⟨r, a, hu⟩, hnet, ht⟩ := State.trapAt_enters (cause := .swTrap) (by decide) hh hhalt f.imm.toNat none
    (s.bank s.cur).pc 1 (s.wordOf s.cur)
  obtain ⟨hcode, hinfo⟩ := cause_fields (n := Cause.swTrap.num) (info := f.imm.toNat) (by decide) (by omega)
  have hmem := State.mem_trapAt s s.cur .swTrap f.imm.toNat none (s.bank s.cur).pc 1 (s.wordOf s.cur)
  rw [ht] at hmem ⊢
  refine ⟨?_, ?_, ?_, ?_, ?_, ?_, hmem, hnet, fun v hveq hva => hveq ▸ State.epc_crWrite _ _ v true hva⟩
  all_goals rw [State.bank_modBank_same, State.enterHandler, State.bank_modBank_same]
  · exact (tstat_trap _ (by unfold b2n; split <;> omega)).1
  · exact hcode
  · exact hinfo
  · exact (tstat_trap _ (by unfold b2n; split <;> omega)).2
  · have hf : (u.bank s.cur).faddr = (s.bank s.cur).faddr := by rw [hu]
    exact (congrArg Bank.faddr (u.bank_modBank_same s.cur fun b => { b.fault none with pc := (s.bank s.cur).pc })).trans hf

end Sys2Proof.Machine

namespace Sys2Proof.Machine
open Sys2Proof.Safety

/-! # COPs enter their queue -/

section Cop
variable {s s1 s2 : State} {eng q op : Nat} {sa sb : BitVec 6} {a b : Word}

/-- The checks of a COP in their order (R287): presence, those of its operation, room. -/
theorem copChks_absent {x : Ctx} {d : Check} {r : Check} (h : engChk eng x s = some (.trap .engineAbsent 0 none)) :
    chks [engChk eng, d, r] x s = some (.trap .engineAbsent 0 none) := by
  simp only [chks, List.findSome?_cons, h]

/-- A COP whose engine is there fails the check of its operation, when that fails. -/
theorem copChks_desc {x : Ctx} {d : Check} {r : Check} {c : Act} (h : engChk eng x s = none) (hd : d x s = some c) :
    chks [engChk eng, d, r] x s = some c := by
  simp only [chks, List.findSome?_cons, h, hd]

/-- A COP that passes the check of its operation is decided by the room in its queue. -/
theorem copChks_room {x : Ctx} {d : Check} {r : Check} (h : engChk eng x s = none) (hd : d x s = none) :
    chks [engChk eng, d, r] x s = r x s := by
  simp only [chks, List.findSome?_cons, List.findSome?_nil, h, hd]
  cases r x s <;> rfl

/-- Room in the queue (R287 step 4). -/
theorem copRoomChk_room {key : List Word → Nat} {x : Ctx} (h : s.queueLoad x.p (key x.vals) < 8) : copRoomChk key x s = none :=
  if_pos h

/-- A full queue holds a seat of a D-tile, and traps an X-seat (R179). -/
theorem copRoomChk_full {key : List Word → Nat} {x : Ctx} (h : 8 ≤ s.queueLoad x.p (key x.vals)) :
    copRoomChk key x s = if x.p.reflex then some (.trap .reflexBlock 0 none) else some (.wait .engine) :=
  if_neg (Nat.not_lt.mpr h)

/-- An instruction that is a COP takes the steps of R287, with the check `chk` of its operation. -/
theorem entersCop_of {j : Instr} {hold : BitVec 2} {chk : ECmd → Ctx → State → Option Act}
    {bad : State → Machine.Place → ECmd → Bool} (hj : ∀ s, exec j s = cop eng q op sa sb hold chk s)
    (hchk : ∀ e x s, chk e x s = if bad s x.p e then some (.trap .engineDesc 0 none) else none) :
    EntersCop j eng q op sa sb hold bad := by
  intro s s1 s2 a b h key wrong hr
  refine ⟨fun ha => ?absent, fun ha hw => ?desc, fun ha hw hq => ?full, fun ha hw hq hc => ?enters⟩ <;> rw [hj]
  case absent => exact issueChk_trap hr (copChks_absent (engChk_eq_trap ha))
  case desc => exact issueChk_trap hr (copChks_desc (engChk_eq_none ha) ((hchk ..).trans (if_pos hw)))
  case full =>
    have hk := (copChks_room (engChk_eq_none ha) ((hchk ..).trans (if_neg (Bool.eq_false_iff.mp hw)))).trans
      (copRoomChk_full (key := copKey eng q (s.cur.seat == 8)) (x := ctx s h [a, b]) (s := s1) hq)
    split <;> rename_i hx
    · exact issueChk_trap hr (hk.trans (if_pos hx))
    · exact issueChk_wait hr (hk.trans (if_neg hx))
  case enters =>
    refine issueChk_closing hr rfl ?_ hc rfl
    exact (copChks_room (engChk_eq_none ha) ((hchk ..).trans (if_neg (Bool.eq_false_iff.mp hw)))).trans
      (copRoomChk_room (key := copKey eng q (s.cur.seat == 8)) (x := ctx s h [a, b]) (s := s1) hq)

/-- A COP that traps ENGINE_DESC where `bad` says so. -/
theorem entersCop_checked {j : Instr} {hold : BitVec 2} {bad : State → Machine.Place → ECmd → Bool}
    (hj : ∀ s, exec j s = cop eng q op sa sb hold (fun e => descChk fun x s => bad s x.p e) s) :
    EntersCop j eng q op sa sb hold bad := entersCop_of hj fun _ _ _ => rfl

/-- A COP whose engine makes no check. -/
theorem entersCop_unchecked {j : Instr} {hold : BitVec 2} (hj : ∀ s, exec j s = cop eng q op sa sb hold noChk s) :
    EntersCop j eng q op sa sb hold unchecked := entersCop_of hj fun _ _ _ => rfl

end Cop

/-! mtask (R310). -/

section Mtask
variable {s s1 : State} {h : Shape} {vals : List Word}

/-- An X-seat and a reflex have no tile tasks. -/
theorem mtaskChk_reflex {x : Ctx} {t : State} (hx : x.p.reflex = true) : mtaskChk x t = some (.trap .engineAbsent 0 none) :=
  if_pos hx

/-- Where the scheduler is off, a doorbell is refused. -/
theorem mtaskChk_off {x : Ctx} {t : State} (hx : x.p.reflex = false)
    (he : (t.eregUnit (Config.clusterOf x.p.core) 0 0x181).getLsbD 4 = false) :
    mtaskChk x t = some (.trap .engineDesc 0 none) := by
  simp only [mtaskChk, hx, he, Bool.false_eq_true, ↓reduceIte, Bool.not_false]

/-- Where it is on, the room for doorbells decides. -/
theorem mtaskChk_on {x : Ctx} {t : State} (hx : x.p.reflex = false)
    (he : (t.eregUnit (Config.clusterOf x.p.core) 0 0x181).getLsbD 4 = true) :
    mtaskChk x t = if 64 ≤ t.bellLoad x.p (Config.clusterOf x.p.core) then some (.wait .engine) else none := by
  simp only [mtaskChk, hx, he, Bool.false_eq_true, ↓reduceIte, Bool.not_true]

end Mtask

/-- Settles O37: every engine operation is a COP with the check of its chapter, and mtask has a check and a place of its own. -/
theorem engineCommandsEnter : Obligations.EngineCommandsEnter := by
  refine ⟨fun _ => entersCop_checked fun _ => rfl, fun _ => entersCop_checked fun _ => rfl,
    fun _ => entersCop_checked fun _ => rfl, fun _ => entersCop_checked fun _ => rfl,
    fun _ => entersCop_checked fun _ => rfl, fun _ => entersCop_checked fun _ => rfl,
    fun _ => entersCop_checked fun _ => rfl, fun _ => entersCop_checked fun _ => rfl,
    fun _ => entersCop_checked fun _ => rfl, fun _ => entersCop_checked fun _ => rfl,
    fun _ => entersCop_checked fun _ => rfl, fun _ => entersCop_checked fun _ => rfl,
    fun _ => entersCop_unchecked fun _ => rfl, fun _ => entersCop_unchecked fun _ => rfl,
    fun _ => entersCop_unchecked fun _ => rfl, fun _ => entersCop_unchecked fun _ => rfl,
    fun _ => entersCop_unchecked fun _ => rfl, fun _ => entersCop_checked fun _ => rfl,
    fun _ => entersCop_unchecked fun _ => rfl, fun _ => entersCop_checked fun _ => rfl,
    fun _ => entersCop_unchecked fun _ => rfl, fun _ => entersCop_unchecked fun _ => rfl,
    fun _ => entersCop_unchecked fun _ => rfl, fun f s s1 s2 a b => ?_⟩
  intro cl h hr
  rw [exec_mtask, execMtask]
  refine ⟨fun hx => issueChk_trap hr (mtaskChk_reflex (x := ctx s h [a, b]) hx), fun hx he => ?off, fun hx he =>
    ⟨fun hl => ?full, fun hl hc => ?rings⟩⟩
  case off => exact issueChk_trap hr (mtaskChk_off (x := ctx s h [a, b]) hx he)
  case full => exact issueChk_wait hr ((mtaskChk_on (x := ctx s h [a, b]) hx he).trans (if_pos hl))
  case rings =>
    refine issueChk_closing hr rfl ((mtaskChk_on (x := ctx s h [a, b]) hx he).trans (if_neg (Nat.not_le.mpr hl))) hc ?_
    simp [bits, ctx, Ctx.v, h, cl]

end Sys2Proof.Machine

namespace Sys2Proof.Machine

/-! # Engine queues

What leaves the queues of the engines as they are, and what it does to the head of one. -/

section Queues
variable {s : State} {c key : Nat}

/-- A change of a core that keeps its queues keeps every queue. -/
theorem State.queue_modCore {f : Core → Core} (h : ∀ k, (f k).queues = k.queues) (s : State) (d c key : Nat) :
    (s.modCore d f).queue c key = s.queue c key := by
  unfold State.queue
  by_cases hd : d = c
  · subst hd; rw [State.core_modCore_same, h]
  · rw [State.core_modCore_other s f hd]

@[simp] theorem State.queue_setEregCore (s : State) (d eng n : Nat) (v : Word) (c key : Nat) :
    (s.setEregCore d eng n v).queue c key = s.queue c key := by
  apply State.queue_modCore
  exact fun _ => rfl

@[simp] theorem State.queue_setCrCore (s : State) (d n : Nat) (v : Word) (c key : Nat) :
    (s.setCrCore d n v).queue c key = s.queue c key := by
  apply State.queue_modCore
  exact fun _ => rfl

@[simp] theorem State.queue_engCount (s : State) (d eng n k c key : Nat) :
    (s.engCount d eng n k).queue c key = s.queue c key := State.queue_setEregCore ..

@[simp] theorem State.queue_modSeat (s : State) (d i : Nat) (f : Seat → Seat) (c key : Nat) :
    (s.modSeat d i f).queue c key = s.queue c key := rfl

@[simp] theorem State.queue_modSlot (s : State) (q : Nat) (f : Slot → Slot) (c key : Nat) :
    (s.modSlot q f).queue c key = s.queue c key := rfl

@[simp] theorem State.queue_modBank (s : State) (p : Place) (f : Bank → Bank) (c key : Nat) :
    (s.modBank p f).queue c key = s.queue c key := rfl

@[simp] theorem State.queue_setEregUnit (s : State) (u eng n : Nat) (v : Word) (c key : Nat) :
    (s.setEregUnit u eng n v).queue c key = s.queue c key := rfl

@[simp] theorem State.queue_unitCount (s : State) (u eng n k c key : Nat) :
    (s.unitCount u eng n k).queue c key = s.queue c key := rfl

@[simp] theorem State.queue_chargeStep (s : State) (e : ECmd) (units c key : Nat) :
    (s.chargeStep e units).queue c key = s.queue c key := by
  unfold State.chargeStep
  split <;> rfl

@[simp] theorem State.queue_raiseUE (s : State) (d c key : Nat) : (s.raiseUE d).queue c key = s.queue c key :=
  State.queue_setCrCore ..

@[simp] theorem State.queue_enter (s : State) (m : Msg) (c key : Nat) : (s.enter m).queue c key = s.queue c key := by
  unfold State.enter
  split
  · exact s.queue_modCore (f := fun k => { k with sent := k.sent + 1, outbox := k.outbox ++ [m] }) (fun _ => rfl) m.src c key
  · exact s.queue_modCore (f := fun k => { k with sent := k.sent + 1 }) (fun _ => rfl) m.src c key

@[simp] theorem State.queue_faultMsg (s : State) (d i : Nat) (k : Cause) (v : Nat) (w1 w2 : Word) (c key : Nat) :
    (s.faultMsg d i k v w1 w2).queue c key = s.queue c key := State.queue_enter ..

@[simp] theorem State.queue_l2Access (s : State) (d l c key : Nat) : (s.l2Access d l).queue c key = s.queue c key := by
  unfold State.l2Access
  split <;> rfl

/-- A fold of steps that keep a queue keeps it. -/
theorem queue_foldl {α : Type} {f : State → α → State} (h : ∀ s x, (f s x).queue c key = s.queue c key) (l : List α)
    (s : State) : (l.foldl f s).queue c key = s.queue c key := by
  induction l generalizing s with
  | nil => rfl
  | cons x t ih => rw [List.foldl_cons, ih, h]

@[simp] theorem State.queue_flushExt (s : State) (sel : ExtWrite → Bool) (c key : Nat) :
    (s.flushExt sel).queue c key = s.queue c key := by
  unfold State.flushExt
  exact queue_foldl (f := fun s w => { s with mem := memWrites s.mem _ }) (fun _ _ => rfl) _ _

@[simp] theorem State.queue_poke (s : State) (d : Nat) (cells : List Host.Cell) (c key : Nat) :
    (s.poke d cells).queue c key = s.queue c key := by
  unfold State.poke
  split
  · rfl
  · exact queue_foldl (fun s q => State.queue_faultMsg s ..) _ _

@[simp] theorem State.queue_engWrite (s : State) (d lo : Nat) (cells : List Host.Cell) (c key : Nat) :
    (s.engWrite d lo cells).1.queue c key = s.queue c key := by
  unfold State.engWrite
  extract_lets ls ts t u
  have ht : t.queue c key = s.queue c key := by
    apply queue_foldl
    exact fun s l => State.queue_l2Access s d l c key
  refine (State.queue_poke ..).trans ?_
  simp only [u]
  split
  · exact (State.queue_flushExt ..).trans ht
  · exact ht

/-- A fold of reads of lines that keep a queue keeps it. -/
theorem queue_foldl_pair {α β : Type} {f : State × β → α → State × β}
    (h : ∀ a x, (f a x).1.queue c key = a.1.queue c key) (l : List α) (a : State × β) :
    (l.foldl f a).1.queue c key = a.1.queue c key := by
  induction l generalizing a with
  | nil => rfl
  | cons x t ih => rw [List.foldl_cons, ih, h]

@[simp] theorem State.queue_engRead (s : State) (d lo : Nat) (ks : List Nat) (c key : Nat) :
    (s.engRead d lo ks).1.queue c key = s.queue c key := by
  unfold State.engRead
  refine Eq.trans (queue_foldl_pair (by exact fun a l => State.queue_l2Access a.1 d l c key) _ _) ?_
  split
  · exact State.queue_flushExt ..
  · rfl

/-! The head of a queue. -/

theorem State.headCmd_eq_some {e : ECmd} : s.headCmd c key = some e ↔ (s.queue c key).head? = some e := Iff.rfl

/-- A queue that is as it was has the head that it had. -/
theorem State.headCmd_of_queue {t : State} (h : t.queue c key = s.queue c key) : t.headCmd c key = s.headCmd c key := by
  unfold State.headCmd
  rw [h]

/-- A change of a queue. -/
@[simp] theorem State.queue_modQueue_same (s : State) (c key : Nat) (f : List ECmd → List ECmd) :
    (s.modQueue c key f).queue c key = f (s.queue c key) := by
  simp [State.modQueue, State.queue, mmod]

/-- A change of the head of a queue. -/
@[simp] theorem State.headCmd_modHead (s : State) (c key : Nat) (f : ECmd → ECmd) :
    (s.modHead c key f).headCmd c key = (s.headCmd c key).map f := by
  unfold State.headCmd State.modHead
  rw [State.queue_modQueue_same]
  cases s.queue c key <;> rfl

@[simp] theorem State.queue_modHead_tail (s : State) (c key : Nat) (f : ECmd → ECmd) :
    ((s.modHead c key f).queue c key).tail = (s.queue c key).tail := by
  unfold State.modHead
  rw [State.queue_modQueue_same]
  cases s.queue c key <;> rfl

/-- A command that completes leaves its queue (R288). -/
@[simp] theorem State.queue_complete (s : State) (c key : Nat) : (s.complete c key).queue c key = (s.queue c key).tail := by
  unfold State.complete
  split
  · refine Eq.trans ?_ (State.queue_modQueue_same s c key List.tail)
    apply State.queue_modCore
    exact fun _ => rfl
  · next h =>
    rw [List.head?_eq_none_iff.mp h]
    rfl

/-- A faulted head is put back to its step (R305). -/
theorem State.headCmd_engResume {e : ECmd} (h : s.headCmd c key = some e) (hs : e.state = 3) :
    (s.engResume c key).headCmd c key =
      some { e with state := 1, cause := 0, retried := false, sent := false, bounced := false } := by
  rw [State.engResume, State.headCmd_modHead, h, Option.map_some, if_pos hs]

/-- A faulted head is removed (R305). -/
theorem State.engAbort_faulted {e : ECmd} (h : s.headCmd c key = some e) (hs : e.state = 3) :
    s.engAbort c key = s.complete c key := by
  simp [State.engAbort, State.headFaulted, h, hs]

end Queues

/-! Bytes on chip (R231): they lie at no external location and in no DRAM. -/

/-- Every byte lies on chip: its key is one of the on-chip memories. -/
def OnChip (ks : List Nat) : Prop := ∀ k ∈ ks, 2 ^ 48 ≤ k

/-- The home of an on-chip address is on chip. -/
theorem onchipByte_ge {c a k : Nat} (h : onchipByte c a = some k) : 2 ^ 48 ≤ k := by
  unfold onchipByte at h
  dsimp only at h
  split_ifs at h <;> simp only [Option.some.injEq] at h <;> rw [← h] <;>
    simp only [Config.tileKey, Config.padKey] <;> omega

theorem isExt_of_ge {k : Nat} (h : 2 ^ 48 ≤ k) : isExt k = false := by
  simp only [isExt, isHost, isPeer, Bool.or_eq_false_iff, Bool.and_eq_false_iff, decide_eq_false_iff_not]
  omega

theorem OnChip.any_isExt {ks : List Nat} (h : OnChip ks) : ks.any isExt = false :=
  List.any_eq_false.mpr fun k hk => by rw [isExt_of_ge (h k hk)]; decide

/-- An access to the on-chip map changes nothing, and finds bytes on chip. -/
theorem State.spaceKeys_own {s s1 : State} {e : ECmd} {a n : Nat} {w again : Bool} {ks : List Nat}
    (h : s.spaceKeys e .own a n w again = (s1, .ok ks)) : s1 = s ∧ OnChip ks := by
  unfold State.spaceKeys at h
  dsimp only at h
  split at h
  · cases h
  split at h
  · cases h
  cases h
  refine ⟨rfl, fun k hk => ?_⟩
  obtain ⟨o, ho, hk⟩ := List.mem_filterMap.mp hk
  obtain ⟨i, -, rfl⟩ := List.mem_map.mp ho
  exact onchipByte_ge hk

/-- A write on chip puts every byte in its place, sectors that were uncorrectable included (R249). -/
theorem State.mem_poke_onChip (s : State) (c : Nat) {cells : List Host.Cell} (h : OnChip (cells.map (·.1))) :
    (s.poke c cells).mem = memWrites s.mem cells := by
  have hdram : ∀ x ∈ cells, isDram (x.1 / 32 * 32) = false := fun x hx => by
    have := h x.1 (List.mem_map_of_mem hx)
    simp only [isDram, decide_eq_false_iff_not]
    omega
  unfold State.poke
  split
  · rfl
  extract_lets secs full part t
  have hpart : part = [] := by
    refine List.filter_eq_nil_iff.mpr fun q hq => ?_
    obtain ⟨x, hx, rfl⟩ := List.mem_map.mp (List.mem_dedup.mp (List.mem_of_mem_filter hq))
    simp [hdram x hx]
  rw [hpart]
  simp only [List.foldl_nil, t, hpart]
  simp

/-- So does a write of an engine. -/
theorem State.mem_engWrite_onChip (s : State) (c lo : Nat) {cells : List Host.Cell} (h : OnChip (cells.map (·.1))) :
    (s.engWrite c lo cells).1.mem = memWrites s.mem cells := by
  unfold State.engWrite
  extract_lets ls ts t u
  have ht : t.mem = s.mem := (mem_ue_foldl_l2Access c ts ls s).1
  have hu : u = t := if_neg (by
    rw [List.any_eq_true]
    rintro ⟨x, hx, he⟩
    rw [isExt_of_ge (h x.1 (List.mem_map_of_mem hx))] at he
    exact Bool.false_ne_true he)
  rw [State.mem_poke_onChip u c h, hu, ht]

/-- An engine's read on chip leaves memory alone. -/
theorem State.mem_engRead_onChip (s : State) (c lo : Nat) {ks : List Nat} (h : OnChip ks) :
    (s.engRead c lo ks).1.mem = s.mem := by
  unfold State.engRead
  rw [h.any_isExt]
  have hf : ∀ (l : List Nat) (a : State × Nat), (l.foldl (fun (a : State × Nat) l =>
      let (wts, rts) := a.1.lts l
      let t := max a.2 wts
      ({ a.1.l2Access c l with lines := mset a.1.lines l (wts, max rts (t + a.1.lease c)) }, t)) a).1.mem = a.1.mem := by
    intro l
    induction l with
    | nil => exact fun _ => rfl
    | cons x l ih => exact fun a => (ih _).trans (State.mem_l2Access a.1 c x)
  exact hf _ _

/-- It gives the bytes that memory holds. -/
theorem State.bytes_engRead_onChip (s : State) (c lo : Nat) {ks : List Nat} (h : OnChip ks) :
    (s.engRead c lo ks).2.1 = memReads s.mem ks :=
  congrArg (memReads · ks) (s.mem_engRead_onChip c lo h)

/-- Bytes paired with their keys lie where the keys do. -/
theorem OnChip.zip {ks : List Nat} (h : OnChip ks) (bs : List Byte) : OnChip ((ks.zip bs).map (·.1)) := by
  intro k hk
  obtain ⟨x, hx, rfl⟩ := List.mem_map.mp hk
  exact h _ (List.of_mem_zip hx).1

end Sys2Proof.Machine

namespace Sys2Proof.Machine
open Sys2Proof.Safety

/-! # A copy into an uncorrectable sector -/

/-- A cpy of one byte, from the first byte of core 0's store to offset 0x40 of its segment 0, which is readable, writable and
global (R316); it has started and has its one step to take. -/
def byteCopy : ECmd :=
  { State.reset.formCmd ⟨0, 0, 0⟩ 1 0 0 0 (2 ^ 63 + 0x40) with
    started := true, aux := .copy 0 0 0 none, segs := [(0, ⟨0, 0x1000, 11⟩)] }

/-- It heads channel 0 of core 0, where the byte to copy is 1; the page of the destination is translated to physical page 0,
and the 32-byte sector of the destination byte is uncorrectable. -/
def lostSector : State :=
  { (State.reset.modQueue 0 16 fun _ => [byteCopy]).modMmu 0 fun m => { m with tlb := [⟨0, 0, none, 7⟩] } with
    mem := [(Config.tileKey 0 0, 1)], ue := [2] }

/-- Its step reads the byte at address 0 and writes the one at offset 0x40 of segment 0. -/
theorem byteCopy_step : copySpace byteCopy.sa.toNat = .own ∧ (byteCopy.srcPos 0).toNat = 0 ∧ byteCopy.stepLen 0 = 1 ∧
    copySpace byteCopy.sb.toNat = .glob 0 ∧ byteCopy.dstPos 0 = 0x40 := by
  decide +kernel

/-- The step drops its store, which is smaller than the sector (R249). -/
theorem mem_copyStep_lostSector : (lostSector.copyStep 0 0).mem = lostSector.mem := by decide +kernel

/-- The state in which the step has read its byte. -/
def lostSectorRead : State := (lostSector.engRead 0 (max byteCopy.pts byteCopy.ts) [Config.tileKey 0 0]).1

/-- The step finds its source byte. -/
theorem spaceKeys_lostSector : lostSector.spaceKeys byteCopy .own 0 1 false false = (lostSector, .ok [Config.tileKey 0 0]) := by
  have h : (lostSector.spaceKeys byteCopy .own 0 1 false false).2 = .ok [Config.tileKey 0 0] := by decide +kernel
  have hs : lostSector.spaceKeys byteCopy .own 0 1 false false = (_, .ok [Config.tileKey 0 0]) := Prod.ext rfl h
  exact hs.trans (by rw [(State.spaceKeys_own hs).1])

/-- It finds its destination byte at physical address 0x40, with memory as it was. -/
theorem spaceKeys_lostSectorRead :
    (lostSectorRead.spaceKeys byteCopy (.glob 0) 0x40 1 true false).2 = .ok [0x40] ∧
    (lostSectorRead.spaceKeys byteCopy (.glob 0) 0x40 1 true false).1.mem = lostSector.mem := by
  decide +kernel

/-- Refutes O51: a step of a cpy into a global segment whose destination lies in an uncorrectable sector of DRAM stores less
than the sector and is dropped (R249), where the statement has its byte in memory. -/
theorem not_copyEvents : ¬ Obligations.CopyEvents := by
  rintro ⟨-, -, hstep, -⟩
  obtain ⟨hdst, hdmem⟩ := spaceKeys_lostSectorRead
  obtain ⟨hsrc, hpos, hlen, hseg, hto⟩ := byteCopy_step
  obtain ⟨-, hglob⟩ := hstep lostSector lostSector (lostSectorRead.spaceKeys byteCopy (.glob 0) 0x40 1 true false).1 0 0 0
    byteCopy [Config.tileKey 0 0] ⟨rfl, rfl⟩ rfl rfl rfl (by decide +kernel) rfl
    (by rw [hsrc, hpos, hlen]; exact spaceKeys_lostSector) rfl
  obtain ⟨t, e', hexec, hmem, -⟩ := hglob 0 [0x40] hseg (by rw [hto]; exact Prod.ext rfl hdst) (by decide)
  obtain rfl : lostSector.copyStep 0 0 = t := Host.Outcome.next.inj hexec
  rw [mem_copyStep_lostSector, hdmem] at hmem
  exact absurd hmem (by decide +kernel)

end Sys2Proof.Machine

namespace Sys2Proof.Machine
open Sys2Proof.Safety

/-! # The sampler -/

section Sampler
variable {s s1 s2 : State} {c q : Nat} {e : ECmd} {p : Samp}

/-- What stands at the head of a sampler queue that may act: the command with its progress. -/
theorem State.headCmd_of_sampHead (h : s.sampHead c q = some (s1, e, p)) :
    s1.headCmd c (32 + q) = some e ∧ e.aux = .samp p ∧ s1.mem = s.mem := by
  unfold State.sampHead at h
  split at h
  · cases h
  next e0 he =>
  split at h
  · cases h
  split at h
  · next ha => cases h; exact ⟨he, ha, rfl⟩
  · cases h
    exact ⟨by rw [State.headCmd_modHead, he]; rfl, rfl, rfl⟩

/-! The barrier (R349). -/

/-- What the count of a mask header says: no token, one token, or more. -/
def byCount {α : Type} (n : Nat) (zero one more : α) : α :=
  match n with
  | 0 => zero
  | 1 => one
  | _ => more

theorem byCount_zero {α : Type} (a b d : α) : byCount 0 a b d = a := rfl
theorem byCount_one {α : Type} (a b d : α) : byCount 1 a b d = b := rfl
theorem byCount_more {α : Type} {n : Nat} (h : 2 ≤ n) (a b d : α) : byCount n a b d = d := by
  obtain ⟨m, rfl⟩ := Nat.exists_eq_add_of_le h
  rw [Nat.add_comm]
  rfl

/-- The head leaves the barrier, and goes on as `p'`. -/
def State.leaveBarrier (s : State) (c q : Nat) (e : ECmd) (p : Samp) (ts : Nat) (p' : Samp) : State :=
  ((s.sampWait c q p false).sampEnergy e false).sampSet c (32 + q) ts (.samp { p' with since := none })

/-- A check of the barrier that is due and reads its mask header is decided by the header first, and by the deadline second. -/
theorem State.sampBarrier_reads {ks : List Nat} (hh : s.sampHead c q = some (s1, e, p)) (hp : p.phase = 0)
    (hs : ∀ k, p.since = some k → k + 16 ≤ s1.clk)
    (hk : s1.spaceKeys e .own (e.st 2 % 2 ^ 32) 16 false false = (s2, .ok ks)) (hb : s2.badSec ks = none) :
    let r := s2.engRead c e.pts ks
    let h := leNat r.2.1
    let go := fun p' => r.1.leaveBarrier c q e p r.2.2 p'
    s.sampBarrier c q =
      if h % 2 ^ 32 = e.sa.toNat % 2 ^ 32 ∧ h / 2 ^ 32 % 2 ^ 32 = e.sb.toNat % 2 ^ 32 then
        byCount (h / 2 ^ 64 % 2 ^ 32) (go { p with phase := e.scans + 1, none_ := true })
          (go { p with phase := e.scans + 1, forced := true, ftok := BitVec.ofNat 32 (h / 2 ^ 96 % 2 ^ 32) })
          (go { p with phase := 1 })
      else if e.st 6 ≠ 0 ∧ e.st 6 ≤ r.1.dtime then go { p with phase := e.scans + 1, late := true }
      else r.1.sampWait c q p true := by
  have hdue : (p.phase != 0 || (match p.since with | some k => decide (s1.clk < k + 16) | none => false)) = false := by
    rw [hp]
    cases hsin : p.since with
    | none => rfl
    | some k => simpa using hs k hsin
  have hk' : s1.spaceKeys e .own (bits (e.st 2) 31 0) 16 false false = (s2, .ok ks) := by
    simpa [bits] using hk
  unfold State.sampBarrier
  simp only [hh]
  refine (if_neg (ne_true_of_eq_false hdue)).trans ?_
  simp only [hk', hb, Option.isSome_none, Bool.false_eq_true, if_false]
  simp only [bits, Nat.sub_zero, Nat.pow_zero, Nat.div_one]
  rfl

/-! A scan step (R350). -/

/-- A scan step whose logits and mask can be read takes their best token with it. -/
theorem State.sampScan_reads {lk mk : List Nat} {s3 : State} (hh : s.sampHead c q = some (s1, e, p)) (hp : p.phase ≠ 0)
    (hle : p.phase ≤ e.scans)
    (hl : s1.spaceKeys e .own (e.st 1 % 2 ^ 32 + 512 * (p.phase - 1) * e.lsize)
      (min 512 (e.vlen - 512 * (p.phase - 1)) * e.lsize) false false = (s2, .ok lk))
    (hm : s1.spaceKeys e .own (e.st 2 % 2 ^ 32 + 16 + 512 * (p.phase - 1) / 8) (if e.masked then 64 else 0) false false =
      (s3, .ok mk)) (hb : s1.badSec (lk ++ mk) = none) :
    let i0 := 512 * (p.phase - 1)
    let r := s1.engRead c e.pts lk
    let r' := r.1.engRead c e.pts mk
    s.sampScan c q = (r'.1.sampEnergy e true).sampSet c (32 + q) (max r.2.2 r'.2.2) (.samp { p with
      phase := p.phase + 1
      win := (List.range (min 512 (e.vlen - i0))).foldl (fun a i =>
        if e.masked && !(r'.2.1.getD (i / 8) 0).getLsbD (i % 8) then a else better a
          ((score e (e.vbase + i0 + i) (logit e ((r.2.1.drop (i * e.lsize)).take e.lsize))).map fun x => (e.vbase + i0 + i, x)))
        p.win }) := by
  have hl' : s1.spaceKeys e .own (bits (e.st 1) 31 0 + 512 * (p.phase - 1) * e.lsize)
      (min 512 (e.vlen - 512 * (p.phase - 1)) * e.lsize) false false = (s2, .ok lk) := by simpa [bits] using hl
  have hm' : s1.spaceKeys e .own (bits (e.st 2) 31 0 + 16 + 512 * (p.phase - 1) / 8) (if e.masked then 64 else 0) false
      false = (s3, .ok mk) := by simpa [bits] using hm
  unfold State.sampScan
  simp only [hh]
  rw [if_neg (by omega)]
  simp only [hl', hm', hb]

/-- A token that the mask leaves out is passed over. -/
theorem ite_masked {α : Type} (m b : Bool) (x y : α) :
    (if (m && !b) = true then x else y) = if (!m || b) = true then y else x := by
  cases m <;> cases b <;> rfl

/-! What the command's changes leave. -/

@[simp] theorem State.queue_sampEnergy (s : State) (e : ECmd) (scan : Bool) (d key : Nat) :
    (s.sampEnergy e scan).queue d key = s.queue d key := by
  unfold State.sampEnergy
  exact State.queue_chargeStep ..

/-- A step that has been performed gives the head its progress. -/
theorem State.headCmd_sampSet {key : Nat} (h : s.headCmd c key = some e) (t : Nat) (a : EAux) :
    (s.sampSet c key t a).headCmd c key = some { e with aux := a, step := e.step + 1, retried := false, ts := max e.ts t } := by
  rw [State.sampSet, State.headCmd_modHead, h]
  rfl

/-! Gathering (R351). -/

/-- One child message: a child's first is taken, a further one waits on, and one of no child is dropped. -/
def gatherOne (e : ECmd) (a : List Winner × List Winner) (m : Winner) : List Winner × List Winner :=
  if m.tags e = false then (a.1, a.2 ++ [m]) else if m.k ∉ e.children then a
  else if ∃ w ∈ a.1, w.k = m.k then (a.1, a.2 ++ [m]) else (a.1 ++ [m], a.2)

/-- A slice that gathers takes its messages, and goes on once it has one of each child. -/
theorem State.sampGather_takes (hh : s.sampHead c q = some (s1, e, p)) (hp : p.phase = e.scans + 1)
    (hu : ((s1.core c).winners.filter fun m => m.tags e) = [] ∨ (s1.core c).winUe = 0) :
    let r := (s1.core c).winners.foldl (gatherOne e) (p.got, [])
    let t := s1.modCore c fun k => { k with winners := r.2 }
    s.sampGather c q = if ∀ k ∈ e.children, ∃ w ∈ r.1, w.k = k then
        State.sampSet ((t.sampWait c q { p with got := r.1 } false).sampEnergy e false) c (32 + q) 0 (.samp { p with
          got := r.1, phase := p.phase + 1, since := none
          win := r.1.foldl (fun a m => better a m.win) p.win, late := p.late || r.1.any (·.late) })
      else t.sampWait c q { p with got := r.1 } true := by
  have hone : (fun (a : List Winner × List Winner) m =>
      if (!m.tags e) = true then (a.1, a.2 ++ [m])
      else if (!e.children.contains m.k) = true then a
      else if a.1.any (·.k == m.k) = true then (a.1, a.2 ++ [m])
      else (a.1 ++ [m], a.2)) = gatherOne e := by
    funext a m
    simp [gatherOne]
  have hbad : (!((s1.core c).winners.filter fun m => m.tags e).isEmpty && (s1.core c).winUe != 0) = false := by
    rcases hu with hu | hu <;> simp [hu]
  have hall (got : List Winner) : (e.children.all fun k => got.any (·.k == k)) = true ↔ ∀ k ∈ e.children, ∃ w ∈ got, w.k = k := by
    simp
  unfold State.sampGather
  simp only [hh, hp, ne_eq, not_true, if_false]
  rw [hone]
  simp only [hbad, Bool.false_eq_true, if_false, hall]

/-! Delivery (R351). -/

theorem State.sampDeliver_result (hh : s.sampHead c q = some (s1, e, p)) (ho : s1.engOut c (32 + q) = false)
    (hb : e.bounced = false) (hp : p.phase = e.scans + 2) (h0 : e.slice = 0) :
    s.sampDeliver c q = s1.sampResult c q e p := by
  simp [State.sampDeliver, hh, ho, hb, hp, h0]

theorem State.sampDeliver_end (hh : s.sampHead c q = some (s1, e, p)) (ho : s1.engOut c (32 + q) = false)
    (hb : e.bounced = false) (hp : p.phase = e.scans + 3) : s.sampDeliver c q = s1.sampEnd c q e := by
  simp [State.sampDeliver, hh, ho, hb, hp]

theorem State.sampDeliver_winner {e' : ECmd} (hh : s.sampHead c q = some (s1, e, p)) (ho : s1.engOut c (32 + q) = false)
    (hb : e.bounced = false) (hp : p.phase = e.scans + 2) (h0 : e.slice ≠ 0)
    (hs : s1.sendWinner e q ⟨e.sa.setWidth 32, e.sb.setWidth 32, e.slice, p.win, p.late, p.forced⟩ = .ok s2)
    (he : (s2.sampGone c q e 0 p).headCmd c (32 + q) = some e') :
    s.sampDeliver c q = (s2.sampGone c q e 0 p).sampEnd c q e' := by
  simp [State.sampDeliver, hh, ho, hb, hp, h0, hs, he]

/-- A result in the own tile's store is written there. -/
theorem State.mem_sampResult {ks : List Nat} (hl : (mget e.stg 7 0).getLsbD 54 = true)
    (hk : s.spaceKeys e .own (e.st 7 % 2 ^ 21) 16 true false = (s1, .ok ks)) :
    let r := resultOf e p.win p.late p.forced p.ftok
    (s.sampResult c q e p).mem = memWrites s.mem (ks.zip (leBytes 4 r.1 ++ leBytes 4 r.2.1 ++ leBytes 4 e.sb.toNat ++
      leBytes 2 r.2.2 ++ leBytes 2 e.sa.toNat)) := by
  intro r
  obtain ⟨rfl, hks⟩ := State.spaceKeys_own hk
  have hbit : bit (e.st 7) 54 = true := by
    simpa [bit, ECmd.st, BitVec.getLsbD, Nat.testBit, Nat.shiftRight_eq_div_pow] using hl
  have hk' : s1.spaceKeys e .own (bits (e.st 7) 20 0) 16 true false = (s1, .ok ks) := by simpa [bits] using hk
  unfold State.sampResult
  simp only [hbit, if_true, hk']
  have hw (u : State) (hu : u.mem = (s1.engWrite c (max e.pts e.ts) (ks.zip (leBytes 4 r.1 ++ leBytes 4 r.2.1 ++
      leBytes 4 e.sb.toNat ++ leBytes 2 r.2.2 ++ leBytes 2 e.sa.toNat))).1.mem) :
      u.mem = memWrites s1.mem (ks.zip (leBytes 4 r.1 ++ leBytes 4 r.2.1 ++ leBytes 4 e.sb.toNat ++ leBytes 2 r.2.2 ++
        leBytes 2 e.sa.toNat)) := hu.trans (s1.mem_engWrite_onChip c _ (hks.zip _))
  split
  · exact hw _ (by simp [r])
  · exact hw _ (by simp [r])

/-- A step of sdraw writes its draws. -/
theorem State.mem_sdrawStep {ks : List Nat} (hr : Runs s c (32 + q) e) (hop : e.op = 1) :
    let i0 := 32 * e.step
    let m := min 32 (e.st 0xa / 2 ^ 32 % 2 ^ 16 + 1 - i0)
    s.spaceKeys e .own (e.st 0xa % 2 ^ 32 + 8 * i0) (8 * m) true false = (s1, .ok ks) →
    (s.sdrawStep c q).mem = memWrites s1.mem (ks.zip ((List.range m).flatMap fun i => leBytes 8
      (draw (mget e.stg 5 0) e.sa e.sb (e.st 0xb % 2 ^ 32) ((e.st 0xb / 2 ^ 32 % 2 ^ 32 + i0 + i) % 2 ^ 32)).toNat)) := by
  intro i0 m hk
  obtain ⟨rfl, hks⟩ := State.spaceKeys_own hk
  have hk' : s1.spaceKeys e .own (bits (e.st 0xa) 31 0 + 8 * i0) (8 * min 32 (bits (e.st 0xa) 47 32 + 1 - i0)) true false =
      (s1, .ok ks) := by simpa [bits, m] using hk
  obtain ⟨hhead, hrun⟩ := hr
  unfold State.sdrawStep
  simp only [hhead, hop, hrun, ne_eq, not_true, false_or, Bool.true_eq_false, if_false]
  simp only [i0] at hk'
  simp only [hk']
  have hw (u : State) (hu : u.mem = (s1.engWrite c (max e.pts e.ts) (ks.zip ((List.range m).flatMap fun i => leBytes 8
      (draw (mget e.stg 5 0) e.sa e.sb (e.st 0xb % 2 ^ 32) ((e.st 0xb / 2 ^ 32 % 2 ^ 32 + i0 + i) % 2 ^ 32)).toNat))).1.mem) :
      u.mem = memWrites s1.mem (ks.zip ((List.range m).flatMap fun i => leBytes 8
      (draw (mget e.stg 5 0) e.sa e.sb (e.st 0xb % 2 ^ 32) ((e.st 0xb / 2 ^ 32 % 2 ^ 32 + i0 + i) % 2 ^ 32)).toNat)) :=
    hu.trans (s1.mem_engWrite_onChip c _ (hks.zip _))
  split
  · exact hw _ (by simp [m, i0, bits])
  · exact hw _ (by simp [m, i0, bits])

end Sampler

/-- Settles O52, clause by clause: what each step of the sampler does when it may act. -/
theorem samplerEvents : Obligations.SamplerEvents := by
  refine ⟨?barrier, ?scan, ?gather, ?deliver, ?result, ?draw, ?ends⟩
  case barrier =>
    intro s s1 s2 c q e p ks hh hp hs hk hb r h goes ours count
    have hstep := State.sampBarrier_reads hh hp hs hk hb
    refine ⟨fun ho hc => ?_, fun ho hc => ?_, fun ho hc => ?_, fun ho h6 hd => ?_, fun ho hd => ?_⟩
    · exact congrArg Host.Outcome.next (hstep.trans ((if_pos ho).trans (congrArg (byCount · _ _ _) hc)))
    · exact congrArg Host.Outcome.next (hstep.trans ((if_pos ho).trans (congrArg (byCount · _ _ _) hc)))
    · exact congrArg Host.Outcome.next (hstep.trans ((if_pos ho).trans (byCount_more hc _ _ _)))
    · exact congrArg Host.Outcome.next (hstep.trans ((if_neg ho).trans (if_pos ⟨h6, hd⟩)))
    · exact congrArg Host.Outcome.next (hstep.trans ((if_neg ho).trans (if_neg fun hn => hd.elim hn.1 hn.2.not_gt)))
  case scan =>
    intro s s1 s2 s3 c q e p lk mk i0 n hh hp hle hl hm hb bs ms allowed best
    obtain ⟨-, hlk⟩ := State.spaceKeys_own hl
    obtain ⟨-, hmk⟩ := State.spaceKeys_own hm
    obtain ⟨hhead, -, -⟩ := State.headCmd_of_sampHead hh
    have hstep := State.sampScan_reads hh hp hle hl hm hb
    refine ⟨_, _, congrArg Host.Outcome.next hstep, State.headCmd_sampSet (e := e) ?_ .., ?_, ?_⟩
    · refine (State.headCmd_of_queue (s := s1) ?_).trans hhead
      simp
    · simp only [State.bytes_engRead_onChip _ _ _ hlk, State.bytes_engRead_onChip _ _ _ hmk,
        State.mem_engRead_onChip _ _ _ hlk, ite_masked]
      rfl
    · simp [State.mem_engRead_onChip _ _ _ hlk, State.mem_engRead_onChip _ _ _ hmk]
  case gather =>
    intro s s1 c q e p hh hp mine hu sorted got t
    have hstep := State.sampGather_takes hh hp hu
    exact ⟨fun hall => congrArg Host.Outcome.next (hstep.trans (if_pos hall)),
      fun hall => congrArg Host.Outcome.next (hstep.trans (if_neg hall))⟩
  case deliver =>
    intro s s1 c q e p hh ho hb
    refine ⟨fun hp h0 => ?_, fun s2 hp h0 hs e' he => ?_, fun hp => ?_⟩
    all_goals rw [exec_samplerDeliver, execSamplerDeliver]
    · rw [State.sampDeliver_result hh ho hb hp h0]
    · rw [State.sampDeliver_winner hh ho hb hp h0 hs he]
    · rw [State.sampDeliver_end hh ho hb hp]
  case result =>
    intro s s1 s2 c q e p ks r hh ho hb hp h0 hl hk
    exact ⟨_, by rw [exec_samplerDeliver, execSamplerDeliver, State.sampDeliver_result hh ho hb hp h0],
      State.mem_sampResult hl hk⟩
  case draw =>
    intro s s1 c q e ks hr hop i0 m bytes hk
    exact ⟨_, rfl, State.mem_sdrawStep hr hop hk⟩
  case ends =>
    intro s c q e he hs
    refine ⟨⟨_, rfl, ?_, rfl⟩, fun hr => ?_, fun h0 hn => ⟨_, rfl, State.mem_sampAbort .., ?_⟩⟩
    · simp [State.sampResume, he, hs]
    · rw [exec_sctlAbort, execSctlAbort, State.sampAbort, he]
      simp [hs]
      tauto
    · simp [State.sampAbort, he, hs, h0, hn]

end Sys2Proof.Machine

namespace Sys2Proof.Machine
open Sys2Proof.Safety

/-! # The grammar engine -/

section GrammarQueues
variable {s : State} {c key : Nat}

@[simp] theorem State.queue_leaveHome (s : State) (w : Who) (c key : Nat) : (s.leaveHome w).queue c key = s.queue c key := by
  unfold State.leaveHome
  split <;> rfl

@[simp] theorem State.queue_dramRead (s : State) (d id lo : Nat) (ks : List Nat) (c key : Nat) :
    (s.dramRead d id lo ks).1.queue c key = s.queue c key := by
  unfold State.dramRead
  split
  · rfl
  dsimp only
  split
  · exact State.queue_leaveHome ..
  · exact (State.queue_engRead ..).trans (State.queue_leaveHome ..)

@[simp] theorem State.queue_image (s : State) (d id lo g c key : Nat) :
    (s.image d id lo g).1.queue c key = s.queue c key := by
  unfold State.image
  dsimp only
  split
  · rfl
  · next ks _ =>
    have hq := State.queue_dramRead s d id lo ks c key
    split <;> next heq => rw [heq] at hq; exact hq

@[simp] theorem State.queue_gramEnergy (s : State) (e : ECmd) (miss : Bool) (c key : Nat) :
    (s.gramEnergy e miss).queue c key = s.queue c key := by
  unfold State.gramEnergy
  exact State.queue_chargeStep ..

@[simp] theorem State.queue_gcacheAdd (s : State) (cl : Nat) (g : GEntry) (c key : Nat) :
    (s.gcacheAdd cl g).queue c key = s.queue c key := rfl

/-- A fault of the head is recorded in it (R292). -/
theorem State.headCmd_engFault {e : ECmd} (h : s.headCmd c key = some e) (cause : Nat) (a : Word) :
    (s.engFault c key cause a).headCmd c key =
      some { e with state := 3, cause := cause, faddr := a, sent := false, bounced := false } := by
  unfold State.engFault
  rw [h]
  refine (State.headCmd_of_queue (State.queue_modBank ..)).trans ?_
  rw [State.headCmd_modHead, h]
  rfl

/-- The records of a spill area lie in memory. -/
theorem State.spillOff_of_mem {t : State} (h : t.mem = s.mem) (c n a : Nat) : t.spillOff c n a = s.spillOff c n a := by
  induction n generalizing a with
  | zero => rfl
  | succ n ih =>
    unfold State.spillOff State.spillWord
    rw [h]
    exact ih _

theorem State.spilledAs_of_mem {t : State} (h : t.mem = s.mem) (hn : (t.core c).spillN = (s.core c).spillN)
    (f : Nat → Nat → Bool) : t.spilledAs c f = s.spilledAs c f := by
  unfold State.spilledAs
  rw [hn]
  simp only [State.spillOff_of_mem h, State.spillWord, h]

/-- Whether wakes of a queue are on their way does not turn on its head. -/
@[simp] theorem State.wakeOut_modHead (s : State) (c key : Nat) (f : ECmd → ECmd) :
    (s.modHead c key f).wakeOut c key = s.wakeOut c key := by
  have hcore : ((s.modHead c key f).core c).outbox = (s.core c).outbox ∧
      ((s.modHead c key f).core c).spillN = (s.core c).spillN := by
    unfold State.modHead State.modQueue
    rw [State.core_modCore_same]
    exact ⟨rfl, rfl⟩
  unfold State.wakeOut
  simp only [hcore.1, State.spilledAs_of_mem (State.mem_modHead s c key f) hcore.2]
  rfl

end GrammarQueues

section Grammar
variable {s s1 s2 s3 : State} {c q t0 t1 t2 : Nat} {e : ECmd} {m : Image} {r bs : List Byte}

/-- The head of a grammar queue that may act. -/
theorem State.gramHead_of_runs {op : Nat} (h : Runs s c (48 + q) e) (hop : e.op = op) :
    s.gramHead c q op = some (s.modHead c (48 + q) fun e => { e with started := true }, { e with started := true }) := by
  obtain ⟨hh, hr⟩ := h
  simp [State.gramHead, hh, hr, hop]

theorem State.headCmd_started (h : Runs s c (48 + q) e) :
    (s.modHead c (48 + q) fun e => { e with started := true }).headCmd c (48 + q) = some { e with started := true } := by
  rw [State.headCmd_modHead, h.1]
  rfl

/-- The record of a command lies in its own pad. -/
theorem State.recKeys_onChip (s : State) (e : ECmd) : OnChip (s.recKeys e) := by
  unfold State.recKeys
  split
  · next h => exact (State.spaceKeys_own h).2
  · exact fun k hk => absurd hk List.not_mem_nil

/-! gstep (R360). -/

/-- A gstep ends: its energy, its timestamp, and it completes. -/
def State.gstepDone (s : State) (c q : Nat) (e : ECmd) (t : Nat) : State :=
  ((s.gramEnergy e false).modHead c (48 + q) fun e => { e with ts := max e.ts t }).complete c (48 + q)

@[simp] theorem State.mem_gstepDone (s : State) (c q : Nat) (e : ECmd) (t : Nat) : (s.gstepDone c q e t).mem = s.mem := by
  simp [State.gstepDone]

theorem State.queue_gstepDone (s : State) (c q : Nat) (e : ECmd) (t : Nat) :
    (s.gstepDone c q e t).queue c (48 + q) = (s.queue c (48 + q)).tail := by
  simp [State.gstepDone]

section Gstep
variable (hr : Runs s c (48 + q) e) (hop : e.op = 0)
  (hb : let s0 := s.modHead c (48 + q) fun e => { e with started := true }
    s0.badSec (s0.recKeys { e with started := true }) = none)
  (hread : let s0 := s.modHead c (48 + q) fun e => { e with started := true }
    s0.engRead c e.pts (s0.recKeys { e with started := true }) = (s1, r, t0))

include hr hop hb hread

/-- A rejected record is left as it is. -/
theorem State.gstepApply_rejected (hf : bit (recByte r 3) 0 = true) :
    s.gstepApply c q = s1.gstepDone c q { e with started := true } t0 := by
  unfold State.gstepApply
  simp only [State.gramHead_of_runs hr hop, hb, hread, hf, if_true]
  rfl

variable (hf : bit (recByte r 3) 0 = false) (hv : s1.gvalid (Config.clusterOf c) (recGid r) = true) (hd : recDepth r ≤ 8)
  (hi : s1.image c e.id t0 (recGid r) = (s2, .ok m t1)) (hst : recState r ≤ m.nsm1)
  (hl : s2.dramRead c e.id t1 (s2.lookKeys m (recState r) e.sb.toNat) = (s3, .ok bs t2))

include hf hv hd hi hst hl

/-- A token without an entry, or whose entry does not allow it, is refused: the record's REJECTED flag is set. -/
theorem State.gstepApply_refuses (hk : s3.look m (recState r) e.sb.toNat = .none ∨
    ∃ ent, s3.look m (recState r) e.sb.toNat = .entry ent ∧ entAllowed (recTop r) ent = false) :
    let rk := (s.modHead c (48 + q) fun e => { e with started := true }).recKeys { e with started := true }
    let w := s3.engWrite c t0 (rk.zip (r.set 3 (BitVec.ofNat 8 (recByte r 3 ||| 1))))
    s.gstepApply c q = (w.1.unitCount (Config.clusterOf c) 3 0x11b 1).gstepDone c q { e with started := true } (max w.2 t2) := by
  unfold State.gstepApply
  simp only [State.gramHead_of_runs hr hop, hb, hread, hf, hv, hi, hl, Nat.not_lt.mpr hd, Nat.not_lt.mpr hst,
    Bool.false_eq_true, decide_false, Bool.not_true, Bool.or_false, if_false]
  obtain hk | ⟨ent, hk, ha⟩ := hk
  · simp only [hk]
    rfl
  · simp only [hk, ha, Bool.not_false, if_true]
    rfl

variable {ent : Nat} (hk : s3.look m (recState r) e.sb.toNat = .entry ent) (ha : entAllowed (recTop r) ent = true)
  (hn : ent % 2 ^ 8 ≤ m.nsm1)

include hk ha hn

/-- An allowed token that pushes onto a full stack faults, with the OVERFLOW flag set. -/
theorem State.gstepApply_overflows (hp : ent / 2 ^ 8 % 4 = 1) (h8 : recDepth r = 8) :
    let rk := (s.modHead c (48 + q) fun e => { e with started := true }).recKeys { e with started := true }
    s.gstepApply c q = (s3.engWrite c t0 (rk.zip (r.set 3 (BitVec.ofNat 8 (recByte r 3 ||| 2))))).1.gramFault c q
      .stackOverflow { e with started := true } := by
  have hn' : ¬ m.nsm1 < bits ent 7 0 := by simpa [bits] using hn
  have hp' : bits ent 9 8 = 1 := by simpa [bits] using hp
  unfold State.gstepApply
  simp only [State.gramHead_of_runs hr hop, hb, hread, hf, hv, hi, hl, Nat.not_lt.mpr hd, Nat.not_lt.mpr hst, hk, ha, hn',
    hp', Bool.false_eq_true, decide_false, Bool.not_true, Bool.or_false, if_false]
  rw [if_pos ⟨trivial, h8⟩]

/-- Any other allowed token takes the record through its transition. -/
theorem State.gstepApply_steps (hp : ¬ (ent / 2 ^ 8 % 4 = 1 ∧ recDepth r = 8)) :
    let rk := (s.modHead c (48 + q) fun e => { e with started := true }).recKeys { e with started := true }
    let w := s3.engWrite c t0 (rk.zip (recStep r ent))
    s.gstepApply c q = w.1.gstepDone c q { e with started := true } (max w.2 t2) := by
  have hn' : ¬ m.nsm1 < bits ent 7 0 := by simpa [bits] using hn
  have hp' : ¬ (bits ent 9 8 = 1 ∧ recDepth r = 8) := by simpa [bits] using hp
  unfold State.gstepApply
  simp only [State.gramHead_of_runs hr hop, hb, hread, hf, hv, hi, hl, Nat.not_lt.mpr hd, Nat.not_lt.mpr hst, hk, ha, hn',
    hp', Bool.false_eq_true, decide_false, Bool.not_true, Bool.or_false, if_false]
  rfl

end Gstep

/-! gmask (R361). -/

/-- A step that has been performed gives the head its progress. -/
theorem State.headCmd_gmaskSet (h : s.headCmd c (48 + q) = some e) (t : Nat) (a : EAux) :
    (s.gmaskSet c q t a).headCmd c (48 + q) =
      some { e with aux := a, step := e.step + 1, retried := false, ts := max e.ts t } := by
  rw [State.gmaskSet, State.headCmd_modHead, h]
  rfl

/-- A unit is done: the next one. -/
def State.gmaskNext (s : State) (c q : Nat) (r : List Byte) (scan cnt : Nat) (ftok : W32) (known : Bool) (units t : Nat) : State :=
  (s.modHead c (48 + q) fun e => { e with sent := false }).gmaskSet c q t (.gmask r scan cnt ftok known (units + 1))

theorem State.mem_gmaskNext (s : State) (c q : Nat) (r : List Byte) (scan cnt : Nat) (ftok : W32) (known : Bool)
    (units t : Nat) : (s.gmaskNext c q r scan cnt ftok known units t).mem = s.mem := rfl

/-- The header has been sent last, and the command goes on to its end. -/
def State.gmaskLast (s : State) (c q : Nat) : State :=
  match s.headCmd c (48 + q) with
  | some e => s.gmaskEnd c q e
  | none => s

@[simp] theorem State.mem_gmaskLast (s : State) (c q : Nat) : (s.gmaskLast c q).mem = s.mem := by
  unfold State.gmaskLast
  split
  · exact State.mem_engFinish (fun _ => rfl) (fun _ => rfl) (fun _ => State.mem_complete ..)
  · rfl

/-- Bytes for the own pad are written at once. -/
theorem State.mem_gmaskPut_local {o : Nat} {did : State → State} {go : State → Nat → State} {ks : List Nat}
    (h54 : e.sb.getLsbD 54 = true) (hdid : ∀ s, (did s).mem = s.mem) (hgo : ∀ s t, (go s t).mem = s.mem)
    (hk : s.spaceKeys e .own (e.sb.toNat % 2 ^ 21 + o) bs.length true false = (s1, .ok ks)) :
    (s.gmaskPut c q e o bs did go).mem = memWrites s.mem (ks.zip bs) := by
  obtain ⟨rfl, hks⟩ := State.spaceKeys_own hk
  have hbit : bit e.sb.toNat 54 = true := by
    simpa [bit, BitVec.getLsbD, Nat.testBit, Nat.shiftRight_eq_div_pow] using h54
  have hk' : s1.spaceKeys e .own (bits e.sb.toNat 20 0 + o) bs.length true false = (s1, .ok ks) := by
    simpa [bits] using hk
  unfold State.gmaskPut
  simp only [hbit, if_true, hk', hgo, hdid, s1.mem_engWrite_onChip c _ (hks.zip _)]

section Gmask
variable (hr : Runs s c (48 + q) e) (hop : e.op = 1)

include hr hop

/-- A gmask that has not begun reads its record. -/
theorem State.gmaskStep_fresh (ha : e.aux = .none) :
    s.gmaskStep c q = (s.modHead c (48 + q) fun e => { e with started := true }).gmaskStart c q { e with started := true } := by
  unfold State.gmaskStep
  rw [State.gramHead_of_runs hr hop]
  dsimp only
  split
  · next heq => rw [ha] at heq; cases heq
  · rfl

/-- A gmask whose record can be read and passes the checks: a rejected record and a known summary are taken as they are, and
otherwise the summary is to be found. -/
theorem State.gmaskStep_start (ha : e.aux = .none)
    (hb : let s0 := s.modHead c (48 + q) fun e => { e with started := true }
      s0.badSec (s0.recKeys { e with started := true }) = none)
    (hread : let s0 := s.modHead c (48 + q) fun e => { e with started := true }
      s0.engRead c e.pts (s0.recKeys { e with started := true }) = (s1, r, t0))
    (hi : s1.image c e.id t0 (recGid r) = (s2, .ok m t1)) (hn : e.st 0 % 2 ^ 9 + e.st 0 / 2 ^ 16 % 2 ^ 9 ≤ m.num1)
    (hv : s2.gvalid (Config.clusterOf c) (recGid r) = true) (hst : recState r ≤ m.nsm1) (hd : recDepth r ≤ 8) :
    s.gmaskStep c q =
      if bit (recByte r 3) 0 = true then
        (s2.gramEnergy { e with started := true } false).gmaskSet c q t1 (.gmask r 0 0 0xffff_ffff true 0)
      else match s2.gcacheGet (Config.clusterOf c) r none with
        | some g => (((s2.gcacheAdd (Config.clusterOf c) g).unitCount (Config.clusterOf c) 3 0x119 1).gramEnergy
            { e with started := true } false).gmaskSet c q t1 (.gmask r 0 g.count g.ftok true 0)
        | none => (s2.gramEnergy { e with started := true } false).gmaskSet c q t1 (.gmask r 0 0 0xffff_ffff false 0) := by
  have hn' : ¬ m.num1 < bits (e.st 0) 8 0 + bits (e.st 0) 24 16 := by simpa [bits] using hn
  have hst' : ECmd.st { e with started := true } 0 = e.st 0 := rfl
  rw [State.gmaskStep_fresh hr hop ha]
  unfold State.gmaskStart
  simp only [hb, hread, hi, hst', hn', hv, Nat.not_lt.mpr hd, Nat.not_lt.mpr hst, decide_false, Bool.not_true, Bool.or_false,
    Bool.false_eq_true, if_false] <;> rfl

variable {scan cnt units : Nat} {ftok : W32} {known : Bool} (ha : e.aux = .gmask r scan cnt ftok known units)

include ha

/-- While a store of the mask is on its way, the command waits. -/
theorem State.gmaskStep_waits (ho : (s.modHead c (48 + q) fun e => { e with started := true }).engOut c (48 + q) = true) :
    s.gmaskStep c q = s.modHead c (48 + q) fun e => { e with started := true } := by
  unfold State.gmaskStep
  simp only [State.gramHead_of_runs hr hop, ha, ho, if_true]

variable (ho : (s.modHead c (48 + q) fun e => { e with started := true }).engOut c (48 + q) = false)

include ho

theorem State.gmaskStep_bounced (hb : e.bounced = true) :
    s.gmaskStep c q = (s.modHead c (48 + q) fun e => { e with started := true }).gramFault c q .msgBounce
      { e with started := true } := by
  unfold State.gmaskStep
  simp only [State.gramHead_of_runs hr hop, ha, ho, hb, if_true, Bool.false_eq_true, if_false]

variable (hb : e.bounced = false)

include hb

theorem State.gmaskStep_written (hs : e.sent = true) :
    s.gmaskStep c q = (s.modHead c (48 + q) fun e => { e with started := true }).gmaskNext c q r scan cnt ftok known units 0 := by
  unfold State.gmaskStep
  simp only [State.gramHead_of_runs hr hop, ha, ho, hb, hs, if_true, Bool.false_eq_true, if_false]
  rfl

variable (hs : e.sent = false)

include hs

theorem State.gmaskStep_sums (hk : known = false) :
    s.gmaskStep c q = (s.modHead c (48 + q) fun e => { e with started := true }).gmaskSum c q { e with started := true } r
      scan cnt ftok := by
  unfold State.gmaskStep
  simp only [State.gramHead_of_runs hr hop, ha, ho, hb, hs, hk, Bool.not_false, if_true, Bool.false_eq_true, if_false]

variable (hk : known = true)

include hk

theorem State.gmaskStep_unit (hu : units < e.st 0 / 2 ^ 16 % 2 ^ 9 + 1) :
    s.gmaskStep c q = (s.modHead c (48 + q) fun e => { e with started := true }).gmaskUnit c q { e with started := true } r units
      fun s t => s.gmaskNext c q r scan cnt ftok known units t := by
  unfold State.gmaskStep
  simp only [State.gramHead_of_runs hr hop, ha, ho, hb, hs, hk, Bool.not_true, Bool.false_eq_true, if_false]
  rw [if_pos (by exact hu)]
  rfl

theorem State.gmaskStep_header (hu : units = e.st 0 / 2 ^ 16 % 2 ^ 9 + 1) :
    s.gmaskStep c q = (s.modHead c (48 + q) fun e => { e with started := true }).gmaskPut c q { e with started := true } 0
      ((r.drop 4).take 4 ++ leBytes 4 (recPos r) ++ leBytes 4 cnt ++ leBytes 4 ftok.toNat)
      (·.gramEnergy { e with started := true } false)
      fun s t => (s.gmaskNext c q r scan cnt ftok known units t).gmaskLast c q := by
  unfold State.gmaskStep
  simp only [State.gramHead_of_runs hr hop, ha, ho, hb, hs, hk, Bool.not_true, Bool.false_eq_true, if_false]
  rw [if_neg (by exact hu.ge.not_gt), if_pos (by exact hu)]
  rfl

theorem State.gmaskStep_ends (hu : e.st 0 / 2 ^ 16 % 2 ^ 9 + 1 < units) :
    s.gmaskStep c q = (s.modHead c (48 + q) fun e => { e with started := true }).gmaskEnd c q { e with started := true } := by
  unfold State.gmaskStep
  simp only [State.gramHead_of_runs hr hop, ha, ho, hb, hs, hk, Bool.not_true, Bool.false_eq_true, if_false]
  rw [if_neg (by exact hu.not_gt), if_neg (by exact hu.ne')]

end Gmask

/-! One unit of the mask (R361). -/

section GmaskUnit
variable {units : Nat} {ks : List Nat} {go : State → Nat → State} (h54 : e.sb.getLsbD 54 = true)
  (hgo : ∀ s t, (go s t).mem = s.mem)

include h54 hgo

/-- A rejected record has an empty mask. -/
theorem State.mem_gmaskUnit_rejected (hf : bit (recByte r 3) 0 = true)
    (hk : s.spaceKeys e .own (e.sb.toNat % 2 ^ 21 + (16 + 64 * units)) 64 true false = (s1, .ok ks)) :
    (s.gmaskUnit c q e r units go).mem = memWrites s.mem (ks.zip (leBytes 64 0)) := by
  unfold State.gmaskUnit
  simp only [hf, if_true]
  rw [show (0 : BitVec 512).toNat = 0 from BitVec.toNat_zero]
  exact State.mem_gmaskPut_local h54 (fun _ => by simp) (fun _ _ => hgo ..) (by rw [leBytes_length]; exact hk)

variable (hf : bit (recByte r 3) 0 = false)

include hf

/-- A unit of the cache is delivered from there. -/
theorem State.mem_gmaskUnit_cached {g : GEntry}
    (hg : s.gcacheGet (Config.clusterOf c) r (some (e.st 0 % 2 ^ 9 + units)) = some g)
    (hk : s.spaceKeys e .own (e.sb.toNat % 2 ^ 21 + (16 + 64 * units)) 64 true false = (s1, .ok ks)) :
    (s.gmaskUnit c q e r units go).mem = memWrites s.mem (ks.zip (leBytes 64 g.bits.toNat)) := by
  have hg' : s.gcacheGet (Config.clusterOf c) r (some (bits (e.st 0) 8 0 + units)) = some g := by simpa [bits] using hg
  unfold State.gmaskUnit
  simp only [hf, Bool.false_eq_true, if_false, hg']
  exact State.mem_gmaskPut_local h54 (fun _ => by simp) (fun _ _ => hgo ..) (by rw [leBytes_length]; exact hk)

/-- Any other is computed from the image. -/
theorem State.mem_gmaskUnit_computed {s4 : State} {b : BitVec 512}
    (hg : s.gcacheGet (Config.clusterOf c) r (some (e.st 0 % 2 ^ 9 + units)) = none)
    (hi : s.image c e.id e.pts (recGid r) = (s2, .ok m t1))
    (hd : s2.dramRead c e.id t1 (s2.unitKeys m (recState r) (e.st 0 % 2 ^ 9 + units)) = (s3, .ok bs t2))
    (hu : s3.unitMask m (recState r) (recTop r) (e.st 0 % 2 ^ 9 + units) = some b)
    (hk : s3.spaceKeys e .own (e.sb.toNat % 2 ^ 21 + (16 + 64 * units)) 64 true false = (s4, .ok ks)) :
    (s.gmaskUnit c q e r units go).mem = memWrites s3.mem (ks.zip (leBytes 64 b.toNat)) := by
  have hbits : e.st 0 % 2 ^ 9 = bits (e.st 0) 8 0 := by simp [bits]
  rw [hbits] at hg hd hu
  unfold State.gmaskUnit
  simp only [hf, Bool.false_eq_true, if_false, hg]
  unfold State.gmaskCalc
  simp only [hi, hd, hu]
  exact State.mem_gmaskPut_local h54 (fun _ => by simp) (fun _ _ => hgo ..) (by rw [leBytes_length]; exact hk)

end GmaskUnit

/-- A mask without a wake ends, once all has been written. -/
theorem State.gmaskEnd_completes (ho : s.engOut c (48 + q) = false) (hw : s.wakeOut c (48 + q) = false) :
    (e.woke = true → s.gmaskEnd c q e = s.complete c (48 + q)) ∧
    (e.woke = false → (mget e.stg 1 0).getLsbD 63 = false →
      s.gmaskEnd c q e = (s.modHead c (48 + q) fun e => { e with woke := true }).complete c (48 + q)) := by
  unfold State.gmaskEnd State.engFinish
  refine ⟨fun hk => by simp [ho, hw, hk], fun hk h63 => ?_⟩
  have hno : bit (w64 (e.st 1)).toNat 63 = false := by
    simpa [bit, w64, ECmd.st, BitVec.getLsbD, Nat.testBit, Nat.shiftRight_eq_div_pow] using h63
  have hwake : s.engWake e (48 + q) (w64 (e.st 1)) (w64 (e.st 2)) = some s := by
    unfold State.engWake
    simp [hno]
  simp [ho, hw, hk, hwake]

/-! The bits of a mask (R359). -/

/-- A sum of different powers of two has just their bits. -/
theorem testBit_sum_pow {n i : Nat} (f : Nat → Bool) (hi : i < n) :
    ((List.range n).map fun j => if f j = true then 2 ^ j else 0).sum.testBit i = f i := by
  have hlt (n : Nat) : ((List.range n).map fun j => if f j = true then 2 ^ j else 0).sum < 2 ^ n := by
    induction n with
    | zero => simp
    | succ n ih =>
      rw [List.sum_range_succ, Nat.pow_succ]
      split <;> omega
  induction n with
  | zero => omega
  | succ n ih =>
    rw [List.sum_range_succ, Nat.add_comm]
    rcases Nat.lt_succ_iff_lt_or_eq.mp hi with h | rfl
    · cases f n with
      | true => rw [if_pos rfl, Nat.testBit_two_pow_add_gt h, ih h]
      | false => rw [if_neg Bool.false_ne_true, Nat.zero_add, ih h]
    · cases hf : f i with
      | true => rw [if_pos rfl, Nat.testBit_two_pow_add_eq, Nat.testBit_lt_two_pow (hlt i)]; rfl
      | false => rw [if_neg Bool.false_ne_true, Nat.zero_add, Nat.testBit_lt_two_pow (hlt i)]

/-- Whether what a lookup found allows its token. -/
def Look.allowed (top : Nat) : Look → Bool
  | .entry ent => entAllowed top ent
  | _ => false

/-- A bit of a mask says whether its token is allowed. -/
theorem State.getLsbD_unitMask {b : BitVec 512} {state top u i : Nat} (hi : i < 512) (hu : s.unitMask m state top u = some b) :
    b.getLsbD i = (s.look m state (512 * u + i)).allowed top := by
  have hbits : b = BitVec.ofNat 512 ((List.range 512).map fun j =>
      if (s.look m state (512 * u + j)).allowed top = true then 2 ^ j else 0).sum := by
    unfold State.unitMask at hu
    dsimp only at hu
    split at hu
    · cases hu
    · rw [← Option.some.inj hu, List.zipWith_map_right, List.zipWith_self]
      refine congrArg (fun l => BitVec.ofNat 512 (List.sum l)) (List.map_congr_left fun j _ => ?_)
      cases s.look m state (512 * u + j) <;> rfl
  rw [hbits, BitVec.getLsbD_ofNat, decide_eq_true hi, Bool.true_and,
    testBit_sum_pow (fun j => (s.look m state (512 * u + j)).allowed top) hi]

/-! gflush (R362). -/

/-- What a gflush leaves in its cluster's cache. -/
def State.gflushed (s : State) (cl : Nat) (a : Word) : State :=
  { s with gcache := mset s.gcache cl ((s.gcacheOf cl).filter fun x => !(bit a.toNat 4 || x.gid == bits a.toNat 3 0)) }

theorem State.gflushApply_runs (hr : Runs s c (48 + q) e) (hop : e.op = 2) :
    s.gflushApply c q = ((((s.modHead c (48 + q) fun e => { e with started := true }).gflushed (Config.clusterOf c)
      e.sa).gramEnergy { e with started := true } false).complete c (48 + q)) := by
  unfold State.gflushApply
  simp only [State.gramHead_of_runs hr hop]
  rfl

theorem State.gcacheOf_gflushed (s : State) (cl : Nat) (a : Word) :
    (s.gflushed cl a).gcacheOf cl = (s.gcacheOf cl).filter fun x => !(a.getLsbD 4 || x.gid == a.toNat % 16) := by
  have hbit : bit a.toNat 4 = a.getLsbD 4 := by simp [bit, BitVec.getLsbD, Nat.testBit, Nat.shiftRight_eq_div_pow]
  have hgid : bits a.toNat 3 0 = a.toNat % 16 := by simp [bits]
  rw [← hbit, ← hgid]
  exact mget_mset_same ..

theorem State.gcache_gramEnergy (s : State) (e : ECmd) (miss : Bool) : (s.gramEnergy e miss).gcache = s.gcache := by
  unfold State.gramEnergy State.chargeStep
  dsimp only
  split <;> rfl

theorem State.gcache_complete (s : State) (c key : Nat) : (s.complete c key).gcache = s.gcache := by
  unfold State.complete
  split <;> rfl

end Grammar

/-- Settles O53, clause by clause: gstep, the steps of gmask, its units, gflush, and a faulted head. -/
theorem grammarEvents : Obligations.GrammarEvents := by
  refine ⟨?gstep, ?start, ?goes, ?writes, ?bits, ?flush, ?ends⟩
  case gstep =>
    intro s s1 s2 s3 c q t0 t1 t2 e m r bs hr hop s0 e0 rk hb hread
    have hrk : OnChip rk := State.recKeys_onChip s0 e0
    have h1 : s1 = (s0.engRead c e.pts rk).1 := by rw [hread]
    refine ⟨fun hf => ⟨_, congrArg Host.Outcome.next (State.gstepApply_rejected hr hop hb hread hf), ?_, ?_⟩,
      fun hf hv hd hi hst hl => ?_⟩
    · rw [State.mem_gstepDone, h1, State.mem_engRead_onChip _ _ _ hrk]
      rfl
    · rw [State.queue_gstepDone, h1, State.queue_engRead, State.queue_modHead_tail]
    have h2 : s2 = (s1.image c e.id t0 (recGid r)).1 := by rw [hi]
    have h3 : s3 = (s2.dramRead c e.id t1 (s2.lookKeys m (recState r) e.sb.toNat)).1 := by rw [hl]
    have hq : s3.queue c (48 + q) = s0.queue c (48 + q) := by
      rw [h3, State.queue_dramRead, h2, State.queue_image, h1, State.queue_engRead]
    have htail : (s3.queue c (48 + q)).tail = (s.queue c (48 + q)).tail := by rw [hq, State.queue_modHead_tail]
    have hmem (bs : List Byte) : (s3.engWrite c t0 (rk.zip bs)).1.mem = memWrites s3.mem (rk.zip bs) :=
      s3.mem_engWrite_onChip c t0 (hrk.zip bs)
    intro wrote rejected
    have hrej (hk : s3.look m (recState r) e.sb.toNat = .none ∨
        ∃ ent, s3.look m (recState r) e.sb.toNat = .entry ent ∧ entAllowed (recTop r) ent = false) : rejected :=
      ⟨_, ⟨congrArg Host.Outcome.next (State.gstepApply_refuses hr hop hb hread hf hv hd hi hst hl hk),
        (State.mem_gstepDone ..).trans (hmem _)⟩, by
          rw [State.queue_gstepDone, State.queue_unitCount, State.queue_engWrite, htail]⟩
    refine ⟨fun hk => hrej (.inl hk), fun ent hk => ⟨fun ha => hrej (.inr ⟨ent, hk, ha⟩), fun ha hn => ⟨fun hp => ?_,
      fun hp h8 => ?_⟩⟩⟩
    · exact ⟨_, ⟨congrArg Host.Outcome.next (State.gstepApply_steps hr hop hb hread hf hv hd hi hst hl hk ha hn hp),
        (State.mem_gstepDone ..).trans (hmem _)⟩, by rw [State.queue_gstepDone, State.queue_engWrite, htail]⟩
    · refine ⟨_, _, ⟨congrArg Host.Outcome.next (State.gstepApply_overflows hr hop hb hread hf hv hd hi hst hl hk ha hn hp h8),
        (State.mem_engFault ..).trans (hmem _)⟩, State.headCmd_engFault (e := e0) ?_ .., rfl, rfl, rfl⟩
      refine (State.headCmd_of_queue ((State.queue_engWrite ..).trans hq)).trans ?_
      exact State.headCmd_started hr
  case start =>
    intro s s1 s2 c q t0 t1 e m r hr hop ha s0 e0 rk hb hread hi hn hv hst hd set
    have hstep := State.gmaskStep_start hr hop ha hb hread hi hn hv hst hd
    have hhead : s2.headCmd c (48 + q) = some e0 := by
      have h1 : s1 = (s0.engRead c e.pts rk).1 := by rw [hread]
      have h2 : s2 = (s1.image c e.id t0 (recGid r)).1 := by rw [hi]
      refine (State.headCmd_of_queue ?_).trans (State.headCmd_started hr)
      rw [h2, State.queue_image, h1, State.queue_engRead]
    have hset (u : State) (t : Nat) (a : EAux) (hu : u.queue c (48 + q) = s2.queue c (48 + q)) (hm : u.mem = s2.mem)
        (he : s.gmaskStep c q = u.gmaskSet c q t a) : set a :=
      ⟨_, _, congrArg Host.Outcome.next he, hm, State.headCmd_gmaskSet ((State.headCmd_of_queue hu).trans hhead) t a, rfl⟩
    refine ⟨fun hf => ?_, fun hf hg => ?_, fun g hf hg => ?_⟩
    · exact hset _ _ _ (State.queue_gramEnergy ..) (State.mem_gramEnergy ..) (hstep.trans (if_pos hf))
    · have hnew := hstep.trans (if_neg (ne_true_of_eq_false hf))
      rw [hg] at hnew
      exact hset _ _ _ (State.queue_gramEnergy ..) (State.mem_gramEnergy ..) hnew
    · have hold := hstep.trans (if_neg (ne_true_of_eq_false hf))
      rw [hg] at hold
      refine hset _ _ _ ?_ ?_ hold
      · rw [State.queue_gramEnergy, State.queue_unitCount, State.queue_gcacheAdd]
      · rw [State.mem_gramEnergy, State.mem_unitCount, State.mem_gcacheAdd]
  case goes =>
    intro s c q e r scan cnt ftok known units hr hop ha s0 e0 n goes
    refine ⟨fun ho => congrArg Host.Outcome.next (State.gmaskStep_waits hr hop ha ho), fun ho =>
      ⟨fun hb => congrArg Host.Outcome.next (State.gmaskStep_bounced hr hop ha ho hb), fun hb hs => ?_,
        fun hb hs hk => congrArg Host.Outcome.next (State.gmaskStep_sums hr hop ha ho hb hs hk), fun hb hs hk hu hw => ?_⟩⟩
    · refine ⟨_, _, congrArg Host.Outcome.next (State.gmaskStep_written hr hop ha ho hb hs), rfl,
        State.headCmd_gmaskSet (e := { e0 with sent := false }) ?_ .., rfl⟩
      rw [State.headCmd_modHead, State.headCmd_started hr]
      rfl
    · have hstep := State.gmaskStep_ends hr hop ha ho hb hs hk hu
      obtain ⟨hwoke, hsend⟩ := State.gmaskEnd_completes (e := e0) ho hw
      exact ⟨fun h => congrArg Host.Outcome.next (hstep.trans (hwoke h)),
        fun h h63 => congrArg Host.Outcome.next (hstep.trans (hsend h h63))⟩
  case writes =>
    intro s s1 c q e r scan cnt ftok units ks hr hop ha hb hs h54 s0 e0 n head wrote ho
    have hgo (s : State) (t : Nat) : (s.gmaskNext c q r scan cnt ftok true units t).mem = s.mem := State.mem_gmaskNext ..
    have hs0 : s0.mem = s.mem := State.mem_modHead ..
    refine ⟨fun hu hk => ⟨fun hf => ?_, fun g hf hg => ?_⟩, ?computed, fun hu hk => ?_⟩
    case computed =>
      intro m s2 s3 s4 kd bs t1 t2 b u hu hf hg hi hd hm hk
      have hmem := State.mem_gmaskUnit_computed (s := s0) (c := c) (q := q) (e := e0) h54 hgo hf hg hi hd hm hk
      exact ⟨_, congrArg Host.Outcome.next (State.gmaskStep_unit hr hop ha ho hb hs rfl hu), hmem⟩
    · have hmem := State.mem_gmaskUnit_rejected (s := s0) (c := c) (q := q) (e := e0) h54 hgo hf hk
      rw [hs0] at hmem
      exact ⟨_, congrArg Host.Outcome.next (State.gmaskStep_unit hr hop ha ho hb hs rfl hu), hmem⟩
    · have hmem := State.mem_gmaskUnit_cached (s := s0) (c := c) (q := q) (e := e0) h54 hgo hf hg hk
      rw [hs0] at hmem
      exact ⟨_, congrArg Host.Outcome.next (State.gmaskStep_unit hr hop ha ho hb hs rfl hu), hmem⟩
    · have hmem := State.mem_gmaskPut_local (s := s0) (c := c) (q := q) (e := e0) (o := 0) (bs := head)
        (did := (·.gramEnergy e0 false)) (go := fun s t => (s.gmaskNext c q r scan cnt ftok true units t).gmaskLast c q)
        h54 (fun _ => State.mem_gramEnergy ..) (fun _ _ => (State.mem_gmaskLast ..).trans (State.mem_gmaskNext ..)) hk
      rw [hs0] at hmem
      exact ⟨_, congrArg Host.Outcome.next (State.gmaskStep_header hr hop ha ho hb hs rfl hu), hmem⟩
  case bits =>
    intro s m q top u i b hi hu
    rw [State.getLsbD_unitMask hi hu]
    cases s.look m q (512 * u + i) <;> rfl
  case flush =>
    intro s c q e hr hop
    refine ⟨_, congrArg Host.Outcome.next (State.gflushApply_runs hr hop), ?_, ?_, ?_⟩
    · refine Eq.trans ?_ (State.gcacheOf_gflushed s (Config.clusterOf c) e.sa)
      unfold State.gcacheOf
      rw [State.gcache_complete, State.gcache_gramEnergy]
      rfl
    · rw [State.queue_complete, State.queue_gramEnergy]
      exact State.queue_modHead_tail ..
    · rw [State.mem_complete, State.mem_gramEnergy]
      rfl
  case ends =>
    intro s c q e hh hs
    refine ⟨⟨_, rfl, State.headCmd_engResume hh hs, rfl⟩,
      ⟨_, congrArg Host.Outcome.next (State.engAbort_faulted hh hs), ?_, ?_⟩⟩
    · exact State.queue_complete ..
    · exact State.mem_complete ..

end Sys2Proof.Machine

namespace Sys2Proof.Machine
open Sys2Proof.Safety

/-! # Event records, images and saved areas -/

/-! ## What a record's way through the routes leaves (R339) -/

/-- `t` has the frames of `s`, and its pulses. -/
def KeepsFrames (s t : State) : Prop := t.frames = s.frames ∧ t.pulses = s.pulses

theorem KeepsFrames.refl (s : State) : KeepsFrames s s := ⟨rfl, rfl⟩

theorem KeepsFrames.trans {s t u : State} (a : KeepsFrames s t) (b : KeepsFrames t u) : KeepsFrames s u :=
  ⟨b.1.trans a.1, b.2.trans a.2⟩

theorem KeepsFrames.faultMsg (s : State) (c i : Nat) (k : Cause) (v : Nat) (w1 w2 : Word) :
    KeepsFrames s (s.faultMsg c i k v w1 w2) := by
  obtain ⟨_, _, _, _, _, _, h⟩ := DevWrote.faultMsg s c i k v w1 w2
  rw [h]
  exact ⟨rfl, rfl⟩

theorem KeepsFrames.retireAll (s : State) (p : Place) : KeepsFrames s (s.retireAll p) := by
  obtain ⟨_, _, h⟩ := (State.retireAll_regs s p).rest
  rw [h]
  exact ⟨rfl, rfl⟩

theorem KeepsFrames.reflexStart (s : State) (c off : Nat) : KeepsFrames s (s.reflexStart c off) := by
  unfold State.reflexStart
  split
  · exact KeepsFrames.trans (t := s.raiseUE c) ⟨rfl, rfl⟩ (.faultMsg ..)
  dsimp only
  split
  · exact ⟨rfl, rfl⟩
  split
  · split
    · next i _ _ _ _ =>
      have hret := KeepsFrames.retireAll s (s.placeOf c i)
      generalize s.retireAll (s.placeOf c i) = u at hret ⊢
      exact hret.trans ⟨rfl, rfl⟩
    · exact .refl s
  · split <;> exact ⟨rfl, rfl⟩

theorem KeepsFrames.evDeliver (s : State) (c i : Nat) (start : Option Nat) (e : EvRec) :
    KeepsFrames s (s.evDeliver c i start e) := by
  unfold State.evDeliver
  split
  · exact .refl s
  extract_lets s1 t mark pre s'
  have hs' : KeepsFrames s s' := ⟨rfl, rfl⟩
  split
  · split
    · split
      · exact hs'.trans (.reflexStart ..)
      · exact hs'
    · exact hs'
  · exact ⟨rfl, rfl⟩

theorem KeepsFrames.evRoute (s : State) (die : Nat) (virt : Option (Nat × Nat)) (e : EvRec) :
    KeepsFrames s (s.evRoute die virt e) := by
  unfold State.evRoute
  split
  · exact .evDeliver ..
  · split
    · exact .evDeliver ..
    · exact ⟨rfl, rfl⟩

/-! ## Records (R337, R339, R341) -/

section Records
variable {s : State} {die rx vc dt : Nat} {bytes : List Byte}

/-- A record that needs no marker and no overflow record before it goes to the end of its queue. -/
theorem State.evDeliver_fits {c i : Nat} {e : EvRec} (hc : c < Config.cores) (hi : i < Config.seats c)
    (hm : (s.seat c i).evMark = some (BitVec.ofNat 30 (e.time / 2 ^ 34))) (hd : (s.seat c i).evDrop = 0)
    (hl : (s.seat c i).evq.length < 32) :
    s.evDeliver c i none e = (s.modCore c fun k => { k with csts := max k.csts e.ts }).modSeat c i fun t =>
      { t with evq := t.evq ++ [w64 e.val], evMark := some (BitVec.ofNat 30 (e.time / 2 ^ 34)), evDrop := 0 } := by
  unfold State.evDeliver
  rw [if_neg (by omega)]
  dsimp only
  rw [State.seat_modCore, if_pos hm, if_pos hd, if_pos (by simpa using hl)]
  simp only [List.append_nil]

theorem State.evErr_of_bad (h : bit (s.eirx die rx) 0 = true) :
    s.csiEvents die rx vc dt false bytes = s.evErr die rx ∧ s.csiImage die rx vc dt false bytes = s.evErr die rx := by
  unfold State.csiEvents State.csiImage
  simp [h]

/-- An event word becomes a record: its coordinates, its polarity, and the time that its delta gives. -/
theorem State.csiEvents_one {w : Nat} (h : bit (s.eirx die rx) 0 = true) (hdt : dt = s.eirx die rx / 2 ^ 8 % 2 ^ 8)
    (hw : evWords bytes = [w]) :
    let time := s.dtime + w / 2 ^ 24 % 2 ^ 8 * max 1 (s.eirx die rx / 2 ^ 16 % 2 ^ 10)
    let x := w % 2 ^ 11
    let y := w / 2 ^ 11 % 2 ^ 11
    s.csiEvents die rx vc dt true bytes = s.evRoute die none ⟨die * 4 + rx % 4, some vc, some (x, y), time,
      1 + rx % 4 * 16 + w / 2 ^ 22 % 2 * 2 ^ 7 + x * 2 ^ 8 + y * 2 ^ 19 + time % 2 ^ 34 * 2 ^ 30, 0⟩ := by
  have hdt' : (dt != bits (s.eirx die rx) 15 8) = false := by simp [bits, hdt]
  unfold State.csiEvents
  simp only [h, hdt', hw, Bool.not_true, Bool.or_false, Bool.false_eq_true, if_false, List.foldl_cons, List.foldl_nil]
  simp [bits]

end Records

/-! ## Frames (R336, R338) -/

section Frames
variable {s : State} {die rx vc dt : Nat} {bytes : List Byte}

theorem mget_filter_ne {α : Type} (m : SMap α) {k k' : Nat} (d : α) (h : k ≠ k') :
    mget (m.filter fun x => x.1 != k) k' d = mget m k' d := by
  unfold mget
  congr 1
  induction m with
  | nil => rfl
  | cons x t ih =>
    obtain ⟨j, v⟩ := x
    by_cases hj : j = k
    · subst hj
      simp [mfind, h, ih]
    · rw [List.filter_cons_of_pos (by simpa using hj), mfind, mfind, ih]

theorem find?_mset_same {α : Type} (m : SMap α) (k : Nat) (v : α) : (mset m k v).find? (·.1 == k) = some (k, v) := by
  induction m with
  | nil => simp [mset]
  | cons x t ih =>
    obtain ⟨j, w⟩ := x
    by_cases h : j = k
    · simp [mset, h]
    · by_cases h2 : k < j <;> simp [mset, h, h2, ih]

/-- A receiver's own entry is that of none of its channels. -/
theorem frameKey_channel_ne (die rx vc : Nat) : frameKey die rx (vc % 16) ≠ frameKey die rx 16 := by
  unfold frameKey
  omega

/-- An open frame is found again. -/
theorem State.openFrame_of_find {f : Nat × Nat × Nat} (h : s.frames.find? (·.1 == frameKey die rx (vc % 16)) = some f) :
    s.openFrame die rx vc = (s, f.2) := by
  unfold State.openFrame
  rw [h]

/-- The frames of a receiver, with the next one open in a channel. -/
def State.framesNext (s : State) (die rx vc : Nat) : SMap (Nat × Nat) :=
  mset (mset s.frames (frameKey die rx 16) (s.frames0 die rx + 1, 0)) (frameKey die rx (vc % 16)) (s.frames0 die rx, 0)

/-- Where none is open, the next number is taken. -/
theorem State.openFrame_new (h : s.frames.find? (·.1 == frameKey die rx (vc % 16)) = none) :
    s.openFrame die rx vc = ({ s with frames := s.framesNext die rx vc }, s.frames0 die rx, 0) := by
  unfold State.openFrame
  rw [h]
  rfl

/-- Opening a frame changes frames only. -/
theorem State.openFrame_only (s : State) (die rx vc : Nat) : ∃ f, (s.openFrame die rx vc).1 = { s with frames := f } := by
  unfold State.openFrame
  split
  · exact ⟨_, rfl⟩
  · exact ⟨_, rfl⟩

/-- The frame of a channel is closed. -/
def State.closeFrame (s : State) (die rx vc : Nat) : State :=
  { s with frames := s.frames.filter fun f => f.1 != frameKey die rx (vc % 16) }

theorem State.find?_closeFrame (s : State) (die rx vc : Nat) :
    (s.closeFrame die rx vc).frames.find? (·.1 == frameKey die rx (vc % 16)) = none := by
  simp [State.closeFrame]

theorem State.frames0_closeFrame (s : State) (die rx vc : Nat) :
    (s.closeFrame die rx vc).frames0 die rx = s.frames0 die rx := by
  unfold State.frames0 State.closeFrame
  exact congrArg Prod.fst (mget_filter_ne _ _ (frameKey_channel_ne die rx vc))

/-- A frame's start opens the next frame of its channel. -/
theorem State.csiMark_start (h : bit (s.eirx die rx) 0 = true) :
    (s.csiMark die rx vc false).openFrame die rx vc = (s.csiMark die rx vc false, s.frames0 die rx, 0) ∧
    (s.csiMark die rx vc false).frames0 die rx = s.frames0 die rx + 1 := by
  have hopen := State.openFrame_new (s.find?_closeFrame die rx vc)
  have hfr : (s.csiMark die rx vc false).frames = (s.closeFrame die rx vc).framesNext die rx vc := by
    unfold State.csiMark
    simp only [h, Bool.not_true, Bool.false_eq_true, if_false]
    rw [show ({ s with frames := s.frames.filter fun f => f.1 != frameKey die rx (vc % 16) } : State) =
      s.closeFrame die rx vc from rfl, hopen]
    exact (KeepsFrames.evRoute ..).1
  rw [State.framesNext, State.frames0_closeFrame] at hfr
  constructor
  · refine State.openFrame_of_find (f := (frameKey die rx (vc % 16), s.frames0 die rx, 0)) ?_
    rw [hfr, find?_mset_same]
  · rw [State.frames0, hfr, mget_mset_other _ _ _ (frameKey_channel_ne die rx vc), mget_mset_same]

/-- After a frame's end its channel has no frame. -/
theorem State.csiMark_end (h : bit (s.eirx die rx) 0 = true) :
    ∀ f ∈ (s.csiMark die rx vc true).frames, f.1 ≠ frameKey die rx (vc % 16) := by
  unfold State.csiMark
  simp only [h, Bool.not_true, Bool.false_eq_true, if_false, if_true]
  intro f hf
  simpa using (List.mem_filter.mp hf).2

/-- A write of the device puts its bytes where the moves of pages say, when no sector is uncorrectable. -/
theorem State.mem_devWrite_of_ue (hu : s.ue = []) (lo : Nat) (cells : List Host.Cell) :
    (s.devWrite lo cells).mem = memWrites s.mem (s.redirected cells) := by
  have hf (ls : List Nat) (ts : Nat) (t : State) :
      (ls.foldl (fun (s : State) l => { s with lines := mset s.lines l (ts, ts) }) t).mem = t.mem ∧
      (ls.foldl (fun (s : State) l => { s with lines := mset s.lines l (ts, ts) }) t).ue = t.ue := by
    induction ls generalizing t with
    | nil => exact ⟨rfl, rfl⟩
    | cons l ls ih => exact ih _
  unfold State.devWrite State.poke
  dsimp only
  rw [if_pos (by rw [(hf _ _ s).2, hu]; rfl), (hf _ _ s).1]

/-- The bytes of a pixel packet are written from an address on, and counted in their frame. -/
def State.imageGo (s : State) (die rx vc n len a : Nat) (got : List Byte) : State :=
  let t := s.devWrite 0 (cellsAt a got)
  { t with frames := mset t.frames (frameKey die rx (vc % 16)) (n, len + got.length) }

theorem State.mem_imageGo (s : State) (die rx vc n len a : Nat) (got : List Byte) :
    (s.imageGo die rx vc n len a got).mem = (s.devWrite 0 (cellsAt a got)).mem := by
  simp only [State.imageGo]

theorem State.openFrame_imageGo (s : State) (die rx vc n len a : Nat) (got : List Byte) :
    (s.imageGo die rx vc n len a got).openFrame die rx vc = (s.imageGo die rx vc n len a got, n, len + got.length) :=
  State.openFrame_of_find (f := (frameKey die rx (vc % 16), n, len + got.length)) (find?_mset_same ..)

theorem State.redirected_setFrames (s : State) (f : SMap (Nat × Nat)) (l : List Host.Cell) :
    State.redirected { s with frames := f } l = s.redirected l := rfl

/-- A pixel packet goes on in its frame's slot, as far as the slot goes. -/
theorem State.csiImage_writes (h : bit (s.eirx die rx) 0 = true) (hi : imageType dt = true) (hu : s.ue = []) :
    let n := (s.openFrame die rx vc).2.1
    let len := (s.openFrame die rx vc).2.2
    let size := s.eirx die rx / 2 ^ 32 % 2 ^ 16 * 4096
    let ring := (s.eregUnit (unitDie die) 6 (0x108 + rx % 4)).toNat
    let slot := n % 2 ^ (ring / 2 ^ 8 % 16)
    let got := bytes.take (size - len)
    let t := s.csiImage die rx vc dt true bytes
    t.mem = memWrites s.mem (s.redirected (cellsAt (ring / 2 ^ 12 % 2 ^ 36 * 4096 + slot * size + len) got)) ∧
      t.openFrame die rx vc = (t, n, len + got.length) := by
  intro n len size ring slot got t
  obtain ⟨f, hf⟩ := s.openFrame_only die rx vc
  have hopen : s.openFrame die rx vc = ({ s with frames := f }, n, len) := by
    rw [← hf]
  have hsize : bits (s.eirx die rx) 47 32 * 4096 = size := rfl
  have ht : t = State.imageGo { s with frames := f } die rx vc n len
      (bits ring 47 12 * 4096 + n % 2 ^ bits ring 11 8 * size + len) got := by
    simp only [t, State.csiImage, h, hi, Bool.not_true, Bool.or_false, Bool.false_eq_true, if_false, hopen, hsize]
    rfl
  have haddr : bits ring 47 12 * 4096 + n % 2 ^ bits ring 11 8 * size + len =
      ring / 2 ^ 12 % 2 ^ 36 * 4096 + slot * size + len := rfl
  rw [ht, haddr]
  constructor
  · rw [State.mem_imageGo, State.mem_devWrite_of_ue (by exact hu), State.redirected_setFrames]
  · exact State.openFrame_imageGo ..

end Frames

/-! ## Saved areas (R417-R419) -/

section Saved
variable {s s1 s2 : State} {c base size : Nat} {e : ECmd} {row : SaveRow} {bs : List Byte} {ks : List Nat}

/-- An engine's write puts every byte in its place, when no sector is uncorrectable and no byte lies outside. -/
theorem State.mem_engWrite_plain (hu : s.ue = []) (hx : ∀ k ∈ ks, isExt k = false) (lo : Nat) :
    (s.engWrite c lo (ks.zip bs)).1.mem = memWrites s.mem (ks.zip bs) := by
  have hno : ¬ ((ks.zip bs).any fun x => isExt x.1) = true := by
    rw [List.any_eq_true]
    rintro ⟨x, hm, he⟩
    rw [hx x.1 (List.of_mem_zip hm).1] at he
    exact Bool.false_ne_true he
  unfold State.engWrite
  extract_lets ls ts t u
  have ht := mem_ue_foldl_l2Access c ts ls s
  have hut : u = t := if_neg hno
  rw [hut, State.poke, if_pos (by rw [ht.2, hu]; rfl), ht.1]

/-- A row of an area is written whole. -/
theorem State.mem_csaveStep (hr : Runs s c saveKey e) (ha : e.aux = .save base size) (h2 : 2 ≤ e.step)
    (hrow : (saveRows (e.sb.toNat % 2 ^ 27))[e.step - 2]? = some row) (hop : e.op = 0)
    (hfit : 256 * (e.step - 1) + 256 ≤ size) (hs : s.saveSource c e row = (s1, some bs)) (hl : bs.length = 256)
    (hf : s1.saveFind c (base + 256 * (e.step - 1)) 256 true = (s2, some ks)) (hu : s2.ue = [])
    (hx : ∀ k ∈ ks, isExt k = false) : (s.csaveStep c).mem = memWrites s2.mem (ks.zip bs) := by
  obtain ⟨hh, hrun⟩ := hr
  have hw : s1.saveWrite c (base + 256 * (e.step - 1)) bs e =
      ((s2.engWrite c (max e.pts e.ts) (ks.zip bs)).1.modHead c saveKey (fun o => { o with
        ts := max o.ts (s2.engWrite c (max e.pts e.ts) (ks.zip bs)).2 }), true) := by
    unfold State.saveWrite
    rw [hl, hf]
  unfold State.csaveStep
  simp only [hh, hop, hrun, ha, ne_eq, not_true, Bool.true_eq_false, or_self, if_false]
  rw [if_neg (by omega)]
  simp only [hrow]
  rw [if_neg (by omega)]
  simp only [hs, hw, State.mem_saveNext, State.mem_saveRow, State.mem_modHead]
  exact State.mem_engWrite_plain hu hx _

/-- A row for which the area has no room ends the save. -/
theorem State.csaveStep_full (hr : Runs s c saveKey e) (ha : e.aux = .save base size) (h2 : 2 ≤ e.step)
    (hrow : (saveRows (e.sb.toNat % 2 ^ 27))[e.step - 2]? = some row) (hop : e.op = 0)
    (hfull : size < 256 * (e.step - 1) + 256) : s.csaveStep c = s.saveFull c base e := by
  obtain ⟨hh, hrun⟩ := hr
  unfold State.csaveStep
  simp only [hh, hop, hrun, ha, ne_eq, not_true, Bool.true_eq_false, or_self, if_false]
  rw [if_neg (by omega)]
  simp only [hrow]
  rw [if_pos hfull]

/-- A row goes back to its place: a bank's into the store, any other into the core. -/
def State.restoreRow (s : State) (c : Nat) (e : ECmd) (row : SaveRow) (bs : List Byte) : State :=
  match row with
  | .bank b r => (s.engWrite c (max e.pts e.ts) ((saveKeys c b r).zip bs)).1.modHead c saveKey fun o =>
      { o with ts := max o.ts (s.engWrite c (max e.pts e.ts) ((saveKeys c b r).zip bs)).2 }
  | row => s.restoreBytes c row bs

theorem State.crestoreStep_row (hr : Runs s c saveKey e) (ha : e.aux = .save base size) (h2 : 2 ≤ e.step)
    (hrow : (saveRows (e.sb.toNat % 2 ^ 27))[e.step - 2]? = some row) (hop : e.op = 1)
    (hs : s.saveRead c (base + 256 * (e.step - 1)) 256 e = (s1, some bs)) :
    s.crestoreStep c = ((s1.restoreRow c e row bs).saveRow c).saveNext c e := by
  obtain ⟨hh, hrun⟩ := hr
  unfold State.crestoreStep
  simp only [hh, hop, hrun, ha, ne_eq, not_true, Bool.true_eq_false, or_self, if_false]
  rw [if_neg (by omega)]
  simp only [hrow, hs]
  cases row <;> rfl

theorem saveKeys_onChip (c b r : Nat) : OnChip (saveKeys c b r) := by
  intro k hk
  obtain ⟨i, -, rfl⟩ := List.mem_map.mp hk
  simp only [Config.tileKey]
  omega

theorem State.mem_restoreRow_bank (s : State) (c : Nat) (e : ECmd) (b r : Nat) (bs : List Byte) :
    (s.restoreRow c e (.bank b r) bs).mem = memWrites s.mem ((saveKeys c b r).zip bs) :=
  s.mem_engWrite_onChip c _ ((saveKeys_onChip c b r).zip bs)

theorem State.restoreRow_of_ne_bank (s : State) (c : Nat) (e : ECmd) (bs : List Byte) (h : ∀ b r, row ≠ .bank b r) :
    s.restoreRow c e row bs = s.restoreBytes c row bs := by
  cases row with
  | bank b r => exact absurd rfl (h b r)
  | _ => rfl

@[simp] theorem State.core_chargeStep (s : State) (e : ECmd) (n c : Nat) : (s.chargeStep e n).core c = s.core c := by
  unfold State.chargeStep
  split <;> rfl

/-- The count and the progress of a step change queues and engine registers of a core. -/
theorem State.core_saveNext_saveRow (s : State) (c : Nat) (e : ECmd) : ∃ q r, ((s.saveRow c).saveNext c e).core c =
    { s.core c with queues := q, eregs := r } := by
  unfold State.saveNext State.saveRow State.engCount State.setEregCore State.modHead State.modQueue
  rw [State.core_chargeStep, State.core_modCore_same, State.core_modCore_same]
  exact ⟨_, _, rfl⟩

/-- A fold of writes at different places leaves each one's value. -/
theorem mget_foldl_mset {α : Type} (f : Nat → α) {g : Nat → Nat} (hg : g.Injective) {n j : Nat} (hj : j < n) (m : SMap α)
    (d : α) : mget ((List.range n).foldl (fun a i => mset a (g i) (f i)) m) (g j) d = f j := by
  induction n with
  | zero => omega
  | succ n ih =>
    rw [List.range_succ, List.foldl_append, List.foldl_cons, List.foldl_nil]
    rcases Nat.lt_succ_iff_lt_or_eq.mp hj with h | rfl
    · rw [mget_mset_other _ _ _ (fun he => by have := hg he; omega), ih h]
    · exact mget_mset_same ..

/-- What a restored row leaves in the core. -/
theorem State.core_restored (s : State) (c : Nat) (e : ECmd) (row : SaveRow) (bs : List Byte) :
    let t := (((s.restoreBytes c row bs).saveRow c).saveNext c e).core c
    let part := fun n j => leNat ((bs.drop (n * j)).take n)
    (∀ i, row = .acc i → ∀ j, j < 64 → mget t.acc (64 * i + j) 0 = BitVec.ofNat 32 (part 4 j)) ∧
    (∀ v, row = .vreg v → mget t.vregs v 0 = BitVec.ofNat 2048 (leNat bs)) ∧
    (row = .kregs → ∀ j, j < 7 → mget t.kregs (j + 1) 0 = BitVec.ofNat 64 (part 8 j)) ∧
    (∀ r, row = .cbank r → t.cbNew = (s.core c).cbNew ++
      (List.range 32).map fun j => (s.clk, 32 * r + j, BitVec.ofNat 64 (part 8 j))) := by
  intro t part
  obtain ⟨q, r, ht⟩ := (s.restoreBytes c row bs).core_saveNext_saveRow c e
  have ht : t = { (s.restoreBytes c row bs).core c with queues := q, eregs := r } := ht
  rw [ht]
  refine ⟨fun i hrow j hj => ?_, fun v hrow => ?_, fun hrow j hj => ?_, fun r hrow => ?_⟩ <;> subst hrow <;>
    simp only [State.restoreBytes, State.core_modCore_same]
  · exact mget_foldl_mset (fun j => BitVec.ofNat 32 (part 4 j)) (g := fun j => 64 * i + j) (fun a b h => by simpa using h) hj ..
  · rw [mget_mset_same]
  · exact mget_foldl_mset (fun j => BitVec.ofNat 64 (part 8 j)) (g := fun j => j + 1) (fun a b h => by simpa using h) hj ..
  · rfl

end Saved

/-- Settles O55, clause by clause: event records, images, and the rows of a saved area. -/
theorem ingressSaveEvents : Obligations.IngressSaveEvents := by
  refine ⟨?evput, ?deliver, ?events, ?image, ?bad, ?mark, ?pulse, ?rows, ?ends⟩
  case evput =>
    intro s c q e hr
    obtain ⟨hh, hrun⟩ := hr
    rw [exec_evputStep, execEvputStep, State.evputStep]
    simp [hh, hrun, bits]
  case deliver =>
    intro s c i e hc hi t mark hm hd hl
    rw [State.evDeliver_fits hc hi hm hd hl, State.seat_modSeat_same, State.seat_modCore, State.core_modSeat,
      State.core_modCore_same]
    exact ⟨rfl, rfl⟩
  case events =>
    intro s die rx vc dt bytes w h hdt hw
    exact congrArg Host.Outcome.next (State.csiEvents_one h hdt hw)
  case image =>
    intro s die rx vc dt bytes h hi hu
    exact ⟨_, rfl, State.csiImage_writes h hi hu⟩
  case bad =>
    intro s die rx vc dt bytes h
    obtain ⟨hev, him⟩ := State.evErr_of_bad (vc := vc) (dt := dt) (bytes := bytes) h
    exact ⟨congrArg Host.Outcome.next hev, congrArg Host.Outcome.next him⟩
  case mark =>
    intro s die rx vc h
    exact ⟨⟨_, rfl, State.csiMark_start h⟩, ⟨_, rfl, State.csiMark_end h⟩⟩
  case pulse =>
    exact fun s => ⟨_, rfl, (KeepsFrames.evRoute { s with pulses := (s.pulses + 1) % 2 ^ 26 } 0 none _).2⟩
  case rows =>
    intro s s1 s2 c e row base size bs ks hr ha h2 hrow
    refine ⟨fun hop hfit hs hl hf hu hx => ⟨_, rfl, State.mem_csaveStep hr ha h2 hrow hop hfit hs hl hf hu hx⟩,
      fun hop hfull => congrArg Host.Outcome.next (State.csaveStep_full hr ha h2 hrow hop hfull), fun b r hop hb hs => ?_,
      fun hop hs hnb => ?_⟩
    · subst hb
      refine ⟨_, congrArg Host.Outcome.next (State.crestoreStep_row hr ha h2 hrow hop hs), ?_⟩
      rw [State.mem_saveNext, State.mem_saveRow, State.mem_restoreRow_bank]
    · refine ⟨_, congrArg Host.Outcome.next (State.crestoreStep_row hr ha h2 hrow hop hs), ?_, ?_⟩
      · rw [State.mem_saveNext, State.mem_saveRow, State.restoreRow_of_ne_bank _ _ _ _ hnb, State.mem_restoreBytes]
      · rw [State.restoreRow_of_ne_bank _ _ _ _ hnb]
        exact s1.core_restored c e row bs
  case ends =>
    intro s c e hh hs
    exact ⟨⟨_, rfl, State.headCmd_engResume hh hs, rfl⟩, congrArg Host.Outcome.next (State.engAbort_faulted hh hs)⟩

end Sys2Proof.Machine

namespace Sys2Proof.Machine
open Sys2Proof.Safety

/-! # Supervisor instructions, seize and release -/

/-! ## What a commit leaves of the uncorrectable sectors (R249)

A commit writes, and a write makes no sector uncorrectable. -/

/-- From `s` to `t` no sector has become uncorrectable. -/
def NoNewUe (s t : State) : Prop := t.ue ⊆ s.ue

section CommitUe
variable {s t u : State} {p : Place}

theorem NoNewUe.of_eq (h : t.ue = s.ue) : NoNewUe s t := by
  rw [NoNewUe, h]
  exact List.Subset.refl _

theorem NoNewUe.refl (s : State) : NoNewUe s s := List.Subset.refl _

theorem NoNewUe.trans (a : NoNewUe s t) (b : NoNewUe t u) : NoNewUe s u := List.Subset.trans b a

theorem NoNewUe.foldl {α : Type} {f : State → α → State} (h : ∀ s x, NoNewUe s (f s x)) (l : List α) (s : State) :
    NoNewUe s (l.foldl f s) := by
  induction l generalizing s with
  | nil => exact .refl s
  | cons x l ih => exact (h s x).trans (ih _)

/-- Timestamps of lines are no data. -/
theorem NoNewUe.setLines (g : State → Nat → Nat × Nat) (ls : List Nat) (s : State) :
    NoNewUe s (ls.foldl (fun (s : State) l => { s with lines := mset s.lines l (g s l) }) s) :=
  .foldl (f := fun s l => { s with lines := mset s.lines l (g s l) }) (fun _ _ => .of_eq rfl) ls s

theorem NoNewUe.ite {P : Prop} [Decidable P] (ht : NoNewUe s t) (hu : NoNewUe s u) : NoNewUe s (if P then t else u) := by
  split <;> assumption

theorem NoNewUe.post (s : State) (c d : Nat) (v : Option Nat) (vc : Nat) (ad : Bool) (i : Nat) (b : Body) :
    NoNewUe s (s.post c d v vc ad i b) := by
  unfold State.post State.enter
  split <;> exact .of_eq rfl

theorem NoNewUe.regs (h : RegsOnly p s t) : NoNewUe s t := by
  obtain ⟨_, _, rfl⟩ := h.rest
  exact .of_eq rfl

/-! Writes. -/

theorem NoNewUe.poke (s : State) (c : Nat) (cells : List Host.Cell) : NoNewUe s (s.poke c cells) := s.ue_poke_subset c cells

theorem NoNewUe.unitWrite (s : State) (c lo : Nat) (cells : List Host.Cell) : NoNewUe s (s.unitWrite c lo cells).1 := by
  unfold State.unitWrite
  extract_lets ls ts u
  exact (NoNewUe.of_eq (mem_ue_foldl_l2Access c ts ls s).2).trans (.poke u c cells)

theorem NoNewUe.devWrite (s : State) (lo : Nat) (cells : List Host.Cell) : NoNewUe s (s.devWrite lo cells) := by
  unfold State.devWrite
  extract_lets cs ls ts
  exact (NoNewUe.setLines (fun _ _ => (ts, ts)) ls s).trans (.poke ..)

/-- A notice of the MMU is a write of the device. -/
theorem NoNewUe.mnqPost (s : State) (d : Nat) (d0 d1 : Word) : NoNewUe s (s.mnqPost d d0 d1) := by
  unfold State.mnqPost
  extract_lets tail k
  exact (NoNewUe.devWrite ..).trans (.of_eq (State.ue_setCrGlob ..))

theorem NoNewUe.countPage (s : State) (cl slot page : Nat) (sub : Bool) (n : Option Nat) :
    NoNewUe s (s.countPage cl slot page sub n) := by
  refine .ite (.refl s) ?_
  split
  · exact .refl s
  · extract_lets e e' hit room e'' u
    have hu : NoNewUe s u := .of_eq rfl
    exact .ite (hu.trans (.mnqPost ..)) hu

theorem NoNewUe.countOn (s : State) (c : Nat) (g : Option (Nat × Nat × Bool)) : NoNewUe s (s.countOn c g) := by
  unfold State.countOn
  split
  · exact .ite (.refl s) (.countPage ..)
  · exact .refl s

/-! The effects that a store buffer holds (R260). -/

theorem NoNewUe.sendRst (s : State) (p : Place) (w : Word) (bytes : List Byte) (ad : Bool) :
    NoNewUe s (s.sendRst p w bytes ad) := by
  unfold State.sendRst
  dsimp only
  split
  · exact .ite (.post ..) (.of_eq rfl)
  · exact .of_eq rfl
  · exact .of_eq rfl

theorem NoNewUe.wakeRec (s : State) (p : Place) (r : Rec) : NoNewUe s (s.wakeRec p r) := by
  unfold State.wakeRec
  split
  · exact .post ..
  · exact .of_eq rfl
  · exact .of_eq rfl

theorem NoNewUe.see (s : State) (c : Nat) (ks : List Nat) : NoNewUe s (s.see c ks) := by
  refine .foldl (fun s l => .of_eq ?_) _ s
  exact State.ue_l2Access s c l

theorem NoNewUe.wakeBlock (s : State) (p : Place) (ks : List Nat) : NoNewUe s (s.wakeBlock p ks) := by
  unfold State.wakeBlock
  split
  · exact ((NoNewUe.see s ..).trans (.unitWrite ..)).trans (.wakeRec ..)
  · exact .unitWrite ..

theorem NoNewUe.landPushes (s : State) (p : Place) : NoNewUe s (s.landPushes p) := by
  unfold State.landPushes
  extract_lets b late u v
  have hu : NoNewUe s u := .of_eq rfl
  have hv : NoNewUe u v := .regs (RegsOnly.foldl (p := p) (fun s w => .retire1 s p w) _ _)
  exact (hu.trans hv).trans (.regs (RegsOnly.foldl (p := p) (fun s r => .landRes s p r _) _ _))

theorem NoNewUe.dropPushes (s : State) (p : Place) : NoNewUe s (s.dropPushes p) := .ite (.refl s) (.of_eq rfl)

theorem NoNewUe.hangup (s : State) (p : Place) : NoNewUe s (s.hangup p) := by
  unfold State.hangup
  extract_lets u
  have hu : NoNewUe s u := (NoNewUe.landPushes s p).trans (.dropPushes ..)
  clear_value u
  split
  · exact hu.trans (.of_eq rfl)
  · exact hu

theorem NoNewUe.chainOp (s : State) (p : Place) (w : Word) : NoNewUe s (s.chainOp p w) := by
  unfold State.chainOp
  extract_lets u
  have hu : NoNewUe s u := .hangup s p
  clear_value u
  refine .ite hu ?_
  split
  · exact .ite (hu.trans (.of_eq rfl)) hu
  · exact hu

theorem NoNewUe.releaseGroup (s : State) (p : Place) (g : Nat) : NoNewUe s (s.releaseGroup p g) := by
  unfold State.releaseGroup
  split
  · refine .ite ?_ (.refl s)
    exact NoNewUe.trans (t := { s with holds := mdel s.holds g }) (.of_eq rfl) (.foldl (fun s c => .post ..) _ _)
  · exact .refl s

theorem NoNewUe.enqueue (s : State) (p : Place) (v : Word) : NoNewUe s (s.enqueue p v) := .regs (RegsOnly.enqueue s p v)

/-- A store of a scene, in its turn. -/
theorem NoNewUe.perform1_store {cells : List Host.Cell} {pages : List (Nat × Nat × Bool)} {vid : Option Nat}
    (h : s.perform1 p (.store cells pages vid) = .ok t) : NoNewUe s t := by
  have hc : NoNewUe s (pages.foldl (fun (s : State) g => s.countOn p.core (some g)) s) := .foldl (fun s g => .countOn ..) pages s
  simp only [State.perform1] at h
  split at h
  · cases h
  split at h
  · split at h <;> cases h
    · exact hc
    · exact hc.trans (.of_eq rfl)
  · cases h
    exact hc.trans (.poke ..)

/-- A remote store of a scene, in its turn. -/
theorem NoNewUe.perform1_rst {dest : Word} {bytes : List Byte} {ad res : Bool} {vid : Option Nat}
    (h : s.perform1 p (.rst dest bytes ad res vid) = .ok t) : NoNewUe s t := by
  have hd (d : Nat) : NoNewUe s (s.doorRelease d) := .of_eq rfl
  simp only [State.perform1] at h
  split at h
  · cases h
  split at h
  · cases h
  split at h
  · split at h
    · cases h
      exact (hd _).trans (.sendRst ..)
    split at h <;> cases h
    exact .sendRst ..
  · cases h
    exact (NoNewUe.ite (hd _) (.refl s)).trans (.sendRst ..)

/-- An entry performed in its turn makes no sector uncorrectable. -/
theorem NoNewUe.perform1 {op : BufOp} (h : s.perform1 p op = .ok t) : NoNewUe s t := by
  cases op with
  | store => exact .perform1_store h
  | rst => exact .perform1_rst h
  | wake =>
    simp only [State.perform1] at h
    split at h
    · split at h <;> cases h
      exact .wakeBlock ..
    · cases h
      exact .wakeBlock ..
  | woken =>
    simp only [State.perform1] at h
    split at h <;> cases h
    exact .wakeRec ..
  | push =>
    simp only [State.perform1] at h
    split at h
    · split at h <;> cases h
      exact .enqueue ..
    · cases h
      exact .refl s
  | pushDue => cases h
  | chain =>
    simp only [State.perform1] at h
    split at h <;> cases h
    exact .chainOp ..
  | release =>
    simp only [State.perform1] at h
    split at h <;> cases h
    exact .landPushes ..
  | full =>
    simp only [State.perform1] at h
    split at h <;> cases h
    exact (NoNewUe.landPushes s p).trans (.of_eq rfl)
  | acquire | lut4 =>
    simp only [State.perform1] at h
    split at h <;> cases h
    exact .of_eq rfl
  | cbw | cbld | mclr =>
    cases h
    exact .of_eq rfl
  | unseize =>
    cases h
    exact .releaseGroup ..

theorem NoNewUe.drain (s : State) (p : Place) (l : List Entry) : NoNewUe s (s.drain p l).1 := by
  induction l generalizing s with
  | nil => exact .refl s
  | cons e l ih =>
    unfold State.drain
    split
    · exact .refl s
    · next h => exact (NoNewUe.perform1 h).trans (ih _)

/-! The coherent part (R259). -/

theorem NoNewUe.cohEntry (s : State) (c : Nat) (e : Entry) : NoNewUe s (s.cohEntry c e).1 := by
  unfold State.cohEntry
  split
  · dsimp only
    split
    · exact .refl s
    · exact (NoNewUe.foldl (fun s g => .countOn ..) _ s).trans (.poke ..)
  · split
    · exact .refl s
    · exact .poke ..
  · exact .refl s

theorem NoNewUe.cohEntries (s : State) (c : Nat) (l : List Entry) : NoNewUe s (s.cohEntries c l).1 := by
  induction l generalizing s with
  | nil => exact .refl s
  | cons e l ih => exact (NoNewUe.cohEntry s c e).trans (ih _)

theorem NoNewUe.extend (s : State) (ts : Nat) (l : List LeaseRec) : NoNewUe s (s.extend ts l).1 := by
  induction l generalizing s with
  | nil => exact .refl s
  | cons r l ih =>
    unfold State.extend
    split
    · exact NoNewUe.trans (.of_eq rfl) (ih _)
    · exact .refl s

theorem NoNewUe.commitCoherent {c : Nat} {sc : Scene} {rest : List Entry} (h : s.commitCoherent c sc = .done t rest) :
    NoNewUe s t := by
  unfold State.commitCoherent at h
  extract_lets wr seen ts1 ts2 ts at h
  split at h
  · cases h
    exact .refl s
  have hx := NoNewUe.extend s ts ((sc.reads.filter fun r => r.rts < ts).insertionSort fun a b => lineRank a.line ≤ lineRank b.line)
  split at h
  · cases h
  · next s1 heq =>
    rw [heq] at hx
    extract_lets v w at h
    have hv : NoNewUe s1 v := .setLines (fun s l => ((s.lts l).1, max (s.lts l).2 ts)) ..
    have hw : NoNewUe v w := .of_eq (mem_ue_foldl_l2Access c ts wr v).2
    have hc := NoNewUe.cohEntries w c sc.entries
    split at h
    next s2 l he =>
    rw [he] at hc
    cases h
    exact ((hx.trans hv).trans (hw.trans hc)).trans (.of_eq rfl)

theorem NoNewUe.commitRest {sc : Scene} {l : List Entry} (h : s.commitRest p sc l = .done t) : NoNewUe s t := by
  have hd := NoNewUe.drain s p l
  unfold State.commitRest at h
  split at h
  · cases h
  · next heq =>
    rw [heq] at hd
    cases h
    exact hd.trans (.of_eq rfl)

theorem commitWait_ne_done {c : Stall} : s.commitWait p c ≠ .done t := by
  unfold State.commitWait
  split <;> exact fun h => by cases h

theorem NoNewUe.commit (h : s.commit p = .done t) : NoNewUe s t := by
  unfold State.commit at h
  split at h
  · cases h
    exact .refl s
  split at h
  · exact .commitRest h
  split at h
  · exact absurd h commitWait_ne_done
  split at h
  · exact absurd h commitWait_ne_done
  extract_lets now at h
  split at h
  · exact absurd h commitWait_ne_done
  split at h
  · split at h
    · exact absurd h commitWait_ne_done
    · cases h
  · next heq => exact (NoNewUe.commitCoherent heq).trans (.commitRest h)

theorem NoNewUe.closeScene {s0 : State} (h : s0.closeScene s p = .done t) : NoNewUe s t := by
  unfold State.closeScene at h
  split at h
  · split at h <;> cases h
  · cases h
  · exact .commit h

end CommitUe

section Seize
variable {s s1 s2 : State} {h : Shape} {vals : List Word} {g : Nat} {a : Word}

/-- A commit that ends leaves what was sound sound. -/
theorem bad_of_committed {ks : List Nat} (hk : ∀ x s, (h.keep x s).ue = s.ue) (hc : committed s h vals s1 = some s2)
    (hb : s1.bad ks = false) : s2.bad ks = false := by
  unfold committed at hc
  split at hc
  · cases hc
  split at hc
  · next heq =>
    cases hc
    exact State.bad_eq_false_of_subset ((NoNewUe.of_eq (hk ..)).trans (.closeScene heq)) hb
  · cases hc

/-- What lets an X-seat seize a group (R422). -/
def MaySeize (s : State) (p : Place) (g : Nat) : Prop :=
  Config.isX p.core = true ∧ s.maySeize p.core g = true ∧ s.members g ≠ [] ∧ mfind s.holds g = none ∧ s.seizing p g = false

theorem seizeChk_handler {x : Ctx} (hh : (s.bank x.p).handler = true) : seizeChk g x s = some (.trap .privInsn 0 none) := by
  unfold seizeChk
  rw [if_pos hh]

theorem seizeRefuses_iff (s : State) (p : Place) (g : Nat) :
    (!Config.isX p.core || !s.maySeize p.core g || (s.members g).isEmpty || (mfind s.holds g).isSome || s.seizing p g) = true ↔
      ¬ MaySeize s p g := by
  unfold MaySeize
  simp only [Bool.or_eq_true, Bool.not_eq_true', List.isEmpty_iff, Option.isSome_iff_ne_none,
    ← Bool.not_eq_true]
  tauto

theorem seizeChk_refused {x : Ctx} (hh : (s.bank x.p).handler = false) (hm : ¬ MaySeize s x.p g) :
    seizeChk g x s = some (.trap .seizeRefused 0 none) := by
  unfold seizeChk
  rw [if_neg (ne_true_of_eq_false hh), if_pos ((seizeRefuses_iff ..).mpr hm)]

theorem seizeChk_passes {x : Ctx} (hh : (s.bank x.p).handler = false) (hm : MaySeize s x.p g)
    (hb : s.bad (keysFrom (Config.tileKey x.p.core ((x.v 0).toNat / 64 % 2 ^ 15 * 64)) 64) = false) :
    seizeChk g x s = none := by
  have hb' : s.bad (keysFrom (Config.tileKey x.p.core (bits (x.v 0).toNat 20 6 * 64)) 64) = false := hb
  unfold seizeChk
  rw [if_neg (ne_true_of_eq_false hh), if_neg (fun hr => (seizeRefuses_iff ..).mp hr hm), if_neg (ne_true_of_eq_false hb')]

theorem seizeAct_done {cs : List Nat} {x : Ctx}
    (hb : s.bad (keysFrom (Config.tileKey x.p.core ((x.v 0).toNat / 64 % 2 ^ 15 * 64)) 64) = false) :
    seizeAct cs g x s = .done (seized s x.p g (s.lockedRec x.p.core ((x.v 0).toNat / 64 % 2 ^ 15 * 64))) none none := by
  have hb' : s.bad (keysFrom (Config.tileKey x.p.core (bits (x.v 0).toNat 20 6 * 64)) 64) = false := hb
  unfold seizeAct
  rw [if_neg (ne_true_of_eq_false hb')]
  rfl

end Seize

/-- Settles O45, instruction by instruction. -/
theorem supervisorInstructions : Obligations.SupervisorInstructions := by
  refine ⟨fun f => ⟨?_, ?_, ?_, ?_⟩, ?swin, ?swinW, ?freeze, ?seize, ?release⟩
  case swin =>
    intro f s h q may hi hh
    have hk : needHandler (ctx s h []) s = none := needHandler_eq_none hh
    refine ⟨fun hm => ?_, fun hm => ?_⟩ <;> rw [exec_swin, execSwin]
    · refine issueChk_done hi rfl rfl hk ?_
      exact if_pos hm
    · refine issueChk_done hi rfl rfl hk ?_
      exact if_neg (ne_true_of_eq_false hm)
  case swinW =>
    intro f s s1 v h q may hi hh
    have hk : needHandler (ctx s h [v]) s1 = none := needHandler_eq_none hh
    refine ⟨fun hm => ?_, fun hm => ?_⟩ <;> rw [exec_swinW, execSwinW]
    · refine issueChk_done hi rfl rfl hk ?_
      exact if_pos hm
    · refine issueChk_done hi rfl rfl hk ?_
      exact if_neg (ne_true_of_eq_false hm)
  case freeze =>
    intro f s h hi hh
    have hk : needHandler (ctx s h []) s = none := needHandler_eq_none hh
    exact ⟨issueChk_done hi rfl rfl hk rfl, issueChk_done hi rfl rfl hk rfl⟩
  case seize =>
    intro f s s1 s2 a c g h off may hi
    refine ⟨fun hh => ?_, fun hh hm => ?_, fun hh hm hb hc => ?_⟩ <;> rw [exec_seize, execSeize]
    · exact issueChk_trap hi (seizeChk_handler hh)
    · exact issueChk_trap hi (seizeChk_refused hh hm)
    · exact issueChk_closing hi rfl (seizeChk_passes hh hm hb) hc (seizeAct_done (bad_of_committed (fun _ _ => rfl) hc hb))
  case release =>
    intro f s h g hi
    refine ⟨fun hg => ?_, fun hg => ⟨fun ho => ?_, fun sc ho => ?_⟩⟩ <;> rw [exec_release, execRelease]
    · exact issueChk_trap hi (if_neg hg)
    · refine issueChk_done hi rfl rfl (if_pos hg) ?_
      exact if_neg (by rw [Option.not_isSome_iff_eq_none]; exact ho)
    · refine issueChk_done hi rfl rfl (if_pos hg) ?_
      exact if_pos (Option.isSome_iff_exists.mpr ⟨sc, ho⟩)
  all_goals exact handlerOnly_of_needHandler fun _ => rfl

end Sys2Proof.Machine

namespace Sys2Proof.Machine
open Sys2Proof.Safety

/-! # Seizure groups and watchdogs -/

/-! ## Group registers (R421) -/

section Groups
variable {s : State} {g : Nat} {v : Word}

/-- Cores have come back to a group. -/
def State.rejoin (s : State) (g : Nat) (cs : List Nat) : State :=
  cs.foldl (fun s c => s.modCore c fun k => { k with left := k.left.filter (· != g) }) s

@[simp] theorem State.crs_rejoin (s : State) (g : Nat) (cs : List Nat) : (s.rejoin g cs).crs = s.crs := by
  induction cs generalizing s with
  | nil => rfl
  | cons c cs ih => exact ih _

/-- A core that had not left a group, or that has come back, is in it. -/
theorem State.left_rejoin {cs : List Nat} {c : Nat} (h : g ∈ (s.core c).left → c ∈ cs) : g ∉ ((s.rejoin g cs).core c).left := by
  induction cs generalizing s with
  | nil => exact fun hg => absurd (h hg) List.not_mem_nil
  | cons d cs ih =>
    refine ih (s := s.modCore d fun k => { k with left := k.left.filter (· != g) }) fun hg => ?_
    by_cases hd : d = c
    · subst hd
      rw [State.core_modCore_same] at hg
      simp at hg
    · rw [State.core_modCore_other s _ hd] at hg
      exact (List.mem_cons.mp (h hg)).resolve_left (Ne.symm hd)

/-- A group that is not held takes a value whose tiles may be in it. -/
theorem State.szgrpWrite_takes (hg : g < 32) (hh : mfind s.holds g = none)
    (hm : ∀ c ∈ grpTiles v.toNat, (s.core c).fenced = false ∧ s.host c = false ∧ (∀ h, s.groupOf c = some h → h = g)) :
    s.szgrpWrite g v = (s.setCrGlob 0 (0x2a0 + g) v).rejoin g
      ((grpTiles v.toNat).filter fun c => (s.core c).left.contains g) := by
  have hshare : ((grpTiles v.toNat).any fun c => match s.groupOf c with | some h => h != g | none => false) = false := by
    refine List.any_eq_false.mpr fun c hc => ?_
    obtain ⟨-, -, hgrp⟩ := hm c hc
    split
    · next h heq => simp [hgrp h heq]
    · simp
  have hfence : ((grpTiles v.toNat).any fun c => (s.core c).fenced || s.host c) = false := by
    refine List.any_eq_false.mpr fun c hc => ?_
    obtain ⟨hf, ho, -⟩ := hm c hc
    simp [hf, ho]
  unfold State.szgrpWrite
  dsimp only
  rw [if_neg ?_]
  · rfl
  · rintro (h | h | h | h)
    · omega
    · exact absurd (hshare.symm.trans h) Bool.false_ne_true
    · rw [hh] at h
      cases h
    · rw [hfence] at h
      cases h

end Groups

/-! ## The take-up of a seizure (R423) -/

section TakeUp
variable {s s' : State} {c pos : Nat} {r : Rec}

/-- A seizure whose first step is done takes its record up on the reflex bank of seat 7. -/
theorem State.seizeTakeUp_runs (hp : (s.core c).szPend = some (pos, r))
    (he : ¬ ((s.bank ⟨c, 7, 0⟩).run = .running ∧ (s.bank ⟨c, 7, 0⟩).mustEnd = true)) (ha : s.asideDone c = some s') :
    s.seizeTakeUp c = ((s'.modCore c fun k => { k with szPend := none }).modSeat c 8 fun t =>
      { t with mail := [], mpres := 0, mailClk := [] }).takeUp ⟨c, 8, 0⟩ { r with wid := w64 pos } reflexSegs := by
  unfold State.seizeTakeUp
  simp only [hp, ha]
  rw [if_neg he]

theorem State.asideDone_isSome (hw : (s.core c).szWait = true → s.sceneVectors ⟨c, 7, 0⟩ = false) :
    ∃ s', s.asideDone c = some s' := by
  unfold State.asideDone
  cases h : (s.core c).szWait with
  | false => exact ⟨_, rfl⟩
  | true => simp [hw h]

/-- The bank that takes a record up runs it. -/
theorem State.bank_takeUp (s : State) (p : Place) (r : Rec) (segs : List Seg) :
    ((s.takeUp p r segs).bank p).run = .running ∧ ((s.takeUp p r segs).bank p).pc = r.pc &&& ~~~3 ∧
      ((s.takeUp p r segs).bank p).wid = r.wid := by
  unfold State.takeUp
  simp only [State.bank_modCore, State.bank_modBank_same, and_self]

theorem State.szPend_takeUp (s : State) (p : Place) (r : Rec) (segs : List Seg) :
    ((s.takeUp p r segs).core p.core).szPend = (s.core p.core).szPend := by
  unfold State.takeUp
  extract_lets h u
  rw [State.core_modCore_same]
  rfl

theorem State.seat_takeUp (s : State) (p : Place) (r : Rec) (segs : List Seg) (c i : Nat) :
    (s.takeUp p r segs).seat c i = s.seat c i := rfl

end TakeUp

/-! ## Watchdogs (R427, R428) -/

section Watchdog
variable {s t : State} {q : Nat}

/-- STEP reads what has been written to it. -/
theorem State.wdogAt_of_step {step : Nat} (hs : step < 4) (h : t.crGlob 0 (0x2c0 + q) = (s.wdogStep q step).crGlob 0 (0x2c0 + q)) :
    t.wdogAt q = step := by
  unfold State.wdogAt
  rw [h, State.wdogStep, State.crGlob, State.setCrGlob, mget_mset_same]
  simp only [bits, w64, BitVec.toNat_ofNat]
  omega

theorem State.wdogAt_wdogTake (s : State) (q : Nat) {step : Nat} (hs : step < 4) : (s.wdogTake q step).wdogAt q = step :=
  State.wdogAt_of_step (s := s) hs rfl

/-- A pre-emption request keeps the time. -/
theorem DevWrote.preRequest (s : State) (c kind : Nat) : DevWrote s (s.preRequest c kind) := by
  have hm (s : State) (f : Core → Core) : DevWrote s (s.modCore c f) := ⟨_, _, _, _, _, _, rfl⟩
  unfold State.preRequest
  split
  · exact .refl s
  extract_lets u
  split
  · refine (hm s fun k => { k with spillFresh := true }).trans ?_
    unfold State.netSpill
    split
    · exact .refl _
    extract_lets v
    have hv : DevWrote u v := by
      simp only [v]
      split
      · exact hm u _
      · exact .refl u
    refine hv.trans (.foldl (fun s m => ?_) _ _)
    dsimp only
    split
    · exact .refl s
    · exact (DevWrote.poke s ..).trans (hm _ _)
  · exact (hm s _).trans (hm _ _)

/-! What a kill leaves of a slot's records. -/

/-- `t` has the records of every core that `s` has, and its fences. -/
structure SameRecs (s t : State) : Prop where
  deque : ∀ c, (t.core c).deque = (s.core c).deque
  ready : ∀ c, (t.core c).ready = (s.core c).ready
  fenced : ∀ c, (t.core c).fenced = (s.core c).fenced

theorem SameRecs.of_core (h : ∀ c, (t.core c).deque = (s.core c).deque ∧ (t.core c).ready = (s.core c).ready ∧
    (t.core c).fenced = (s.core c).fenced) : SameRecs s t :=
  ⟨fun c => (h c).1, fun c => (h c).2.1, fun c => (h c).2.2⟩

theorem SameRecs.of_cores (h : t.cores = s.cores) : SameRecs s t := .of_core fun c => by
  unfold State.core mget
  rw [h]
  cases mfind s.cores c <;> exact ⟨rfl, rfl, rfl⟩

theorem SameRecs.trans {u : State} (a : SameRecs s t) (b : SameRecs t u) : SameRecs s u :=
  ⟨fun c => (b.deque c).trans (a.deque c), fun c => (b.ready c).trans (a.ready c), fun c => (b.fenced c).trans (a.fenced c)⟩

theorem SameRecs.refl (s : State) : SameRecs s s := ⟨fun _ => rfl, fun _ => rfl, fun _ => rfl⟩

theorem SameRecs.foldl {α : Type} {f : State → α → State} (h : ∀ s x, SameRecs s (f s x)) (l : List α) (s : State) :
    SameRecs s (l.foldl f s) := by
  induction l generalizing s with
  | nil => exact .refl s
  | cons x l ih => exact (h s x).trans (ih _)

theorem SameRecs.modCore (s : State) (d : Nat) {f : Core → Core} (h : ∀ k, (f k).deque = k.deque ∧ (f k).ready = k.ready ∧
    (f k).fenced = k.fenced) : SameRecs s (s.modCore d f) := .of_core fun c => by
  by_cases hd : d = c
  · subst hd
    rw [State.core_modCore_same]
    exact h _
  · rw [State.core_modCore_other s f hd]
    exact ⟨rfl, rfl, rfl⟩

theorem SameRecs.enter (s : State) (m : Msg) : SameRecs s (s.enter m) := by
  unfold State.enter
  split
  · exact SameRecs.trans
      (.modCore s m.src (f := fun k => { k with sent := k.sent + 1, outbox := k.outbox ++ [m] }) fun _ => ⟨rfl, rfl, rfl⟩)
      (.of_cores rfl)
  · exact SameRecs.trans (.modCore s m.src (f := fun k => { k with sent := k.sent + 1 }) fun _ => ⟨rfl, rfl, rfl⟩)
      (.of_cores rfl)

theorem SameRecs.faultMsg (s : State) (c i : Nat) (k : Cause) (v : Nat) (w1 w2 : Word) :
    SameRecs s (s.faultMsg c i k v w1 w2) := .enter ..

theorem SameRecs.poke (s : State) (c : Nat) (cells : List Host.Cell) : SameRecs s (s.poke c cells) := by
  unfold State.poke
  extract_lets secs full part s'
  split
  · exact .of_cores rfl
  · exact SameRecs.trans (t := s') (.of_cores rfl) (.foldl (fun s q => .faultMsg ..) _ _)

theorem SameRecs.devWrite (s : State) (lo : Nat) (cells : List Host.Cell) : SameRecs s (s.devWrite lo cells) := by
  unfold State.devWrite
  extract_lets cs ls ts
  exact (SameRecs.foldl (f := fun s l => { s with lines := mset s.lines l (ts, ts) }) (fun _ _ => .of_cores rfl) ls s).trans
    (.poke ..)

theorem SameRecs.bookPut (s : State) (n seq q st : Nat) (bytes : List Byte) : SameRecs s (s.bookPut n seq q st bytes) := by
  refine (SameRecs.devWrite s s.lastTs (cellsAt (s.bookAt n) bytes)).trans ?_
  unfold State.bookPut
  generalize s.devWrite s.lastTs (cellsAt (s.bookAt n) bytes) = u
  exact .of_cores rfl

theorem SameRecs.logCmd (s : State) (q st info : Nat) : SameRecs s (s.logCmd q st info) := by
  unfold State.logCmd
  extract_lets t
  split
  · unfold State.bookAppend
    extract_lets n bytes m u
    have hu : SameRecs s u := .bookPut ..
    clear_value u
    split
    · exact hu.trans (.of_cores rfl)
    · exact hu
  · exact .refl s

theorem SameRecs.afterKill (s : State) (q : Nat) : SameRecs s (s.afterKill q) := by
  unfold State.afterKill
  extract_lets t busy
  split
  · split
    · exact .refl s
    · have hm (u : State) (f : Slot → Slot) : SameRecs u (u.modSlot q f) := .of_cores rfl
      split
      · exact ((hm s _).trans (hm _ _)).trans (.logCmd ..)
      · exact ((hm s _).trans (.logCmd ..)).trans (hm _ _)
  · exact .refl s

theorem SameRecs.exitRecs (s : State) (q c n : Nat) : SameRecs s (s.exitRecs q c n) := by
  unfold State.exitRecs
  split
  · exact .refl s
  · exact .modCore _ _ fun _ => ⟨rfl, rfl, rfl⟩

theorem SameRecs.dropNet (s : State) (q : Nat) : SameRecs s (s.dropNet q) := by
  unfold State.dropNet
  extract_lets u v
  have hu : SameRecs s u := .foldl (fun s m => .exitRecs ..) _ _
  have hv : SameRecs u v := .foldl (fun s d => .foldl (fun s m => .exitRecs ..) _ _) _ _
  exact (hu.trans hv).trans (.of_cores rfl)

theorem SameRecs.exitV (s : State) (q : Nat) : SameRecs s (s.exitV q) := by
  unfold State.exitV
  split
  · next h _ =>
    exact .foldl (f := fun s i => { s with routes := mset s.routes ((h.vbase + i) % 2 ^ 32) .exited })
      (fun s i => .of_cores rfl) _ _
  · exact .refl s

/-- Values changed alike under every key. -/
theorem mfind_map {α β : Type} (m : SMap α) (f : α → β) (k : Nat) :
    mfind (m.map fun x => (x.1, f x.2)) k = (mfind m k).map f := by
  induction m with
  | nil => rfl
  | cons x m ih =>
    obtain ⟨j, v⟩ := x
    simp only [List.map_cons, mfind]
    split
    · rfl
    · exact ih

/-- A core without the commands that `p` picks. -/
def Core.dropCmds (p : ECmd → Bool) (k : Core) : Core :=
  { k with queues := k.queues.map fun (q : Nat × List ECmd) => (q.1, q.2.filter fun e => !p e) }

theorem SameRecs.dropCmds (s : State) (p : ECmd → Bool) : SameRecs s (s.dropCmds p) := .of_core fun c => by
  have hmap : mfind (s.dropCmds p).cores c = (mfind s.cores c).map (Core.dropCmds p) :=
    mfind_map s.cores (Core.dropCmds p) c
  unfold State.core mget
  rw [hmap]
  cases mfind s.cores c <;> exact ⟨rfl, rfl, rfl⟩

/-- A core has no record of a slot. -/
def NoRecs (s : State) (q c : Nat) : Prop :=
  (∀ r ∈ (s.core c).deque, r.slot ≠ q) ∧ ∀ x ∈ (s.core c).ready, x.r.slot ≠ q

theorem NoRecs.same {c : Nat} (h : NoRecs s q c) (ht : SameRecs s t) : NoRecs t q c := by
  unfold NoRecs
  rw [ht.deque, ht.ready]
  exact h

/-- A core that has been left its records of a slot has none. -/
theorem NoRecs.dropRecs (s : State) (q c : Nat) : NoRecs (s.dropRecs q c) q c := by
  unfold State.dropRecs
  extract_lets k keep gone
  refine NoRecs.same ?_ (.exitRecs ..)
  unfold NoRecs
  rw [State.core_modCore_same]
  exact ⟨fun r hr => by simpa [keep] using (List.mem_filter.mp hr).2, fun x hx => by simpa [keep] using (List.mem_filter.mp hx).2⟩

theorem NoRecs.dropRecs_other {c : Nat} (h : NoRecs s q c) (d : Nat) : NoRecs (s.dropRecs q d) q c := by
  by_cases hd : d = c
  · subst hd
    exact .dropRecs ..
  · unfold State.dropRecs
    extract_lets k keep gone
    refine NoRecs.same ?_ (.exitRecs ..)
    unfold NoRecs State.setSpill
    rw [State.core_modCore_other _ _ hd, State.core_modCore_other _ _ hd]
    exact h

theorem NoRecs.dropAll {c : Nat} {cs : List Nat} (h : c ∈ cs ∨ NoRecs s q c) :
    NoRecs (cs.foldl (fun s c => s.dropRecs q c) s) q c := by
  induction cs generalizing s with
  | nil => exact h.resolve_left List.not_mem_nil
  | cons d cs ih =>
    refine ih (h.elim (fun hm => ?_) fun h => .inr (h.dropRecs_other d))
    rcases List.mem_cons.mp hm with rfl | hm
    · exact .inr (.dropRecs ..)
    · exact .inl hm

theorem mfind_eq_none {α : Type} {m : SMap α} {k : Nat} (h : k ∉ m.map (·.1)) : mfind m k = none := by
  induction m with
  | nil => rfl
  | cons x m ih =>
    obtain ⟨j, v⟩ := x
    simp only [List.map_cons, List.mem_cons, not_or] at h
    rw [mfind, if_neg (Ne.symm h.1), ih h.2]

/-- A core that has not been touched has no record. -/
theorem NoRecs.untouched {c : Nat} (h : c ∉ s.cores.map (·.1)) : NoRecs s q c := by
  unfold NoRecs State.core mget
  rw [mfind_eq_none h]
  exact ⟨fun r hr => absurd hr List.not_mem_nil, fun x hx => absurd hx List.not_mem_nil⟩

/-- A watchdog that kills leaves no record of its slot. -/
theorem NoRecs.wdogKill (hd : s.wdogDue q 2 = true) (c : Nat) : NoRecs (s.wdogKill q) q c := by
  unfold State.wdogKill
  rw [if_neg (by rw [hd]; decide)]
  extract_lets u v w
  have hv : NoRecs v q c := .dropAll (Classical.em _ |>.imp_right .untouched)
  have hw : SameRecs v w := ((SameRecs.dropNet v q).trans (.dropCmds ..)).trans (.exitV ..)
  clear_value w
  refine (hv.same hw).same ?_
  exact SameRecs.trans (SameRecs.trans (t := w.wdogTake q 2) (.of_cores rfl) (.faultMsg ..)) (.afterKill ..)

/-- STEP stays as the book's entries are appended. -/
theorem State.crGlob_afterKill (s : State) (q : Nat) {m : Nat} (hm : m ≠ 0x307) :
    (s.afterKill q).crGlob 0 m = s.crGlob 0 m := by
  unfold State.afterKill
  extract_lets t busy
  split
  · split
    · rfl
    · split
      · exact State.crGlob_logCmd _ _ _ _ hm
      · exact State.crGlob_logCmd _ _ _ _ hm
  · rfl

theorem State.crGlob_faultMsg (s : State) (c i : Nat) (k : Cause) (v : Nat) (w1 w2 : Word) (d m : Nat) :
    (s.faultMsg c i k v w1 w2).crGlob d m = s.crGlob d m := by
  obtain ⟨_, _, _, _, _, _, h⟩ := DevWrote.faultMsg s c i k v w1 w2
  rw [h]
  rfl

theorem State.wdogAt_wdogKill (hq : q < 64) (hd : s.wdogDue q 2 = true) : (s.wdogKill q).wdogAt q = 2 := by
  unfold State.wdogKill
  rw [if_neg (by rw [hd]; decide)]
  extract_lets u v w
  clear_value w
  refine State.wdogAt_of_step (s := w) (by decide) ?_
  rw [State.crGlob_afterKill _ _ (by omega), State.devReport, State.crGlob_faultMsg]
  rfl

/-! What a fence does (R428). -/

/-- A step of the last limit: a core is fenced, and reported. -/
def State.fenceStep (s : State) (q c : Nat) : State := (s.fence c).devReport .watchdogKill s.dtime (q + 3 * 2 ^ 8)

theorem State.fenced_fenceStep (s : State) (q c d : Nat) (h : c = d ∨ (s.core c).fenced = true) :
    ((s.fenceStep q d).core c).fenced = true := by
  have hf : ((s.fence d).core c).fenced = true := by
    have hcore : (s.fence d).core c = (s.modCore d fun k => { k with fenced := true, left := List.range 32 }).core c := rfl
    rw [hcore]
    by_cases hd : d = c
    · subst hd
      rw [State.core_modCore_same]
    · rw [State.core_modCore_other s _ hd]
      exact h.resolve_left (Ne.symm hd)
  exact ((SameRecs.faultMsg (s.fence d) ..).fenced c).trans hf

theorem State.fenced_fenceAll {c : Nat} {cs : List Nat} (h : c ∈ cs ∨ (s.core c).fenced = true) :
    ((cs.foldl (fun s c => s.fenceStep q c) s).core c).fenced = true := by
  induction cs generalizing s with
  | nil => exact h.resolve_left List.not_mem_nil
  | cons d cs ih =>
    refine ih (h.elim (fun hm => ?_) fun h => .inr (State.fenced_fenceStep s q c d (.inr h)))
    rcases List.mem_cons.mp hm with rfl | hm
    · exact .inr (State.fenced_fenceStep s q c c (.inl rfl))
    · exact .inl hm

theorem mem_keys_of_mfind {α : Type} {m : SMap α} {k : Nat} (h : (mfind m k).isSome = true) : k ∈ m.map (·.1) := by
  by_contra hn
  rw [mfind_eq_none hn] at h
  cases h

end Watchdog

/-- Settles O57, clause by clause. -/
theorem seizureWatchdogEvents : Obligations.SeizureWatchdogEvents := by
  refine ⟨?group, ?takeUp, ?kick, ?preempt, ?kill, ?fence⟩
  case group =>
    intro s g v hg hh hm
    refine ⟨_, congrArg Host.Outcome.next (State.szgrpWrite_takes hg hh hm), ?_, fun c hc => State.left_rejoin fun hl => ?_⟩
    · rw [State.crGlob, State.crs_rejoin]
      exact mget_mset_same ..
    · exact List.mem_filter.mpr ⟨hc, List.contains_iff_mem.mpr hl⟩
  case takeUp =>
    intro s c pos r hp he hw
    obtain ⟨s', ha⟩ := State.asideDone_isSome hw
    obtain ⟨hrun, hpc, hwid⟩ := State.bank_takeUp ((s'.modCore c fun k => { k with szPend := none }).modSeat c 8 fun t =>
      { t with mail := [], mpres := 0, mailClk := [] }) ⟨c, 8, 0⟩ { r with wid := w64 pos } reflexSegs
    refine ⟨_, congrArg Host.Outcome.next (State.seizeTakeUp_runs hp he ha), ?_, hrun, hpc, hwid, ?_⟩
    · rw [State.szPend_takeUp, State.core_modSeat, State.core_modCore_same]
    · rw [State.seat_takeUp, State.seat_modSeat_same]
  case kick =>
    intro s q hq
    refine ⟨_, rfl, ?_, ?_, State.wdogAt_of_step (s := s) (by decide) rfl⟩
    · rw [State.wdogKick, State.slot_modSlot_same]
    · rw [State.wdogKick, State.slot_modSlot_same]
  case preempt =>
    intro s q hq hd
    have hw := DevWrote.foldl (fun s c => DevWrote.preRequest s c 2) ((s.cores.map (·.1)).filter (s.slotHolds q)) s
    have hstep : s.wdogPreempt q =
        (((s.cores.map (·.1)).filter (s.slotHolds q)).foldl (fun s c => s.preRequest c 2) s).wdogTake q 1 := by
      unfold State.wdogPreempt
      rw [if_neg (by rw [hd]; decide)]
    refine ⟨_, congrArg Host.Outcome.next hstep, State.wdogAt_wdogTake _ _ (by decide), ?_⟩
    rw [State.wdogTake, State.slot_modSlot_same]
    obtain ⟨_, _, _, _, _, _, hw⟩ := hw
    rw [hw]
    rfl
  case kill =>
    intro s q c hq hd
    exact ⟨_, rfl, State.wdogAt_wdogKill hq hd, NoRecs.wdogKill hd c⟩
  case fence =>
    intro s q c hq hd hc ho
    have hstep : s.wdogFence q =
        (((s.cores.map (·.1)).filter (s.slotOn q)).foldl (fun s c => s.fenceStep q c) s).wdogTake q 3 := by
      unfold State.wdogFence
      rw [if_neg (by rw [hd]; decide)]
      rfl
    refine ⟨_, congrArg Host.Outcome.next hstep, ?_, State.wdogAt_wdogTake _ _ (by decide)⟩
    exact State.fenced_fenceAll (.inl (List.mem_filter.mpr ⟨mem_keys_of_mfind hc, ho⟩))

end Sys2Proof.Machine

namespace Sys2Proof.Machine
open Sys2Proof.Safety

/-! # A pre-emption of a parked atomic -/

/-- Core 0 pre-empts. Its seat 1 has parked on a page with an atomic that closed the seat's scene, of form 0 and write set 1,
and is to issue again after that commit (R275): no scene is open. -/
def parkedAtomic : State :=
  { State.reset.modCore 0 fun k => { k with preState := 1 } with
    banks := [(4, { Bank.reset 0 with run := .parked, wip := .reissue (some (0, 1)) })] }

/-- Refutes O56: a pre-emption abandons the atomic of a parked seat whose commit is over, and the seat stands in an open
scene again, which is empty; the statement has a scene open after the entry just where one was open before. -/
theorem not_preemptionCurtainEvents : ¬ Obligations.PreemptionCurtainEvents := by
  rintro ⟨⟨-, -, -, hentry, -⟩, -⟩
  obtain ⟨t, hexec, hscene, -⟩ := hentry parkedAtomic 0 1 rfl rfl (by decide +kernel) (by decide +kernel) (by decide)
  obtain rfl : parkedAtomic.preEntry 0 1 = t := Host.Outcome.next.inj hexec
  exact absurd hscene (by decide +kernel)

end Sys2Proof.Machine

namespace Sys2Proof.Machine
open Sys2Proof.Safety

/-! # The stream engine -/

section Stream
variable {s s1 s2 : State} {die k t0 t1 : Nat} {ev : SEvent} {e : ECmd} {bs bs2 : List Byte} {f : SEffect}

theorem bit_toNat (w : Word) (i : Nat) : bit w.toNat i = w.getLsbD i := by
  simp [bit, BitVec.getLsbD, Nat.testBit, Nat.shiftRight_eq_div_pow]

theorem bit_testBit (n i : Nat) : bit n i = n.testBit i := rfl

/-! Arrival (R368). -/

section Arrival
variable {c q : Nat} (hr : Runs s c (64 + q) e) (hw : e.woke = false) (ha : e.aux ≠ .held)
  (hl : s.linkUp = true ∨ q / 4 = Config.dieOf c)
include hr hw ha hl

theorem State.streamArrive_open (hop : e.op = 3) : s.streamArrive c q = s.sxOpen (q / 4) e (64 + q) := by
  obtain ⟨hh, hrun⟩ := hr
  have hlink : ¬ (s.linkUp = false ∧ q / 4 ≠ Config.dieOf c) := by
    rintro ⟨h1, h2⟩
    exact hl.elim (fun h => by rw [h1] at h; cases h) h2
  unfold State.streamArrive
  simp only [hh, hw, hrun, ha, hlink, hop, Bool.false_eq_true, Bool.true_eq_false, or_self, if_false, if_true]

/-- What an event's command hands over. -/
def ECmd.event (e : ECmd) (c key clk : Nat) : SEvent :=
  ⟨e.sa.toNat % 2 ^ 8, e.sa.toNat / 2 ^ 32, e.op, e.sa.getLsbD 9, e.sb, clk, c, key, e.id⟩

theorem State.streamArrive_held (hop : e.op ≠ 3) (hlen : (s.held (q / 4)).length < 64) :
    s.streamArrive c q = State.modHead { s with
      sevents := mset s.sevents (q / 4) (s.held (q / 4) ++ [e.event c (64 + q) s.clk]) } c (64 + q) fun e =>
        { e with started := true, aux := .held } := by
  obtain ⟨hh, hrun⟩ := hr
  have hlink : ¬ (s.linkUp = false ∧ q / 4 ≠ Config.dieOf c) := by
    rintro ⟨h1, h2⟩
    exact hl.elim (fun h => by rw [h1] at h; cases h) h2
  have hev : e.event c (64 + q) s.clk =
      ⟨bits e.sa.toNat 7 0, bits e.sa.toNat 63 32, e.op, bit e.sa.toNat 9, e.sb, s.clk, c, 64 + q, e.id⟩ := by
    have := e.sa.isLt
    unfold ECmd.event
    rw [bit_toNat]
    simp only [bits, Nat.pow_zero, Nat.div_one]
    congr 1
    omega
  unfold State.streamArrive
  simp only [hh, hw, hrun, ha, hlink, hop, Nat.not_le.mpr hlen, Bool.false_eq_true, Bool.true_eq_false, or_self, if_false, hev]

end Arrival

/-! Application (R368, R372). -/

/-- What the notice of an effect leaves to do. -/
def State.sxNotify (s t : State) (e : ECmd) (ev : SEvent) (w : Nat) (notice : Option Nat) : State :=
  match notice with
  | none => t.sxDone ev
  | some i =>
    match t.engWake e ev.queue (w64 w) (w64 i) with
    | some u => if u.wakeOut ev.core ev.queue then u else u.sxDone ev
    | none => s

theorem State.sevents_complete (s : State) (c key : Nat) : (s.complete c key).sevents = s.sevents := by
  unfold State.complete
  split <;> rfl

theorem State.held_sxDone (s : State) (ev : SEvent) (die : Nat) : (s.sxDone ev).held die = s.held die := by
  unfold State.sxDone
  split
  · split
    · exact congrArg (mget · die []) (State.sevents_complete ..)
    · rfl
  · rfl

/-- A command that names no wake sends none. -/
theorem State.engWake_none {w : Nat} (h : w.testBit 63 = false) (e : ECmd) (key : Nat) (v : Word) :
    s.engWake e key (w64 w) v = some s := by
  have hno : bit (w64 w).toNat 63 = false := by
    rw [bit_testBit, w64, BitVec.toNat_ofNat, Nat.testBit_mod_two_pow, h, Bool.and_false]
  unfold State.engWake
  simp [hno]

/-- A notice that wakes nobody leaves memory and the held events. -/
theorem State.sxNotify_keeps {t : State} {w : Nat} {notice : Option Nat} (h : notice = none ∨ w.testBit 63 = false) :
    (s.sxNotify t e ev w notice).mem = t.mem ∧ (s.sxNotify t e ev w notice).held die = t.held die := by
  have hdone : (t.sxDone ev).mem = t.mem ∧ (t.sxDone ev).held die = t.held die :=
    ⟨State.mem_sxDone .., State.held_sxDone ..⟩
  unfold State.sxNotify
  cases notice with
  | none => exact hdone
  | some i =>
    dsimp only
    rw [State.engWake_none (h.resolve_left (by simp))]
    dsimp only
    split
    · exact ⟨rfl, rfl⟩
    · exact hdone

section Apply
variable (hk : (s.held die)[k]? = some ev) (hh : s.headCmd ev.core ev.queue = some e) (hr : s.sxReady die k ev = true)
  (hst : s.engStopped ev.core ev.queue = false)
  (hd : s.dramRead ev.core e.id e.pts (keysFrom (s.sxKey die ev.stream 0) 128) = (s1, .ok bs t0))
include hk hh hr hst hd

/-- An event of a stream that is not open, or that has no effect, is dropped. -/
theorem State.streamApply_drops (h : (s.sxDword die ev.stream 24).testBit 2 = false ∨ s.sxEffect die ev = none) :
    s.streamApply die k = ((sevDrop s1 die k).sxCount die 0x106).sxDone ev := by
  have hno : (!s.sxReady die k ev || s.engStopped ev.core ev.queue) = false := by rw [hr, hst]; rfl
  unfold State.streamApply
  simp only [hk, hh, hno, hd, bit_testBit, Bool.false_eq_true, if_false]
  rcases h with h | h
  · simp only [h, Bool.not_false, if_true]
    rfl
  · simp only [h]
    split <;> rfl

omit hk hh hr hst hd in
theorem State.sevents_engWrite (s : State) (c lo : Nat) (cells : List Host.Cell) :
    (s.engWrite c lo cells).1.sevents = s.sevents := by
  have hfold : ∀ {α : Type} {f : State → α → State}, (∀ s a, (f s a).sevents = s.sevents) → ∀ (l : List α) (s : State),
      (l.foldl f s).sevents = s.sevents := by
    intro α f hf l
    induction l with
    | nil => exact fun _ => rfl
    | cons a l ih => exact fun s => (ih _).trans (hf s a)
  have hpoke : ∀ t : State, (t.poke c cells).sevents = t.sevents := by
    intro t
    obtain ⟨_, _, _, _, _, _, h⟩ := DevWrote.poke t c cells
    rw [h]
  have hl2 : ∀ (s : State) (l : Nat), (s.l2Access c l).sevents = s.sevents := by
    intro s l
    unfold State.l2Access
    split <;> rfl
  unfold State.engWrite
  extract_lets ls ts t u
  have ht : t.sevents = s.sevents := hfold (f := fun s l => { s.l2Access c l with lines := mset s.lines l (ts, ts) }) (fun s l => hl2 s l) ls s
  have hu : u.sevents = t.sevents := by
    simp only [u]
    split
    · exact hfold (f := fun s w => { s with mem := memWrites s.mem _ }) (fun _ _ => rfl) _ _
    · rfl
  exact (hpoke u).trans (hu.trans ht)

omit hk hh hr hst hd in
/-- An engine's write of bytes of which none lies outside, when no sector is uncorrectable. -/
theorem State.mem_engWrite_inside {cells : List Host.Cell} (hu : s.ue = []) (hx : ∀ x ∈ cells, isExt x.1 = false) (c lo : Nat) :
    (s.engWrite c lo cells).1.mem = memWrites s.mem cells := by
  have h := State.mem_engWrite_plain (c := c) (ks := cells.map (·.1)) (bs := cells.map (·.2)) hu (fun k hk => by
    obtain ⟨x, hx', rfl⟩ := List.mem_map.mp hk
    exact hx x hx') lo
  rwa [← List.zip_of_prod (xs := cells) rfl rfl] at h

/-- An effect, written and counted. -/
def State.sxApplied (s2 : State) (die k : Nat) (ev : SEvent) (e : ECmd) (f : SEffect) (late : Bool) (cells : List Host.Cell)
    (t1 : Nat) : State × Nat :=
  let w := (sevDrop s2 die k).sxWrite ev.core t1 cells
  let u := f.counts.foldl (fun s n => s.sxCount die n) (if late then w.1.sxCount die 0x103 else w.1)
  let v := (u.sxEnergy die e).modHead ev.core ev.queue fun e => { e with ts := max e.ts w.2, woke := f.notice.isSome }
  ({ v with fctr := v.fctr + 1 }, w.2)

omit hk hh hr hst hd in
theorem State.mem_sxApplied {late : Bool} {cells : List Host.Cell} (hu : s2.ue = [])
    (hx : ∀ x ∈ s2.redirected cells, isExt x.1 = false) :
    (s2.sxApplied die k ev e f late cells t1).1.mem = memWrites s2.mem (s2.redirected cells) := by
  have hcounts : ∀ (l : List Nat) (s : State), (l.foldl (fun s n => s.sxCount die n) s).mem = s.mem := by
    intro l
    induction l with
    | nil => exact fun _ => rfl
    | cons n l ih => exact fun s => (ih _).trans (State.mem_sxCount ..)
  have hw : ((sevDrop s2 die k).sxWrite ev.core t1 cells).1.mem = memWrites s2.mem (s2.redirected cells) :=
    State.mem_engWrite_inside (s := sevDrop s2 die k) hu hx _ _
  simp only [State.sxApplied, State.mem_modHead, State.mem_sxEnergy, hcounts, ← hw]
  split <;> simp only [State.mem_sxCount]

omit hk hh hr hst hd in
theorem State.held_sxApplied {late : Bool} {cells : List Host.Cell} :
    (s2.sxApplied die k ev e f late cells t1).1.held die = dropAt (s2.held die) k := by
  have hcounts : ∀ (l : List Nat) (s : State), (l.foldl (fun s n => s.sxCount die n) s).sevents = s.sevents := by
    intro l
    induction l with
    | nil => exact fun _ => rfl
    | cons n l ih => exact fun s => (ih _).trans rfl
  have henergy : ∀ s : State, (s.sxEnergy die e).sevents = s.sevents := by
    intro s
    unfold State.sxEnergy State.chargeStep
    dsimp only
    split <;> rfl
  have hw : ((sevDrop s2 die k).sxWrite ev.core t1 cells).1.sevents = (sevDrop s2 die k).sevents :=
    State.sevents_engWrite ..
  have hlate : ∀ w : State, (if late then w.sxCount die 0x103 else w).sevents = w.sevents := by
    intro w
    split <;> rfl
  have h : (s2.sxApplied die k ev e f late cells t1).1.sevents = (sevDrop s2 die k).sevents := by
    simp only [State.sxApplied, State.modHead, State.sevents_modQueue, henergy, hcounts, hlate, hw]
  unfold State.held
  rw [h]
  exact mget_mset_same ..

/-- The bytes that an event changes: those of its effect, and its marks in the record. -/
def State.sxCells (s : State) (die : Nat) (ev : SEvent) (f : SEffect) : List Host.Cell :=
  f.cells ++ cellsAt (s.sxKey die ev.stream 20) (leBytes 4 ev.stamp) ++
    cellsAt (s.sxKey die ev.stream 24) (leBytes 1 (s.sxDword die ev.stream 24 % 256 / 4 * 4 + ev.cls))

/-- The event comes after a later one of its stream. -/
def State.sxLate (s : State) (die : Nat) (ev : SEvent) : Bool :=
  decide (ev.stamp < s.sxDword die ev.stream 16 / 2 ^ 32) ||
    (ev.stamp == s.sxDword die ev.stream 16 / 2 ^ 32 && decide (ev.cls < s.sxDword die ev.stream 24 % 4))

/-- An effect is written and counted, and its notice goes out. -/
theorem State.streamApply_writes (hopen : (s.sxDword die ev.stream 24).testBit 2 = true) (hf : s.sxEffect die ev = some f)
    (hb : s.sxBlocked ev.core e.id (s.sxCells die ev f) = none) (hd2 : s1.dramRead ev.core e.id t0 f.reads = (s2, .ok bs2 t1)) :
    s.streamApply die k = s.sxNotify (s2.sxApplied die k ev e f (s.sxLate die ev) (s.sxCells die ev f) t1).1
      { e with ts := max e.ts (s2.sxApplied die k ev e f (s.sxLate die ev) (s.sxCells die ev f) t1).2 } ev
      (s.sxDword die ev.stream 32) f.notice := by
  have hno : (!s.sxReady die k ev || s.engStopped ev.core ev.queue) = false := by rw [hr, hst]; rfl
  unfold State.sxCells at hb
  unfold State.streamApply
  simp only [hk, hh, hno, hd, bit_testBit, Bool.false_eq_true, if_false, hopen, Bool.not_true, hf, hb, hd2]
  unfold State.sxNotify State.sxApplied State.sxLate State.sxCells
  rfl

end Apply

/-! Frames (R369-R371). -/

/-- A notice's record, and the tail after it. -/
theorem State.sxNotice_eq (s : State) (die st kind cause stamp : Nat) (v : Word) (p dropped snap : Nat) :
    s.sxNotice die st kind cause stamp v p dropped snap =
      (cellsAt (s.sxDword die st 40 / 2 ^ 6 % 2 ^ 42 * 64 + 32 * (s.sxDword die st 48 % 2 ^ (s.sxDword die st 40 % 32)))
        (leBytes 8 (kind + cause * 16 + stamp * 2 ^ 32) ++ leBytes 8 v.toNat ++ leBytes 8 p ++
          leBytes 8 (dropped + snap * 2 ^ 32)) ++ cellsAt (s.sxKey die st 48) (leBytes 8 (s.sxDword die st 48 + 1)),
        s.sxDword die st 48) := by
  simp only [State.sxNotice, State.sxPut, bits, Nat.pow_zero, Nat.div_one]
  rfl

section Frame
variable (hc : ev.cls = 0)
include hc

/-- A frame that comes late only posts its notice. -/
theorem State.sxEffect_late (h : ev.stamp < s.sxDword die ev.stream 16 % 2 ^ 32) :
    s.sxEffect die ev = some ⟨(s.sxNotice die ev.stream 3 Cause.lateFrame.num ev.stamp ev.val (s.sxDword die ev.stream 8) 0 0).1, [],
      [0x104], some (s.sxDword die ev.stream 48)⟩ := by
  unfold State.sxEffect
  simp only [hc, if_pos h]
  rfl

variable (h : s.sxDword die ev.stream 16 % 2 ^ 32 ≤ ev.stamp)
include h

/-- So does one that truncates nothing. -/
theorem State.sxEffect_frame (ht : ev.trunc = false) :
    s.sxEffect die ev = some ⟨(s.sxNotice die ev.stream 1 0 ev.stamp ev.val (s.sxDword die ev.stream 8) 0 0).1, [], [],
      some (s.sxDword die ev.stream 48)⟩ := by
  unfold State.sxEffect
  simp only [hc, if_neg (Nat.not_lt.mpr h), ht, Bool.not_false, if_true]
  rfl

theorem State.sxEffect_trunc (ht : ev.trunc = true) :
    s.sxEffect die ev = some (s.sxTrunc die ev.stream ev.stamp ev.val) := by
  unfold State.sxEffect
  simp only [hc, if_neg (Nat.not_lt.mpr h), ht, Bool.not_true, Bool.false_eq_true, if_false]

end Frame

/-- A truncation ends with the generated count set back and its notice. -/
theorem State.sxTrunc_shape (s : State) (die st stamp : Nat) (v : Word) :
    (s.sxTrunc die st stamp v).counts = [0x105] ∧ (s.sxTrunc die st stamp v).notice = some (s.sxDword die st 48) ∧
      ∃ snap cells, (s.sxTrunc die st stamp v).cells = cells ++ cellsAt (s.sxKey die st 0) (leBytes 8 (s.sxDword die st 8)) ++
        (s.sxNotice die st 2 0 stamp v (s.sxDword die st 8) ((s.sxDword die st 0 - s.sxDword die st 8) % 2 ^ 32) snap).1 :=
  ⟨rfl, rfl, _, _, rfl⟩

end Stream

/-! # The Caddy -/

section Caddy

/-! What the steps of a mailbox leave. -/

section Frames
variable (s : State) (die mb : Nat) (g : Mailbox → Mailbox)

@[simp] theorem State.box_modBox : (s.modBox die mb g).box die mb = g (s.box die mb) := mget_mset_same ..

@[simp] theorem State.queue_modBox (c key : Nat) : (s.modBox die mb g).queue c key = s.queue c key := rfl

@[simp] theorem State.queue_caddyCount (n c key : Nat) : (s.caddyCount die n).queue c key = s.queue c key := rfl

@[simp] theorem State.queue_caddyFlip (c key : Nat) : (s.caddyFlip die mb).queue c key = s.queue c key := by
  unfold State.caddyFlip
  dsimp only
  split
  · rfl
  · split <;> rfl

@[simp] theorem State.boxes_caddyCount (n : Nat) : (s.caddyCount die n).boxes = s.boxes := rfl

@[simp] theorem State.boxes_modHead (c key : Nat) (f : ECmd → ECmd) : (s.modHead c key f).boxes = s.boxes := rfl

theorem State.boxes_caddyDone (c key : Nat) (e : ECmd) : (s.caddyDone c key die e).boxes = s.boxes := by
  have hcomplete : ∀ t : State, (t.complete c key).boxes = t.boxes := by
    intro t
    unfold State.complete
    split <;> rfl
  have hcharge : ∀ n, (s.chargeStep e n).boxes = s.boxes := by
    intro n
    unfold State.chargeStep
    dsimp only
    split <;> rfl
  unfold State.caddyDone
  rw [hcomplete, hcharge]

@[simp] theorem State.box_caddyDone (d m c key : Nat) (e : ECmd) : (s.caddyDone c key die e).box d m = s.box d m := by
  unfold State.box
  rw [State.boxes_caddyDone]

end Frames

/-! A flip (R330). -/

section Flip
variable {s : State} {die mb : Nat}

/-- The staging buffer that a flip chooses. -/
def State.freeBuffer (s : State) (m : Mailbox) : Option Nat := (List.range 5).find? fun b => b != m.stg && !s.boxHeld m b

theorem State.caddyFlip_stays (h : (s.box die mb).stage ≠ 3 ∨ s.clk < (s.box die mb).flipClk) : s.caddyFlip die mb = s := by
  unfold State.caddyFlip
  exact if_pos h

/-- A mailbox after a flip to staging buffer `b`. -/
def Mailbox.flipped (m : Mailbox) (clk b : Nat) : Mailbox :=
  { m with cur := m.stg, version := (m.version + 1) % 2 ^ 32, stamp := m.sstamp, vlen := m.svlen, pts := m.spts, stg := b
           stage := 0, owner := none, flipClk := clk + 16, was := m.current, windows := m.windows.filter fun w => clk ≤ w.2 }

theorem State.box_caddyFlip {b : Nat} (h : (s.box die mb).stage = 3) (hc : (s.box die mb).flipClk ≤ s.clk)
    (hb : s.freeBuffer (s.box die mb) = some b) : (s.caddyFlip die mb).box die mb = (s.box die mb).flipped s.clk b := by
  have hno : ¬ ((s.box die mb).stage ≠ 3 ∨ s.clk < (s.box die mb).flipClk) := by omega
  unfold State.freeBuffer at hb
  unfold State.caddyFlip
  simp only [if_neg hno, hb]
  exact mget_mset_same ..

end Flip

/-! A command far from its mailbox waits (log 75). -/

section Far
variable {s : State} {c q : Nat} {e : ECmd} (hr : Runs s c (80 + q) e) (hf : s.boxFar c e = true)
include hr hf

theorem State.cpostStep_far : s.cpostStep c q = s := by
  unfold State.cpostStep
  simp only [hr.1, hf, or_true, if_true]

theorem State.cpublApply_far : s.cpublApply c q = s := by
  unfold State.cpublApply
  simp only [hr.1, hf, or_true, if_true]

theorem State.creadStep_far : s.creadStep c q = s := by
  unfold State.creadStep
  simp only [hr.1, hf, or_true, if_true]

end Far

/-! Posts (R329). -/

section Post
variable {s s1 : State} {c q : Nat} {e : ECmd}

section Start
variable (hr : Runs s c (80 + q) e) (hf : s.boxFar c e = false) (hop : e.op = 0) (ha : e.aux = .none)
include hr hf hop ha

theorem State.cpostStep_starts : s.cpostStep c q = s.cpostStart c (80 + q) e := by
  obtain ⟨hh, hrun⟩ := hr
  unfold State.cpostStep
  simp only [hh, hop, hrun, hf, ha, ne_eq, not_true, Bool.true_eq_false, Bool.false_eq_true, or_self, if_false]

end Start

theorem State.cpostStart_drops (c key : Nat) {m : Mailbox} (hm : m = s.box (boxDie e.sa) (boxIdx e.sa))
    (h : m.valid = false ∨ m.admits c = false) :
    s.cpostStart c key e = (s.caddyCount (boxDie e.sa) 0x10b).caddyDone c key (boxDie e.sa) e := by
  subst hm
  have hd : (!(s.box (boxDie e.sa) (boxIdx e.sa)).valid || !(s.box (boxDie e.sa) (boxIdx e.sa)).admits c) = true := by
    rcases h with h | h <;> simp [h]
  unfold State.cpostStart
  simp only [hd, if_true]

/-- The state in which a post claims its staging buffer: a buffer that is replaced is counted. -/
def State.cpostFound (s : State) (die mb : Nat) : State :=
  if 2 ≤ ((s.caddyFlip die mb).box die mb).stage then (s.caddyFlip die mb).caddyCount die 0x109 else s.caddyFlip die mb

/-- The state once the claim stands. -/
def State.cpostClaimed (s : State) (die mb c key : Nat) : State :=
  (s.cpostFound die mb).modBox die mb fun m => { m with stage := 1, owner := some (c, key), gen := m.gen + 1 }

theorem State.supersede_of_stage {die mb : Nat} (h : (s.box die mb).stage ≠ 1) : s.supersede die mb = s := by
  unfold State.supersede
  dsimp only
  split
  · contradiction
  · rfl

theorem State.cpostStart_claims (c key : Nat) (hv : (s.box (boxDie e.sa) (boxIdx e.sa)).valid = true)
    (hadm : (s.box (boxDie e.sa) (boxIdx e.sa)).admits c = true)
    (hst : ((s.caddyFlip (boxDie e.sa) (boxIdx e.sa)).box (boxDie e.sa) (boxIdx e.sa)).stage ≠ 1) :
    let t := s.cpostClaimed (boxDie e.sa) (boxIdx e.sa) c key
    s.cpostStart c key e = t.modHead c key fun o =>
      { o with started := true, aux := .cpost 0 (t.box (boxDie e.sa) (boxIdx e.sa)).gen } := by
  unfold State.cpostStart
  simp only [hv, hadm, Bool.not_true, Bool.or_self, Bool.false_eq_true, if_false, State.supersede_of_stage hst, State.cpostFound,
    State.cpostClaimed]

/-- What stands in a claimed mailbox, and what the counters say. -/
theorem State.box_cpostFound (s : State) (die mb : Nat) : (s.cpostFound die mb).box die mb = (s.caddyFlip die mb).box die mb := by
  unfold State.cpostFound
  split <;> rfl

theorem State.eregUnit_cpostFound {die mb : Nat} (h : 2 ≤ ((s.caddyFlip die mb).box die mb).stage) :
    (s.cpostFound die mb).eregUnit (unitDie die) 5 0x109 = (s.caddyFlip die mb).eregUnit (unitDie die) 5 0x109 + 1 := by
  unfold State.cpostFound
  rw [if_pos h]
  exact mget_mset_same ..

theorem State.queue_cpostFound (s : State) (die mb c key : Nat) : (s.cpostFound die mb).queue c key = s.queue c key := by
  unfold State.cpostFound
  split <;> simp

theorem State.queue_cpostClaimed (s : State) (die mb d key' c key : Nat) :
    (s.cpostClaimed die mb d key').queue c key = s.queue c key :=
  (State.queue_modBox ..).trans (State.queue_cpostFound ..)

theorem State.box_cpostClaimed (s : State) (die mb c key : Nat) : (s.cpostClaimed die mb c key).box die mb =
    { (s.caddyFlip die mb).box die mb with
      stage := 1, owner := some (c, key), gen := ((s.caddyFlip die mb).box die mb).gen + 1 } := by
  rw [State.cpostClaimed, State.box_modBox, State.box_cpostFound]

theorem State.eregUnit_cpostClaimed {die mb : Nat} (c key key' : Nat) (f : ECmd → ECmd)
    (h : 2 ≤ ((s.caddyFlip die mb).box die mb).stage) :
    ((s.cpostClaimed die mb c key).modHead c key' f).eregUnit (unitDie die) 5 0x109 =
      (s.caddyFlip die mb).eregUnit (unitDie die) 5 0x109 + 1 := by
  rw [← State.eregUnit_cpostFound h]
  rfl

/-- An engine's read on chip leaves the uncorrectable sectors. -/
theorem State.ue_engRead_onChip (s : State) (c lo : Nat) {ks : List Nat} (h : OnChip ks) : (s.engRead c lo ks).1.ue = s.ue := by
  unfold State.engRead
  rw [h.any_isExt]
  have hf : ∀ (l : List Nat) (a : State × Nat), (l.foldl (fun (a : State × Nat) l =>
      let (wts, rts) := a.1.lts l
      let t := max a.2 wts
      ({ a.1.l2Access c l with lines := mset a.1.lines l (wts, max rts (t + a.1.lease c)) }, t)) a).1.ue = a.1.ue := by
    intro l
    induction l with
    | nil => exact fun _ => rfl
    | cons x l ih => exact fun a => (ih _).trans (State.ue_l2Access a.1 c x)
  exact hf _ _

/-- A step puts the bytes that it has read into staging, and after the last of them zeros. -/
theorem State.mem_cpostStep {done gen : Nat} {ks : List Nat} (hr : Runs s c (80 + q) e) (hf : s.boxFar c e = false) (hop : e.op = 0)
    (ha : e.aux = .cpost done gen) (hfl : s.flipped (s.box (boxDie e.sa) (boxIdx e.sa)) = false)
    (hs : s.spaceKeys e .own (e.sb.toNat + done)
      (min 256 (min (boxLen e.sa) (s.box (boxDie e.sa) (boxIdx e.sa)).bytes - done)) false false = (s1, .ok ks))
    (hb : s1.badSec ks = none) (hu : s1.ue = []) :
    let m := s.box (boxDie e.sa) (boxIdx e.sa)
    let count := min (boxLen e.sa) m.bytes
    (s.cpostStep c q).mem = memWrites s1.mem (cellsAt (m.key (boxDie e.sa) m.stg done) (memReads s1.mem ks ++
      if count ≤ done + min 256 (count - done) then List.replicate (m.bytes - count) 0 else [])) := by
  intro m count
  obtain ⟨hh, hrun⟩ := hr
  obtain ⟨-, hon⟩ := State.spaceKeys_own hs
  unfold State.cpostStep
  simp only [hh, hop, hrun, hf, ha, hfl, hs, hb, ne_eq, not_true, Bool.true_eq_false, Bool.false_eq_true, or_self, if_false,
    Option.isSome_none, apply_ite State.mem, State.mem_cpostEnd, State.mem_modHead, ite_self]
  rw [State.poke_mem _ _ _ ((State.ue_engRead_onChip s1 c _ hon).trans hu), State.mem_engRead_onChip s1 c _ hon,
    State.bytes_engRead_onChip s1 c _ hon]

/-! The end of a post (R329, R330). -/

section End
variable {die mb key count : Nat}

/-- What a post leaves in its mailbox when all of it is staged. -/
def State.cpostStaged (s : State) (die mb : Nat) (e : ECmd) (count : Nat) : State :=
  s.modBox die mb fun m => { m with
    stage := if bit e.sa.toNat 31 then 3 else 2, owner := none, svlen := count
    sstamp := if bit e.sa.toNat 31 then w64 s.dtime else m.sstamp, spts := e.pts }

theorem State.cpostEnd_eq (s : State) (c : Nat) :
    s.cpostEnd c key die mb e count = ((s.cpostStaged die mb e count).caddyFlip die mb).caddyDone c key die e := rfl

/-- One that is not published, or cannot flip yet, stays in staging. -/
theorem State.box_cpostEnd_stays (s : State) (c : Nat) (h : e.sa.getLsbD 31 = false ∨ s.clk < (s.box die mb).flipClk) :
    (s.cpostEnd c key die mb e count).box die mb = (s.cpostStaged die mb e count).box die mb := by
  rw [State.cpostEnd_eq, State.box_caddyDone, State.caddyFlip_stays]
  rw [State.cpostStaged, State.box_modBox, bit_toNat]
  rcases h with h | h
  · simp only [h, Bool.false_eq_true, if_false]
    exact .inl (by decide)
  · exact .inr h

/-- A published one becomes the current version once it may flip. -/
theorem State.box_cpostEnd_flips (s : State) (c : Nat) {b : Nat} (h : e.sa.getLsbD 31 = true) (hc : (s.box die mb).flipClk ≤ s.clk)
    (hb : s.freeBuffer (s.box die mb) = some b) :
    (s.cpostEnd c key die mb e count).box die mb = ((s.cpostStaged die mb e count).box die mb).flipped s.clk b := by
  rw [State.cpostEnd_eq, State.box_caddyDone]
  have hbox : (s.cpostStaged die mb e count).box die mb = { s.box die mb with
      stage := 3, owner := none, svlen := count, sstamp := w64 s.dtime, spts := e.pts } := by
    rw [State.cpostStaged, State.box_modBox, bit_toNat, h]
    rfl
  refine State.box_caddyFlip ?_ ?_ ?_
  · rw [hbox]
  · rw [hbox]
    exact hc
  · rw [hbox]
    exact hb

end End

end Post

/-! Publications (R329). -/

section Publish
variable {s : State} {c q : Nat} {e : ECmd} (hr : Runs s c (80 + q) e) (hf : s.boxFar c e = false) (hop : e.op = 1)
include hr hf hop

theorem State.cpublApply_drops (h : (s.box (boxDie e.sa) (boxIdx e.sa)).valid = false ∨ (s.box (boxDie e.sa) (boxIdx e.sa)).admits c = false) :
    s.cpublApply c q = (s.caddyCount (boxDie e.sa) 0x10b).caddyDone c (80 + q) (boxDie e.sa) e := by
  obtain ⟨hh, hrun⟩ := hr
  have hd : (!(s.box (boxDie e.sa) (boxIdx e.sa)).valid || !(s.box (boxDie e.sa) (boxIdx e.sa)).admits c) = true := by
    rcases h with h | h <;> simp [h]
  unfold State.cpublApply
  simp only [hh, hop, hrun, hf, hd, ne_eq, not_true, Bool.true_eq_false, Bool.false_eq_true, or_self, if_false, if_true]

variable (hv : (s.box (boxDie e.sa) (boxIdx e.sa)).valid = true) (hadm : (s.box (boxDie e.sa) (boxIdx e.sa)).admits c = true)
include hv hadm

theorem State.cpublApply_unfilled (h : (s.box (boxDie e.sa) (boxIdx e.sa)).stage ≠ 2) :
    s.cpublApply c q = (s.caddyCount (boxDie e.sa) 0x10a).caddyDone c (80 + q) (boxDie e.sa) e := by
  obtain ⟨hh, hrun⟩ := hr
  unfold State.cpublApply
  simp only [hh, hop, hrun, hf, hv, hadm, h, ne_eq, not_true, Bool.true_eq_false, Bool.false_eq_true, Bool.not_true, Bool.or_self,
    or_self, if_false]

/-- A filled buffer is published, and flips when it can. -/
def State.published (s : State) (die mb : Nat) (stamp : Word) : State := s.modBox die mb fun m => { m with stage := 3, sstamp := stamp }

variable (h : (s.box (boxDie e.sa) (boxIdx e.sa)).stage = 2)
include h

theorem State.cpublApply_publishes :
    s.cpublApply c q = ((s.published (boxDie e.sa) (boxIdx e.sa) (if e.sb = 0 then w64 s.dtime else e.sb)).caddyFlip
      (boxDie e.sa) (boxIdx e.sa)).caddyDone c (80 + q) (boxDie e.sa) e := by
  obtain ⟨hh, hrun⟩ := hr
  unfold State.cpublApply
  simp only [hh, hop, hrun, hf, hv, hadm, h, ne_eq, not_true, Bool.true_eq_false, Bool.false_eq_true, Bool.not_true, or_self,
    if_false, if_true]
  rfl

end Publish

theorem State.box_published_stays {s : State} {die mb : Nat} {stamp : Word} (h : s.clk < (s.box die mb).flipClk) :
    ((s.published die mb stamp).caddyFlip die mb).box die mb = { s.box die mb with stage := 3, sstamp := stamp } := by
  rw [State.caddyFlip_stays]
  · exact State.box_modBox ..
  · rw [State.published, State.box_modBox]
    exact .inr h

theorem State.box_published_flips {s : State} {die mb b : Nat} {stamp : Word} (h : (s.box die mb).flipClk ≤ s.clk)
    (hb : s.freeBuffer (s.box die mb) = some b) :
    ((s.published die mb stamp).caddyFlip die mb).box die mb =
      Mailbox.flipped { s.box die mb with stage := 3, sstamp := stamp } s.clk b := by
  have hbox : (s.published die mb stamp).box die mb = { s.box die mb with stage := 3, sstamp := stamp } := State.box_modBox ..
  rw [State.box_caddyFlip (b := b), hbox]
  · rfl
  · rw [hbox]
  · rw [hbox]
    exact h
  · rw [hbox]
    exact hb

/-! Reads (R331). -/

section Read
variable {s s1 : State} {c q : Nat} {e : ECmd} (hr : Runs s c (80 + q) e) (hf : s.boxFar c e = false) (hop : e.op = 2)
include hr hf hop

theorem State.creadStep_starts (ha : e.aux = .none) : s.creadStep c q = s.creadStart c (80 + q) e := by
  obtain ⟨hh, hrun⟩ := hr
  unfold State.creadStep
  simp only [hh, hop, hrun, hf, ha, ne_eq, not_true, Bool.true_eq_false, Bool.false_eq_true, or_self, if_false]

variable {stamp : Word} {version vlen flags : Nat} {bytes : List Byte} {ks : List Nat} (ha : e.aux = .cread stamp version vlen flags bytes)
include ha

/-- The version that was sampled is written behind its header's place. -/
theorem State.mem_creadStep_data (h0 : e.step = 0) (hn : bytes ≠ [])
    (hs : s.spaceKeys e .own (e.sb.toNat + 16) bytes.length true false = (s1, .ok ks)) :
    (s.creadStep c q).mem = memWrites s1.mem (ks.zip bytes) := by
  obtain ⟨hh, hrun⟩ := hr
  obtain ⟨-, hon⟩ := State.spaceKeys_own hs
  unfold State.creadStep
  simp only [hh, hop, hrun, hf, ha, h0, hn, hs, ne_eq, not_true, not_false_iff, and_self, Bool.true_eq_false, or_self, if_false,
    if_true, State.mem_modHead, reduceCtorEq]
  exact State.mem_engWrite_onChip _ _ _ (hon.zip _)

omit hr hf hop ha in
theorem length_caddyHeader : (caddyHeader stamp version vlen flags).length = 16 := by
  simp [caddyHeader, leBytes]

/-- Its header is written last. -/
theorem State.mem_creadStep_header (h0 : e.step ≠ 0 ∨ bytes = []) (hs : s.spaceKeys e .own e.sb.toNat 16 true false = (s1, .ok ks)) :
    (s.creadStep c q).mem = memWrites s1.mem (ks.zip (caddyHeader stamp version vlen flags)) := by
  obtain ⟨hh, hrun⟩ := hr
  obtain ⟨-, hon⟩ := State.spaceKeys_own hs
  have hlast : ¬ (e.step = 0 ∧ bytes ≠ []) := by tauto
  unfold State.creadStep
  simp only [hh, hop, hrun, hf, ha, hlast, length_caddyHeader, hs, not_true, Bool.true_eq_false, or_self, if_false, State.mem_caddyDone,
    State.mem_modHead, ne_eq, reduceCtorEq]
  exact State.mem_engWrite_onChip _ _ _ (hon.zip _)

end Read

/-- A read samples the version that its mailbox holds, ended with zeros. -/
theorem State.creadStart_samples {s : State} (c key : Nat) {e : ECmd} (hv : (s.box (boxDie e.sa) (boxIdx e.sa)).valid = true)
    (hb : s.badSec (keysFrom ((s.box (boxDie e.sa) (boxIdx e.sa)).key (boxDie e.sa) (s.sample (s.box (boxDie e.sa) (boxIdx e.sa))).1 0)
      (min (boxLen e.sa) (s.sample (s.box (boxDie e.sa) (boxIdx e.sa))).2.2.2.1)) = none) :
    let v := s.sample (s.box (boxDie e.sa) (boxIdx e.sa))
    let n := min (boxLen e.sa) v.2.2.2.1
    ∃ t : State, t.queue c key = s.queue c key ∧ s.creadStart c key e = t.modHead c key fun o => { o with
      started := true, ts := max o.ts v.2.2.2.2, aux := .cread v.2.2.1 v.2.1 v.2.2.2.1 0
        (memReads s.mem (keysFrom ((s.box (boxDie e.sa) (boxIdx e.sa)).key (boxDie e.sa) v.1 0) n) ++
          List.replicate (boxLen e.sa - n) 0) } := by
  intro v n
  unfold State.creadStart
  simp only [hv, hb, Bool.not_true, Bool.false_eq_true, if_false]
  refine ⟨_, ?_, rfl⟩
  exact State.queue_modBox ..

/-! Descriptions (R335). -/

section Describe
variable {s : State} {die mb : Nat} {v : Word}

theorem State.cxdescWrite_refused (h : s.boxRefused die mb (v &&& 0x83ff_003f_0000_ffff).toNat = true) :
    s.cxdescWrite die mb v = s.setEregUnit (unitDie die) 5 0x103 (s.eregUnit (unitDie die) 5 0x103 ||| 1) := by
  unfold State.cxdescWrite
  exact if_pos h

/-- A description that is taken leaves its mailbox as at reset. -/
theorem State.box_cxdescWrite (h : s.boxRefused die mb (v &&& 0x83ff_003f_0000_ffff).toNat = false) :
    (s.cxdescWrite die mb v).box die mb = { Mailbox.reset with desc := v &&& 0x83ff_003f_0000_ffff } := by
  have hset : ∀ (t : State) (m : Mailbox), State.box { t with boxes := mset t.boxes (die * 4096 + mb) m } die mb = m :=
    fun _ _ => mget_mset_same ..
  have hpoke : ∀ (t : State) (l : List Host.Cell), (t.poke 0 l).box die mb = t.box die mb := by
    intro t l
    obtain ⟨_, _, _, _, _, _, h⟩ := DevWrote.poke t 0 l
    rw [h]
    rfl
  unfold State.cxdescWrite
  simp only [h, Bool.false_eq_true, if_false]
  split
  · rw [hpoke, hset]
  · rw [hset]

end Describe

end Caddy

/-- Settles O54: an event's steps follow its class, and a command's steps the state of its mailbox. -/
theorem streamCaddyEvents : Obligations.StreamCaddyEvents := by
  unfold Obligations.StreamCaddyEvents
  refine ⟨⟨?_, ?_, ?_, ?_⟩, ?_, ?_, ?_, ?_, ?_, ?_, ?_, ?_⟩
  · intro s c q e hr hw ha hop hl hlen
    refine ⟨_, congrArg Host.Outcome.next (State.streamArrive_held hr hw ha hl hop hlen), mget_mset_same .., ?_⟩
    refine (State.headCmd_modHead ..).trans ?_
    exact congrArg (Option.map _) hr.1
  · intro s c q e hr hw ha hop hl
    exact congrArg Host.Outcome.next (State.streamArrive_open hr hw ha hl hop)
  · intro s s1 die k t0 ev e bs rk info hk hh hrd hst hd
    refine ⟨fun h => congrArg Host.Outcome.next (State.streamApply_drops hk hh hrd hst hd h), ?_⟩
    intro f s2 bs2 t1 hopen hf hn cells hx hb hd2 hu
    obtain ⟨hm, hheld⟩ := State.sxNotify_keeps (s := s) (die := die) (ev := ev)
      (e := { e with ts := max e.ts (s2.sxApplied die k ev e f (s.sxLate die ev) (s.sxCells die ev f) t1).2 })
      (t := (s2.sxApplied die k ev e f (s.sxLate die ev) (s.sxCells die ev f) t1).1) hn
    exact ⟨_, congrArg Host.Outcome.next (State.streamApply_writes hk hh hrd hst hd hopen hf hb hd2),
      hm.trans (State.mem_sxApplied hu hx), hheld.trans State.held_sxApplied⟩
  · intro s die ev hc st g p nb tail notice
    have hnotice : ∀ kind cause dropped snap, (s.sxNotice die st kind cause ev.stamp ev.val p dropped snap).1 =
        notice kind cause dropped snap := fun _ _ _ _ => congrArg Prod.fst (State.sxNotice_eq ..)
    refine ⟨fun h => ?_, fun h => ⟨fun ht => ?_, fun ht => ?_⟩⟩
    · rw [State.sxEffect_late hc h, hnotice]
    · rw [State.sxEffect_frame hc h ht, hnotice]
    · obtain ⟨hcount, hn, snap, cells, hcells⟩ := State.sxTrunc_shape s die st ev.stamp ev.val
      exact ⟨_, snap, cells, State.sxEffect_trunc hc h ht, hcount, hn, by rw [hcells, hnotice]⟩
  · exact fun s c q e hr hf => ⟨fun _ => congrArg Host.Outcome.next (State.cpostStep_far hr hf),
      fun _ => congrArg Host.Outcome.next (State.cpublApply_far hr hf),
      fun _ => congrArg Host.Outcome.next (State.creadStep_far hr hf)⟩
  · intro s c q e hr hf hop ha die mb m s1 m1
    have hstart := State.cpostStep_starts hr hf hop ha
    refine ⟨fun h => congrArg Host.Outcome.next (hstart.trans (State.cpostStart_drops c (80 + q) rfl h)), fun hv hadm hst => ?_⟩
    refine ⟨_, { e with started := true, aux := .cpost 0 ((s.cpostClaimed die mb c (80 + q)).box die mb).gen },
      congrArg Host.Outcome.next (hstart.trans (State.cpostStart_claims c (80 + q) hv hadm hst)), ?_, ?_, ?_, ?_, ?_⟩
    · rw [State.headCmd_modHead, State.headCmd_of_queue (State.queue_cpostClaimed ..), hr.1]
      rfl
    · exact congrArg (EAux.cpost 0 ·.gen) (State.box_cpostClaimed s die mb c (80 + q))
    · exact congrArg Mailbox.stage (State.box_cpostClaimed s die mb c (80 + q))
    · exact congrArg Mailbox.owner (State.box_cpostClaimed s die mb c (80 + q))
    · exact fun h => State.eregUnit_cpostClaimed c (80 + q) (80 + q) _ h
  · intro s s1 c q done gen e ks die m count n hr hf hop ha hfl hs hb hu
    have h := State.mem_cpostStep hr hf hop ha hfl hs hb hu
    refine ⟨_, rfl, fun hlt => h.trans ?_, fun hle => h.trans ?_⟩
    · rw [if_neg (Nat.not_le.mpr hlt), List.append_nil]
    · rw [if_pos hle]
  · intro s c key die mb count e m t free
    constructor
    · intro h
      have ht : t = (s.cpostStaged die mb e count).box die mb := State.box_cpostEnd_stays s c h
      rw [ht, State.cpostStaged, State.box_modBox, bit_toNat]
      exact ⟨rfl, rfl, rfl, rfl⟩
    · intro b h hc hb
      have ht : t = ((s.cpostStaged die mb e count).box die mb).flipped s.clk b := State.box_cpostEnd_flips s c h hc hb
      rw [ht, State.cpostStaged, State.box_modBox, bit_toNat, h]
      exact ⟨rfl, rfl, rfl, rfl, rfl⟩
  · intro s c q e hr hf hop die m stamp
    refine ⟨fun h => congrArg Host.Outcome.next (State.cpublApply_drops hr hf hop h),
      fun hv hadm h => congrArg Host.Outcome.next (State.cpublApply_unfilled hr hf hop hv hadm h), fun hv hadm h => ?_⟩
    have hp := State.cpublApply_publishes hr hf hop hv hadm h
    refine ⟨fun hc => ⟨_, congrArg Host.Outcome.next hp, ?_⟩, fun b hc hb => ⟨_, congrArg Host.Outcome.next hp, ?_⟩⟩
    · rw [State.box_caddyDone, State.box_published_stays hc]
      exact ⟨rfl, rfl⟩
    · rw [State.box_caddyDone, State.box_published_flips hc hb]
      exact ⟨rfl, rfl, rfl⟩
  · intro s die mb b m h hc hb
    refine ⟨_, rfl, ?_⟩
    rw [State.box_caddyFlip h hc hb]
    exact ⟨rfl, rfl, rfl, rfl, rfl, rfl, rfl, rfl, State.mem_caddyFlip ..⟩
  · intro s s1 c q e stamp version vlen flags bytes ks hr hf hop
    refine ⟨fun ha => congrArg Host.Outcome.next (State.creadStep_starts hr hf hop ha), fun ha => ?_,
      fun ha h0 hn hs => ⟨_, rfl, State.mem_creadStep_data hr hf hop ha h0 hn hs⟩,
      fun ha h0 hs => ⟨_, rfl, State.mem_creadStep_header hr hf hop ha h0 hs⟩⟩
    intro m v n src hv hb
    obtain ⟨t, hq, ht⟩ := State.creadStart_samples c (80 + q) hv hb
    exact ⟨_, _, congrArg Host.Outcome.next ((State.creadStep_starts hr hf hop ha).trans ht),
      (State.headCmd_modHead ..).trans (congrArg (Option.map _) ((State.headCmd_of_queue hq).trans hr.1)), rfl⟩
  · intro s die mb v desc
    refine ⟨fun h => ⟨_, congrArg Host.Outcome.next (State.cxdescWrite_refused h), rfl, mget_mset_same ..⟩,
      fun h => ⟨_, rfl, State.box_cxdescWrite h⟩⟩

end Sys2Proof.Machine

namespace Sys2Proof.Machine
open Sys2Proof.Safety

/-! # The matrix engine -/

/-! What leaves the accumulators of every core. -/

section SameAcc
variable {s t : State}

/-- Every core's accumulators hold in `t` what they hold in `s`. -/
def SameAcc (s t : State) : Prop := ∀ c, (t.core c).acc = (s.core c).acc

theorem SameAcc.refl (s : State) : SameAcc s s := fun _ => rfl

theorem SameAcc.trans {u : State} (a : SameAcc s t) (b : SameAcc t u) : SameAcc s u := fun c => (b c).trans (a c)

theorem SameAcc.of_cores (h : t.cores = s.cores) : SameAcc s t := fun c => by
  unfold State.core mget
  rw [h]
  cases mfind s.cores c <;> rfl

theorem SameAcc.modCore (s : State) (d : Nat) {f : Core → Core} (h : ∀ k, (f k).acc = k.acc) : SameAcc s (s.modCore d f) := by
  intro c
  by_cases hd : d = c
  · subst hd
    rw [State.core_modCore_same, h]
  · rw [State.core_modCore_other s f hd]

theorem SameAcc.modHead (s : State) (c key : Nat) (f : ECmd → ECmd) : SameAcc s (s.modHead c key f) :=
  .modCore s c fun _ => rfl

theorem SameAcc.complete (s : State) (c key : Nat) : SameAcc s (s.complete c key) := by
  unfold State.complete
  split
  · exact SameAcc.trans (.modCore s c (f := fun k => { k with queues := mmod k.queues key [] List.tail }) fun _ => rfl)
      (.modCore _ c fun _ => rfl)
  · exact .refl s

theorem SameAcc.matCount (s : State) (e : ECmd) (clk energy : Nat) (skip : Bool) : SameAcc s (s.matCount e clk energy skip) := by
  have hcount : ∀ (t : State) (n k : Nat), SameAcc t (t.engCount e.core 0 n k) := fun t n k => .modCore t e.core fun _ => rfl
  have hcharge : ∀ t : State, SameAcc t (t.chargeStep e energy) := fun t c => by rw [State.core_chargeStep]
  unfold State.matCount
  dsimp only
  split
  · exact (((hcount _ _ _).trans (hcount _ _ _)).trans (hcount _ _ _)).trans (hcharge _)
  · exact ((hcount _ _ _).trans (hcount _ _ _)).trans (hcharge _)

theorem State.cores_l2Access (s : State) (c l : Nat) : (s.l2Access c l).cores = s.cores := by
  unfold State.l2Access
  split <;> rfl

theorem State.cores_engRead (s : State) (c lo : Nat) (ks : List Nat) : (s.engRead c lo ks).1.cores = s.cores := by
  have hflush : ∀ (l : List ExtWrite) (s : State), (l.foldl (fun (s : State) w =>
      { s with mem := memWrites s.mem ((List.range w.bytes.length).map fun i => (w.addr + i, w.bytes.getD i 0)) }) s).cores = s.cores := by
    intro l
    induction l with
    | nil => exact fun _ => rfl
    | cons w l ih => exact fun s => ih _
  have hline : ∀ (l : List Nat) (a : State × Nat), (l.foldl (fun (a : State × Nat) l =>
      let (wts, rts) := a.1.lts l
      let t := max a.2 wts
      ({ a.1.l2Access c l with lines := mset a.1.lines l (wts, max rts (t + a.1.lease c)) }, t)) a).1.cores = a.1.cores := by
    intro l
    induction l with
    | nil => exact fun _ => rfl
    | cons x l ih => exact fun a => (ih _).trans (State.cores_l2Access a.1 c x)
  unfold State.engRead
  refine (hline _ _).trans ?_
  split
  · exact hflush _ _
  · rfl

end SameAcc

/-! Accumulators (R301, R306). -/

section Accumulators
variable {s : State} {c : Nat}

/-- A map without the entries of some keys. -/
theorem mget_filter_key {α : Type} (p : Nat → Bool) (m : SMap α) (k : Nat) (d : α) :
    mget (m.filter fun x => p x.1) k d = if p k then mget m k d else d := by
  unfold mget
  induction m with
  | nil => simp [mfind]
  | cons x t ih =>
    obtain ⟨j, v⟩ := x
    by_cases hp : p j
    · rw [List.filter_cons_of_pos (by simpa using hp)]
      by_cases hj : j = k
      · subst hj
        simp [mfind, hp]
      · simpa [mfind, hj] using ih
    · rw [List.filter_cons_of_neg (by simpa using hp), ih]
      by_cases hj : j = k
      · subst hj
        simp [hp]
      · simp [mfind, hj]

/-- Accumulators that are zeroed hold 0. -/
theorem State.acc_accZero (s : State) (c : Nat) (ts : List Nat) (i : Nat) :
    mget ((s.accZero c ts).core c).acc i 0 = if i / 1024 ∈ ts then 0 else mget (s.core c).acc i 0 := by
  unfold State.accZero
  rw [State.core_modCore_same]
  refine (mget_filter_key (fun j => !ts.contains (j / 1024)) ..).trans ?_
  by_cases h : i / 1024 ∈ ts <;> simp [h]

/-- An element takes the product of a row and a column. -/
def State.accMul (s : State) (c t : Nat) (av bv : List FV) (x : Nat × Nat) : State :=
  s.modCore c fun q => { q with
    acc := mset q.acc (t * 1024 + x.1 * 32 + x.2)
      (dot32 (s.accGet c t x.1 x.2) (((av.drop (32 * x.1)).take 32).zip ((bv.drop (32 * x.2)).take 32))) }

theorem State.accGet_accMul (t : Nat) (av bv : List FV) {x : Nat × Nat} {r k : Nat} (hx : x.2 < 32) (hk : k < 32) :
    (s.accMul c t av bv x).accGet c t r k = if x = (r, k) then
      dot32 (s.accGet c t r k) (((av.drop (32 * r)).take 32).zip ((bv.drop (32 * k)).take 32)) else s.accGet c t r k := by
  obtain ⟨a, b⟩ := x
  unfold State.accMul
  rw [State.accGet, State.core_modCore_same]
  split
  next h =>
    cases h
    exact mget_mset_same ..
  next h =>
    refine mget_mset_other _ _ _ fun he => h ?_
    have hb : b < 32 := hx
    have : a = r ∧ b = k := by
      dsimp only at he
      omega
    rw [this.1, this.2]

/-- Different elements take their products independently. -/
theorem State.accGet_foldl_accMul (t : Nat) (av bv : List FV) {l : List (Nat × Nat)} (hl : l.Nodup) (hb : ∀ x ∈ l, x.2 < 32) {r k : Nat}
    (hk : k < 32) : (l.foldl (fun s x => s.accMul c t av bv x) s).accGet c t r k = if (r, k) ∈ l then
      dot32 (s.accGet c t r k) (((av.drop (32 * r)).take 32).zip ((bv.drop (32 * k)).take 32)) else s.accGet c t r k := by
  induction l generalizing s with
  | nil => simp
  | cons x l ih =>
    obtain ⟨hx, hl⟩ := List.nodup_cons.mp hl
    have hx2 : x.2 < 32 := hb x (List.mem_cons_self ..)
    rw [List.foldl_cons, ih hl fun y hy => hb y (List.mem_cons_of_mem _ hy), State.accGet_accMul t av bv hx2 hk]
    by_cases he : x = (r, k)
    · subst he
      simp [hx]
    · simp [he, Ne.symm he]

/-- The elements of a step: those of some rows. -/
def State.accMulRows (s : State) (c t : Nat) (av bv : List FV) (rows : List Nat) : State :=
  (rows ×ˢ List.range 32).foldl (fun s x => s.accMul c t av bv x) s

theorem State.accMulRows_eq (s : State) (c t : Nat) (av bv : List FV) (rows : List Nat) :
    s.accMulRows c t av bv rows = rows.foldl (fun s r => (List.range 32).foldl (fun s k => s.accMul c t av bv (r, k)) s) s := by
  have h : ∀ (l : List Nat) (s : State), (l ×ˢ List.range 32).foldl (fun s x => s.accMul c t av bv x) s =
      l.foldl (fun s r => (List.range 32).foldl (fun s k => s.accMul c t av bv (r, k)) s) s := by
    intro l
    induction l with
    | nil => exact fun _ => rfl
    | cons r l ih =>
      intro s
      rw [List.product_cons, List.foldl_append, List.foldl_map, ih, List.foldl_cons]
  exact h rows s

theorem State.accGet_accMulRows (t : Nat) (av bv : List FV) {rows : List Nat} (hn : rows.Nodup) {r k : Nat} (hk : k < 32) :
    (s.accMulRows c t av bv rows).accGet c t r k = if r ∈ rows then
      dot32 (s.accGet c t r k) (((av.drop (32 * r)).take 32).zip ((bv.drop (32 * k)).take 32)) else s.accGet c t r k := by
  unfold State.accMulRows
  rw [State.accGet_foldl_accMul t av bv (hn.product List.nodup_range) (fun x hx => ?_) hk]
  · simp [List.mem_product, hk]
  · exact List.mem_range.mp (List.mem_product.mp hx).2

end Accumulators

/-! A step of an mma (R300, R301). -/

section Step
variable (s : State) (c key : Nat) (e : ECmd) (ba bb : Block)

/-- The number of a step of an mma among the blocks. -/
def ECmd.blockStep (e : ECmd) (c : Nat) : Nat := if Config.isX c then e.step / 4 else e.step

/-- The accumulator of a step. -/
def ECmd.stepAcc (e : ECmd) (c : Nat) : Nat :=
  e.geom.acc + e.blockStep c / e.geom.nt % e.geom.mt * e.geom.nt + e.blockStep c % e.geom.nt

/-- The blocks of a step have been read. -/
def State.mmaRead (ba bb : Block) : State :=
  ((s.engRead c e.pts (ba.keys ++ ba.scl)).1.engRead c e.pts (bb.keys ++ bb.scl)).1

/-- The first step of a command that zeroes does so. -/
def State.mmaOpen : State :=
  if e.step = 0 ∧ e.geom.zero = true then
    s.accZero c ((List.range (e.geom.mt * e.geom.nt)).map (e.geom.acc + ·)) else s

/-- The rows of a step: an X-tile does a quarter of them. -/
def ECmd.stepRows (e : ECmd) (c : Nat) : List Nat :=
  if Config.isX c then (List.range 8).map (8 * (e.step % 4) + ·) else List.range 32

/-- A narrow step with finite factors whose A is all zeros is passed over. -/
def ECmd.skips (e : ECmd) (c : Nat) (bb : Block) (av : List FV) (bfin : Bool) : Bool :=
  e.op == 1 && bb.bf.isSome && bfin && (!Config.isX c || e.step % 4 == 0) && av.all FV.isZero

theorem State.mem_mmaOpen : (s.mmaOpen c e).mem = s.mem := by
  unfold State.mmaOpen
  split <;> rfl

theorem State.lutNow_mmaOpen (d : Nat) : (s.mmaOpen c e).lutNow d = s.lutNow d := by
  unfold State.mmaOpen
  split
  · unfold State.lutNow State.accZero
    by_cases h : c = d
    · subst h
      rw [State.core_modCore_same]
    · rw [State.core_modCore_other s _ h]
  · rfl

/-- The elements of a block come from memory and the table of its core. -/
theorem State.blockVals_congr {s t : State} {e : ECmd} (hm : t.mem = s.mem) (hl : t.lutNow e.core = s.lutNow e.core) (o : Opnd)
    (b : Block) : t.blockVals e o b = s.blockVals e o b := by
  have hscale : ∀ d a v k, t.bankScale d a v k = s.bankScale d a v k := by
    intro d a v k
    unfold State.bankScale
    rw [hm]
  unfold State.blockVals
  simp only [hm, hl, hscale]

/-- What a step leaves in the accumulators. -/
theorem State.acc_mmaApply :
    let u := (s.mmaRead c e ba bb).mmaOpen c e
    let av := u.blockVals e e.opA ba
    let bv := u.blockVals e e.opB bb
    SameAcc (if e.skips c bb av.1 bv.2 then u else u.accMulRows c (e.stepAcc c) av.1 bv.1 (e.stepRows c)) (s.mmaApply c key e ba bb) := by
  intro u av bv
  by_cases h : e.skips c bb av.1 bv.2 = true
  · rw [if_pos h]
    dsimp only [ECmd.skips, av, bv, u, State.mmaOpen, State.mmaRead] at h
    unfold State.mmaApply
    dsimp only
    rw [if_pos h]
    exact (SameAcc.matCount _ _ _ _ _).trans (.modHead _ _ _ _)
  · rw [if_neg h, State.accMulRows_eq]
    dsimp only [ECmd.skips, av, bv, u, State.mmaOpen, State.mmaRead] at h
    unfold State.mmaApply
    dsimp only
    rw [if_neg h]
    exact (SameAcc.matCount _ _ _ _ _).trans (.modHead _ _ _ _)

theorem ECmd.skips_iff {av : List FV} {bfin : Bool} : e.skips c bb av bfin = true ↔
    e.op = 1 ∧ bb.bf.isSome = true ∧ bfin = true ∧ (Config.isX c = true → e.step % 4 = 0) ∧ ∀ x ∈ av, x.isZero = true := by
  unfold ECmd.skips
  simp only [Bool.and_eq_true, beq_iff_eq, Bool.or_eq_true, Bool.not_eq_true', List.all_eq_true]
  cases Config.isX c <;> simp [and_assoc]

theorem ECmd.mem_stepRows {r : Nat} (h : r < 32) : r ∈ e.stepRows c ↔ ¬ (Config.isX c = true ∧ r / 8 ≠ e.step % 4) := by
  unfold ECmd.stepRows
  cases Config.isX c
  · simp [h]
  · simp only [if_true, List.mem_map, List.mem_range, true_and, ne_eq, not_not]
    exact ⟨fun ⟨i, hi, he⟩ => by omega, fun he => ⟨r % 8, by omega, by omega⟩⟩

theorem ECmd.nodup_stepRows : (e.stepRows c).Nodup := by
  unfold ECmd.stepRows
  split
  · exact List.nodup_range.map (by intro a b h; simpa using h)
  · exact List.nodup_range

/-- What a step's accumulator holds when it starts. -/
theorem State.accGet_mmaOpen {r k : Nat} (hr : r < 32) (hk : k < 32) (hn : 0 < e.geom.nt) (hm : 0 < e.geom.mt) :
    ((s.mmaRead c e ba bb).mmaOpen c e).accGet c (e.stepAcc c) r k =
      if e.step = 0 ∧ e.geom.zero = true then 0 else s.accGet c (e.stepAcc c) r k := by
  have hread : (s.mmaRead c e ba bb).accGet c (e.stepAcc c) r k = s.accGet c (e.stepAcc c) r k := by
    have h : SameAcc s (s.mmaRead c e ba bb) := .of_cores ((State.cores_engRead ..).trans (State.cores_engRead ..))
    unfold State.accGet
    rw [h]
  unfold State.mmaOpen
  split
  next h =>
    have hacc : e.stepAcc c = e.geom.acc := by simp [ECmd.stepAcc, ECmd.blockStep, h.1]
    have hin : (e.stepAcc c * 1024 + r * 32 + k) / 1024 ∈ (List.range (e.geom.mt * e.geom.nt)).map (e.geom.acc + ·) := by
      rw [show (e.stepAcc c * 1024 + r * 32 + k) / 1024 = e.geom.acc by omega]
      exact List.mem_map.mpr ⟨0, List.mem_range.mpr (Nat.mul_pos hm hn), rfl⟩
    exact (State.acc_accZero ..).trans (if_pos hin)
  · exact hread

/-- What a step leaves in its accumulator (R301). -/
theorem State.accGet_mmaApply {r k : Nat} (hr : r < 32) (hk : k < 32) (hn : 0 < e.geom.nt) (hm : 0 < e.geom.mt) :
    let old := if e.step = 0 ∧ e.geom.zero = true then 0 else s.accGet c (e.stepAcc c) r k
    let av := ((s.mmaRead c e ba bb).blockVals e e.opA ba).1
    let bv := (s.mmaRead c e ba bb).blockVals e e.opB bb
    (s.mmaApply c key e ba bb).accGet c (e.stepAcc c) r k =
      if e.skips c bb av bv.2 then old else if r ∈ e.stepRows c then
        dot32 old (((av.drop (32 * r)).take 32).zip ((bv.1.drop (32 * k)).take 32)) else old := by
  intro old av bv
  have hvals : ∀ o b, ((s.mmaRead c e ba bb).mmaOpen c e).blockVals e o b = (s.mmaRead c e ba bb).blockVals e o b :=
    fun o b => State.blockVals_congr (State.mem_mmaOpen _ c e) (State.lutNow_mmaOpen _ c e _) o b
  have happly := s.acc_mmaApply c key e ba bb
  simp only [hvals] at happly
  have hopen := s.accGet_mmaOpen c e ba bb hr hk hn hm
  have hget : (s.mmaApply c key e ba bb).accGet c (e.stepAcc c) r k = (if e.skips c bb av bv.2 then (s.mmaRead c e ba bb).mmaOpen c e
      else ((s.mmaRead c e ba bb).mmaOpen c e).accMulRows c (e.stepAcc c) av bv.1 (e.stepRows c)).accGet c (e.stepAcc c) r k := by
    unfold State.accGet
    rw [happly]
  rw [hget]
  split
  · exact hopen
  · rw [State.accGet_accMulRows _ av bv.1 (e.nodup_stepRows c) hk, hopen]

end Step

/-! Steps of the head of a queue. -/

section Head
variable {s : State} {c q : Nat} {e : ECmd} (hh : s.headCmd c q = some e) (hr : s.matReady c q e = true)
include hh hr

/-- An mma reads the formats of its operands when it starts. -/
theorem State.mmaStep_starts (hm : e.isMma = true) (hs : e.started = false) (ht : e.task = none) :
    s.mmaStep c q = s.modHead c q fun o => { o with
      started := true, aux := if o.isMma then .mma (s.bfList c o.sa.toNat) (s.bfList c o.sb.toNat) else .none } := by
  unfold State.mmaStep
  simp only [hh, hm, hr, hs, Bool.not_true, Bool.false_and, Bool.or_self, Bool.false_eq_true, if_false, Bool.not_false, if_true]
  unfold State.mmaStart
  simp only [ht, Option.isSome_none, Bool.false_and, Bool.false_eq_true, if_false]

/-- A step multiplies the blocks that it finds; the last one completes the command of a COP. -/
theorem State.mmaStep_applies {s2 s3 : State} {bfa bfb : List Word} {ba bb : Block} (hm : e.isMma = true) (hs : e.started = true)
    (hlt : e.step < e.mmaSteps) (ha : e.aux = .mma bfa bfb)
    (hfa : s.findBlock e e.opA bfa (e.blockStep c / e.geom.nt % e.geom.mt) (e.blockStep c / (e.geom.mt * e.geom.nt)) = (s2, .ok ba))
    (hfb : s2.findBlock e e.opB bfb (e.blockStep c % e.geom.nt) (e.blockStep c / (e.geom.mt * e.geom.nt)) = (s3, .ok bb))
    (hb : s3.badSec (ba.keys ++ ba.scl ++ bb.keys ++ bb.scl) = none) :
    s.mmaStep c q = match (s3.mmaApply c q e ba bb).headCmd c q with
      | some o => if o.mmaSteps ≤ o.step ∧ o.task = none then (s3.mmaApply c q e ba bb).complete c q else s3.mmaApply c q e ba bb
      | none => s3.mmaApply c q e ba bb := by
  unfold ECmd.blockStep at hfa hfb
  unfold State.mmaStep
  simp only [hh, hm, hr, hs, ha, hfa, hfb, hb, Nat.not_le.mpr hlt, decide_false, Bool.not_true, Bool.and_false, Bool.or_self,
    Bool.false_eq_true, if_false]
  cases (s3.mmaApply c q e ba bb).headCmd c q with
  | none => rfl
  | some o => simp [Bool.and_eq_true, decide_eq_true_eq]

/-- A mzero zeroes the next accumulator that it names. -/
theorem State.acc_mzeroStep {n : Nat} (hop : e.op = 0) (hn : e.accs[e.step]? = some n) (i : Nat) :
    mget ((s.mzeroStep c q).core c).acc i 0 = if i / 1024 = n then 0 else mget (s.core c).acc i 0 := by
  have hstart := SameAcc.modHead s c q fun o => { o with started := true }
  have hstep : SameAcc ((s.modHead c q fun o => { o with started := true }).accZero c [n]) (s.mzeroStep c q) := by
    unfold State.mzeroStep
    simp only [hh, hop, hr, hn, ne_eq, not_true, Bool.true_eq_false, or_self, if_false]
    split
    · exact ((SameAcc.matCount _ _ _ _ _).trans (.modHead _ _ _ _)).trans (.complete _ _ _)
    · exact (SameAcc.matCount _ _ _ _ _).trans (.modHead _ _ _ _)
  rw [hstep c, State.acc_accZero, hstart c]
  simp only [List.mem_singleton]

/-! Drains (R306, R307). -/

section Drain
variable {n : Nat} (hop : e.op = 8) (ht : e.task = none) (hb : e.bounced = false) (hn : e.accs[e.step]? = some n)
include hop ht hb hn

omit hh hr hop hb hn in
/-- A drain of a COP goes where its word names. -/
theorem ECmd.drainDest_cop : e.drainDest = e.sa.toNat := by
  simp [ECmd.drainDest, ht]

/-- Byte offset of the next accumulator in its destination. -/
def ECmd.drainOff (e : ECmd) : Nat := e.sa.toNat % 2 ^ 21 + e.step * tileBytes (e.st 7 / 2 ^ 8 % 8) (e.st 8)

/-- The position of its first byte. -/
def ECmd.drainPos (e : ECmd) : Word :=
  BitVec.ofNat 64 (if bit e.sa.toNat 54 then e.drainOff else e.sa.toNat / 2 ^ 21 % 2 ^ 32 * 2 ^ 21 + e.drainOff)

omit hh hr hop ht hb hn in
theorem ECmd.drainOff_bits : bits e.sa.toNat 20 0 + e.step * tileBytes (bits (e.st 7) 10 8) (e.st 8) = e.drainOff := by
  unfold ECmd.drainOff bits
  rw [Nat.pow_zero, Nat.div_one, show 20 - 0 + 1 = 21 from rfl, show 2 ^ (10 - 8 + 1) = 8 from rfl]

omit hh hr hop ht hb hn in
theorem ECmd.drainPos_bits : (if bit e.sa.toNat 54 then w64 e.drainOff else w64 (bits e.sa.toNat 52 21 * 2 ^ 21 + e.drainOff)) =
    e.drainPos := by
  unfold ECmd.drainPos bits w64
  split <;> rfl

/-- The command has started. -/
def State.drainOpen (s : State) (c q : Nat) : State := s.modHead c q fun o => { o with started := true }

omit hh hr hop ht hb hn in
/-- A drain's step leaves its command at the head, one step on. -/
theorem State.headCmd_drainStep (s : State) (c q : Nat) (e : ECmd) (t n ts : Nat) (note : BitVec 32) :
    (s.drainStep c q e t n ts note).headCmd c q =
      (s.headCmd c q).map fun o => { o with step := o.step + 1, ts := max o.ts ts, sent := false } := by
  have hzero : ∀ s : State, (if bit (e.st 7) 11 then s.accZero c [t] else s).queue c q = s.queue c q := by
    intro s
    split
    · exact State.queue_modCore (f := fun k => { k with acc := k.acc.filter fun x => !List.contains [t] (x.1 / 1024) }) (fun _ => rfl) ..
    · rfl
  have hcount : ∀ (s : State) (clk energy : Nat) (b : Bool), (s.matCount e clk energy b).queue c q = s.queue c q := by
    intro s clk energy b
    unfold State.matCount
    dsimp only
    split <;> simp
  refine (State.headCmd_modHead ..).trans (congrArg _ (State.headCmd_of_queue ?_))
  rw [hcount, State.queue_setEregCore, hzero]

omit hh hr hop hb hn ht in
/-- The end of a drain that no task made writes nothing. -/
theorem State.mem_drainEnd {o : ECmd} (h : o.task = none) : (s.drainEnd c q o).mem = s.mem := by
  unfold State.drainEnd
  split
  · rfl
  · rw [h]
    exact State.mem_engFinish (fun _ => rfl) (fun _ => State.mem_matWait ..) (fun _ => State.mem_complete ..)

/-- One step of a drain: to its own tile, or by a remote store. -/
theorem State.mdrainStep_step {t : State} {tile : List Byte × BitVec 32} (hopen : s.drainOpen c q = t)
    (htile : t.drainTile e n e.drainPos = tile) :
    (∀ s2 ks, bit e.sa.toNat 54 = true → t.spaceKeys e .own e.drainOff tile.1.length true true = (s2, .ok ks) →
      (s.mdrainStep c q).mem = memWrites s2.mem (ks.zip tile.1)) ∧
    (bit e.sa.toNat 54 = false →
      (2 ^ 21 ≤ e.drainOff → s.mdrainStep c q = t.matFault c q Cause.msgBounce.num (w64 e.drainOff)) ∧
      (e.drainOff < 2 ^ 21 →
        (t.outRoom e.core 4096 = false → s.mdrainStep c q = t.matWait e) ∧
        (∀ s2, t.outRoom e.core 4096 = true →
          t.engStore e q (w64 (e.sa.toNat / 2 ^ 21 * 2 ^ 21 + e.drainOff)) tile.1 = .ok s2 →
            s.mdrainStep c q = s2.drainStep c q e n tile.1.length 0 tile.2))) := by
  have hhead : t.headCmd c q = some { e with started := true } := by
    rw [← hopen, State.drainOpen, State.headCmd_modHead, hh]
    rfl
  -- the step is taken apart where it stands: reducing it would have the kernel evaluate a store's destination
  generalize hX : s.mdrainStep c q = X
  unfold State.mdrainStep at hX
  split at hX
  next h =>
    rw [hh] at h
    cases h
  next o ho =>
  obtain rfl : e = o := Option.some.inj (hh.symm.trans ho)
  extract_lets n0 s1 dest off pos at hX
  have hn0 : n0 = 0 := by simp only [n0, ht, Option.isSome_none, Bool.false_eq_true, if_false]
  have hs1 : s1 = t := hopen
  have hdest : dest = e.sa.toNat := ECmd.drainDest_cop ht
  have hoff : off = e.drainOff := by
    simp only [off, hn0, hdest, Nat.sub_zero, ECmd.drainOff_bits]
  have hpos : pos = e.drainPos := by
    rw [← ECmd.drainPos_bits]
    simp only [pos, hoff, hdest]
  rw [if_neg (by simp [hop, hr]), if_neg (by simp [hb]), hn0, hs1, hdest, hoff, hpos, Nat.sub_zero] at hX
  split at hX
  next h =>
    rw [hn] at h
    cases h
  next k hk =>
  obtain rfl : n = k := Option.some.inj (hn.symm.trans hk)
  split at hX
  next bs note htile' =>
  obtain rfl : tile = (bs, note) := htile.symm.trans htile'
  have hfar : bit e.sa.toNat 54 = false → ¬ bit e.sa.toNat 54 = true := fun h => by
    rw [h]
    exact Bool.false_ne_true
  refine ⟨fun s2 ks hl hs => ?here, fun hl => ⟨fun hlt => ?beyond, fun hlt => ⟨fun hroom => ?waits, fun s2 hroom hsend => ?sends⟩⟩⟩
  case here =>
    obtain ⟨rfl, hon⟩ := State.spaceKeys_own hs
    rw [if_pos hl] at hX
    split at hX
    next s3 ks' hs3 =>
      cases hs.symm.trans hs3
      split at hX
      next s4 ts hw =>
      have hmem : s4.mem = memWrites s2.mem (ks.zip bs) := by
        rw [← State.mem_engWrite_onChip s2 c e.pts (hon.zip bs), hw]
      extract_lets u at hX
      have hu : u = s4.drainStep c q e n bs.length ts note := rfl
      split at hX
      next o ho =>
        have hq : s4.headCmd c q = s2.headCmd c q := by
          rw [show s4 = (s2.engWrite c e.pts (ks.zip bs)).1 by rw [hw]]
          exact State.headCmd_of_queue (State.queue_engWrite ..)
        rw [hu, State.headCmd_drainStep, hq, hhead] at ho
        obtain rfl := Option.some.inj ho
        rw [← hX, ← hmem, ← State.mem_drainStep s4 c q e n bs.length ts note, ← hu]
        split
        · exact State.mem_drainEnd ht
        · rfl
      next => rw [← hX, hu, ← hmem, State.mem_drainStep]
    next hne hs3 =>
      cases hs.symm.trans hs3
      exact (hne _ rfl).elim
  case beyond =>
    rw [if_neg (hfar hl), if_pos hlt] at hX
    exact hX.symm
  case waits =>
    rw [if_neg (hfar hl), if_neg (Nat.not_le.mpr hlt), if_pos (by rw [hroom]; rfl)] at hX
    exact hX.symm
  case sends =>
    rw [if_neg (hfar hl), if_neg (Nat.not_le.mpr hlt), if_neg (by rw [hroom]; exact Bool.false_ne_true),
      Nat.mod_eq_of_lt hlt, hsend] at hX
    exact hX.symm

end Drain

end Head

/-! # Tile tasks (R310, R311) -/

section Tasks
variable {s : State} {cl i c : Nat}

/-- The scheduler takes its next doorbell once the poster's stores are performed. -/
theorem State.taskPost_cons {b : Bell} {rest : List Bell} (h : (s.sched cl).bells = b :: rest) :
    s.taskPost cl = if s.storesBefore b.core b.seat b.below then s else (s.modSched cl fun k => { k with
      bells := rest, posted := mset k.posted b.index (b.slot, b.core) }).taskDec cl b.index b.core := by
  unfold State.taskPost
  simp only [h]

theorem State.taskDec_bad {k : Nat} (h : s.taskBad cl i = some k) : s.taskDec cl i c = s.reportUE c k := by
  unfold State.taskDec
  simp only [h]

section Dec
variable (h : s.taskBad cl i = none)
include h

/-- A doorbell of a record that counts no more is a fault of its task. -/
theorem State.taskDec_zero (h0 : s.taskDword cl i 0 % 2 ^ 16 = 0) :
    s.taskDec cl i c = (s.taskState cl i c 4).taskReport c i 0 0 := by
  have hd : bits (s.taskDword cl i 0) 15 0 = 0 := by simpa [bits] using h0
  unfold State.taskDec
  simp only [h, hd, if_true]

/-- Any other counts down, and the last one makes a waiting task ready. -/
theorem State.taskDec_counts (h0 : s.taskDword cl i 0 % 2 ^ 16 ≠ 0) :
    let d := s.taskDword cl i 0
    let t := (s.engWrite c (s.core c).pts ((s.taskKeys cl i 0 8).zip (leBytes 8 (d - 1)))).1
    s.taskDec cl i c = if d % 2 ^ 16 = 1 ∧ d / 2 ^ 16 % 8 = 1 then t.modSched cl fun k => { k with ready := k.ready ++ [i] } else t := by
  intro d t
  have hd : bits (s.taskDword cl i 0) 15 0 = d % 2 ^ 16 := by simp [bits, d]
  have hst : bits (s.taskDword cl i 0) 18 16 = d / 2 ^ 16 % 8 := rfl
  unfold State.taskDec
  simp only [h, hd, hst]
  exact if_neg h0

end Dec

/-- The head of the ready list goes to the lowest tile that may take it. -/
theorem State.taskIssue_issues {rest : List Nat} {x : Nat} (hready : (s.sched cl).ready = i :: rest)
    (hon : bit (s.eregUnit cl 0 0x181).toNat 4 = true) (hbad : s.taskBad cl i = none) (hop : s.taskDword cl i 0 / 2 ^ 19 % 8 < 4)
    (hx : x < 16) :
    let ctl := (s.eregUnit cl 0 0x181).toNat
    let poster := (mget (s.sched cl).posted i (0, Config.tileOf cl 0)).2
    let accs := (s.taskCmd cl i poster).accs
    let may := fun y => let c := Config.tileOf cl y
      bit ctl (16 + y) && (s.queue c 3).isEmpty && !s.claimed c 3 accs && !((s.groupOf c).isSome && accs.any (6 ≤ ·))
    may x = true → (∀ y, y < x → may y = false) →
      let c := Config.tileOf cl x
      s.taskIssue cl = ((((s.modSched cl fun k => { k with ready := rest }).taskState cl i poster 2).modQueue c 3
        (· ++ [s.taskCmd cl i c])).modCore c fun k => { k with ids := k.ids + 1 }) := by
  intro ctl poster accs may hmay hlow c
  have hfind : (List.range 16).find? may = some x := by
    rw [List.find?_range_eq_some]
    exact ⟨hmay, List.mem_range.mpr hx, fun y hy => by simp [hlow y hy]⟩
  have hfit : ¬ 4 ≤ bits (s.taskDword cl i 0) 21 19 := Nat.not_le.mpr hop
  unfold State.taskIssue
  simp only [hready, hon, hbad, Bool.not_true, Bool.false_eq_true, if_false, if_neg hfit]
  split
  next h => exact absurd (h.symm.trans hfind) (by simp)
  next y h =>
    obtain rfl : y = x := Option.some.inj (h.symm.trans hfind)
    rfl

end Tasks

/-- Settles O50: the steps of the matrix engine by the step's kind, and those of the tasks by their scheduler's list. -/
theorem matrixEvents : Obligations.MatrixEvents := by
  unfold Obligations.MatrixEvents
  refine ⟨⟨?start, ?step, ?values, ?zero, ?drain, ?control⟩, ?post, ?bad, ?dec, ?issue⟩
  case start =>
    intro s c q e hh hm hs ht hr
    refine ⟨_, congrArg Host.Outcome.next (State.mmaStep_starts hh hr hm hs ht), rfl, ?_⟩
    rw [State.headCmd_modHead, hh]
    simp only [Option.map_some, hm, if_true]
  case step =>
    intro s s2 s3 c q e bfa bfb ba bb g st kk hh hm hs hr hlt ha hfa hfb hb t
    exact congrArg Host.Outcome.next (State.mmaStep_applies hh hr hm hs hlt ha hfa hfb hb)
  case values =>
    intro s c q e ba bb r k hr hk g st acc old s1 s2 av bv skip hn hm
    have h : (s.mmaApply c q e ba bb).accGet c acc r k = if e.skips c bb av bv.2 then old else if r ∈ e.stepRows c then
        dot32 old (((av.drop (32 * r)).take 32).zip ((bv.1.drop (32 * k)).take 32)) else old :=
      s.accGet_mmaApply c q e ba bb hr hk hn hm
    refine ⟨fun hskip => ?_, fun hskip => ?_⟩
    · rw [if_pos ((e.skips_iff c bb).mpr hskip)] at h
      exact h
    · rw [if_neg (fun hs => hskip ((e.skips_iff c bb).mp hs))] at h
      refine h.trans ?_
      by_cases hrow : Config.isX c = true ∧ r / 8 ≠ e.step % 4
      · rw [if_neg (fun hin => (e.mem_stepRows c hr).mp hin hrow), if_pos hrow]
      · rw [if_pos ((e.mem_stepRows c hr).mpr hrow), if_neg hrow]
  case zero =>
    intro s c q n e hh hop hr hn
    exact ⟨_, rfl, State.mem_mzeroStep .., State.acc_mzeroStep hh hr hop hn⟩
  case drain =>
    intro s c q n e hh hop ht hr hb hn w off s1 tile
    obtain ⟨hhere, hthere⟩ := State.mdrainStep_step hh hr hop ht hb hn rfl rfl
    refine ⟨fun s2 ks hl hs => ⟨_, rfl, hhere s2 ks hl hs⟩, fun hl => ?_⟩
    obtain ⟨hbeyond, hnear⟩ := hthere hl
    refine ⟨fun hlt => congrArg Host.Outcome.next (hbeyond hlt), fun hlt => ?_⟩
    obtain ⟨hwait, hsend⟩ := hnear hlt
    exact ⟨fun hroom => congrArg Host.Outcome.next (hwait hroom),
      fun s2 hroom hs => congrArg Host.Outcome.next (hsend s2 hroom hs)⟩
  case control =>
    intro s c q e hh hs
    exact ⟨⟨_, rfl, State.headCmd_engResume hh hs, State.mem_engResume ..⟩,
      congrArg Host.Outcome.next (State.engAbort_faulted hh hs), State.queue_complete ..⟩
  case post =>
    intro s cl b rest h
    have hpost := State.taskPost_cons h
    exact ⟨fun hb => congrArg Host.Outcome.next (hpost.trans (if_pos hb)),
      fun hb => congrArg Host.Outcome.next (hpost.trans (if_neg (by rw [hb]; exact Bool.false_ne_true)))⟩
  case bad => exact fun s cl i c k h => State.taskDec_bad h
  case dec => exact fun s cl i c h => ⟨State.taskDec_zero h, State.taskDec_counts h⟩
  case issue =>
    intro s cl i x rest ctl poster accs may hready hon hbad hop hx hmay hlow c
    exact congrArg Host.Outcome.next (State.taskIssue_issues hready hon hbad hop hx hmay hlow)

end Sys2Proof.Machine
